-- ==== Sys2Proof/Word.lean ====
section
/-! DEFINITION. The word types of the Damale OD9 (R2, R50, R144) and the sparse table used for numbered
like things of which few differ from their common value (clusters, accumulators, channel buffers). -/

namespace Sys2Proof

/-- A general register or a 64-bit special register (R144). -/
abbrev Word := BitVec 64

/-- A byte of memory (R2). -/
abbrev Byte := BitVec 8

/-- A 32-bit word: a scalar-network token, an accumulator, an FP32 code (R52, R192, R278). -/
abbrev W32 := BitVec 32

/-- Numbered things, listed where they differ from their common value. -/
abbrev Table (α : Type) := List (Nat × α)

end Sys2Proof
end

