-- ==== Sys2Proof/Config.lean ====
section
/-! DEFINITION. What the spec leaves to the module or leaves open: uninterpreted constants without a
body (log entries 6 to 9), so that no proof can use a value of theirs. -/

namespace Sys2Proof.Config

/-- R412: whether the RSA-3072 signature that an image's bytes carry verifies against a fused key digest (log entry 6). -/
opaque rsaVerifies : List Byte → List Byte → Bool

/-- R412: whether the SLH-DSA-SHA2-192s signature that an image's bytes carry verifies against a fused key digest (log
entry 6). -/
opaque slhVerifies : List Byte → List Byte → Bool

/-- R412: the security version of an image (log entry 6). -/
opaque imageVersion : List Byte → Nat

/-- R418: whether an image is one of the service firmware, rather than of the verified stage (log entry 6). -/
opaque imageOfService : List Byte → Bool

/-- R412, R420: byte i of the SHA-384 digest of an image: a free value of its bytes (log entry 7). -/
opaque sha384 : List Byte → Nat → Byte

/-- R420: the serial number's bytes: a free value of their position (log entry 7). -/
opaque attestIdentity : Nat → Byte

/-- R420: the SHA-384 digest of the partition table: a free value of the table and the position, since the spec gives the table
no bytes (log entry 7). -/
opaque tableDigest : List (Nat × Nat × Nat × Nat) → Nat → Byte

/-- R420: the two signatures of an attestation report: a free value of report and position
(log entry 7). -/
opaque attestSignature : List Byte → Nat → Byte

/-- A value the spec leaves open: the free value of a number given out once (log entry 8). -/
opaque freeWord : Nat → Word

/-- R396: the path a source chooses for the packets of one line towards a module, by the load it measures: a
free value of the module and the line, of which the low 18 choices count (log entry 9). -/
opaque yilsinPath : Nat → Nat → Nat

/-- R394: whether the device behind a Granary port returns a line poisoned: a free value of the line and of a number given out
once (log entry 109). -/
opaque granaryPoison : Nat → Nat → Bool

/-- R347: whether a read miss of the Granary brings its 4 KiB segment into the port's staging buffer: a free value of the
segment and of a number given out once (log entry 110). -/
opaque granaryStage : Nat → Nat → Bool

/-- What agents of other modules come to know of this module's writes by ways that this module does not see: from which
number given out on an agent (or one answer) knows a write that has been made known in the domain (log entry 93). -/
opaque farKnows : Nat → Nat → Nat

/-- R348: the set within its slice in which a line lies, of which the low 4,096 choices count: the spec gives no such map
(log entry 92). -/
opaque l2Set : Nat → Nat

/-- Which of the writes a read may return (R87) a read made within a larger event takes: how many of the newest it passes
over, a free value of a number given out once and of the place (log entry 22). -/
opaque pick : Nat → Nat → Nat

end Sys2Proof.Config
end

