-- ==== Sys2Proof/Syntax.lean ====
section
/-! DEFINITION. The instructions, engine commands and events of spec/opcode_table.json: one constructor
per row. A row with an instruction word carries its guard (R108) and its fields (R109); a row that is
an event of an agent (spec/95) carries the agent and what the event brings from outside. -/

namespace Sys2Proof

/-- A general register s0–s31 (R144). -/
abbrev Reg := Fin 32
/-- A predicate p0–p7 (R144). -/
abbrev PReg := Fin 8
/-- A class mask: bit 0 C, 1 F, 2 Y, 3 M, 4 N, 5 H (R82). -/
abbrev Mask := BitVec 6

/-- The guard of an instruction word: (pn), or (!pn) when `neg` (R108). -/
structure Guard where
  p : PReg
  neg : Bool
  deriving DecidableEq, Repr

/-- The scopes of R83. -/
inductive Scope where
  | cl | di | mo | do_ | sy
  deriving DecidableEq, Repr

/-- The three sequencers of a cluster (R147 SEQID). -/
inductive SeqId where
  | control | copy | matrix
  deriving DecidableEq, Repr

/-- The ring side of a copy command, RSIDE and HND of R262. -/
inductive RSide where
  | none
  | dst (h : Fin 16)
  | src (h : Fin 16)
  deriving DecidableEq, Repr

/-- The second-word options of a copy command (R262): EVEN with EVT, RSIDE with HND, ENDR. -/
structure CopyOpts where
  evt : Option (Fin 64)
  rside : RSide
  endr : Bool
  deriving DecidableEq, Repr

/-- The second-word options of MMP (R281): EVEN with EVT, G (planes 2^g), MODE (0 RELU, 1 MASK,
2 DECIDE), SCALED, RD (true MID). -/
structure MmpOpts where
  evt : Option (Fin 64)
  g : Fin 3
  mode : Fin 3
  scaled : Bool
  mid : Bool
  deriving DecidableEq, Repr

/-- The attributes of an inbound launch write that R390 checks. -/
structure InboundAttr where
  rootPort : Bool      -- the requester is the root port recorded at enumeration
  oneTlp : Bool        -- one TLP
  poisoned : Bool
  relaxed : Bool       -- Relaxed Ordering
  idOrdered : Bool     -- ID-Based Ordering
  requester : Nat
  deriving DecidableEq, Repr

/-- A Yilsin packet: its header flit and its data bytes (R397). -/
structure Flit where
  kind : Nat
  dmod : Nat
  smod : Nat
  scl : Nat
  cls : Nat
  scope : Nat
  op : Nat
  w64 : Bool
  tag : Nat
  addr : Nat
  path : Nat
  pmask : Nat
  epoch : Nat
  opnd : Nat
  ben : Nat
  cmpnd : Nat
  data : List Byte
  deriving DecidableEq, Repr

/-- Who reaches a register outside the clusters: the host through a function's BAR, another device through one, the host in a
function's configuration space, or the management firmware (R386, R388, R400). -/
inductive Writer where
  | host (fn bar : Nat)
  | peer (fn bar : Nat)
  | config (fn : Nat)
  | firmware
  deriving DecidableEq, Repr

/-- What the service firmware asks of the root monitor (R411). -/
inductive RootRequest where
  | almanac (cl : Nat) (entries : List Nat)
  | partitions (table : List (Nat × Nat × Nat × Nat))   -- first die, LOGSZ, module number, bit f for function f
  | domainMap (module_ : Nat) (valid : Bool) (position : Nat)
  deriving DecidableEq, Repr

/-- The instructions and events of spec/opcode_table.json. -/
inductive Instr where
  /-- ADD (R148): Writes s[a] + s[b] modulo 2^64 to s[d]. -/
  | add (g : Guard) (d a b : Reg)
  /-- SUB (R148): Writes s[a] − s[b] modulo 2^64 to s[d]. -/
  | sub (g : Guard) (d a b : Reg)
  /-- MUL (R148): Writes the low 64 bits of s[a] × s[b] to s[d]. -/
  | mul (g : Guard) (d a b : Reg)
  /-- MULH (R148): Writes the high 64 bits of the signed 128-bit product to s[d]. -/
  | mulh (g : Guard) (d a b : Reg)
  /-- MULHN (R148): Writes the high 64 bits of the unsigned 128-bit product to s[d]. -/
  | mulhn (g : Guard) (d a b : Reg)
  /-- DIV (R148): Signed division truncated towards zero, as a long operation, with fixed results for a zero divisor and for overflow. -/
  | div (g : Guard) (d a b : Reg)
  /-- DIVN (R148): Unsigned division, giving 0 for a zero divisor. -/
  | divn (g : Guard) (d a b : Reg)
  /-- REM (R148): Signed remainder, which takes the sign of the dividend. -/
  | rem (g : Guard) (d a b : Reg)
  /-- REMN (R148): Unsigned remainder. -/
  | remn (g : Guard) (d a b : Reg)
  /-- AND (R148): Writes the bitwise AND of s[a] and s[b] to s[d]. -/
  | and (g : Guard) (d a b : Reg)
  /-- OR (R148): Writes the bitwise OR of s[a] and s[b] to s[d]. -/
  | or (g : Guard) (d a b : Reg)
  /-- XOR (R148): Writes the bitwise XOR of s[a] and s[b] to s[d]. -/
  | xor (g : Guard) (d a b : Reg)
  /-- ANDN (R148): Writes s[a] AND NOT s[b] to s[d]. -/
  | andn (g : Guard) (d a b : Reg)
  /-- SHL (R148): Shifts s[a] left by s[b][5:0] and writes the result to s[d]. -/
  | shl (g : Guard) (d a b : Reg)
  /-- SHR (R148): Logical right shift by s[b][5:0]. -/
  | shr (g : Guard) (d a b : Reg)
  /-- SRA (R148): Arithmetic right shift by s[b][5:0]. -/
  | sra (g : Guard) (d a b : Reg)
  /-- MIN (R148): Writes the signed lesser of s[a] and s[b] to s[d]. -/
  | min (g : Guard) (d a b : Reg)
  /-- MAX (R148): Writes the signed greater of s[a] and s[b] to s[d]. -/
  | max (g : Guard) (d a b : Reg)
  /-- MINN (R148): Writes the unsigned lesser of s[a] and s[b] to s[d]. -/
  | minn (g : Guard) (d a b : Reg)
  /-- MAXN (R148): Writes the unsigned greater of s[a] and s[b] to s[d]. -/
  | maxn (g : Guard) (d a b : Reg)
  /-- CLZ (R148): Counts the leading zero bits of s[a]. -/
  | clz (g : Guard) (d a : Reg)
  /-- CTZ (R148): Counts the trailing zero bits of s[a]. -/
  | ctz (g : Guard) (d a : Reg)
  /-- POPC (R148): Counts the one bits of s[a]. -/
  | popc (g : Guard) (d a : Reg)
  /-- ADDI (R149): Adds a sign-extended 12-bit immediate to s[a]. -/
  | addi (g : Guard) (d a : Reg) (imm : BitVec 12)
  /-- ANDI (R149): ANDs s[a] with a zero-extended 12-bit immediate. -/
  | andi (g : Guard) (d a : Reg) (imm : BitVec 12)
  /-- ORI (R149): ORs s[a] with a zero-extended 12-bit immediate. -/
  | ori (g : Guard) (d a : Reg) (imm : BitVec 12)
  /-- XORI (R149): XORs s[a] with a zero-extended 12-bit immediate. -/
  | xori (g : Guard) (d a : Reg) (imm : BitVec 12)
  /-- SHLI (R149): Shifts s[a] left by an immediate amount. -/
  | shli (g : Guard) (d a : Reg) (n : Fin 64)
  /-- SHRI (R149): Logical right shift by an immediate amount. -/
  | shri (g : Guard) (d a : Reg) (n : Fin 64)
  /-- SRAI (R149): Arithmetic right shift by an immediate amount. -/
  | srai (g : Guard) (d a : Reg) (n : Fin 64)
  /-- BFX (R150): Extracts a zero-extended bitfield of s[a]. -/
  | bfx (g : Guard) (d a : Reg) (pos wm1 : Fin 64)
  /-- BFI (R150): Inserts the low bits of s[a] into a bitfield of s[d]. -/
  | bfi (g : Guard) (d a : Reg) (pos wm1 : Fin 64)
  /-- MOVI (R151): Loads a sign-extended 17-bit immediate into s[d]. -/
  | movi (g : Guard) (d : Reg) (imm : BitVec 17)
  /-- MOVS (R151): Shifts s[d] left by 16 and ORs in a 16-bit immediate. -/
  | movs (g : Guard) (d : Reg) (imm : BitVec 16)
  /-- ADDPC (R151): Writes pc + the sign-extended immediate × 4 to s[d]. -/
  | addpc (g : Guard) (d : Reg) (imm : BitVec 17)
  /-- CMP_EQ (R152): Sets pd to whether s[a] equals s[b]. -/
  | cmpEq (g : Guard) (pd : PReg) (a b : Reg)
  /-- CMP_NE (R152): Sets pd to whether s[a] differs from s[b]. -/
  | cmpNe (g : Guard) (pd : PReg) (a b : Reg)
  /-- CMP_LT (R152): Sets pd to a signed less-than comparison. -/
  | cmpLt (g : Guard) (pd : PReg) (a b : Reg)
  /-- CMP_GE (R152): Sets pd to a signed greater-or-equal comparison. -/
  | cmpGe (g : Guard) (pd : PReg) (a b : Reg)
  /-- CMP_LTN (R152): Sets pd to an unsigned less-than comparison. -/
  | cmpLtn (g : Guard) (pd : PReg) (a b : Reg)
  /-- CMP_GEN (R152): Sets pd to an unsigned greater-or-equal comparison. -/
  | cmpGen (g : Guard) (pd : PReg) (a b : Reg)
  /-- CMPI_EQ (R152): Compares s[a] for equality with a sign-extended immediate. -/
  | cmpiEq (g : Guard) (pd : PReg) (a : Reg) (imm : BitVec 12)
  /-- CMPI_NE (R152): Compares s[a] for inequality with a sign-extended immediate. -/
  | cmpiNe (g : Guard) (pd : PReg) (a : Reg) (imm : BitVec 12)
  /-- CMPI_LT (R152): Signed less-than comparison of s[a] with an immediate. -/
  | cmpiLt (g : Guard) (pd : PReg) (a : Reg) (imm : BitVec 12)
  /-- CMPI_GE (R152): Signed greater-or-equal comparison of s[a] with an immediate. -/
  | cmpiGe (g : Guard) (pd : PReg) (a : Reg) (imm : BitVec 12)
  /-- CMPI_LTN (R152): Unsigned less-than comparison with a zero-extended immediate. -/
  | cmpiLtn (g : Guard) (pd : PReg) (a : Reg) (imm : BitVec 12)
  /-- CMPI_GEN (R152): Unsigned greater-or-equal comparison with a zero-extended immediate. -/
  | cmpiGen (g : Guard) (pd : PReg) (a : Reg) (imm : BitVec 12)
  /-- PAND (R153): Sets pd to pa AND pb. -/
  | pand (g : Guard) (pd pa pb : PReg)
  /-- POR (R153): Sets pd to pa OR pb. -/
  | por (g : Guard) (pd pa pb : PReg)
  /-- PXOR (R153): Sets pd to pa XOR pb. -/
  | pxor (g : Guard) (pd pa pb : PReg)
  /-- PNOT (R153): Sets pd to NOT pa. -/
  | pnot (g : Guard) (pd pa : PReg)
  /-- PMOV (R153): Copies pa to pd. -/
  | pmov (g : Guard) (pd pa : PReg)
  /-- BR (R154): Branches to pc + off22 × 4. -/
  | br (g : Guard) (off : BitVec 22)
  /-- BRL (R154): Writes pc + 4 to s31 and then branches. -/
  | brl (g : Guard) (off : BitVec 22)
  /-- JR (R155): Jumps to s[a], and takes ALIGN if the target is misaligned. -/
  | jr (g : Guard) (a : Reg)
  /-- JRL (R155): Jumps to s[a] and writes the return address to s[d]. -/
  | jrl (g : Guard) (d a : Reg)
  /-- NOP (R155): Has no effect. -/
  | nop (g : Guard)
  /-- LOOP (R156): Decrements s[d] and branches while it is non-zero. -/
  | loop (g : Guard) (d : Reg) (imm : BitVec 17)
  /-- LD_B (R159): Issues a sign-extending byte load as a long operation. -/
  | ldB (g : Guard) (d a : Reg) (off : BitVec 9)
  /-- LD_H (R159): Issues a sign-extending halfword load. -/
  | ldH (g : Guard) (d a : Reg) (off : BitVec 9)
  /-- LD_W (R159): Issues a sign-extending word load. -/
  | ldW (g : Guard) (d a : Reg) (off : BitVec 9)
  /-- LD_BN (R159): Issues a zero-extending byte load. -/
  | ldBn (g : Guard) (d a : Reg) (off : BitVec 9)
  /-- LD_HN (R159): Issues a zero-extending halfword load. -/
  | ldHn (g : Guard) (d a : Reg) (off : BitVec 9)
  /-- LD_WN (R159): Issues a zero-extending word load. -/
  | ldWn (g : Guard) (d a : Reg) (off : BitVec 9)
  /-- LD_D (R159): Issues a doubleword load. -/
  | ldD (g : Guard) (d a : Reg) (off : BitVec 9)
  /-- ST_B (R159): Issues a byte store. -/
  | stB (g : Guard) (d a : Reg) (off : BitVec 9)
  /-- ST_H (R159): Issues a halfword store. -/
  | stH (g : Guard) (d a : Reg) (off : BitVec 9)
  /-- ST_W (R159): Issues a word store. -/
  | stW (g : Guard) (d a : Reg) (off : BitVec 9)
  /-- ST_D (R159): Issues a doubleword store. -/
  | stD (g : Guard) (d a : Reg) (off : BitVec 9)
  /-- LDP (R160): Loads a register pair, checked as a whole. -/
  | ldp (g : Guard) (dh : Fin 16) (a : Reg) (off : BitVec 9)
  /-- STP (R160): Stores a register pair, checked as a whole. -/
  | stp (g : Guard) (dh : Fin 16) (a : Reg) (off : BitVec 9)
  /-- PREF (R161): Announces a future read or write of a line, without being an access. -/
  | pref (g : Guard) (write : Bool) (a : Reg) (off : BitVec 9)
  /-- AMO_ADD_W (R173): 32-bit atomic add; returns the old value. -/
  | amoAddW (g : Guard) (d a b : Reg) (sc : Scope)
  /-- AMO_AND_W (R173): 32-bit atomic AND. -/
  | amoAndW (g : Guard) (d a b : Reg) (sc : Scope)
  /-- AMO_OR_W (R173): 32-bit atomic OR. -/
  | amoOrW (g : Guard) (d a b : Reg) (sc : Scope)
  /-- AMO_XOR_W (R173): 32-bit atomic XOR. -/
  | amoXorW (g : Guard) (d a b : Reg) (sc : Scope)
  /-- AMO_MIN_W (R173): 32-bit atomic signed minimum. -/
  | amoMinW (g : Guard) (d a b : Reg) (sc : Scope)
  /-- AMO_MAX_W (R173): 32-bit atomic signed maximum. -/
  | amoMaxW (g : Guard) (d a b : Reg) (sc : Scope)
  /-- AMO_MINN_W (R173): 32-bit atomic unsigned minimum. -/
  | amoMinnW (g : Guard) (d a b : Reg) (sc : Scope)
  /-- AMO_MAXN_W (R173): 32-bit atomic unsigned maximum. -/
  | amoMaxnW (g : Guard) (d a b : Reg) (sc : Scope)
  /-- AMO_SWAP_W (R173): 32-bit atomic swap. -/
  | amoSwapW (g : Guard) (d a b : Reg) (sc : Scope)
  /-- AMO_FADD_RX_W (R173): 32-bit atomic FP32 add that may combine. -/
  | amoFaddRxW (g : Guard) (d a b : Reg) (sc : Scope)
  /-- AMO_ADD_D (R173): 64-bit atomic add. -/
  | amoAddD (g : Guard) (d a b : Reg) (sc : Scope)
  /-- AMO_AND_D (R173): 64-bit atomic AND. -/
  | amoAndD (g : Guard) (d a b : Reg) (sc : Scope)
  /-- AMO_OR_D (R173): 64-bit atomic OR. -/
  | amoOrD (g : Guard) (d a b : Reg) (sc : Scope)
  /-- AMO_XOR_D (R173): 64-bit atomic XOR. -/
  | amoXorD (g : Guard) (d a b : Reg) (sc : Scope)
  /-- AMO_MIN_D (R173): 64-bit atomic signed minimum. -/
  | amoMinD (g : Guard) (d a b : Reg) (sc : Scope)
  /-- AMO_MAX_D (R173): 64-bit atomic signed maximum. -/
  | amoMaxD (g : Guard) (d a b : Reg) (sc : Scope)
  /-- AMO_MINN_D (R173): 64-bit atomic unsigned minimum. -/
  | amoMinnD (g : Guard) (d a b : Reg) (sc : Scope)
  /-- AMO_MAXN_D (R173): 64-bit atomic unsigned maximum. -/
  | amoMaxnD (g : Guard) (d a b : Reg) (sc : Scope)
  /-- AMO_SWAP_D (R173): 64-bit atomic swap. -/
  | amoSwapD (g : Guard) (d a b : Reg) (sc : Scope)
  /-- CAS_W (R173): 32-bit compare-and-swap, which never combines. -/
  | casW (g : Guard) (d a b : Reg) (sc : Scope)
  /-- CAS_D (R173): 64-bit compare-and-swap. -/
  | casD (g : Guard) (d a b : Reg) (sc : Scope)
  /-- FENCE_P (R177): Cross-path fence: a release for K1 and an acquire for K2 at one scope; a waiting instruction. -/
  | fenceP (g : Guard) (k1 k2 : Mask) (sc : Scope)
  /-- ACQ_LD (R178): A load that is then an acquire with the given mask and scope. -/
  | acqLd (g : Guard) (d a : Reg) (size : Fin 4) (sext : Bool) (mask : Mask) (sc : Scope) (off : BitVec 16)
  /-- REL_ST (R178): A release whose own store is sent once the release has performed. -/
  | relSt (g : Guard) (d a : Reg) (size : Fin 4) (mask : Mask) (sc : Scope) (off : BitVec 16)
  /-- SETE (R179): A release at CL scope that sets an event flag when it performs. -/
  | sete (g : Guard) (e : Fin 64) (mask : Mask)
  /-- CLRE (R179): Clears an event flag in its clk. -/
  | clre (g : Guard) (e : Fin 64)
  /-- WAITE (R179): Waits for an event flag, then acquires at CL scope. -/
  | waite (g : Guard) (e : Fin 64) (mask : Mask)
  /-- RING_DEF (R182): Reads a ring descriptor and defines a handle with P = INIT and C = 0. -/
  | ringDef (g : Guard) (a : Reg) (h : Fin 16)
  /-- RWAIT_F (R182): Waits for count full slots, then acquires. -/
  | rwaitF (g : Guard) (a : Reg) (h : Fin 16) (mask : Mask) (imm : BitVec 16)
  /-- RWAIT_E (R182): Waits for count free slots, then acquires. -/
  | rwaitE (g : Guard) (a : Reg) (h : Fin 16) (mask : Mask) (imm : BitVec 16)
  /-- RADV_P (R182): A release that advances the producer count when it has performed. -/
  | radvP (g : Guard) (a : Reg) (h : Fin 16) (mask : Mask) (imm : BitVec 16)
  /-- RADV_C (R182): A release that advances the consumer count when it has performed. -/
  | radvC (g : Guard) (a : Reg) (h : Fin 16) (mask : Mask) (imm : BitVec 16)
  /-- RSTAT (R183): Returns the status word of a ring handle. -/
  | rstat (g : Guard) (d : Reg) (h : Fin 16)
  /-- STEP_BEGIN (R42): Sets the current step's deadline when executed first by rank 0. -/
  | stepBegin (g : Guard) (a : Reg)
  /-- STEP_PROG (R43): Reports the task's progress fraction within the step. -/
  | stepProg (g : Guard) (a : Reg)
  /-- STEP_END (R41): Arrives at the current step and waits for its end. -/
  | stepEnd (g : Guard)
  /-- FORK (R32): Starts the copy and/or matrix sequencer at an entry address, as a release. -/
  | fork (g : Guard) (a : Reg) (mask : BitVec 4)
  /-- JOIN (R33): Waits until the named sequencers are idle, then acquires. -/
  | join (g : Guard) (mask : BitVec 4)
  /-- EXIT (R35): Ends the sequencer's program; on the control sequencer it waits for the task to retire. -/
  | exit (g : Guard)
  /-- EXIT_A (R36): Abandons the task: discards unissued commands and the records left in bins. -/
  | exitA (g : Guard)
  /-- RDV (R34): Waits at a rendezvous of the named sequencers. -/
  | rdv (g : Guard) (mask : BitVec 4) (id : BitVec 8)
  /-- SPAWN (R46): Reads a launch record and submits it as a child job. -/
  | spawn (g : Guard) (d a : Reg)
  /-- SPAWN_C (R46): Submits a continuation job that depends on the spawning job. -/
  | spawnC (g : Guard) (d a : Reg)
  /-- CFG_LOAD (R214): Begins loading a block image into a pinned slot, or refuses the load with a status. -/
  | cfgLoad (g : Guard) (d a b : Reg)
  /-- CFG_STAT (R216): Returns the state word of a slot. -/
  | cfgStat (g : Guard) (d a : Reg)
  /-- FAB_GO (R217): Starts a pinned READY slot, waiting while it loads. -/
  | fabGo (g : Guard) (a : Reg)
  /-- BIN_PUSH (R218): Reads a thread record and enqueues it into its bin. -/
  | binPush (g : Guard) (a : Reg)
  /-- BIN_CNT (R219): Returns the record count of a bin. -/
  | binCnt (g : Guard) (d a : Reg)
  /-- FAB_QUIET (R220): Makes a slot drain and waits until it is IDLE. -/
  | fabQuiet (g : Guard) (a : Reg)
  /-- COLL_RED (R187): Contributes to a reduction over a group of ranks and waits for the result. -/
  | collRed (g : Guard) (dh : Fin 16) (a b : Reg) (op : Fin 9) (w64 : Bool) (base size : Fin 512) (tag : BitVec 8)
  /-- COLL_BCAST (R187): Contributes to a broadcast from rank BASE and waits for the result. -/
  | collBcast (g : Guard) (dh : Fin 16) (a b : Reg) (w64 : Bool) (base size : Fin 512) (tag : BitVec 8)
  /-- TRAP (R165): Takes a TRAPI trap with its code at program level. -/
  | trap (g : Guard) (code : BitVec 16)
  /-- TRAP_TERMINATE (R355): TRAP #0 at PL 1 terminates the task. -/
  | trapTerminate (g : Guard)
  /-- TRAP_TERMINATE_GANG (R355): TRAP #1 at PL 1 terminates every task of the gang. -/
  | trapTerminateGang (g : Guard)
  /-- TRAP_PREEMPT (R355): TRAP #2 at PL 1 requests pre-emption of the gang at the handler's RETR. -/
  | trapPreempt (g : Guard)
  /-- SYSC (R165): Takes a SYSC trap to the supervisor. -/
  | sysc (g : Guard) (code : BitVec 16)
  /-- RETR (R167): Re-injects the replay entries and resumes at TRAPPC. -/
  | retr (g : Guard)
  /-- IDLE (R168): Stops issue until an event, ring advance, trap or step end. -/
  | idle (g : Guard)
  /-- BKPT (R166): Takes the BKPT trap, or halts when debug has armed halting. -/
  | bkpt (g : Guard)
  /-- TLBI_ALL (R346): Invalidates every translation of the partition and wakes held misses. -/
  | tlbiAll (g : Guard)
  /-- TLBI_ASID (R346): Invalidates the translations of one ASID. -/
  | tlbiAsid (g : Guard) (a : Reg)
  /-- TLBI_VA (R346): Invalidates one page in the SVASID space. -/
  | tlbiVa (g : Guard) (a : Reg)
  /-- TLBI_VA_ASID (R346): Invalidates one page in a named ASID. -/
  | tlbiVaAsid (g : Guard) (a : Reg)
  /-- CFLUSH (R163): Writes a modified line back to its backing store. -/
  | cflush (g : Guard) (a : Reg)
  /-- CINV (R164): Discards a line from L2 without writeback, acting as a write of the backing values. -/
  | cinv (g : Guard) (a : Reg)
  /-- MFS (R146): Moves a special register to s[d]. -/
  | mfs (g : Guard) (d : Reg) (r : BitVec 12)
  /-- MTS (R146): Moves s[a] into a special register that has no behaviour of its own. -/
  | mts (g : Guard) (a : Reg) (r : BitVec 12)
  /-- MTS_FLAGS (R75): Writes FLAGS for all three sequencers at once. -/
  | mtsFlags (g : Guard) (a : Reg)
  /-- MTS_REPLAYCNT (R147): Writing 0 discards every replay entry. -/
  | mtsReplaycnt (g : Guard) (a : Reg)
  /-- MTS_CTXINV (R311): Drops a cached context descriptor so that it is read afresh. -/
  | mtsCtxinv (g : Guard) (a : Reg)
  /-- MTS_WSCTL (R317): Sets the world mode and quantum, and rereads the world table. -/
  | mtsWsctl (g : Guard) (a : Reg)
  /-- MTS_WSCTL_SWREQ (R317): Ends the current world quantum now. -/
  | mtsWsctlSwreq (g : Guard) (a : Reg)
  /-- MTS_WTBL (R316): Sets the world table base and rereads the table. -/
  | mtsWtbl (g : Guard) (a : Reg)
  /-- CPY (R264): Places a converting copy between two pattern records. -/
  | cpy (g : Guard) (d a b : Reg) (o : CopyOpts)
  /-- CPY_F (R265): Places a copy that fires an arm slot at completion. -/
  | cpyF (g : Guard) (d a b : Reg) (o : CopyOpts) (arm : Fin 4)
  /-- CPY_R (R268): Places an element-wise combine of source into destination. -/
  | cpyR (g : Guard) (a b : Reg) (o : CopyOpts) (rop : Fin 3)
  /-- CPY_G (R267): Places a row gather by an index record. -/
  | cpyG (g : Guard) (d a b : Reg) (o : CopyOpts)
  /-- CPY_S (R267): Places a row scatter by an index record. -/
  | cpyS (g : Guard) (d a b : Reg) (o : CopyOpts)
  /-- CPY_MX (R269): Places an MX encoding of FP32 or BF16 elements. -/
  | cpyMx (g : Guard) (d a b : Reg) (o : CopyOpts)
  /-- CPY_PL (R270): Places a plane-major write of a PI tensor from INT8. -/
  | cpyPl (g : Guard) (a b : Reg) (o : CopyOpts)
  /-- CPY_FILL (R271): Places a fill of the destination with a value. -/
  | cpyFill (g : Guard) (a b : Reg) (o : CopyOpts)
  /-- CPY_WAIT (R273): Waits until at most count copy commands are incomplete. -/
  | cpyWait (g : Guard) (a : Reg) (imm : BitVec 16)
  /-- MXC_SHAPE (R282): Places a command that sets M, N and K. -/
  | mxcShape (g : Guard) (d a b : Reg)
  /-- MXC_OPA (R283): Places a descriptor of operand A. -/
  | mxcOpa (g : Guard) (d a b : Reg) (ty : BitVec 8) (ring : Option (Fin 16))
  /-- MXC_OPB (R283): Places a descriptor of operand B. -/
  | mxcOpb (g : Guard) (d a b : Reg) (ty : BitVec 8) (ring : Option (Fin 16))
  /-- MXC_ARM (R288): Places a command that parks a compute command in an arm slot. -/
  | mxcArm (g : Guard) (a b : Reg) (slot : Fin 4) (opc : Fin 3) (o : MmpOpts)
  /-- MMA (R285): Places a dense product accumulated into the accumulators. -/
  | mma (g : Guard) (evt : Option (Fin 64))
  /-- MMZ (R285): Places a dense product that zeroes the accumulators first. -/
  | mmz (g : Guard) (evt : Option (Fin 64))
  /-- MMP (R286): Places a plane-mode product with early decisions. -/
  | mmp (g : Guard) (a b : Reg) (o : MmpOpts)
  /-- MXC_DRAIN (R289): Places a drain of the accumulators to memory. -/
  | mxcDrain (g : Guard) (a b : Reg) (ty : BitVec 8) (acci ef satf : Bool) (evt : Option (Fin 64))
  /-- MXC_DRAIN_D (R290): Places a drain of the accumulators into a fabric FIFO as digits. -/
  | mxcDrainD (g : Guard) (a : Reg) (ndm1 : Fin 16) (acci : Bool) (evt : Option (Fin 64))
  /-- LONG_OP_COMPLETE (R145): An outstanding long operation returns its value or performs. -/
  | longOpComplete (cl : Nat) (q : SeqId) (k : Nat)
  /-- RELEASE_PERFORMED (R91): A pending release performs once its covered writes have performed and its markers are acknowledged. -/
  | releasePerformed (cl : Nat) (q : SeqId) (k : Nat)
  /-- TRAP_DELIVERY (R351): A pending cause is delivered at an instruction boundary and the frame is written. -/
  | trapDelivery (cl : Nat) (q : SeqId)
  /-- MACHINE_CHECK (R359): An uncorrectable ECC or residue error raises MCHK. -/
  | machineCheck (cl : Nat) (residue : Bool)
  /-- SUPERSTEP_END (R41): All tasks have arrived and the step's writes have performed; the next step begins. -/
  | superstepEnd (job gi : Nat)
  /-- DLRISK_POST (R44): A DLRISK not taken within 10 µs is posted to the status page. -/
  | dlriskPost (job gi : Nat)
  /-- TASK_RETIRE (R35): A tile task retires once its engines, bins and regions are done, and its status is written. -/
  | taskRetire (cl : Nat)
  /-- JOB_COMPLETE (R334): The job's release performs, then its completion record and status page are written. -/
  | jobComplete (job : Nat)
  /-- BIN_ENQUEUE (R10): Validates a thread record and writes it to its bin. -/
  | binEnqueue (cl src : Nat)
  /-- BINDEADLOCK (R24): After 65,536 clk blocked on full spill areas, the task is terminated. -/
  | bindeadlock (cl : Nat)
  /-- BIN_DISPATCH (R13): A bin dispatches a full group to its region through BDEQ. -/
  | binDispatch (cl slot : Nat)
  /-- PARTIAL_DISPATCH (R13): The partial-dispatch delay expires and the bin dispatches a partial group. -/
  | partialDispatch (cl slot : Nat)
  /-- BIN_AGED (R26): A bin's age reaches 4,096 clk and it becomes aged. -/
  | binAged (cl blk : Nat)
  /-- SCHEDULER_CHOOSE (R26): The block scheduler chooses a candidate block for a free scheduler slot. -/
  | schedulerChoose (cl : Nat)
  /-- CONFIG_FRAME_WRITE (R18): The configuration bus writes one frame into a LOADING slot. -/
  | configFrameWrite (cl : Nat)
  /-- SLOT_START (R27): A loaded scheduler slot starts in the clk after its last frame, or one clk after an IDLE reuse. -/
  | slotStart (cl slot : Nat)
  /-- REGION_DRAINED (R19): The quiescence tree reports the region drained and the slot goes IDLE. -/
  | regionDrained (cl slot : Nat)
  /-- PINNED_REGION_END (R422): A pinned region ends its work and goes IDLE. -/
  | pinnedRegionEnd (cl slot : Nat)
  /-- SLOT_SWITCH (R16): A stalled element switches to another ready slot. -/
  | slotSwitch (cl slot pos n : Nat)
  /-- ELEMENT_FIRE (R193): A digit element consumes input beats and emits an output beat against demand. -/
  | elementFire (cl slot pos n : Nat)
  /-- KILL_ARRIVAL (R194): A KILL on the reverse path discards the value's beats or stops its producer. -/
  | killArrival (cl k : Nat)
  /-- LEG_ROUTE (R225): A ROUTE leg passes a value to its destination. -/
  | legRoute (cl slot net pos leg : Nat)
  /-- LEG_BCAST (R225): A BCAST leg delivers a value to several ports. -/
  | legBcast (cl slot net pos leg : Nat)
  /-- LEG_IDX (R226): An IDX leg routes a value by an index token. -/
  | legIdx (cl slot net pos leg : Nat)
  /-- LEG_MERGE (R227): A MERGE leg passes whole values from two sources. -/
  | legMerge (cl slot net pos leg : Nat)
  /-- LEG_STEER (R225): A STEER leg routes a value by a predicate token. -/
  | legSteer (cl slot net pos leg : Nat)
  /-- LEG_HOLD (R228): A HOLD leg delivers each value PAR + 1 times. -/
  | legHold (cl slot net pos leg : Nat)
  /-- PORT_WRD (R239): A port reads a word against demand and emits it on SX. -/
  | portWrd (cl slot tile : Nat)
  /-- PORT_WWR (R239): A port writes a word at the next index. -/
  | portWwr (cl slot tile : Nat)
  /-- PORT_DRD (R236): A port issues a group read when the HEAD is requested. -/
  | portDrd (cl slot tile : Nat)
  /-- PORT_READ_RETURN (R237): Read data returns and is converted to digits or emitted. -/
  | portReadReturn (cl slot tile : Nat)
  /-- PORT_DWR (R238): A port assembles and rounds a digit value and writes the group. -/
  | portDwr (cl slot tile : Nat)
  /-- PORT_AMO (R240): A port performs an atomic and emits the old value. -/
  | portAmo (cl slot tile : Nat)
  /-- PORT_RED (R240): A port performs a reduction with no return. -/
  | portRed (cl slot tile : Nat)
  /-- PORT_EXP2 (R242): A port computes the base-2 exponential of a word. -/
  | portExp2 (cl slot tile : Nat)
  /-- PORT_LOG2 (R242): A port computes the base-2 logarithm of a word. -/
  | portLog2 (cl slot tile : Nat)
  /-- PORT_RCP (R242): A port computes the reciprocal of a word. -/
  | portRcp (cl slot tile : Nat)
  /-- PORT_RSQRT (R242): A port computes the reciprocal square root of a word. -/
  | portRsqrt (cl slot tile : Nat)
  /-- PORT_TANH (R242): A port computes the hyperbolic tangent of a word. -/
  | portTanh (cl slot tile : Nat)
  /-- PORT_CVD (R237): A port converts words and a lane mask into a digit value. -/
  | portCvd (cl slot tile : Nat)
  /-- PORT_CVW (R238): A port converts a digit value into a lane mask and words. -/
  | portCvw (cl slot tile : Nat)
  /-- PORT_BENQ (R244): A port assembles records from words and enqueues them to bins. -/
  | portBenq (cl slot tile : Nat)
  /-- PORT_MOVE (R249): A port moves bytes within its buffer and emits the count. -/
  | portMove (cl slot tile : Nat)
  /-- PORT_FIFOV (R246): A FIFO port passes vector beats in order. -/
  | portFifov (cl slot tile : Nat)
  /-- PORT_FIFOS (R246): A FIFO port passes scalar tokens in order. -/
  | portFifos (cl slot tile : Nat)
  /-- PORT_LBUF (R246): A line buffer delays tokens by W words. -/
  | portLbuf (cl slot tile : Nat)
  /-- PORT_EOS (R248): A port consumes EOS on its governing input and ends its operation or buffer. -/
  | portEos (cl slot tile : Nat)
  /-- RING_GENERATOR_SLOT (R253): A RING generator obtains a full or free slot and acquires it. -/
  | ringGeneratorSlot (cl slot tile gen : Nat)
  /-- RING_GENERATOR_ADVANCE (R253): A RING generator advances its counter after the slot's accesses. -/
  | ringGeneratorAdvance (cl slot tile gen : Nat)
  /-- ARRAY_PORT_SERVE (R241): A tile's array port serves one requester's entry by rotating pointer. -/
  | arrayPortServe (cl tile : Nat)
  /-- COPY_COMMAND_BEGIN (R274): The copy engine begins the next queued command. -/
  | copyCommandBegin (cl : Nat)
  /-- COPY_RING_CLAIM (R266): A copy's claim of ring slots is granted. -/
  | copyRingClaim (cl k : Nat)
  /-- COPY_COMMAND_COMPLETE (R275): A copy completes and runs its ring advance, end mark, event set and fire. -/
  | copyCommandComplete (cl k : Nat)
  /-- COPY_ACCESS_FAILURE (R277): A failed copy access stops the command and it completes restricted with ENGFAULT. -/
  | copyAccessFailure (cl k : Nat)
  /-- MATRIX_NEXT_COMMAND (R278): The matrix array takes its next command from an armed slot or its queue. -/
  | matrixNextCommand (cl : Nat)
  /-- ARM_SLOT_STORE (R288): MXC.ARM stores its command in a slot once the slot is empty. -/
  | armSlotStore (cl : Nat)
  /-- MATRIX_RING_SLOT (R283): A compute command obtains a full operand slot. -/
  | matrixRingSlot (cl : Nat)
  /-- MMP_EVALUATION (R286): After fetched planes arrive, the decision unit bounds and settles outputs. -/
  | mmpEvaluation (cl : Nat)
  /-- MATRIX_COMMAND_COMPLETE (R285): A matrix command completes, advances its rings and sets its event. -/
  | matrixCommandComplete (cl : Nat)
  /-- MATRIX_ACCESS_FAILURE (R291): A failed matrix access stops the command with ENGFAULT. -/
  | matrixAccessFailure (cl : Nat)
  /-- HOME_ACCESS (R90): A home L2 slice serves an access in the serialisation order. -/
  | homeAccess (id choice : Nat)
  /-- L2_FILL (R348): Miss data returns and fills a line, evicting a victim. -/
  | l2Fill (line set cls : Nat)
  /-- COMBINE_REQUEST (R101): A request reaches a switch output queue and combines with a waiting one. -/
  | combineRequest (first second : Nat)
  /-- SHEAF_RETURN (R102): The old value returns to a switch and is split between a and b. -/
  | sheafReturn (id : Nat)
  /-- PAGE_WALK_START (R341): A walker begins a walk for a TLB miss. -/
  | pageWalkStart (cl k : Nat)
  /-- PAGE_WALK_COMPLETE (R337): A walk ends, installing a leaf or reporting a miss. -/
  | pageWalkComplete (cl k : Nat)
  /-- SCHEDULER_CYCLE (R328): The gang scheduler reads entries, checks readiness, chooses a candidate and admits it if it fits. -/
  | schedulerCycle (part : Nat)
  /-- GANG_LEVEL_RAISE (R326): Each full millisecond of waiting raises a candidate's level. -/
  | gangLevelRaise (job gi : Nat)
  /-- GANG_START (R331): An admitted gang reads its arguments, pushes its initial threads and starts its tasks. -/
  | gangStart (job gi : Nat)
  /-- WATCHDOG_EXPIRY (R406): A region's watchdog count reaches WDLIM and writes a WDOG record. -/
  | watchdogExpiry (cl slot : Nat)
  /-- COUNTER_FORWARD (R409): Clusters forward their event counts to the context counters. -/
  | counterForward (cl : Nat)
  /-- GOVERNOR_EVALUATION (R378): At each control interval's end the governor chooses a target point. -/
  | governorEvaluation (cl : Nat)
  /-- RAIL_SLEW_DONE (R372): The rail reaches its target and the clock switches. -/
  | railSlewDone (cl : Nat)
  /-- LAUNCH_WRITE (R390): An inbound write into a launch window is checked and accepted or rejected. -/
  | launchWrite (fn off : Nat) (bytes : List Byte) (at_ : InboundAttr)
  /-- QUANTUM_EXPIRY (R319): A world quantum expires and a switch to the next ready world begins. -/
  | quantumExpiry (part : Nat)
  /-- ENGINE_PREEMPT_STOP (R362): An engine stops at its unit and acknowledges to the Gleaner. -/
  | enginePreemptStop (cl engine : Nat)
  /-- PREEMPT_SAVE (R363): With every acknowledgement held, the Gleaner saves the context record. -/
  | preemptSave (cl : Nat)
  /-- PREEMPT_SAVE_DONE (R363): The header is written SAVED and the cluster is free. -/
  | preemptSaveDone (cl : Nat)
  /-- PREEMPT_LIMIT_EXPIRY (R364): The pre-emption limit expires and the gang is terminated. -/
  | preemptLimitExpiry (job gi : Nat)
  /-- WORLD_SWITCH_COMPLETE (R319): The outgoing world is saved; the RCT is swapped and the incoming world admitted. -/
  | worldSwitchComplete (part : Nat)
  /-- GANG_RESUME (R369): A restored gang resumes on its clusters in one clk. -/
  | gangResume (job gi : Nat)
  /-- CURRENT_REPORT (R373): Each 500 ns a regulator reports its rail current. -/
  | currentReport (cl code : Nat)
  /-- CANARY_TRIP (R383): A timing canary trips; m becomes 0 and the rail rises to VQ. -/
  | canaryTrip (cl : Nat)
  /-- CORRECTABLE_ERROR (R383): A correctable ECC or residue error is counted for the interval. -/
  | correctableError (cl : Nat)
  /-- AGEING_READ (R385): Every 1 ms the ring oscillators are read for drift. -/
  | ageingRead (cl driftPpm : Nat)
  /-- REPLAN (R385): A cluster free of tasks is qualified and its Almanac re-planned. -/
  | replan (cl : Nat) (almanac : List Nat)
  /-- INBOUND_WRITE (R392): An inbound BAR 4 write is translated and performed. -/
  | inboundWrite (fn : Nat) (pasid : Option Nat) (off : Nat) (bytes : List Byte) (requester : Nat)
  /-- INBOUND_READ (R392): An inbound BAR 4 read is translated and completed. -/
  | inboundRead (fn : Nat) (pasid : Option Nat) (off len : Nat) (requester : Nat)
  /-- ZERO_LENGTH_READ (R391): Completes after every earlier posted write of the requester has performed. -/
  | zeroLengthRead (requester : Nat)
  /-- ATS_INVALIDATE (R393): Removes translation-cache entries and completes when their accesses are sent. -/
  | atsInvalidate (fn page : Nat)
  /-- HOST_READ_TIMEOUT (R393): A host-window read without completion for 50 ms fails with BADPA. -/
  | hostReadTimeout (id : Nat)
  /-- YILSIN_RD (R397): A read request packet arrives. -/
  | yilsinRd (f : Flit)
  /-- YILSIN_WR (R397): A write request packet arrives. -/
  | yilsinWr (f : Flit)
  /-- YILSIN_AMO (R397): An atomic request packet arrives. -/
  | yilsinAmo (f : Flit)
  /-- YILSIN_CAS (R397): A compare-and-swap packet arrives. -/
  | yilsinCas (f : Flit)
  /-- YILSIN_RDRSP (R397): A read response arrives. -/
  | yilsinRdrsp (f : Flit)
  /-- YILSIN_WRACK (R397): A write acknowledgement arrives. -/
  | yilsinWrack (f : Flit)
  /-- YILSIN_AMORSP (R397): An atomic response with the old value arrives. -/
  | yilsinAmorsp (f : Flit)
  /-- YILSIN_FLUSH (R398): A flush marker arrives and is gathered. -/
  | yilsinFlush (f : Flit)
  /-- YILSIN_FLUSHACK (R398): A flush acknowledgement arrives at the releasing cluster. -/
  | yilsinFlushack (f : Flit)
  /-- LINK_RETRAIN_TIMEOUT (R397): A port fails to retrain within 1 ms and its accesses fail. -/
  | linkRetrainTimeout (port : Nat)
  /-- DHALT_HALT (R401): Halts the named slots and sequencers of an armed cluster. -/
  | dhaltHalt (value : Word)
  /-- DHALT_RESUME (R402): Clears halts and pending halts. -/
  | dhaltResume (value : Word)
  /-- ENLO_READ (R386): A read of ENLO latches the accumulator's high half for the requester. -/
  | enloRead (cl requester : Nat)
  /-- REGISTER_WRITE (R5): A write to a register that has no row of its own. -/
  | registerWrite (off : Nat) (value : Word) (w : Writer)
  /-- IMGGO (R418): In recovery, loads and verifies a signed image, then starts cold. -/
  | imggo (value : Word)
  /-- MODULE_START (R413): A cold or warm start runs its steps to READY. -/
  | moduleStart (warm : Bool) (training : Bool) (failStep : Option Nat) (bad : List Nat)
  /-- START_WATCHDOG_EXPIRY (R415): A start not at READY within 30 s fails. -/
  | startWatchdogExpiry
  /-- ROOT_MONITOR_REQUEST (R411): The root monitor checks and applies a service-firmware request. -/
  | rootMonitorRequest (r : RootRequest)
  /-- ATTESTATION_REQUEST (R420): The root monitor builds and signs an attestation report. -/
  | attestationRequest (nonce : List Byte)
  /-- CLUSTER_WITHDRAW (R417): A failing cluster is withdrawn once it holds no task. -/
  | clusterWithdraw (cl : Nat)
  /-- HOST_LINK_DOWN (R79): The PCI Express host link goes down, after which host-window accesses of the module fail with BADPA. -/
  | hostLinkDown
  /-- GRANARY_LINK_FAILURE (R394): A Granary CXL port's link fails, so its addresses become unbacked and give BADPA. -/
  | granaryLinkFailure (port : Nat)
  /-- YILSIN_PORT_RETURN (R397): A failed Yilsin port retrains and returns, and its paths are used again. -/
  | yilsinPortReturn (port : Nat)
  /-- DISCARDED_FLIT (R397): A flit with a KIND of 9–15 or a PATH above 17 arrives, is discarded and is counted as a link error. -/
  | discardedFlit (f : Flit)
  /-- UNSUPPORTED_REQUEST (R388): An inbound request outside the supported capabilities, such as an AtomicOp, is answered with Unsupported Request. -/
  | unsupportedRequest (requester : Nat)
  /-- ATS_TRANSLATION_COMPLETION (R393): The host's answer to an ATS Translation Request arrives, and the held host-window access is issued as translated. -/
  | atsTranslationCompletion (id : Nat)
  deriving DecidableEq, Repr

end Sys2Proof
end

