-- ==== Sys2Proof/WellFormed.lean ====
section
/-! DEFINITION. Which instructions have an instruction word (R107 to R123): the guard is not (!p0) (R108)
and no field holds a value that R110 to R123, R262 or R281 calls illegal. -/

namespace Sys2Proof

/-- R108: guard p0 with sense 1 is an illegal encoding. -/
def Guard.ok (g : Guard) : Bool := !(g.p == 0 && g.neg)

/-- R122, R308: the assigned special-register numbers. -/
def sregAssigned (r : Nat) : Bool :=
  r ≤ 4 || (8 ≤ r && r ≤ 11) || r == 0x10 || (0x400 ≤ r && r ≤ 0x405) || (0x408 ≤ r && r ≤ 0x40A)
    || (0x410 ≤ r && r ≤ 0x41C)

/-- R122, R138: the registers MTS names by the row MTS, which have no row of their own: TRAPPC and the
supervisor registers but WSCTL, WTBL and CTXINV. -/
def sregPlainWritable (r : Nat) : Bool :=
  r == 8 || (0x400 ≤ r && r ≤ 0x405) || (0x408 ≤ r && r ≤ 0x40A) || (0x410 ≤ r && r ≤ 0x418) || r == 0x41B

/-- R262: RSIDE and ENDR legal for a command that may use a destination ring or a source ring. -/
def CopyOpts.ok (o : CopyOpts) (dst src : Bool) : Bool :=
  match o.rside with
  | .none => !o.endr
  | .dst _ => dst
  | .src _ => src && !o.endr

/-- The guard of an instruction word; an event has none. -/
def Instr.guard : Instr → Option Guard
  | .add g _ _ _ => some g
  | .sub g _ _ _ => some g
  | .mul g _ _ _ => some g
  | .mulh g _ _ _ => some g
  | .mulhn g _ _ _ => some g
  | .div g _ _ _ => some g
  | .divn g _ _ _ => some g
  | .rem g _ _ _ => some g
  | .remn g _ _ _ => some g
  | .and g _ _ _ => some g
  | .or g _ _ _ => some g
  | .xor g _ _ _ => some g
  | .andn g _ _ _ => some g
  | .shl g _ _ _ => some g
  | .shr g _ _ _ => some g
  | .sra g _ _ _ => some g
  | .min g _ _ _ => some g
  | .max g _ _ _ => some g
  | .minn g _ _ _ => some g
  | .maxn g _ _ _ => some g
  | .clz g _ _ => some g
  | .ctz g _ _ => some g
  | .popc g _ _ => some g
  | .addi g _ _ _ => some g
  | .andi g _ _ _ => some g
  | .ori g _ _ _ => some g
  | .xori g _ _ _ => some g
  | .shli g _ _ _ => some g
  | .shri g _ _ _ => some g
  | .srai g _ _ _ => some g
  | .bfx g _ _ _ _ => some g
  | .bfi g _ _ _ _ => some g
  | .movi g _ _ => some g
  | .movs g _ _ => some g
  | .addpc g _ _ => some g
  | .cmpEq g _ _ _ => some g
  | .cmpNe g _ _ _ => some g
  | .cmpLt g _ _ _ => some g
  | .cmpGe g _ _ _ => some g
  | .cmpLtn g _ _ _ => some g
  | .cmpGen g _ _ _ => some g
  | .cmpiEq g _ _ _ => some g
  | .cmpiNe g _ _ _ => some g
  | .cmpiLt g _ _ _ => some g
  | .cmpiGe g _ _ _ => some g
  | .cmpiLtn g _ _ _ => some g
  | .cmpiGen g _ _ _ => some g
  | .pand g _ _ _ => some g
  | .por g _ _ _ => some g
  | .pxor g _ _ _ => some g
  | .pnot g _ _ => some g
  | .pmov g _ _ => some g
  | .br g _ => some g
  | .brl g _ => some g
  | .jr g _ => some g
  | .jrl g _ _ => some g
  | .nop g => some g
  | .loop g _ _ => some g
  | .ldB g _ _ _ => some g
  | .ldH g _ _ _ => some g
  | .ldW g _ _ _ => some g
  | .ldBn g _ _ _ => some g
  | .ldHn g _ _ _ => some g
  | .ldWn g _ _ _ => some g
  | .ldD g _ _ _ => some g
  | .stB g _ _ _ => some g
  | .stH g _ _ _ => some g
  | .stW g _ _ _ => some g
  | .stD g _ _ _ => some g
  | .ldp g _ _ _ => some g
  | .stp g _ _ _ => some g
  | .pref g _ _ _ => some g
  | .amoAddW g _ _ _ _ => some g
  | .amoAndW g _ _ _ _ => some g
  | .amoOrW g _ _ _ _ => some g
  | .amoXorW g _ _ _ _ => some g
  | .amoMinW g _ _ _ _ => some g
  | .amoMaxW g _ _ _ _ => some g
  | .amoMinnW g _ _ _ _ => some g
  | .amoMaxnW g _ _ _ _ => some g
  | .amoSwapW g _ _ _ _ => some g
  | .amoFaddRxW g _ _ _ _ => some g
  | .amoAddD g _ _ _ _ => some g
  | .amoAndD g _ _ _ _ => some g
  | .amoOrD g _ _ _ _ => some g
  | .amoXorD g _ _ _ _ => some g
  | .amoMinD g _ _ _ _ => some g
  | .amoMaxD g _ _ _ _ => some g
  | .amoMinnD g _ _ _ _ => some g
  | .amoMaxnD g _ _ _ _ => some g
  | .amoSwapD g _ _ _ _ => some g
  | .casW g _ _ _ _ => some g
  | .casD g _ _ _ _ => some g
  | .fenceP g _ _ _ => some g
  | .acqLd g _ _ _ _ _ _ _ => some g
  | .relSt g _ _ _ _ _ _ => some g
  | .sete g _ _ => some g
  | .clre g _ => some g
  | .waite g _ _ => some g
  | .ringDef g _ _ => some g
  | .rwaitF g _ _ _ _ => some g
  | .rwaitE g _ _ _ _ => some g
  | .radvP g _ _ _ _ => some g
  | .radvC g _ _ _ _ => some g
  | .rstat g _ _ => some g
  | .stepBegin g _ => some g
  | .stepProg g _ => some g
  | .stepEnd g => some g
  | .fork g _ _ => some g
  | .join g _ => some g
  | .exit g => some g
  | .exitA g => some g
  | .rdv g _ _ => some g
  | .spawn g _ _ => some g
  | .spawnC g _ _ => some g
  | .cfgLoad g _ _ _ => some g
  | .cfgStat g _ _ => some g
  | .fabGo g _ => some g
  | .binPush g _ => some g
  | .binCnt g _ _ => some g
  | .fabQuiet g _ => some g
  | .collRed g _ _ _ _ _ _ _ _ => some g
  | .collBcast g _ _ _ _ _ _ _ => some g
  | .trap g _ => some g
  | .trapTerminate g => some g
  | .trapTerminateGang g => some g
  | .trapPreempt g => some g
  | .sysc g _ => some g
  | .retr g => some g
  | .idle g => some g
  | .bkpt g => some g
  | .tlbiAll g => some g
  | .tlbiAsid g _ => some g
  | .tlbiVa g _ => some g
  | .tlbiVaAsid g _ => some g
  | .cflush g _ => some g
  | .cinv g _ => some g
  | .mfs g _ _ => some g
  | .mts g _ _ => some g
  | .mtsFlags g _ => some g
  | .mtsReplaycnt g _ => some g
  | .mtsCtxinv g _ => some g
  | .mtsWsctl g _ => some g
  | .mtsWsctlSwreq g _ => some g
  | .mtsWtbl g _ => some g
  | .cpy g _ _ _ _ => some g
  | .cpyF g _ _ _ _ _ => some g
  | .cpyR g _ _ _ _ => some g
  | .cpyG g _ _ _ _ => some g
  | .cpyS g _ _ _ _ => some g
  | .cpyMx g _ _ _ _ => some g
  | .cpyPl g _ _ _ => some g
  | .cpyFill g _ _ _ => some g
  | .cpyWait g _ _ => some g
  | .mxcShape g _ _ _ => some g
  | .mxcOpa g _ _ _ _ _ => some g
  | .mxcOpb g _ _ _ _ _ => some g
  | .mxcArm g _ _ _ _ _ => some g
  | .mma g _ => some g
  | .mmz g _ => some g
  | .mmp g _ _ _ => some g
  | .mxcDrain g _ _ _ _ _ _ _ => some g
  | .mxcDrainD g _ _ _ _ => some g
  | .longOpComplete _ _ _ => none
  | .releasePerformed _ _ _ => none
  | .trapDelivery _ _ => none
  | .machineCheck _ _ => none
  | .superstepEnd _ _ => none
  | .dlriskPost _ _ => none
  | .taskRetire _ => none
  | .jobComplete _ => none
  | .binEnqueue _ _ => none
  | .bindeadlock _ => none
  | .binDispatch _ _ => none
  | .partialDispatch _ _ => none
  | .binAged _ _ => none
  | .schedulerChoose _ => none
  | .configFrameWrite _ => none
  | .slotStart _ _ => none
  | .regionDrained _ _ => none
  | .pinnedRegionEnd _ _ => none
  | .slotSwitch _ _ _ _ => none
  | .elementFire _ _ _ _ => none
  | .killArrival _ _ => none
  | .legRoute _ _ _ _ _ => none
  | .legBcast _ _ _ _ _ => none
  | .legIdx _ _ _ _ _ => none
  | .legMerge _ _ _ _ _ => none
  | .legSteer _ _ _ _ _ => none
  | .legHold _ _ _ _ _ => none
  | .portWrd _ _ _ => none
  | .portWwr _ _ _ => none
  | .portDrd _ _ _ => none
  | .portReadReturn _ _ _ => none
  | .portDwr _ _ _ => none
  | .portAmo _ _ _ => none
  | .portRed _ _ _ => none
  | .portExp2 _ _ _ => none
  | .portLog2 _ _ _ => none
  | .portRcp _ _ _ => none
  | .portRsqrt _ _ _ => none
  | .portTanh _ _ _ => none
  | .portCvd _ _ _ => none
  | .portCvw _ _ _ => none
  | .portBenq _ _ _ => none
  | .portMove _ _ _ => none
  | .portFifov _ _ _ => none
  | .portFifos _ _ _ => none
  | .portLbuf _ _ _ => none
  | .portEos _ _ _ => none
  | .ringGeneratorSlot _ _ _ _ => none
  | .ringGeneratorAdvance _ _ _ _ => none
  | .arrayPortServe _ _ => none
  | .copyCommandBegin _ => none
  | .copyRingClaim _ _ => none
  | .copyCommandComplete _ _ => none
  | .copyAccessFailure _ _ => none
  | .matrixNextCommand _ => none
  | .armSlotStore _ => none
  | .matrixRingSlot _ => none
  | .mmpEvaluation _ => none
  | .matrixCommandComplete _ => none
  | .matrixAccessFailure _ => none
  | .homeAccess _ _ => none
  | .l2Fill _ _ _ => none
  | .combineRequest _ _ => none
  | .sheafReturn _ => none
  | .pageWalkStart _ _ => none
  | .pageWalkComplete _ _ => none
  | .schedulerCycle _ => none
  | .gangLevelRaise _ _ => none
  | .gangStart _ _ => none
  | .launchWrite _ _ _ _ => none
  | .quantumExpiry _ => none
  | .enginePreemptStop _ _ => none
  | .preemptSave _ => none
  | .preemptSaveDone _ => none
  | .preemptLimitExpiry _ _ => none
  | .worldSwitchComplete _ => none
  | .gangResume _ _ => none
  | .currentReport _ _ => none
  | .governorEvaluation _ => none
  | .railSlewDone _ => none
  | .canaryTrip _ => none
  | .correctableError _ => none
  | .ageingRead _ _ => none
  | .replan _ _ => none
  | .inboundWrite _ _ _ _ _ => none
  | .inboundRead _ _ _ _ _ => none
  | .zeroLengthRead _ => none
  | .atsInvalidate _ _ => none
  | .hostReadTimeout _ => none
  | .yilsinRd _ => none
  | .yilsinWr _ => none
  | .yilsinAmo _ => none
  | .yilsinCas _ => none
  | .yilsinRdrsp _ => none
  | .yilsinWrack _ => none
  | .yilsinAmorsp _ => none
  | .yilsinFlush _ => none
  | .yilsinFlushack _ => none
  | .linkRetrainTimeout _ => none
  | .dhaltHalt _ => none
  | .dhaltResume _ => none
  | .watchdogExpiry _ _ => none
  | .counterForward _ => none
  | .enloRead _ _ => none
  | .registerWrite _ _ _ => none
  | .imggo _ => none
  | .moduleStart _ _ _ _ => none
  | .startWatchdogExpiry => none
  | .rootMonitorRequest _ => none
  | .attestationRequest _ => none
  | .clusterWithdraw _ => none
  | .hostLinkDown => none
  | .granaryLinkFailure _ => none
  | .yilsinPortReturn _ => none
  | .discardedFlit _ => none
  | .unsupportedRequest _ => none
  | .atsTranslationCompletion _ => none

/-- The fields hold no value the maps of R110 to R123, R262 and R281 call illegal. -/
def Instr.fieldsOk : Instr → Bool
  | .add _ _ _ _ => true
  | .sub _ _ _ _ => true
  | .mul _ _ _ _ => true
  | .mulh _ _ _ _ => true
  | .mulhn _ _ _ _ => true
  | .div _ _ _ _ => true
  | .divn _ _ _ _ => true
  | .rem _ _ _ _ => true
  | .remn _ _ _ _ => true
  | .and _ _ _ _ => true
  | .or _ _ _ _ => true
  | .xor _ _ _ _ => true
  | .andn _ _ _ _ => true
  | .shl _ _ _ _ => true
  | .shr _ _ _ _ => true
  | .sra _ _ _ _ => true
  | .min _ _ _ _ => true
  | .max _ _ _ _ => true
  | .minn _ _ _ _ => true
  | .maxn _ _ _ _ => true
  | .clz _ _ _ => true
  | .ctz _ _ _ => true
  | .popc _ _ _ => true
  | .addi _ _ _ _ => true
  | .andi _ _ _ _ => true
  | .ori _ _ _ _ => true
  | .xori _ _ _ _ => true
  | .shli _ _ _ _ => true
  | .shri _ _ _ _ => true
  | .srai _ _ _ _ => true
  | .bfx _ _ _ pos wm1 => pos.val + wm1.val + 1 ≤ 64
  | .bfi _ _ _ pos wm1 => pos.val + wm1.val + 1 ≤ 64
  | .movi _ _ _ => true
  | .movs _ _ _ => true
  | .addpc _ _ _ => true
  | .cmpEq _ pd _ _ => pd != 0
  | .cmpNe _ pd _ _ => pd != 0
  | .cmpLt _ pd _ _ => pd != 0
  | .cmpGe _ pd _ _ => pd != 0
  | .cmpLtn _ pd _ _ => pd != 0
  | .cmpGen _ pd _ _ => pd != 0
  | .cmpiEq _ pd _ _ => pd != 0
  | .cmpiNe _ pd _ _ => pd != 0
  | .cmpiLt _ pd _ _ => pd != 0
  | .cmpiGe _ pd _ _ => pd != 0
  | .cmpiLtn _ pd _ _ => pd != 0
  | .cmpiGen _ pd _ _ => pd != 0
  | .pand _ pd _ _ => pd != 0
  | .por _ pd _ _ => pd != 0
  | .pxor _ pd _ _ => pd != 0
  | .pnot _ pd _ => pd != 0
  | .pmov _ pd _ => pd != 0
  | .br _ _ => true
  | .brl _ _ => true
  | .jr _ _ => true
  | .jrl _ _ _ => true
  | .nop _ => true
  | .loop _ d _ => d != 0
  | .ldB _ _ _ _ => true
  | .ldH _ _ _ _ => true
  | .ldW _ _ _ _ => true
  | .ldBn _ _ _ _ => true
  | .ldHn _ _ _ _ => true
  | .ldWn _ _ _ _ => true
  | .ldD _ _ _ _ => true
  | .stB _ _ _ _ => true
  | .stH _ _ _ _ => true
  | .stW _ _ _ _ => true
  | .stD _ _ _ _ => true
  | .ldp _ _ _ _ => true
  | .stp _ _ _ _ => true
  | .pref _ _ _ _ => true
  | .amoAddW _ _ _ _ _ => true
  | .amoAndW _ _ _ _ _ => true
  | .amoOrW _ _ _ _ _ => true
  | .amoXorW _ _ _ _ _ => true
  | .amoMinW _ _ _ _ _ => true
  | .amoMaxW _ _ _ _ _ => true
  | .amoMinnW _ _ _ _ _ => true
  | .amoMaxnW _ _ _ _ _ => true
  | .amoSwapW _ _ _ _ _ => true
  | .amoFaddRxW _ _ _ _ _ => true
  | .amoAddD _ _ _ _ _ => true
  | .amoAndD _ _ _ _ _ => true
  | .amoOrD _ _ _ _ _ => true
  | .amoXorD _ _ _ _ _ => true
  | .amoMinD _ _ _ _ _ => true
  | .amoMaxD _ _ _ _ _ => true
  | .amoMinnD _ _ _ _ _ => true
  | .amoMaxnD _ _ _ _ _ => true
  | .amoSwapD _ _ _ _ _ => true
  | .casW _ _ _ _ _ => true
  | .casD _ _ _ _ _ => true
  | .fenceP _ _ _ _ => true
  | .acqLd _ _ _ size sext _ _ off => !(size == 3 && sext) && off.toNat % 2 ^ size.val == 0
  | .relSt _ _ _ size _ _ off => off.toNat % 2 ^ size.val == 0
  | .sete _ _ _ => true
  | .clre _ _ => true
  | .waite _ _ _ => true
  | .ringDef _ _ _ => true
  | .rwaitF _ _ _ _ _ => true
  | .rwaitE _ _ _ _ _ => true
  | .radvP _ _ _ _ _ => true
  | .radvC _ _ _ _ _ => true
  | .rstat _ _ _ => true
  | .stepBegin _ _ => true
  | .stepProg _ _ => true
  | .stepEnd _ => true
  | .fork _ _ _ => true
  | .join _ _ => true
  | .exit _ => true
  | .exitA _ => true
  | .rdv _ _ _ => true
  | .spawn _ _ _ => true
  | .spawnC _ _ _ => true
  | .cfgLoad _ _ _ _ => true
  | .cfgStat _ _ _ => true
  | .fabGo _ _ => true
  | .binPush _ _ => true
  | .binCnt _ _ _ => true
  | .fabQuiet _ _ => true
  | .collRed _ _ _ _ op w64 _ _ _ => !(op == 8 && w64)
  | .collBcast _ _ _ _ _ _ _ _ => true
  | .trap _ code => 3 ≤ code.toNat
  | .trapTerminate _ => true
  | .trapTerminateGang _ => true
  | .trapPreempt _ => true
  | .sysc _ _ => true
  | .retr _ => true
  | .idle _ => true
  | .bkpt _ => true
  | .tlbiAll _ => true
  | .tlbiAsid _ _ => true
  | .tlbiVa _ _ => true
  | .tlbiVaAsid _ _ => true
  | .cflush _ _ => true
  | .cinv _ _ => true
  | .mfs _ _ r => sregAssigned r.toNat
  | .mts _ _ r => sregPlainWritable r.toNat
  | .mtsFlags _ _ => true
  | .mtsReplaycnt _ _ => true
  | .mtsCtxinv _ _ => true
  | .mtsWsctl _ _ => true
  | .mtsWsctlSwreq _ _ => false
  | .mtsWtbl _ _ => true
  | .cpy _ _ _ _ o => o.ok true true
  | .cpyF _ _ _ _ o _ => o.ok true true
  | .cpyR _ _ _ o _ => o.ok false true
  | .cpyG _ _ _ _ o => o.ok false false
  | .cpyS _ _ _ _ o => o.ok false false
  | .cpyMx _ _ _ _ o => o.ok false true
  | .cpyPl _ _ _ o => o.ok false false
  | .cpyFill _ _ _ o => o.ok true false
  | .cpyWait _ _ _ => true
  | .mxcShape _ _ _ _ => true
  | .mxcOpa _ d a _ _ ring => ring.isNone || (d == 0 && a == 0)
  | .mxcOpb _ d a _ _ ring => ring.isNone || (d == 0 && a == 0)
  | .mxcArm _ a b _ opc o => opc == 2 || (a == 0 && b == 0 && o.g == 0 && o.mode == 0 && !o.scaled && !o.mid)
  | .mma _ _ => true
  | .mmz _ _ => true
  | .mmp _ _ _ _ => true
  | .mxcDrain _ _ _ _ _ _ _ _ => true
  | .mxcDrainD _ _ ndm1 _ _ => 3 ≤ ndm1.val
  | .longOpComplete _ _ _ => true
  | .releasePerformed _ _ _ => true
  | .trapDelivery _ _ => true
  | .machineCheck _ _ => true
  | .superstepEnd _ _ => true
  | .dlriskPost _ _ => true
  | .taskRetire _ => true
  | .jobComplete _ => true
  | .binEnqueue _ _ => true
  | .bindeadlock _ => true
  | .binDispatch _ _ => true
  | .partialDispatch _ _ => true
  | .binAged _ _ => true
  | .schedulerChoose _ => true
  | .configFrameWrite _ => true
  | .slotStart _ _ => true
  | .regionDrained _ _ => true
  | .pinnedRegionEnd _ _ => true
  | .slotSwitch _ _ _ _ => true
  | .elementFire _ _ _ _ => true
  | .killArrival _ _ => true
  | .legRoute _ _ _ _ _ => true
  | .legBcast _ _ _ _ _ => true
  | .legIdx _ _ _ _ _ => true
  | .legMerge _ _ _ _ _ => true
  | .legSteer _ _ _ _ _ => true
  | .legHold _ _ _ _ _ => true
  | .portWrd _ _ _ => true
  | .portWwr _ _ _ => true
  | .portDrd _ _ _ => true
  | .portReadReturn _ _ _ => true
  | .portDwr _ _ _ => true
  | .portAmo _ _ _ => true
  | .portRed _ _ _ => true
  | .portExp2 _ _ _ => true
  | .portLog2 _ _ _ => true
  | .portRcp _ _ _ => true
  | .portRsqrt _ _ _ => true
  | .portTanh _ _ _ => true
  | .portCvd _ _ _ => true
  | .portCvw _ _ _ => true
  | .portBenq _ _ _ => true
  | .portMove _ _ _ => true
  | .portFifov _ _ _ => true
  | .portFifos _ _ _ => true
  | .portLbuf _ _ _ => true
  | .portEos _ _ _ => true
  | .ringGeneratorSlot _ _ _ _ => true
  | .ringGeneratorAdvance _ _ _ _ => true
  | .arrayPortServe _ _ => true
  | .copyCommandBegin _ => true
  | .copyRingClaim _ _ => true
  | .copyCommandComplete _ _ => true
  | .copyAccessFailure _ _ => true
  | .matrixNextCommand _ => true
  | .armSlotStore _ => true
  | .matrixRingSlot _ => true
  | .mmpEvaluation _ => true
  | .matrixCommandComplete _ => true
  | .matrixAccessFailure _ => true
  | .homeAccess _ _ => true
  | .l2Fill _ _ _ => true
  | .combineRequest _ _ => true
  | .sheafReturn _ => true
  | .pageWalkStart _ _ => true
  | .pageWalkComplete _ _ => true
  | .schedulerCycle _ => true
  | .gangLevelRaise _ _ => true
  | .gangStart _ _ => true
  | .launchWrite _ _ _ _ => true
  | .quantumExpiry _ => true
  | .enginePreemptStop _ _ => true
  | .preemptSave _ => true
  | .preemptSaveDone _ => true
  | .preemptLimitExpiry _ _ => true
  | .worldSwitchComplete _ => true
  | .gangResume _ _ => true
  | .currentReport _ _ => true
  | .governorEvaluation _ => true
  | .railSlewDone _ => true
  | .canaryTrip _ => true
  | .correctableError _ => true
  | .ageingRead _ _ => true
  | .replan _ _ => true
  | .inboundWrite _ _ _ _ _ => true
  | .inboundRead _ _ _ _ _ => true
  | .zeroLengthRead _ => true
  | .atsInvalidate _ _ => true
  | .hostReadTimeout _ => true
  | .yilsinRd _ => true
  | .yilsinWr _ => true
  | .yilsinAmo _ => true
  | .yilsinCas _ => true
  | .yilsinRdrsp _ => true
  | .yilsinWrack _ => true
  | .yilsinAmorsp _ => true
  | .yilsinFlush _ => true
  | .yilsinFlushack _ => true
  | .linkRetrainTimeout _ => true
  | .dhaltHalt _ => true
  | .dhaltResume _ => true
  | .watchdogExpiry _ _ => true
  | .counterForward _ => true
  | .enloRead _ _ => true
  | .registerWrite _ _ _ => true
  | .imggo _ => true
  | .moduleStart _ _ _ _ => true
  | .startWatchdogExpiry => true
  | .rootMonitorRequest _ => true
  | .attestationRequest _ => true
  | .clusterWithdraw _ => true
  | .hostLinkDown => true
  | .granaryLinkFailure _ => true
  | .yilsinPortReturn _ => true
  | .discardedFlit _ => true
  | .unsupportedRequest _ => true
  | .atsTranslationCompletion _ => true

/-- The instruction has an instruction word, and it is legal. (MTS_WSCTL_SWREQ has MTS_WSCTL's word, which
decodes to that row; an event has no word.) -/
def Instr.wf (i : Instr) : Bool :=
  match i.guard with
  | some g => g.ok && i.fieldsOk
  | none => false

end Sys2Proof
end

