-- ==== Sys2Proof/Decode.lean ====
section
/-! DEFINITION. The decoder of instruction words (R107 to R125, R262, R281), total on any bytes, and the
encoder, from the same maps. -/

namespace Sys2Proof

/-- Bits lo + n - 1 : lo of a word. -/
def fld (w lo n : Nat) : Nat := w / 2 ^ lo % 2 ^ n

/-- The guard of a first word (R107, R108). -/
def guardOf (w : Nat) : Guard := ⟨Fin.ofNat 8 (fld w 23 3), fld w 22 1 == 1⟩
/-- A register field of five bits (R109). -/
def regAt (w lo : Nat) : Reg := Fin.ofNat 32 (fld w lo 5)
/-- The predicate in the low three bits of a field (R110). -/
def predAt (w lo : Nat) : PReg := Fin.ofNat 8 (fld w lo 3)

/-- Keep a decoding when the reserved bits are zero (R124). -/
def keep (c : Bool) (i : Instr) : Option Instr := if c then some i else none

/-- R83, R116: scope codes 5–7 are illegal. -/
def scopeOf : Nat → Option Scope
  | 0 => some .cl | 1 => some .di | 2 => some .mo | 3 => some .do_ | 4 => some .sy
  | _ => none

def Scope.code : Scope → Nat
  | .cl => 0 | .di => 1 | .mo => 2 | .do_ => 3 | .sy => 4

/-- R262, R281: EVEN at bit 38 with EVT at 37:32; EVT is 0 when EVEN is 0. -/
def evtOf (v : Nat) : Option (Option (Fin 64)) :=
  if fld v 6 1 == 1 then some (some (Fin.ofNat 64 (fld v 0 6)))
  else if fld v 0 6 == 0 then some none else none

def evtBits : Option (Fin 64) → Nat
  | none => 0
  | some e => e.val + 64

/-- R281: RING at bit 40 with HND at 44:41; HND is 0 when RING is 0. -/
def ringOf (v : Nat) : Option (Option (Fin 16)) :=
  if fld v 8 1 == 1 then some (some (Fin.ofNat 16 (fld v 9 4)))
  else if fld v 9 4 == 0 then some none else none

def ringBits : Option (Fin 16) → Nat
  | none => 0
  | some h => 1 + 2 * h.val

/-- R262: RSIDE at 40:39 with HND at 44:41; HND is 0 when RSIDE is 0, RSIDE 3 is illegal. -/
def rsideOf (v : Nat) : Option RSide :=
  match fld v 7 2 with
  | 0 => if fld v 9 4 == 0 then some .none else none
  | 1 => some (.dst (Fin.ofNat 16 (fld v 9 4)))
  | 2 => some (.src (Fin.ofNat 16 (fld v 9 4)))
  | _ => none

def RSide.bits : RSide → Nat
  | .none => 0
  | .dst h => 0x80 + h.val * 0x200
  | .src h => 0x100 + h.val * 0x200

def copyOptsOf (v : Nat) : Option CopyOpts :=
  match evtOf v, rsideOf v with
  | some e, some r => some ⟨e, r, fld v 13 1 == 1⟩
  | _, _ => none

def CopyOpts.bits (o : CopyOpts) : Nat := evtBits o.evt + o.rside.bits + o.endr.toNat * 0x2000

/-- R281: EVT, EVEN, G at 40:39, MODE at 42:41 (3 illegal in both), SCALED at 43, RD at 44. -/
def mmpOptsOf (v : Nat) : Option MmpOpts :=
  match evtOf v with
  | some e =>
    if h : fld v 7 2 < 3 ∧ fld v 9 2 < 3 then
      some ⟨e, ⟨fld v 7 2, h.1⟩, ⟨fld v 9 2, h.2⟩, fld v 11 1 == 1, fld v 12 1 == 1⟩
    else none
  | none => none

def MmpOpts.bits (o : MmpOpts) : Nat :=
  evtBits o.evt + o.g.val * 0x80 + o.mode.val * 0x200 + o.scaled.toNat * 0x800 + o.mid.toNat * 0x1000

/-- R112: major 0x00. -/
def decodeRrr (w : Nat) : Option Instr :=
  let g := guardOf w; let d := regAt w 17; let a := regAt w 12; let b := regAt w 7
  match fld w 0 7 with
  | 0x1 => some (.add g d a b)
  | 0x2 => some (.sub g d a b)
  | 0x3 => some (.mul g d a b)
  | 0x4 => some (.mulh g d a b)
  | 0x5 => some (.mulhn g d a b)
  | 0x6 => some (.div g d a b)
  | 0x7 => some (.divn g d a b)
  | 0x8 => some (.rem g d a b)
  | 0x9 => some (.remn g d a b)
  | 0xa => some (.and g d a b)
  | 0xb => some (.or g d a b)
  | 0xc => some (.xor g d a b)
  | 0xd => some (.andn g d a b)
  | 0xe => some (.shl g d a b)
  | 0xf => some (.shr g d a b)
  | 0x10 => some (.sra g d a b)
  | 0x11 => some (.min g d a b)
  | 0x12 => some (.max g d a b)
  | 0x13 => some (.minn g d a b)
  | 0x14 => some (.maxn g d a b)
  | 0x15 => keep (b == 0) (.clz g d a)
  | 0x16 => keep (b == 0) (.ctz g d a)
  | 0x17 => keep (b == 0) (.popc g d a)
  | _ => none

/-- R113: majors 0x10 (compare) and 0x17 (predicate logic). -/
def decodeCmp (w : Nat) : Option Instr :=
  let g := guardOf w; let pd := predAt w 17; let a := regAt w 12; let b := regAt w 7
  if fld w 20 2 != 0 then none else
  match fld w 0 7 with
  | 0x0 => some (.cmpEq g pd a b)
  | 0x1 => some (.cmpNe g pd a b)
  | 0x2 => some (.cmpLt g pd a b)
  | 0x3 => some (.cmpGe g pd a b)
  | 0x4 => some (.cmpLtn g pd a b)
  | 0x5 => some (.cmpGen g pd a b)
  | _ => none

def decodePred (w : Nat) : Option Instr :=
  let g := guardOf w; let pd := predAt w 17; let pa := predAt w 12; let pb := predAt w 7
  if fld w 20 2 != 0 || fld w 15 2 != 0 || fld w 10 2 != 0 then none else
  match fld w 0 7 with
  | 0x0 => some (.pand g pd pa pb)
  | 0x1 => some (.por g pd pa pb)
  | 0x2 => some (.pxor g pd pa pb)
  | 0x3 => keep (pb == 0) (.pnot g pd pa)
  | 0x4 => keep (pb == 0) (.pmov g pd pa)
  | _ => none

/-- R114: major 0x1A. -/
def decodeJump (w : Nat) : Option Instr :=
  let g := guardOf w; let d := regAt w 17; let a := regAt w 12; let b := regAt w 7
  match fld w 0 7 with
  | 0x0 => keep (d == 0 && b == 0) (.jr g a)
  | 0x1 => keep (b == 0) (.jrl g d a)
  | 0x2 => keep (d == 0 && a == 0 && b == 0) (.nop g)
  | _ => none

/-- R115: majors 0x1C and 0x1D. -/
def decodeLoad (w : Nat) : Option Instr :=
  let g := guardOf w; let d := regAt w 17; let a := regAt w 12; let off := BitVec.ofNat 9 (fld w 0 9)
  match fld w 9 3 with
  | 0 => some (.ldBn g d a off)
  | 1 => some (.ldB g d a off)
  | 2 => some (.ldHn g d a off)
  | 3 => some (.ldH g d a off)
  | 4 => some (.ldWn g d a off)
  | 5 => some (.ldW g d a off)
  | 6 => some (.ldD g d a off)
  | _ => none

def decodeStore (w : Nat) : Option Instr :=
  let g := guardOf w; let d := regAt w 17; let a := regAt w 12; let off := BitVec.ofNat 9 (fld w 0 9)
  match fld w 9 3 with
  | 0 => some (.stB g d a off)
  | 2 => some (.stH g d a off)
  | 4 => some (.stW g d a off)
  | 6 => some (.stD g d a off)
  | _ => none

/-- R116: AMO.op.W (major 0x21). -/
def decodeAmoW (w : Nat) : Option Instr :=
  let g := guardOf w; let d := regAt w 17; let a := regAt w 12; let b := regAt w 7
  match scopeOf (fld w 0 3) with
  | none => none
  | some sc =>
    match fld w 3 4 with
    | 0 => some (.amoAddW g d a b sc)
    | 1 => some (.amoAndW g d a b sc)
    | 2 => some (.amoOrW g d a b sc)
    | 3 => some (.amoXorW g d a b sc)
    | 4 => some (.amoMinW g d a b sc)
    | 5 => some (.amoMaxW g d a b sc)
    | 6 => some (.amoMinnW g d a b sc)
    | 7 => some (.amoMaxnW g d a b sc)
    | 8 => some (.amoSwapW g d a b sc)
    | 9 => some (.amoFaddRxW g d a b sc)
    | _ => none

/-- R116: AMO.op.D (major 0x22). -/
def decodeAmoD (w : Nat) : Option Instr :=
  let g := guardOf w; let d := regAt w 17; let a := regAt w 12; let b := regAt w 7
  match scopeOf (fld w 0 3) with
  | none => none
  | some sc =>
    match fld w 3 4 with
    | 0 => some (.amoAddD g d a b sc)
    | 1 => some (.amoAndD g d a b sc)
    | 2 => some (.amoOrD g d a b sc)
    | 3 => some (.amoXorD g d a b sc)
    | 4 => some (.amoMinD g d a b sc)
    | 5 => some (.amoMaxD g d a b sc)
    | 6 => some (.amoMinnD g d a b sc)
    | 7 => some (.amoMaxnD g d a b sc)
    | 8 => some (.amoSwapD g d a b sc)
    | _ => none

/-- R116: CAS (major 0x23). -/
def decodeCas (w : Nat) : Option Instr :=
  let g := guardOf w; let d := regAt w 17; let a := regAt w 12; let b := regAt w 7
  match scopeOf (fld w 0 3) with
  | none => none
  | some sc =>
    match fld w 3 4 with
    | 0 => some (.casW g d a b sc)
    | 1 => some (.casD g d a b sc)
    | _ => none

/-- R117: majors 0x24 and 0x27. -/
def decodeFence (w : Nat) : Option Instr :=
  match scopeOf (fld w 12 3) with
  | none => none
  | some sc => keep (fld w 15 7 == 0)
      (.fenceP (guardOf w) (BitVec.ofNat 6 (fld w 0 6)) (BitVec.ofNat 6 (fld w 6 6)) sc)

def decodeEvent (w : Nat) : Option Instr :=
  let g := guardOf w; let e := Fin.ofNat 64 (fld w 0 6); let m := BitVec.ofNat 6 (fld w 6 6)
  if fld w 14 8 != 0 then none else
  match fld w 12 2 with
  | 0 => some (.sete g e m)
  | 1 => keep (fld w 6 6 == 0) (.clre g e)
  | 2 => some (.waite g e m)
  | _ => none

/-- R117: ACQ.LD and REL.ST; v is the second word. -/
def decodeAcq (w v : Nat) : Option Instr :=
  match scopeOf (fld v 6 3) with
  | none => none
  | some sc => keep (fld w 7 5 == 0 && fld w 3 4 == 0 && fld v 9 7 == 0)
      (.acqLd (guardOf w) (regAt w 17) (regAt w 12) (Fin.ofNat 4 (fld w 0 2)) (fld w 2 1 == 1)
        (BitVec.ofNat 6 (fld v 0 6)) sc (BitVec.ofNat 16 (fld v 16 16)))

def decodeRel (w v : Nat) : Option Instr :=
  match scopeOf (fld v 6 3) with
  | none => none
  | some sc => keep (fld w 7 5 == 0 && fld w 2 5 == 0 && fld v 9 7 == 0)
      (.relSt (guardOf w) (regAt w 17) (regAt w 12) (Fin.ofNat 4 (fld w 0 2))
        (BitVec.ofNat 6 (fld v 0 6)) sc (BitVec.ofNat 16 (fld v 16 16)))

/-- R118: the ring operations. -/
def decodeRing (w v : Nat) : Option Instr :=
  let g := guardOf w; let d := regAt w 17; let a := regAt w 12
  let h := Fin.ofNat 16 (fld v 0 4); let m := BitVec.ofNat 6 (fld v 4 6); let imm := BitVec.ofNat 16 (fld v 16 16)
  if fld w 7 5 != 0 || fld v 10 6 != 0 then none else
  match fld w 0 7 with
  | 0 => keep (d == 0 && fld v 4 6 == 0 && fld v 16 16 == 0) (.ringDef g a h)
  | 1 => keep (d == 0) (.rwaitF g a h m imm)
  | 2 => keep (d == 0) (.rwaitE g a h m imm)
  | 3 => keep (d == 0) (.radvP g a h m imm)
  | 4 => keep (d == 0) (.radvC g a h m imm)
  | 5 => keep (a == 0 && fld v 4 6 == 0 && fld v 16 16 == 0) (.rstat g d h)
  | _ => none

/-- R119: majors 0x29, 0x2C, 0x2D and 0x2E. -/
def decodeStep (w : Nat) : Option Instr :=
  let g := guardOf w; let a := regAt w 12
  if fld w 17 5 != 0 || fld w 7 5 != 0 then none else
  match fld w 0 7 with
  | 0 => some (.stepBegin g a)
  | 1 => some (.stepProg g a)
  | 2 => keep (a == 0) (.stepEnd g)
  | _ => none

def decodeTask (w : Nat) : Option Instr :=
  let g := guardOf w; let a := regAt w 12; let m := BitVec.ofNat 4 (fld w 7 4)
  if fld w 17 5 != 0 || fld w 11 1 != 0 then none else
  match fld w 0 7 with
  | 0 => some (.fork g a m)
  | 1 => keep (a == 0) (.join g m)
  | 2 => keep (a == 0 && fld w 7 4 == 0) (.exit g)
  | 3 => keep (a == 0 && fld w 7 4 == 0) (.exitA g)
  | _ => none

def decodeRdv (w : Nat) : Option Instr :=
  keep (fld w 12 10 == 0) (.rdv (guardOf w) (BitVec.ofNat 4 (fld w 8 4)) (BitVec.ofNat 8 (fld w 0 8)))

def decodeSpawn (w : Nat) : Option Instr :=
  let g := guardOf w; let d := regAt w 17; let a := regAt w 12
  if fld w 7 5 != 0 then none else
  match fld w 0 7 with
  | 0 => some (.spawn g d a)
  | 1 => some (.spawnC g d a)
  | _ => none

/-- R120: fabric control and collectives. -/
def decodeFabric (w : Nat) : Option Instr :=
  let g := guardOf w; let d := regAt w 17; let a := regAt w 12; let b := regAt w 7
  match fld w 0 7 with
  | 0 => some (.cfgLoad g d a b)
  | 1 => keep (b == 0) (.cfgStat g d a)
  | 2 => keep (d == 0 && b == 0) (.fabGo g a)
  | 3 => keep (d == 0 && b == 0) (.binPush g a)
  | 4 => keep (b == 0) (.binCnt g d a)
  | 5 => keep (d == 0 && b == 0) (.fabQuiet g a)
  | _ => none

def decodeColl (w v : Nat) : Option Instr :=
  let g := guardOf w; let a := regAt w 12; let b := regAt w 7; let dh := Fin.ofNat 16 (fld w 18 4)
  let base := Fin.ofNat 512 (fld v 6 9); let size := Fin.ofNat 512 (fld v 15 9); let tag := BitVec.ofNat 8 (fld v 24 8)
  if fld w 17 1 != 0 || fld v 5 1 != 0 then none else
  match fld w 0 7 with
  | 0 => if h : fld v 0 4 < 9 then some (.collRed g dh a b ⟨fld v 0 4, h⟩ (fld v 4 1 == 1) base size tag) else none
  | 1 => keep (fld v 0 4 == 0) (.collBcast g dh a b (fld v 4 1 == 1) base size tag)
  | _ => none

/-- R165, R355: TRAP; codes 0 to 2 have rows of their own. -/
def decodeTrap (w : Nat) : Option Instr :=
  let g := guardOf w
  if fld w 16 6 != 0 then none else
  match fld w 0 16 with
  | 0 => some (.trapTerminate g)
  | 1 => some (.trapTerminateGang g)
  | 2 => some (.trapPreempt g)
  | c => some (.trap g (BitVec.ofNat 16 c))

/-- R121: system operations. -/
def decodeSystem (w : Nat) : Option Instr :=
  let g := guardOf w; let a := regAt w 12; let b := fld w 7 5
  if fld w 17 5 != 0 then none else
  match fld w 0 7 with
  | 0 => keep (a == 0 && b == 0) (.retr g)
  | 1 => keep (a == 0 && b == 0) (.idle g)
  | 2 => keep (a == 0 && b == 0) (.bkpt g)
  | 3 =>
    match b with
    | 0 => keep (a == 0) (.tlbiAll g)
    | 1 => some (.tlbiAsid g a)
    | 2 => some (.tlbiVa g a)
    | 3 => some (.tlbiVaAsid g a)
    | _ => none
  | 4 => keep (b == 0) (.cflush g a)
  | 5 => keep (b == 0) (.cinv g a)
  | _ => none

/-- R122: MTS; the registers with a behaviour of their own have rows of their own. -/
def decodeMts (w : Nat) : Option Instr :=
  let g := guardOf w; let a := regAt w 12
  if fld w 17 5 != 0 then none else
  match fld w 0 12 with
  | 0x1 => some (.mtsFlags g a)
  | 0xB => some (.mtsReplaycnt g a)
  | 0x419 => some (.mtsWsctl g a)
  | 0x41A => some (.mtsWtbl g a)
  | 0x41C => some (.mtsCtxinv g a)
  | r => some (.mts g a (BitVec.ofNat 12 r))

/-- R123, R262: copy commands. -/
def decodeCopy (w v : Nat) : Option Instr :=
  let g := guardOf w; let d := regAt w 17; let a := regAt w 12; let b := regAt w 7
  match fld w 0 7 with
  | 8 => keep (d == 0 && b == 0 && fld v 0 16 == 0) (.cpyWait g a (BitVec.ofNat 16 (fld v 16 16)))
  | m =>
    match copyOptsOf v with
    | none => none
    | some o =>
      match m with
      | 0 => keep (fld v 14 18 == 0) (.cpy g d a b o)
      | 1 => keep (fld v 16 16 == 0) (.cpyF g d a b o (Fin.ofNat 4 (fld v 14 2)))
      | 2 => if h : fld v 16 2 < 3 then keep (d == 0 && fld v 14 2 == 0 && fld v 18 14 == 0) (.cpyR g a b o ⟨fld v 16 2, h⟩) else none
      | 3 => keep (fld v 14 18 == 0) (.cpyG g d a b o)
      | 4 => keep (fld v 14 18 == 0) (.cpyS g d a b o)
      | 5 => keep (fld v 14 18 == 0) (.cpyMx g d a b o)
      | 6 => keep (d == 0 && fld v 14 18 == 0) (.cpyPl g a b o)
      | 7 => keep (d == 0 && fld v 14 18 == 0) (.cpyFill g a b o)
      | _ => none

/-- R123, R281: matrix commands. -/
def decodeMatrix (w v : Nat) : Option Instr :=
  let g := guardOf w; let d := regAt w 17; let a := regAt w 12; let b := regAt w 7
  let ty := BitVec.ofNat 8 (fld v 0 8)
  match fld w 0 7 with
  | 0 => keep (v == 0) (.mxcShape g d a b)
  | 1 => match ringOf v with
    | some r => keep (fld v 13 19 == 0) (.mxcOpa g d a b ty r)
    | none => none
  | 2 => match ringOf v with
    | some r => keep (fld v 13 19 == 0) (.mxcOpb g d a b ty r)
    | none => none
  | 3 => match mmpOptsOf v with
    | some o =>
      if h : 4 ≤ fld v 15 3 ∧ fld v 15 3 < 7 then
        keep (d == 0 && fld v 18 14 == 0) (.mxcArm g a b (Fin.ofNat 4 (fld v 13 2)) ⟨fld v 15 3 - 4, by omega⟩ o)
      else none
    | none => none
  | 4 => match evtOf v with
    | some e => keep (d == 0 && a == 0 && b == 0 && fld v 7 25 == 0) (.mma g e)
    | none => none
  | 5 => match evtOf v with
    | some e => keep (d == 0 && a == 0 && b == 0 && fld v 7 25 == 0) (.mmz g e)
    | none => none
  | 6 => match mmpOptsOf v with
    | some o => keep (d == 0 && fld v 13 19 == 0) (.mmp g a b o)
    | none => none
  | 7 => match evtOf v with
    | some e => keep (d == 0 && fld v 18 14 == 0)
        (.mxcDrain g a b (BitVec.ofNat 8 (fld v 7 8)) (fld v 15 1 == 1) (fld v 16 1 == 1) (fld v 17 1 == 1) e)
    | none => none
  | 8 => match evtOf v with
    | some e => keep (d == 0 && b == 0 && fld v 11 4 == 0 && fld v 16 16 == 0)
        (.mxcDrainD g a (Fin.ofNat 16 (fld v 7 4)) (fld v 15 1 == 1) e)
    | none => none
  | _ => none

/-- R107: the major opcode alone decides the length. -/
def isX64 (maj : Nat) : Bool :=
  maj == 0x25 || maj == 0x26 || maj == 0x28 || maj == 0x30 || maj == 0x38 || maj == 0x3C

/-- R111: the fields of a word by its major opcode; v is the second word of an F-X64 instruction. -/
def decodeFields (w v : Nat) : Option Instr :=
  let g := guardOf w; let d := regAt w 17; let a := regAt w 12
  let imm12 := BitVec.ofNat 12 (fld w 0 12); let imm17 := BitVec.ofNat 17 (fld w 0 17)
  let off9 := BitVec.ofNat 9 (fld w 0 9)
  match fld w 26 6 with
  | 0x00 => decodeRrr w
  | 0x01 => some (.addi g d a imm12)
  | 0x02 => some (.andi g d a imm12)
  | 0x03 => some (.ori g d a imm12)
  | 0x04 => some (.xori g d a imm12)
  | 0x05 => keep (fld w 6 6 == 0) (.shli g d a (Fin.ofNat 64 (fld w 0 6)))
  | 0x06 => keep (fld w 6 6 == 0) (.shri g d a (Fin.ofNat 64 (fld w 0 6)))
  | 0x07 => keep (fld w 6 6 == 0) (.srai g d a (Fin.ofNat 64 (fld w 0 6)))
  | 0x08 => some (.bfx g d a (Fin.ofNat 64 (fld w 0 6)) (Fin.ofNat 64 (fld w 6 6)))
  | 0x09 => some (.bfi g d a (Fin.ofNat 64 (fld w 0 6)) (Fin.ofNat 64 (fld w 6 6)))
  | 0x0A => some (.movi g d imm17)
  | 0x0B => keep (fld w 16 1 == 0) (.movs g d (BitVec.ofNat 16 (fld w 0 16)))
  | 0x0C => some (.addpc g d imm17)
  | 0x10 => decodeCmp w
  | 0x11 => keep (fld w 20 2 == 0) (.cmpiEq g (predAt w 17) a imm12)
  | 0x12 => keep (fld w 20 2 == 0) (.cmpiNe g (predAt w 17) a imm12)
  | 0x13 => keep (fld w 20 2 == 0) (.cmpiLt g (predAt w 17) a imm12)
  | 0x14 => keep (fld w 20 2 == 0) (.cmpiGe g (predAt w 17) a imm12)
  | 0x15 => keep (fld w 20 2 == 0) (.cmpiLtn g (predAt w 17) a imm12)
  | 0x16 => keep (fld w 20 2 == 0) (.cmpiGen g (predAt w 17) a imm12)
  | 0x17 => decodePred w
  | 0x18 => some (.br g (BitVec.ofNat 22 (fld w 0 22)))
  | 0x19 => some (.brl g (BitVec.ofNat 22 (fld w 0 22)))
  | 0x1A => decodeJump w
  | 0x1B => some (.loop g d imm17)
  | 0x1C => decodeLoad w
  | 0x1D => decodeStore w
  | 0x1E => keep (fld w 9 3 == 6 && fld w 17 1 == 0) (.ldp g (Fin.ofNat 16 (fld w 18 4)) a off9)
  | 0x1F => keep (fld w 9 3 == 6 && fld w 17 1 == 0) (.stp g (Fin.ofNat 16 (fld w 18 4)) a off9)
  | 0x20 => keep (fld w 9 3 == 6 && fld w 18 4 == 0) (.pref g (fld w 17 1 == 1) a off9)
  | 0x21 => decodeAmoW w
  | 0x22 => decodeAmoD w
  | 0x23 => decodeCas w
  | 0x24 => decodeFence w
  | 0x25 => decodeAcq w v
  | 0x26 => decodeRel w v
  | 0x27 => decodeEvent w
  | 0x28 => decodeRing w v
  | 0x29 => decodeStep w
  | 0x2C => decodeTask w
  | 0x2D => decodeRdv w
  | 0x2E => decodeSpawn w
  | 0x2F => decodeFabric w
  | 0x30 => decodeColl w v
  | 0x32 => decodeTrap w
  | 0x33 => keep (fld w 16 6 == 0) (.sysc g (BitVec.ofNat 16 (fld w 0 16)))
  | 0x34 => decodeSystem w
  | 0x35 => keep (fld w 12 5 == 0) (.mfs g d (BitVec.ofNat 12 (fld w 0 12)))
  | 0x36 => decodeMts w
  | 0x38 => decodeCopy w v
  | 0x3C => decodeMatrix w v
  | _ => none

/-- Why bytes are not an instruction. -/
inductive DecodeError where
  | truncated       -- fewer bytes than the instruction has
  | illegalEncoding -- an unassigned map entry, a non-zero reserved bit or an illegal field value (R124)
  deriving DecidableEq, Repr

/-- R124: the legal encodings of the words w and v. -/
def decodeWords (w v : Nat) : Except DecodeError Instr :=
  match decodeFields w v with
  | some i => if i.wf then .ok i else .error .illegalEncoding
  | none => .error .illegalEncoding

/-- The number whose little-endian bytes these are (R2). -/
def leNat : List Byte → Nat
  | [] => 0
  | b :: bs => b.toNat + 256 * leNat bs

/-- The first n little-endian bytes of a number (R2). -/
def leBytes : Nat → Nat → List Byte
  | 0, _ => []
  | n + 1, v => BitVec.ofNat 8 v :: leBytes n (v / 256)

/-- R107: the instruction at the head of a byte list, and the bytes after it. -/
def decode (bs : List Byte) : Except DecodeError (Instr × List Byte) :=
  if bs.length < 4 then .error .truncated
  else
    let w := leNat (bs.take 4)
    if isX64 (w / 2 ^ 26) then
      if bs.length < 8 then .error .truncated
      else (decodeWords w (leNat ((bs.drop 4).take 4))).map (·, bs.drop 8)
    else (decodeWords w 0).map (·, bs.drop 4)

/-- The instruction the decoder reads from the bits of an opcode-table row: the words little-endian, the
first at the lowest address, every bit above the row's bits zero. -/
def decodeTableWord (nbits w : Nat) : Option Instr :=
  match decode (leBytes 8 (w % 2 ^ nbits)) with
  | .ok (i, _) => some i
  | .error _ => none

/-- R107: the first word: major, guard, sense and the low 22 bits. -/
def word1 (maj : Nat) (g : Guard) (low : Nat) : Nat :=
  maj * 0x4000000 + g.p.val * 0x800000 + g.neg.toNat * 0x400000 + low

/-- The words of an instruction as one number, the second word in bits 63:32 (R107); 0 for an event. -/
def encodeNat : Instr → Nat
  | .add g d a b => word1 0x0 g (d.val * 0x20000 + a.val * 0x1000 + b.val * 0x80 + 0x1)
  | .sub g d a b => word1 0x0 g (d.val * 0x20000 + a.val * 0x1000 + b.val * 0x80 + 0x2)
  | .mul g d a b => word1 0x0 g (d.val * 0x20000 + a.val * 0x1000 + b.val * 0x80 + 0x3)
  | .mulh g d a b => word1 0x0 g (d.val * 0x20000 + a.val * 0x1000 + b.val * 0x80 + 0x4)
  | .mulhn g d a b => word1 0x0 g (d.val * 0x20000 + a.val * 0x1000 + b.val * 0x80 + 0x5)
  | .div g d a b => word1 0x0 g (d.val * 0x20000 + a.val * 0x1000 + b.val * 0x80 + 0x6)
  | .divn g d a b => word1 0x0 g (d.val * 0x20000 + a.val * 0x1000 + b.val * 0x80 + 0x7)
  | .rem g d a b => word1 0x0 g (d.val * 0x20000 + a.val * 0x1000 + b.val * 0x80 + 0x8)
  | .remn g d a b => word1 0x0 g (d.val * 0x20000 + a.val * 0x1000 + b.val * 0x80 + 0x9)
  | .and g d a b => word1 0x0 g (d.val * 0x20000 + a.val * 0x1000 + b.val * 0x80 + 0xa)
  | .or g d a b => word1 0x0 g (d.val * 0x20000 + a.val * 0x1000 + b.val * 0x80 + 0xb)
  | .xor g d a b => word1 0x0 g (d.val * 0x20000 + a.val * 0x1000 + b.val * 0x80 + 0xc)
  | .andn g d a b => word1 0x0 g (d.val * 0x20000 + a.val * 0x1000 + b.val * 0x80 + 0xd)
  | .shl g d a b => word1 0x0 g (d.val * 0x20000 + a.val * 0x1000 + b.val * 0x80 + 0xe)
  | .shr g d a b => word1 0x0 g (d.val * 0x20000 + a.val * 0x1000 + b.val * 0x80 + 0xf)
  | .sra g d a b => word1 0x0 g (d.val * 0x20000 + a.val * 0x1000 + b.val * 0x80 + 0x10)
  | .min g d a b => word1 0x0 g (d.val * 0x20000 + a.val * 0x1000 + b.val * 0x80 + 0x11)
  | .max g d a b => word1 0x0 g (d.val * 0x20000 + a.val * 0x1000 + b.val * 0x80 + 0x12)
  | .minn g d a b => word1 0x0 g (d.val * 0x20000 + a.val * 0x1000 + b.val * 0x80 + 0x13)
  | .maxn g d a b => word1 0x0 g (d.val * 0x20000 + a.val * 0x1000 + b.val * 0x80 + 0x14)
  | .clz g d a => word1 0x0 g (d.val * 0x20000 + a.val * 0x1000 + 0x15)
  | .ctz g d a => word1 0x0 g (d.val * 0x20000 + a.val * 0x1000 + 0x16)
  | .popc g d a => word1 0x0 g (d.val * 0x20000 + a.val * 0x1000 + 0x17)
  | .addi g d a imm => word1 0x1 g (d.val * 0x20000 + a.val * 0x1000 + imm.toNat)
  | .andi g d a imm => word1 0x2 g (d.val * 0x20000 + a.val * 0x1000 + imm.toNat)
  | .ori g d a imm => word1 0x3 g (d.val * 0x20000 + a.val * 0x1000 + imm.toNat)
  | .xori g d a imm => word1 0x4 g (d.val * 0x20000 + a.val * 0x1000 + imm.toNat)
  | .shli g d a n => word1 0x5 g (d.val * 0x20000 + a.val * 0x1000 + n.val)
  | .shri g d a n => word1 0x6 g (d.val * 0x20000 + a.val * 0x1000 + n.val)
  | .srai g d a n => word1 0x7 g (d.val * 0x20000 + a.val * 0x1000 + n.val)
  | .bfx g d a pos wm1 => word1 0x8 g (d.val * 0x20000 + a.val * 0x1000 + wm1.val * 0x40 + pos.val)
  | .bfi g d a pos wm1 => word1 0x9 g (d.val * 0x20000 + a.val * 0x1000 + wm1.val * 0x40 + pos.val)
  | .movi g d imm => word1 0xa g (d.val * 0x20000 + imm.toNat)
  | .movs g d imm => word1 0xb g (d.val * 0x20000 + imm.toNat)
  | .addpc g d imm => word1 0xc g (d.val * 0x20000 + imm.toNat)
  | .cmpEq g pd a b => word1 0x10 g (pd.val * 0x20000 + a.val * 0x1000 + b.val * 0x80)
  | .cmpNe g pd a b => word1 0x10 g (pd.val * 0x20000 + a.val * 0x1000 + b.val * 0x80 + 0x1)
  | .cmpLt g pd a b => word1 0x10 g (pd.val * 0x20000 + a.val * 0x1000 + b.val * 0x80 + 0x2)
  | .cmpGe g pd a b => word1 0x10 g (pd.val * 0x20000 + a.val * 0x1000 + b.val * 0x80 + 0x3)
  | .cmpLtn g pd a b => word1 0x10 g (pd.val * 0x20000 + a.val * 0x1000 + b.val * 0x80 + 0x4)
  | .cmpGen g pd a b => word1 0x10 g (pd.val * 0x20000 + a.val * 0x1000 + b.val * 0x80 + 0x5)
  | .cmpiEq g pd a imm => word1 0x11 g (pd.val * 0x20000 + a.val * 0x1000 + imm.toNat)
  | .cmpiNe g pd a imm => word1 0x12 g (pd.val * 0x20000 + a.val * 0x1000 + imm.toNat)
  | .cmpiLt g pd a imm => word1 0x13 g (pd.val * 0x20000 + a.val * 0x1000 + imm.toNat)
  | .cmpiGe g pd a imm => word1 0x14 g (pd.val * 0x20000 + a.val * 0x1000 + imm.toNat)
  | .cmpiLtn g pd a imm => word1 0x15 g (pd.val * 0x20000 + a.val * 0x1000 + imm.toNat)
  | .cmpiGen g pd a imm => word1 0x16 g (pd.val * 0x20000 + a.val * 0x1000 + imm.toNat)
  | .pand g pd pa pb => word1 0x17 g (pd.val * 0x20000 + pa.val * 0x1000 + pb.val * 0x80)
  | .por g pd pa pb => word1 0x17 g (pd.val * 0x20000 + pa.val * 0x1000 + pb.val * 0x80 + 0x1)
  | .pxor g pd pa pb => word1 0x17 g (pd.val * 0x20000 + pa.val * 0x1000 + pb.val * 0x80 + 0x2)
  | .pnot g pd pa => word1 0x17 g (pd.val * 0x20000 + pa.val * 0x1000 + 0x3)
  | .pmov g pd pa => word1 0x17 g (pd.val * 0x20000 + pa.val * 0x1000 + 0x4)
  | .br g off => word1 0x18 g (off.toNat)
  | .brl g off => word1 0x19 g (off.toNat)
  | .jr g a => word1 0x1a g (a.val * 0x1000)
  | .jrl g d a => word1 0x1a g (d.val * 0x20000 + a.val * 0x1000 + 0x1)
  | .nop g => word1 0x1a g (0x2)
  | .loop g d imm => word1 0x1b g (d.val * 0x20000 + imm.toNat)
  | .ldB g d a off => word1 0x1c g (d.val * 0x20000 + a.val * 0x1000 + off.toNat + 0x200)
  | .ldH g d a off => word1 0x1c g (d.val * 0x20000 + a.val * 0x1000 + off.toNat + 0x600)
  | .ldW g d a off => word1 0x1c g (d.val * 0x20000 + a.val * 0x1000 + off.toNat + 0xa00)
  | .ldBn g d a off => word1 0x1c g (d.val * 0x20000 + a.val * 0x1000 + off.toNat)
  | .ldHn g d a off => word1 0x1c g (d.val * 0x20000 + a.val * 0x1000 + off.toNat + 0x400)
  | .ldWn g d a off => word1 0x1c g (d.val * 0x20000 + a.val * 0x1000 + off.toNat + 0x800)
  | .ldD g d a off => word1 0x1c g (d.val * 0x20000 + a.val * 0x1000 + off.toNat + 0xc00)
  | .stB g d a off => word1 0x1d g (d.val * 0x20000 + a.val * 0x1000 + off.toNat)
  | .stH g d a off => word1 0x1d g (d.val * 0x20000 + a.val * 0x1000 + off.toNat + 0x400)
  | .stW g d a off => word1 0x1d g (d.val * 0x20000 + a.val * 0x1000 + off.toNat + 0x800)
  | .stD g d a off => word1 0x1d g (d.val * 0x20000 + a.val * 0x1000 + off.toNat + 0xc00)
  | .ldp g dh a off => word1 0x1e g (dh.val * 0x40000 + a.val * 0x1000 + off.toNat + 0xc00)
  | .stp g dh a off => word1 0x1f g (dh.val * 0x40000 + a.val * 0x1000 + off.toNat + 0xc00)
  | .pref g write a off => word1 0x20 g (write.toNat * 0x20000 + a.val * 0x1000 + off.toNat + 0xc00)
  | .amoAddW g d a b sc => word1 0x21 g (d.val * 0x20000 + a.val * 0x1000 + b.val * 0x80 + sc.code)
  | .amoAndW g d a b sc => word1 0x21 g (d.val * 0x20000 + a.val * 0x1000 + b.val * 0x80 + sc.code + 0x8)
  | .amoOrW g d a b sc => word1 0x21 g (d.val * 0x20000 + a.val * 0x1000 + b.val * 0x80 + sc.code + 0x10)
  | .amoXorW g d a b sc => word1 0x21 g (d.val * 0x20000 + a.val * 0x1000 + b.val * 0x80 + sc.code + 0x18)
  | .amoMinW g d a b sc => word1 0x21 g (d.val * 0x20000 + a.val * 0x1000 + b.val * 0x80 + sc.code + 0x20)
  | .amoMaxW g d a b sc => word1 0x21 g (d.val * 0x20000 + a.val * 0x1000 + b.val * 0x80 + sc.code + 0x28)
  | .amoMinnW g d a b sc => word1 0x21 g (d.val * 0x20000 + a.val * 0x1000 + b.val * 0x80 + sc.code + 0x30)
  | .amoMaxnW g d a b sc => word1 0x21 g (d.val * 0x20000 + a.val * 0x1000 + b.val * 0x80 + sc.code + 0x38)
  | .amoSwapW g d a b sc => word1 0x21 g (d.val * 0x20000 + a.val * 0x1000 + b.val * 0x80 + sc.code + 0x40)
  | .amoFaddRxW g d a b sc => word1 0x21 g (d.val * 0x20000 + a.val * 0x1000 + b.val * 0x80 + sc.code + 0x48)
  | .amoAddD g d a b sc => word1 0x22 g (d.val * 0x20000 + a.val * 0x1000 + b.val * 0x80 + sc.code)
  | .amoAndD g d a b sc => word1 0x22 g (d.val * 0x20000 + a.val * 0x1000 + b.val * 0x80 + sc.code + 0x8)
  | .amoOrD g d a b sc => word1 0x22 g (d.val * 0x20000 + a.val * 0x1000 + b.val * 0x80 + sc.code + 0x10)
  | .amoXorD g d a b sc => word1 0x22 g (d.val * 0x20000 + a.val * 0x1000 + b.val * 0x80 + sc.code + 0x18)
  | .amoMinD g d a b sc => word1 0x22 g (d.val * 0x20000 + a.val * 0x1000 + b.val * 0x80 + sc.code + 0x20)
  | .amoMaxD g d a b sc => word1 0x22 g (d.val * 0x20000 + a.val * 0x1000 + b.val * 0x80 + sc.code + 0x28)
  | .amoMinnD g d a b sc => word1 0x22 g (d.val * 0x20000 + a.val * 0x1000 + b.val * 0x80 + sc.code + 0x30)
  | .amoMaxnD g d a b sc => word1 0x22 g (d.val * 0x20000 + a.val * 0x1000 + b.val * 0x80 + sc.code + 0x38)
  | .amoSwapD g d a b sc => word1 0x22 g (d.val * 0x20000 + a.val * 0x1000 + b.val * 0x80 + sc.code + 0x40)
  | .casW g d a b sc => word1 0x23 g (d.val * 0x20000 + a.val * 0x1000 + b.val * 0x80 + sc.code)
  | .casD g d a b sc => word1 0x23 g (d.val * 0x20000 + a.val * 0x1000 + b.val * 0x80 + sc.code + 0x8)
  | .fenceP g k1 k2 sc => word1 0x24 g (sc.code * 0x1000 + k2.toNat * 0x40 + k1.toNat)
  | .acqLd g d a size sext mask sc off => word1 0x25 g (d.val * 0x20000 + a.val * 0x1000 + sext.toNat * 0x4 + size.val) + 0x100000000 * (mask.toNat + sc.code * 0x40 + off.toNat * 0x10000)
  | .relSt g d a size mask sc off => word1 0x26 g (d.val * 0x20000 + a.val * 0x1000 + size.val) + 0x100000000 * (mask.toNat + sc.code * 0x40 + off.toNat * 0x10000)
  | .sete g e mask => word1 0x27 g (mask.toNat * 0x40 + e.val)
  | .clre g e => word1 0x27 g (e.val + 0x1000)
  | .waite g e mask => word1 0x27 g (mask.toNat * 0x40 + e.val + 0x2000)
  | .ringDef g a h => word1 0x28 g (a.val * 0x1000) + 0x100000000 * (h.val)
  | .rwaitF g a h mask imm => word1 0x28 g (a.val * 0x1000 + 0x1) + 0x100000000 * (h.val + mask.toNat * 0x10 + imm.toNat * 0x10000)
  | .rwaitE g a h mask imm => word1 0x28 g (a.val * 0x1000 + 0x2) + 0x100000000 * (h.val + mask.toNat * 0x10 + imm.toNat * 0x10000)
  | .radvP g a h mask imm => word1 0x28 g (a.val * 0x1000 + 0x3) + 0x100000000 * (h.val + mask.toNat * 0x10 + imm.toNat * 0x10000)
  | .radvC g a h mask imm => word1 0x28 g (a.val * 0x1000 + 0x4) + 0x100000000 * (h.val + mask.toNat * 0x10 + imm.toNat * 0x10000)
  | .rstat g d h => word1 0x28 g (d.val * 0x20000 + 0x5) + 0x100000000 * (h.val)
  | .stepBegin g a => word1 0x29 g (a.val * 0x1000)
  | .stepProg g a => word1 0x29 g (a.val * 0x1000 + 0x1)
  | .stepEnd g => word1 0x29 g (0x2)
  | .fork g a mask => word1 0x2c g (a.val * 0x1000 + mask.toNat * 0x80)
  | .join g mask => word1 0x2c g (mask.toNat * 0x80 + 0x1)
  | .exit g => word1 0x2c g (0x2)
  | .exitA g => word1 0x2c g (0x3)
  | .rdv g mask id => word1 0x2d g (mask.toNat * 0x100 + id.toNat)
  | .spawn g d a => word1 0x2e g (d.val * 0x20000 + a.val * 0x1000)
  | .spawnC g d a => word1 0x2e g (d.val * 0x20000 + a.val * 0x1000 + 0x1)
  | .cfgLoad g d a b => word1 0x2f g (d.val * 0x20000 + a.val * 0x1000 + b.val * 0x80)
  | .cfgStat g d a => word1 0x2f g (d.val * 0x20000 + a.val * 0x1000 + 0x1)
  | .fabGo g a => word1 0x2f g (a.val * 0x1000 + 0x2)
  | .binPush g a => word1 0x2f g (a.val * 0x1000 + 0x3)
  | .binCnt g d a => word1 0x2f g (d.val * 0x20000 + a.val * 0x1000 + 0x4)
  | .fabQuiet g a => word1 0x2f g (a.val * 0x1000 + 0x5)
  | .collRed g dh a b op w64 base size tag => word1 0x30 g (dh.val * 0x40000 + a.val * 0x1000 + b.val * 0x80) + 0x100000000 * (op.val + w64.toNat * 0x10 + base.val * 0x40 + size.val * 0x8000 + tag.toNat * 0x1000000)
  | .collBcast g dh a b w64 base size tag => word1 0x30 g (dh.val * 0x40000 + a.val * 0x1000 + b.val * 0x80 + 0x1) + 0x100000000 * (w64.toNat * 0x10 + base.val * 0x40 + size.val * 0x8000 + tag.toNat * 0x1000000)
  | .trap g code => word1 0x32 g (code.toNat)
  | .trapTerminate g => word1 0x32 g (0x0)
  | .trapTerminateGang g => word1 0x32 g (0x1)
  | .trapPreempt g => word1 0x32 g (0x2)
  | .sysc g code => word1 0x33 g (code.toNat)
  | .retr g => word1 0x34 g (0x0)
  | .idle g => word1 0x34 g (0x1)
  | .bkpt g => word1 0x34 g (0x2)
  | .tlbiAll g => word1 0x34 g (0x3)
  | .tlbiAsid g a => word1 0x34 g (a.val * 0x1000 + 0x83)
  | .tlbiVa g a => word1 0x34 g (a.val * 0x1000 + 0x103)
  | .tlbiVaAsid g a => word1 0x34 g (a.val * 0x1000 + 0x183)
  | .cflush g a => word1 0x34 g (a.val * 0x1000 + 0x4)
  | .cinv g a => word1 0x34 g (a.val * 0x1000 + 0x5)
  | .mfs g d r => word1 0x35 g (d.val * 0x20000 + r.toNat)
  | .mts g a r => word1 0x36 g (a.val * 0x1000 + r.toNat)
  | .mtsFlags g a => word1 0x36 g (a.val * 0x1000 + 0x1)
  | .mtsReplaycnt g a => word1 0x36 g (a.val * 0x1000 + 0xb)
  | .mtsCtxinv g a => word1 0x36 g (a.val * 0x1000 + 0x41c)
  | .mtsWsctl g a => word1 0x36 g (a.val * 0x1000 + 0x419)
  | .mtsWsctlSwreq g a => word1 0x36 g (a.val * 0x1000 + 0x419)
  | .mtsWtbl g a => word1 0x36 g (a.val * 0x1000 + 0x41a)
  | .cpy g d a b o => word1 0x38 g (d.val * 0x20000 + a.val * 0x1000 + b.val * 0x80) + 0x100000000 * (o.bits)
  | .cpyF g d a b o arm => word1 0x38 g (d.val * 0x20000 + a.val * 0x1000 + b.val * 0x80 + 0x1) + 0x100000000 * (o.bits + arm.val * 0x4000)
  | .cpyR g a b o rop => word1 0x38 g (a.val * 0x1000 + b.val * 0x80 + 0x2) + 0x100000000 * (o.bits + rop.val * 0x10000)
  | .cpyG g d a b o => word1 0x38 g (d.val * 0x20000 + a.val * 0x1000 + b.val * 0x80 + 0x3) + 0x100000000 * (o.bits)
  | .cpyS g d a b o => word1 0x38 g (d.val * 0x20000 + a.val * 0x1000 + b.val * 0x80 + 0x4) + 0x100000000 * (o.bits)
  | .cpyMx g d a b o => word1 0x38 g (d.val * 0x20000 + a.val * 0x1000 + b.val * 0x80 + 0x5) + 0x100000000 * (o.bits)
  | .cpyPl g a b o => word1 0x38 g (a.val * 0x1000 + b.val * 0x80 + 0x6) + 0x100000000 * (o.bits)
  | .cpyFill g a b o => word1 0x38 g (a.val * 0x1000 + b.val * 0x80 + 0x7) + 0x100000000 * (o.bits)
  | .cpyWait g a imm => word1 0x38 g (a.val * 0x1000 + 0x8) + 0x100000000 * (imm.toNat * 0x10000)
  | .mxcShape g d a b => word1 0x3c g (d.val * 0x20000 + a.val * 0x1000 + b.val * 0x80) + 0x100000000 * (0)
  | .mxcOpa g d a b ty ring => word1 0x3c g (d.val * 0x20000 + a.val * 0x1000 + b.val * 0x80 + 0x1) + 0x100000000 * (ty.toNat + (ringBits ring) * 0x100)
  | .mxcOpb g d a b ty ring => word1 0x3c g (d.val * 0x20000 + a.val * 0x1000 + b.val * 0x80 + 0x2) + 0x100000000 * (ty.toNat + (ringBits ring) * 0x100)
  | .mxcArm g a b slot opc o => word1 0x3c g (a.val * 0x1000 + b.val * 0x80 + 0x3) + 0x100000000 * (o.bits + slot.val * 0x2000 + (opc.val + 4) * 0x8000)
  | .mma g evt => word1 0x3c g (0x4) + 0x100000000 * (evtBits evt)
  | .mmz g evt => word1 0x3c g (0x5) + 0x100000000 * (evtBits evt)
  | .mmp g a b o => word1 0x3c g (a.val * 0x1000 + b.val * 0x80 + 0x6) + 0x100000000 * (o.bits)
  | .mxcDrain g a b ty acci ef satf evt => word1 0x3c g (a.val * 0x1000 + b.val * 0x80 + 0x7) + 0x100000000 * (evtBits evt + ty.toNat * 0x80 + acci.toNat * 0x8000 + ef.toNat * 0x10000 + satf.toNat * 0x20000)
  | .mxcDrainD g a ndm1 acci evt => word1 0x3c g (a.val * 0x1000 + 0x8) + 0x100000000 * (evtBits evt + ndm1.val * 0x80 + acci.toNat * 0x8000)
  | .longOpComplete _ _ _ => 0
  | .releasePerformed _ _ _ => 0
  | .trapDelivery _ _ => 0
  | .machineCheck _ _ => 0
  | .superstepEnd _ _ => 0
  | .dlriskPost _ _ => 0
  | .taskRetire _ => 0
  | .jobComplete _ => 0
  | .binEnqueue _ _ => 0
  | .bindeadlock _ => 0
  | .binDispatch _ _ => 0
  | .partialDispatch _ _ => 0
  | .binAged _ _ => 0
  | .schedulerChoose _ => 0
  | .configFrameWrite _ => 0
  | .slotStart _ _ => 0
  | .regionDrained _ _ => 0
  | .pinnedRegionEnd _ _ => 0
  | .slotSwitch _ _ _ _ => 0
  | .elementFire _ _ _ _ => 0
  | .killArrival _ _ => 0
  | .legRoute _ _ _ _ _ => 0
  | .legBcast _ _ _ _ _ => 0
  | .legIdx _ _ _ _ _ => 0
  | .legMerge _ _ _ _ _ => 0
  | .legSteer _ _ _ _ _ => 0
  | .legHold _ _ _ _ _ => 0
  | .portWrd _ _ _ => 0
  | .portWwr _ _ _ => 0
  | .portDrd _ _ _ => 0
  | .portReadReturn _ _ _ => 0
  | .portDwr _ _ _ => 0
  | .portAmo _ _ _ => 0
  | .portRed _ _ _ => 0
  | .portExp2 _ _ _ => 0
  | .portLog2 _ _ _ => 0
  | .portRcp _ _ _ => 0
  | .portRsqrt _ _ _ => 0
  | .portTanh _ _ _ => 0
  | .portCvd _ _ _ => 0
  | .portCvw _ _ _ => 0
  | .portBenq _ _ _ => 0
  | .portMove _ _ _ => 0
  | .portFifov _ _ _ => 0
  | .portFifos _ _ _ => 0
  | .portLbuf _ _ _ => 0
  | .portEos _ _ _ => 0
  | .ringGeneratorSlot _ _ _ _ => 0
  | .ringGeneratorAdvance _ _ _ _ => 0
  | .arrayPortServe _ _ => 0
  | .copyCommandBegin _ => 0
  | .copyRingClaim _ _ => 0
  | .copyCommandComplete _ _ => 0
  | .copyAccessFailure _ _ => 0
  | .matrixNextCommand _ => 0
  | .armSlotStore _ => 0
  | .matrixRingSlot _ => 0
  | .mmpEvaluation _ => 0
  | .matrixCommandComplete _ => 0
  | .matrixAccessFailure _ => 0
  | .homeAccess _ _ => 0
  | .l2Fill _ _ _ => 0
  | .combineRequest _ _ => 0
  | .sheafReturn _ => 0
  | .pageWalkStart _ _ => 0
  | .pageWalkComplete _ _ => 0
  | .schedulerCycle _ => 0
  | .gangLevelRaise _ _ => 0
  | .gangStart _ _ => 0
  | .launchWrite _ _ _ _ => 0
  | .quantumExpiry _ => 0
  | .enginePreemptStop _ _ => 0
  | .preemptSave _ => 0
  | .preemptSaveDone _ => 0
  | .preemptLimitExpiry _ _ => 0
  | .worldSwitchComplete _ => 0
  | .gangResume _ _ => 0
  | .currentReport _ _ => 0
  | .governorEvaluation _ => 0
  | .railSlewDone _ => 0
  | .canaryTrip _ => 0
  | .correctableError _ => 0
  | .ageingRead _ _ => 0
  | .replan _ _ => 0
  | .inboundWrite _ _ _ _ _ => 0
  | .inboundRead _ _ _ _ _ => 0
  | .zeroLengthRead _ => 0
  | .atsInvalidate _ _ => 0
  | .hostReadTimeout _ => 0
  | .yilsinRd _ => 0
  | .yilsinWr _ => 0
  | .yilsinAmo _ => 0
  | .yilsinCas _ => 0
  | .yilsinRdrsp _ => 0
  | .yilsinWrack _ => 0
  | .yilsinAmorsp _ => 0
  | .yilsinFlush _ => 0
  | .yilsinFlushack _ => 0
  | .linkRetrainTimeout _ => 0
  | .dhaltHalt _ => 0
  | .dhaltResume _ => 0
  | .watchdogExpiry _ _ => 0
  | .counterForward _ => 0
  | .enloRead _ _ => 0
  | .registerWrite _ _ _ => 0
  | .imggo _ => 0
  | .moduleStart _ _ _ _ => 0
  | .startWatchdogExpiry => 0
  | .rootMonitorRequest _ => 0
  | .attestationRequest _ => 0
  | .clusterWithdraw _ => 0
  | .hostLinkDown => 0
  | .granaryLinkFailure _ => 0
  | .yilsinPortReturn _ => 0
  | .discardedFlit _ => 0
  | .unsupportedRequest _ => 0
  | .atsTranslationCompletion _ => 0

/-- R107: an instruction's length in bytes. -/
def Instr.len : Instr → Nat
  | .acqLd _ _ _ _ _ _ _ _ => 8
  | .relSt _ _ _ _ _ _ _ => 8
  | .ringDef _ _ _ => 8
  | .rwaitF _ _ _ _ _ => 8
  | .rwaitE _ _ _ _ _ => 8
  | .radvP _ _ _ _ _ => 8
  | .radvC _ _ _ _ _ => 8
  | .rstat _ _ _ => 8
  | .collRed _ _ _ _ _ _ _ _ _ => 8
  | .collBcast _ _ _ _ _ _ _ _ => 8
  | .cpy _ _ _ _ _ => 8
  | .cpyF _ _ _ _ _ _ => 8
  | .cpyR _ _ _ _ _ => 8
  | .cpyG _ _ _ _ _ => 8
  | .cpyS _ _ _ _ _ => 8
  | .cpyMx _ _ _ _ _ => 8
  | .cpyPl _ _ _ _ => 8
  | .cpyFill _ _ _ _ => 8
  | .cpyWait _ _ _ => 8
  | .mxcShape _ _ _ _ => 8
  | .mxcOpa _ _ _ _ _ _ => 8
  | .mxcOpb _ _ _ _ _ _ => 8
  | .mxcArm _ _ _ _ _ _ => 8
  | .mma _ _ => 8
  | .mmz _ _ => 8
  | .mmp _ _ _ _ => 8
  | .mxcDrain _ _ _ _ _ _ _ _ => 8
  | .mxcDrainD _ _ _ _ _ => 8
  | _ => 4

/-- R2, R107: the bytes of an instruction's words. -/
def encode (i : Instr) : List Byte := leBytes i.len (encodeNat i)

end Sys2Proof
end

