-- ==== Sys2Proof/Machine/State.lean ====
section
/-! DEFINITION. The state of one OD9 module as plain data: the sequencers, the cluster's engines and fabric,
the memories, the partitions with their schedulers, the links, the power, debug and boot blocks. -/

namespace Sys2Proof.Machine

/-- Bytes by address: strictly rising addresses, no entry equal to 0, which an unlisted byte reads as. -/
abbrev Memory := List Host.Cell

/-- Why the machine stops with a fault. -/
inductive Fault where
  /-- Raised by `step` when the schedule names a cluster the module does not have (R1: 512 clusters). Safe: no
  behaviour of the module is such a move. -/
  | agentAbsent
  deriving DecidableEq, Repr

/-- Why an instruction is refused. -/
inductive Refusal where
  /-- Raised by the dispatch for an instruction without a meaning; none is left. Safe: nothing can be proved of it. -/
  | notModelled (mnemonic : String)
  deriving DecidableEq, Repr

/-! ### Ordering of memory (R82 to R95) -/

/-- A release as an acquirer finds it: the writes that happen before it, its scope and its cluster (R92), and by engine class
of its cluster the accesses it covers, as the writes that come with them (R91). -/
structure RelInfo where
  known : List Nat
  scope : Scope
  cluster : Nat
  done : Table (List Nat)
  deriving DecidableEq, Repr

/-- One write of memory at its place in the serialisation order (R86, R90): `pred` holds for each of its bytes, which are
locations of their own (R81), the writes that precede it there, `rels` the releases whose sequences it belongs to (R92). -/
structure WriteRec where
  id : Nat
  key : Nat
  old : List Byte
  new : List Byte
  pred : List (List Nat)
  rels : List RelInfo
  at_ : Nat                -- the identifier next to be given out when it took its place
  deriving DecidableEq, Repr

/-- The agents of R82 that issue global requests. -/
structure Agent where
  cluster : Nat
  cls : Nat        -- bit number of R82
  sub : Nat        -- the sequencer; the port as 32 × slot + tile
  deriving DecidableEq, Repr

/-- What a request to a home does (R99, R173). -/
inductive ReqKind where
  | read (size : Nat)
  | write (bytes : List Byte)
  | amo (op : Nat) (w64 : Bool) (operand : Word) (fromPort : Bool)
  | cas (w64 : Bool) (cmp new : Word)
  | flush
  | invalidate
  /-- The words of a group, each at its key: one entry of an array port, written as single accesses (R238, R241). -/
  | group (l : List (Nat × List Byte))
  /-- Reductions to one line in one entry: key, operation, width and operand of each (R98). -/
  | reds (l : List (Nat × Nat × Bool × Word))
  deriving DecidableEq, Repr

/-- Where a request's answer goes. -/
inductive RetTo where
  | seqOp (cl : Nat) (q : SeqId) (serial : Nat)
  | seqHalf (cl : Nat) (q : SeqId) (serial : Nat) (hi : Bool)   -- one half of a pair (R160)
  | portRead (cl slot tile id : Nat)   -- a read of a port (R236)
  | port (cl slot tile : Nat)      -- an AMO: the old value goes to the port (R240)
  | portDone (cl slot tile : Nat)  -- a write or RED of a port
  | remote (f : Flit)        -- answered with a packet to the requesting module (R397)
  | line (who : Agent) (pa : Nat)   -- an engine's or record read of a line of another module, or of the host from 2^60 up
  | sheaf (n : Nat)          -- split at the switch that made sheaf n (R102)
  | nowhere
  deriving DecidableEq, Repr

/-- A leaf in a cluster's TLB (R337, R340). -/
structure TlbEntry where
  asid : Nat
  global : Bool
  vbase : Nat
  size : Nat
  pbase : Nat
  r : Bool
  w : Bool
  x : Bool
  pin : Bool
  cmp : Bool
  cls : Nat
  deriving DecidableEq, Repr

/-- A global request, or a sheaf of them, on its way to its home (R99 to R103). -/
structure MemReq where
  id : Nat
  agent : Agent
  kind : ReqKind
  key : Nat                -- where: see `State.mem`; 2^60 + 2^21 × cluster + offset in the window
  pa : Nat                 -- the global physical address (R79)
  asid : Nat
  scope : Scope
  rel : Option RelInfo
  view : List Nat          -- writes that happen before it
  floor : List Nat         -- writes the agent has read at the location or before (R88)
  wpol : Nat               -- how the access treats L2: 0 write-back, 1 write-through, 2 no-allocate, 3 streaming (R347)
  rcls : Nat               -- replacement class of its leaf
  region : Nat             -- class F: 4 × cluster + slot; otherwise 0xFFFF (R407)
  ret : RetTo
  leaf : Option TlbEntry   -- the entry that translated it (R346)
  deriving DecidableEq, Repr

/-- The wait-buffer entry of a switch: the two requests of sheaf `id`, and the old value once it has returned
(R101, R102). -/
structure Sheaf where
  id : Nat
  first : MemReq
  second : MemReq
  old : Option Word
  wrote : Option Nat       -- the sheaf's write at its home
  pkt : Option Flit        -- the packet of other modules that carries the sheaf (R103, R398)
  port : Option Nat        -- the Yilsin output port whose wait buffer holds it (R101, R398)
  deriving DecidableEq, Repr

/-! ### Sequencers (R144 to R171) -/

/-- What a long operation does when it performs (R145, R159, R172). -/
inductive OpKind where
  | load (size : Nat) (sext : Bool)
  | store (size : Nat)
  | loadPair
  | storePair
  | amo (op : Nat) (w64 : Bool) (sc : Scope)
  | cas (w64 : Bool) (sc : Scope)
  | flush
  | invalidate
  | alu
  /-- The ninth replay entry: an instruction whose record read had been sent (R351, R368). -/
  | command
  deriving DecidableEq, Repr

/-- Where a long operation stands: not yet sent to memory, sent, performed with its values, or faulted (R171). -/
inductive Phase where
  | unsent
  | sent (id : Nat)
  /-- A pair's halves, each sent, and performed once it has a value (R81, R160). -/
  | halves (lo hi : Option Word)
  /-- One half of a pair has failed, and the other has been sent and has not returned (R160, R171). -/
  | failing (hi : Bool)
  | done (v v2 : Word)
  | faulted (cause detail : Nat) (arg : Word)
  deriving DecidableEq, Repr

/-- A release that has not performed (R91): its mask, scope, and the flush markers not yet acknowledged (R97). -/
structure Release where
  mask : Mask
  scope : Scope
  markers : List (Nat × Nat)   -- module and EPOCH of each FLUSHACK outstanding (R97, R397)
  before : Nat             -- the class-C operations with a smaller serial precede it
  cmds : List Nat          -- commands of its own engine not complete when it was executed (R91 item 3)
  known : List Nat         -- REL.ST: the writes it covers and those before them, as far as they have performed
  done : Table (List Nat)  -- REL.ST: the engines' accesses among them, by class
  zero : Option Nat        -- SY: the zero-length read of the host that follows its writes there, once sent (R93)
  performed : Bool
  deriving DecidableEq, Repr

/-- An outstanding long operation or replay entry (R145, R171, R368). -/
structure LongOp where
  ins : Instr
  pc : Word
  kind : OpKind
  ea : Word
  d1 : Word
  d2 : Word
  dst : Nat
  /-- REL.ST: its release, until it has performed (R178). -/
  rel : Option Release
  /-- ACQ.LD: mask and scope of its acquire (R178). -/
  acq : Option (Mask × Scope)
  phase : Phase
  serial : Nat
  view : List Nat          -- the writes that come before it (R85)
  half : Option (Bool × Word)   -- a pair's half that has performed where the other has failed: never made twice (R171)
  deriving DecidableEq, Repr

/-- What a waiting instruction does when its release has performed (R179, R182). -/
inductive RelEffect where
  | fence (k2 : Mask)
  | setEvent (e : Nat)
  | advanceP (h : Nat) (n : Word)
  | advanceC (h : Nat) (n : Word)
  deriving DecidableEq, Repr

/-- The progress of a waiting instruction that is not made twice (R188). -/
inductive WaitKind where
  | release (r : Release) (e : RelEffect)
  | released
  /-- A release that a trap has dropped: its markers, which the instruction issued again still waits for (R97). -/
  | owed (markers : List (Nat × Nat))
  | failed (cause detail : Nat) (arg : Word)
  | stepEnd (step : Nat)
  | coll (inst : Nat) (dh : Fin 16)
  | event (e : Nat) (hit : Option (List RelInfo))
  | ring (h : Nat) (full : Bool) (count : Nat) (hit : Option (List RelInfo))
  | rdv (mask : BitVec 4) (id : BitVec 8) (r : Release)
  | loading (slot : Nat)
  /-- An engine command waits for a place in its queue or for a record, which is no instruction boundary (R256). -/
  | placing
  /-- The instruction's record read has been sent and has not returned (R351); `stall`: at an engine command (R256). -/
  | reading (i : Instr) (ea : Word) (stall : Bool)
  | exiting
  /-- A TLBI waits for the accesses that the entries it has removed had translated, by their identifiers (R346). -/
  | drain (ids : List Nat)
  deriving DecidableEq, Repr

/-- A waiting instruction's progress, kept under its pc. -/
structure WaitRec where
  pc : Word
  kind : WaitKind
  deriving DecidableEq, Repr

/-- A trap frame (R351, R354). -/
structure Frame where
  pc : Word
  cause : Word
  arg : Word
  replay : List LongOp
  deriving DecidableEq, Repr

/-- One sequencer (R144, R147, R305, R308, R354). -/
structure Sequencer where
  regs : Vector Word 32
  preds : Vector Bool 8
  pc : Word
  pl : Bool                 -- PSTATE.PL
  ppl : Bool                -- PSTATE.PPL
  amask : Bool              -- PSTATE.AMASK
  svscr : Vector Word 4
  frame : Frame             -- TRAPPC, TRAPCAUSE, TRAPARG and the replay entries
  shadow : Option Frame     -- the shadow frame, when full
  inProg : Bool             -- in a program handler
  inSup : Bool              -- in a supervisor handler
  idle : Bool               -- never forked, or idle under R33
  exited : Bool             -- has executed EXIT or EXIT.A
  sleeping : Bool           -- stopped by IDLE (R168)
  halted : Bool             -- halted by debug (R401)
  haltWant : Bool           -- its halt waits for an instruction boundary (R256, R401)
  haltAtBkpt : Bool
  outstanding : List LongOp -- issued, in issue order
  waits : List WaitRec
  resume : Option (Word × Word)   -- an instruction replayed as a whole, and where issue goes on after it (R351)
  serial : Nat
  engFaults : List (Nat × Word)   -- pending ENGFAULT: detail and argument
  engPage : Bool
  dlrisk : Option Word
  mchk : Option (Nat × Word)
  own : List Nat            -- identifiers of its class-C writes
  seen : Table (List Nat)   -- per class of R82: writes its later accesses of the class come after
  past : List Nat           -- writes that accesses it has made come after (R85)
  obs : Table (List Nat)    -- per engine class: accesses whose completion it has observed, as their writes (R91)
  acqAt : Nat               -- the identifier next to be given out when its latest acquire completed (R96)
  floor : List Nat          -- writes it has read (R88)
  deriving DecidableEq, Repr

/-! ### Rings, bins and slots -/

/-- A claim of ring slots by a copy command (R266). -/
structure Claim where
  cmd : Nat
  produce : Bool
  n : Nat
  finished : Bool
  failed : Bool
  deriving DecidableEq, Repr

/-- A ring handle (R181, R182, R272). -/
structure Ring where
  defined : Bool
  ended : Bool
  tmask : Nat
  nslot : Nat
  slotu : Nat
  base : Nat
  init : Nat
  p : Nat
  c : Nat
  claims : List Claim
  relP : List RelInfo
  relC : List RelInfo
  byP : Option Nat          -- who advanced P last: a sequencer 0 to 2, with its engine, or a region as 3 + slot (R403)
  byC : Option Nat
  deriving DecidableEq, Repr

/-- A thread record: header and live values (R8). -/
structure Record where
  hdr : Word
  vals : List W32
  deriving DecidableEq, Repr

/-- A block's bin (R13, R24, R26). -/
structure Bin where
  recs : List Record       -- oldest first, spilled ones included
  spillCap : Nat           -- records the spill area holds
  since : Nat              -- clk from which the age counts (R26)
  newest : Nat             -- clk in which the newest record arrived (R13)
  aged : Bool
  deriving DecidableEq, Repr

/-- The states of a configuration slot (R17). -/
inductive SlotState where
  | empty | loading | ready | running | draining | idle
  deriving DecidableEq, Repr

/-- A configuration slot (R14 to R17, R216, R401, R405, R406). -/
structure Slot where
  st : SlotState
  blk : Nat
  ver : Nat
  img : Word
  lasterr : Nat
  frames : List Nat         -- the frames after the header, as 256-bit numbers, SLOT filled in
  groups : Nat              -- groups dispatched in this period (R28)
  dispatching : Bool
  startClk : Nat
  readyClk : Nat
  halted : Bool
  haltPending : Bool
  wasRunning : Bool
  keep : Bool               -- generators and ports keep their positions (R362, R402)
  wdCount : Nat
  fired : List (Nat × Nat)  -- units' firings (0) and switches (1) since the last clk counted (R405)
  sums : Vector Nat 8       -- R405 class sums
  deriving DecidableEq, Repr

/-- A load on the configuration bus (R18, R131, R132). -/
structure Load where
  slot : Nat
  blk : Nat
  img : Word
  sched : Bool              -- begun by the block scheduler
  asid : Nat                -- the space its frames are read in (R306)
  view : List Nat           -- writes its frame reads come after (R126)
  clk : Nat                 -- clk in which it began (R18)
  header : Nat              -- the header frame, once read
  next : Nat                -- frames read so far, the header included
  crc : BitVec 32
  deriving DecidableEq, Repr

/-! ### The digit fabric -/

/-- A beat or token of the three networks (R189, R192). -/
inductive Token where
  | head (e : List Byte)
  | dig (d : List Byte)
  | tail
  | nul
  | eos
  | err (mask code : Nat)
  | bad
  | word (w : W32)
  | serr (code : Nat)
  | ctl (m : BitVec 16)
  deriving DecidableEq, Repr

/-- A channel as its consumer sees it: the buffered tokens, the requests outstanding (R193), the values the
consumer has finished or killed and the values the producer has finished or stopped, modulo nothing (R194 counts
them modulo 4). -/
structure Chan where
  buf : List Token
  req : Nat
  consumed : Nat
  produced : Nat
  late : Bool               -- the last beat of the buffer still waits for its turn to cross (R223)
  deriving DecidableEq, Repr

/-- A KILL on its way to the producer of a channel (R194). -/
structure Kill where
  chan : Nat
  ordinal : Nat
  deriving DecidableEq, Repr

/-- The part of a value an element has consumed on one input (R190, R201). -/
structure InVal where
  headed : Bool
  head : List Byte
  digs : List (List Byte)   -- raw lane bytes, first digit first
  errs : Vector Nat 16      -- the first error each lane has taken; 0 none (R191)
  done : Bool               -- TAIL consumed, or ended
  nul : Bool
  killed : Bool
  skip : Bool               -- beats up to the next TAIL, NUL or EOS are discarded (R190)
  eos : Bool                -- EOS has been consumed
  active : Bool
  deriving DecidableEq, Repr

/-- The value in progress on one vector output: its beats emitted, the lanes whose ERR has gone out, whether its
TAIL or NUL has, and the EOS of the stream (R190, R191, R211). -/
structure OutVal where
  head : Bool
  dig : Nat
  err : Nat
  done : Bool
  eos : Bool
  deriving DecidableEq, Repr

/-- One slot of a digit element (R15, R197, R212). -/
structure Elem where
  q0 : BitVec 32
  q1 : BitVec 32
  a : InVal
  b : InVal
  ctl : Option (BitVec 16)
  errs : Vector Nat 16      -- the first error each lane of the value in progress has taken; 0 none (R191)
  x : OutVal
  y : OutVal
  co : Bool                 -- the value's control token has been emitted or killed
  small : Nat               -- lanes whose divisor the element itself has found too small (R205)
  deriving DecidableEq, Repr

/-- One leg of a switch box (R224 to R228). -/
structure Leg where
  inVal : Bool              -- a value is being passed
  from2 : Bool              -- MERGE: from SRC2
  live : List Nat           -- ports that still receive it
  asErr : Nat               -- the value is delivered as ERR with this code; 0 otherwise
  lanes : Nat               -- then: the real lanes named so far
  credit : List Nat         -- ports that have killed their next value
  eosA : Bool               -- SRC has delivered EOS
  eosB : Bool               -- SRC2 has delivered EOS
  eosOut : List Nat         -- ports that have received EOS
  nulTo : List Nat          -- STEER: ports that have still to receive the value's NUL
  hold : List Token         -- HOLD: the beats of the value held
  copies : Nat              -- HOLD: copies delivered or killed
  pos : Nat                 -- HOLD: beats of the current copy delivered
  deriving DecidableEq, Repr

/-- A read a port has issued and whose result it has not emitted (R236): its request, the bytes once they have
returned, the code of its failure (0 none), and whether it has been killed. -/
structure PortRead where
  id : Nat
  data : Option (List Byte)
  code : Nat
  killed : Bool
  deriving DecidableEq, Repr

/-- One slot of a memory-tile port (R231 to R253). -/
structure Port where
  buf : Nat                 -- current buffer
  genPos : Vector Nat 2     -- indices taken from each generator, RING: within its slot
  genEnd : Vector Bool 2
  slotIn : Vector Bool 2    -- a RING generator holds a slot
  slotsDone : Vector Nat 2
  readQ : List PortRead
  outQ : List Token         -- tokens due on SX or VX
  coQ : List Token          -- tokens due on CO
  inVal : InVal
  words : List Token        -- operands collected
  lanes : Option (BitVec 16)
  fifo : List Token
  ended : Bool              -- the operation has ended
  eosDue : Bool             -- its EOS is still to be emitted
  reqs : Nat                -- atomics outstanding
  skips : Nat               -- values killed before their read was issued
  heldRec : List Record     -- BENQ records not yet in a bin
  drainOn : Bool            -- MXC.DRAIN.D is its producer
  moving : Option (List (Nat × List Byte) × Token)   -- writes of MOVE still to come, and its completion word (R249)
  own : List Nat            -- identifiers of its writes in this period (R84)
  before : List Nat         -- those of its earlier periods
  seen : List Nat           -- writes its ring waits have found (R253)
  floor : List Nat          -- writes it has read (R88)
  deriving DecidableEq, Repr

/-- The fabric of a cluster. -/
structure Fabric where
  chans : Table Chan
  elems : Table Elem
  legs : Table Leg
  ports : Table Port
  kills : List Kill
  running : Table Nat       -- element: the slot it runs (R16)
  links : Table Nat         -- channel of all slots: the slot its pointer stands at (R223)
  deriving DecidableEq, Repr

/-! ### Copy engine and matrix array -/

/-- A stream-pattern record as captured at placement (R256, R258). -/
structure Pattern where
  base : Word
  ty : Nat
  ndim : Nat
  ef : Bool
  satf : Bool
  conv : Nat
  counts : Vector Nat 4
  strides : Vector Word 4
  addr : Word
  deriving DecidableEq, Repr

/-- A write that an engine has still to make of a run or row it has read: the run, the address and the bytes. -/
structure DueWrite where
  run : Nat
  va : Nat
  bytes : List Byte
  deriving DecidableEq, Repr

/-- The copy commands (R123). -/
inductive CopyOp where
  | cpy | cpyF | cpyR | cpyG | cpyS | cpyMx | cpyPl | cpyFill
  deriving DecidableEq, Repr

/-- A placed copy command (R256, R262). -/
structure CopyCmd where
  id : Nat
  op : CopyOp
  src : Pattern
  dst : Pattern
  aux : Pattern             -- index record
  scale : Word
  value : Word
  opts : CopyOpts
  arm : Nat
  rop : Nat
  ns : Nat                  -- slots of the ring side
  view : List Nat           -- writes its accesses come after
  asid : Nat
  claimed : Bool
  pos : Nat                 -- innermost-dimension runs read (R274, R362)
  due : List DueWrite       -- the writes of those runs still to be made, in traversal order
  going : Bool              -- a run is in progress (R343, R362)
  bad : Option Nat          -- the first index out of range (R267)
  ids : List Nat            -- identifiers of the writes made
  fault : Option (Nat × Nat)  -- DETAIL and address of the access that failed (R277)
  deriving DecidableEq, Repr

/-- The copy engine (R256, R274). -/
structure CopyEngine where
  queue : List CopyCmd
  begun : List CopyCmd
  writes : List Nat         -- identifiers of class-Y writes completed
  reads : List Nat          -- writes its commands have read
  before : List Nat         -- writes of the commands before the latest release that names the class (R84)
  floor : List Nat          -- writes those commands have read
  mark : Nat                -- that release: the commands with a smaller identifier come before it
  stopped : Bool
  deriving DecidableEq, Repr

/-- An operand descriptor (R283). -/
structure Operand where
  ty : Nat
  base : Word
  stride : Word
  scale : Word
  ring : Option Nat
  deriving DecidableEq, Repr

/-- The matrix commands (R281). -/
inductive MatOp where
  | shape (m n k : Nat)
  | opa (o : Operand)
  | opb (o : Operand)
  | arm (slot : Nat) (opc : Nat) (theta : W32) (p : Nat) (o : MmpOpts)
  | mma
  | mmz
  | mmp (theta : W32) (p : Nat) (o : MmpOpts)
  | drain (base stride : Word) (ty : Nat) (acci ef satf : Bool)
  | drainD (tile slot ndm1 : Nat) (acci : Bool)
  deriving DecidableEq, Repr

/-- A placed matrix command, with the shape and operands it runs under once captured (R288). -/
structure MatCmd where
  id : Nat
  op : MatOp
  evt : Option Nat
  view : List Nat
  asid : Nat
  shape : Option (Nat × Nat × Nat)
  a : Option Operand
  b : Option Operand
  armed : Option Nat
  deriving DecidableEq, Repr

/-- The matrix command in progress: rings waited for, and MMP's state per output (R286). -/
structure MatRun where
  cmd : MatCmd
  slotA : Option Nat        -- ring slot obtained
  slotB : Option Nat
  planes : Nat
  open_ : List Nat          -- outputs 256 m + n still open
  low : List Nat
  rows : Table Nat          -- planes each group row has fetched
  known : Table (List (List (List Int)))   -- per group row, its rows' k-blocks as those planes show them (R62)
  scales : Table (List (List Nat))         -- per group row, the scale codes of its rows
  cols : List (List Int)    -- the columns of B, once fetched
  kb : Nat                  -- k-blocks or rows completed (R280)
  due : List DueWrite       -- the writes of a drain's row still to be made
  going : Bool              -- a k-block, a plane or a row is in progress (R343, R362)
  ids : List Nat            -- identifiers of the writes made
  fault : Option (Nat × Nat)  -- DETAIL and address of the access that failed (R291)
  fetched : Nat             -- MXC.DRAIN.D: values emitted; `planes` then counts beats of the next
  deriving DecidableEq, Repr

/-- The matrix array (R278, R280, R288). -/
structure Matrix where
  acc : Table W32           -- 256 m + n
  queue : List MatCmd
  cur : Option MatRun
  arms : Table MatCmd
  pending : Vector Nat 4
  fired : List Nat          -- slots next in line, in the order of firing
  firedAt : Table Nat       -- the clk in which each of them fired
  armWait : Option MatCmd   -- MXC.ARM at the head, waiting for its slot
  shape : Option (Nat × Nat × Nat)
  a : Option Operand
  b : Option Operand
  shShape : Option (Nat × Nat × Nat)   -- the shadow of placed commands
  shA : Option Operand
  shB : Option Operand
  mrowp : Word
  writes : List Nat         -- identifiers of class-M writes completed
  reads : List Nat          -- writes its commands have read
  before : List Nat         -- writes of the commands before the latest release that names the class (R84)
  floor : List Nat          -- writes those commands have read
  mark : Nat                -- that release: the commands with a smaller identifier come before it
  stopped : Bool
  deriving DecidableEq, Repr

/-! ### Translation -/

/-- An outstanding miss of a cluster's TLB (R341, R343, R344). -/
structure Miss where
  asid : Nat
  page : Nat                -- va[54:16]
  va : Nat                  -- address of the first engine access that joined it
  cls : Nat                 -- class of that access: 1 F, 2 Y, 3 M; 0 when no engine joined it
  acc : Nat                 -- ACC of R344: bit 0 it reads, bit 1 it writes
  seqWants : Bool           -- a sequencer access joined it
  joins : List (Nat × Nat × Nat)   -- the engines' accesses that joined it: address, class, agent within the class
  walking : Bool
  failed : Option (Nat × Nat)   -- level and KIND of R344, once the walk has missed
  recorded : Bool
  deriving DecidableEq, Repr

/-! ### Tasks, gangs and jobs -/

/-- The states of a tile task (R332); one that is RETIRED has left its cluster, and its gang lists its rank. -/
inductive TaskState where
  | none | starting | running | exiting | abandoning | preempting | saved | failing
  deriving DecidableEq, Repr

/-- The checkpoint of a step (R360). -/
structure Checkpoint where
  regs : Vector Word 32
  preds : Vector Bool 8
  flags : Word
  pc : Word
  deriving DecidableEq, Repr

/-- The tile task of a cluster (R30, R134, R332). -/
structure Task where
  resident : Bool
  st : TaskState
  ctx : Nat
  world : Nat
  job : Nat
  gi : Nat
  rank : Nat
  n : Nat
  image : Word
  ptvec : Nat
  entry : Nat
  energy : Nat
  peak : Nat
  reexec : Bool
  smask : Nat
  quota : Nat
  dir : List (Nat × Nat × Nat)   -- directory: block, spill units, image offset
  init : List Record             -- initial thread records (R331)
  flags : Word                   -- FLAGS
  prog : Nat
  arrived : Bool
  stepClk : Nat                  -- clk at which the step began
  prevClk : Nat                  -- clk of the previous step
  ckpt : Option Checkpoint
  noReplay : Bool
  disc : Nat
  code : Nat
  detail : Nat
  cause : Nat
  errBlk : Nat
  abandoned : Bool
  preReq : List SeqId            -- the sequencers whose supervisor handler has executed TRAP #2 (R355, R361)
  acks : List Nat                -- engines that have acknowledged to the Gleaner
  left : Bool                    -- the control sequencer has executed EXIT or EXIT.A (R35, R44)
  flush : List (Nat × Nat)       -- markers of the step's end or of the retirement not yet acknowledged (R95, R97)
  tReq : Nat                     -- time of the pre-emption request
  deriving DecidableEq, Repr

/-- A block of a staged task in a slot that its cluster's resident task leaves free (R29, R39). -/
structure Prep where
  slot : Nat
  blk : Nat
  img : Word
  header : Nat              -- the header frame, once read
  next : Nat                -- frames read so far, the header included
  crc : BitVec 32
  frames : List Nat
  whole : Bool
  deriving DecidableEq, Repr

/-- A tile task staged on a cluster (R39, R330). -/
structure Staged where
  job : Nat
  gi : Nat
  blks : Option (List Nat)  -- its first blocks, once its initial thread records have been read
  preps : List Prep
  deriving DecidableEq, Repr

/-- A collective instance (R187). -/
structure Coll where
  id : Nat
  base : Nat
  size : Nat
  tag : Nat
  bcast : Bool
  op : Nat
  w64 : Bool
  count : Nat
  contribs : List (Nat × Word)   -- rank and contribution
  result : Option (Word × Word)
  deriving DecidableEq, Repr

/-- The states of a gang between its job's acceptance and its completion (R325 to R332). -/
inductive GangState where
  | waiting | entered | checking | candidate | admitted | resident | preempting | saved | done | discarded
  deriving DecidableEq, Repr

/-- A gang of a job (R322, R325, R326, R41, R42). -/
structure Gang where
  gi : Nat
  st : GangState
  image : Word
  argp : Word
  thrp : Word
  depg : Nat
  ptvec : Nat
  thrn : Nat
  size : Nat
  hdr : List Byte                -- the task header, once checked (R136)
  dir : List (Nat × Nat × Nat)
  readyAt : Nat                  -- ns
  bonus : Nat                    -- levels gained by waiting (R326)
  clusters : List Nat            -- ascending: rank r on the r-th, until it retires
  world : Nat
  step : Nat
  stepStart : Nat
  deadline : Option Nat          -- of the current step, absolute ns
  deadlineSet : Bool
  dlRaised : Bool
  dlPosted : Bool
  dlAt : Nat
  dlPend : Option Word           -- raised for a rank 0 that has retired, and not yet posted (R44)
  colls : List Coll
  code : Nat
  detail : Nat
  cause : Nat
  errBlk : Nat
  rankFail : Nat
  abandoned : Bool
  flags : Word
  retired : List Nat             -- ranks retired
  dead : List Nat                -- ranks terminated (R187)
  knew : List Nat                -- writes that the tasks retired had made or seen (R41, R95)
  disc : Nat
  preAt : Nat                    -- ns of the pre-emption request
  resumed : Bool
  deriving DecidableEq, Repr

/-- A job (R321, R323, R324, R333). -/
structure Job where
  num : Nat
  ctx : Nat
  gtab : Word
  crec : Word
  dep0 : Nat
  dep1 : Nat
  parent : Nat                   -- 0 none
  dlhint : Nat
  base : Nat                     -- base level
  accepted : Nat
  cont : Bool                    -- from SPAWN.C
  inPool : Bool
  live : Bool
  recLeft : Option (List (Nat × List Byte))   -- the pieces of its completion record still to be written, once that has begun
  recIds : List Nat              -- identifiers of the writes made of it
  recHost : Bool                 -- a piece lies in the host window, and the zero-length read behind it has not left (R93)
  recZero : Option Nat           -- that read, once sent
  gangs : List Gang
  code : Nat
  detail : Nat
  cause : Nat
  errBlk : Nat
  failGang : Nat
  failRank : Nat
  abandoned : Bool
  flags : Word
  disc : Nat
  deriving DecidableEq, Repr

/-- What the module keeps per context (R310, R313, R323, R393, R408). -/
structure Ctx where
  desc : Option (List Byte)      -- the cached descriptor (R311)
  seqHost : Nat
  seqSpawn : Nat
  everValid : Bool
  done : Nat
  lastjob : Nat
  rej : Nat
  rejReason : Nat
  dlrp : Word
  dlrc : Nat
  hpasid : Word
  cntctl : Word
  cntev : Word
  cnt : Vector Nat 8
  deriving DecidableEq, Repr

/-- A world of a partition (R316). -/
structure World where
  fmask : Nat
  cmask : Nat
  rct : List Word
  deriving DecidableEq, Repr

/-- A partition with its supervisor registers and its scheduler (R308, R314 to R320, R328). -/
structure Partition where
  first : Nat
  logsz : Nat
  module_ : Nat
  fns : Nat                      -- bit f: function f belongs to it (R309)
  svec : Word
  svasid : Nat
  rct : Vector Word 8
  ctxtbl : Word
  wtbl : Word
  wsMode : Bool
  wsNw : Nat
  wsCur : Nat
  wsBad : Bool
  wsQuant : Nat
  dropcnt : Nat
  worlds : List World
  nextWorlds : Option (List World)
  switching : Option Nat         -- the incoming world of a switch in progress
  quantStart : Nat
  pendingRct : Table Word        -- MTS to RCTn during a switch
  held : List Miss               -- misses of its scheduler's own accesses in a context, held (R331, R334, R343)
  ptr : Vector Nat 8             -- rotating pointers (R328)
  deriving DecidableEq, Repr

/-! ### Power, debug, boot, links -/

/-- The power state of a cluster (R371 to R387). -/
structure Power where
  n : Nat                        -- the point the clock runs at
  target : Nat                   -- the point it moves to
  left : Nat                     -- the point it ran at before, while the rail slews (R383)
  vset : Nat                     -- VCODE: the code the rail is set to
  railMv : Nat                   -- the rail when the slew began, in mV
  slewAt : Nat                   -- ns at which it began
  thr : Nat
  moff : Nat
  short : Bool
  wrap : Bool
  insvc : Bool
  withdrawn : Bool               -- R417
  code : Nat
  seq : Nat
  ecap : Nat
  icap : Nat
  mevt : Nat
  cec : Nat
  energy : Nat                   -- units of 2^-36 J
  enhi : Table Nat               -- shadow per requester
  interval : Nat                 -- reports in the control interval; 9: it begins at the next report (R379)
  reported : Option Nat          -- ns of the latest report
  recent : List Nat              -- VCODE × CODE of the last eight reports, newest first
  quiet : Nat                    -- quiet intervals since m last changed
  errSeen : Bool                 -- a correctable error in the interval
  drift : Nat                    -- in ppm
  planAt : Nat                   -- powered ns at the last plan
  almanac : List Nat             -- 33 entries of R376
  planned : Option (List Nat)    -- the Almanac of a new plan, which the governor uses from its next evaluation (R385)
  deriving DecidableEq, Repr

/-- The debug block (R400, R407). -/
structure Debug where
  darm : Vector Word 16
  drsel : Word
  trbase : Word
  trlog : Nat
  trwr : Nat
  trrd : Nat
  trdrop : Nat
  tren : Nat
  wdlim : Nat
  lf : Vector Word 8             -- LF0 and LF1: ALO, AHI, control, unused
  lfCount : Table Nat            -- slice × 2 + filter: matches
  lfNext : Table Nat             -- slice: the clk from which it may write its next record (R407)
  deriving DecidableEq, Repr

/-- The boot block and the root monitor's store (R411 to R420). -/
structure Boot where
  st : Nat
  warm : Bool
  wfail : Nat
  cfail : Nat
  ncl : Nat
  errstep : Nat
  imgaddr : Word
  imglen : Nat
  romOnly : Bool                 -- recovery by the boot ROM alone (R416)
  rsaKey : List Byte             -- fused signing-key digest of RSA-3072 (R411, R412)
  slhKey : List Byte             -- fused signing-key digest of SLH-DSA
  minVersion : Nat               -- fused minimum security version (R412)
  stage : List Byte              -- stored image of the root monitor's verified stage (R416)
  service : List Byte            -- stored image of the service firmware (R418)
  trained : Option Nat           -- powered ns at which the training record was written (R413)
  store : List (Nat × Nat × Nat × Nat) -- partition table: first die, LOGSZ, module, functions
  almanacs : Table (List Nat)
  dmap : Table (Bool × Nat)      -- domain map: valid bit and position (R395)
  powered : Nat                  -- powered ns before the last start (R385)
  started : Nat                  -- ns at which the start began
  starting : Bool                -- a start is in progress, or asked for by IMGGO
  step : Nat                     -- the step it stands at; 0 when it has yet to begin
  deriving DecidableEq, Repr

/-- A gathered flush at this module as destination (R398). -/
structure Gather where
  dmod : Nat
  smod : Nat
  scl : Nat
  epoch : Nat
  pmask : Nat
  got : Nat
  path : Nat               -- of its latest marker
  mark : Nat               -- the requests of its cluster that came before its latest marker have smaller identifiers
  deriving DecidableEq, Repr

/-- A host-window request waiting for the link or for a translation (R393). -/
structure HostReq where
  id : Nat
  agent : Agent
  addr : Nat
  ctx : Nat
  kind : ReqKind
  ret : RetTo
  rel : Option RelInfo
  needAts : Bool
  issued : Nat
  pasid : Option Nat             -- the prefix it carries (R393)
  leaf : Option TlbEntry         -- the entry that translated it (R346)
  deriving DecidableEq, Repr

/-- A line read from another module, or from the host, for an engine or a record of one agent, with the releases its reading
observes (R93, R96). -/
structure FarLine where
  who : Agent
  line : Nat
  bytes : List Byte
  rels : List RelInfo
  deriving DecidableEq, Repr

/-- What a partition of this module has found for a packet of another one, kept by its tag: the writes read, the releases
observed, the write made (R79, R92). -/
structure FarSeen where
  from_ : List Nat
  rels : List RelInfo
  wrote : Option Nat
  deriving DecidableEq, Repr

/-- A request that has left on the host link: the function whose requester ID it carries, its host address, whether it writes,
and its prefix (R393). -/
structure HostTlp where
  fn : Nat
  addr : Nat
  writes : Bool
  pasid : Option Nat
  deriving DecidableEq, Repr

/-- The links to the host, the Granary and the domain (R388 to R398). -/
structure Links where
  hostUp : Bool
  atsOn : List Nat               -- functions with ATS enabled
  ats : List (Nat × Nat)         -- function and page held in the translation cache
  hostReqs : List HostReq
  hostTlps : List (Nat × List Byte)   -- completions sent to requesters
  msix : List (Nat × Nat)        -- MSI-X messages sent: function and vector
  msixOpen : List (Nat × Nat)    -- unmasked vectors
  msixPend : List (Nat × Nat)    -- vectors with a message pending, the PBA (R389)
  msixTab : Table Word           -- the rest of the MSI-X table: 128 × function + 8-byte word (R389)
  unsupported : Nat
  aborts : Nat                   -- Completer Aborts sent
  granaryBad : List Nat          -- Granary ports without backing
  granaryCap : Table Nat         -- capacity in bytes of the device at each port, where it is not 512 GiB; 0: none (R394)
  yQ : List Flit                 -- packets in the output queues of the port dies (R396)
  yOut : List Flit               -- packets sent
  turned : List Flit             -- packets that a port die turns back to another partition of this module (R79)
  yWait : Table MemReq           -- requests to other modules by tag
  yPath : Table Nat              -- the path of each by its tag (R97, R397)
  yGot : Table FarSeen           -- by tag: what a partition of this module has found for a request of another
  yLines : List FarLine          -- lines read from other modules or from the host for an engine or a record
  yFailed : List (Agent × Nat)   -- lines whose read has failed
  yDown : List Nat               -- Yilsin ports out of use
  linkErrors : Nat
  gathers : List Gather
  epochs : Table Nat             -- release sequence per source cluster
  rWrites : Table (List Nat)     -- writes performed here for 512 × module + cluster of another module
  rFlushed : Table (List Nat)    -- those before its latest gathered flush
  rAgents : Table (List Nat × List Nat)   -- 8 × (512 × module + cluster) + class: its writes here, and those it has read
  rKnown : List Nat              -- writes that releases have made known to other modules
  moDone : List Nat              -- writes that have performed at MO (R93)
  syDone : List Nat              -- writes that have performed at SY (R93)
  hostSent : List HostTlp        -- requests sent on the host link (R393)
  hAgents : Table (List Nat × List Nat)   -- a requester's writes here, and those it has read (R84)
  hView : List Nat               -- writes that inbound accesses come after (R91)
  hostRels : List (Nat × Nat × RelInfo)   -- releases made by stores to host memory: place, bytes, release (R92)
  atsOpen : List (List Nat)      -- of each invalidation not completed, the accesses still to be sent (R393)
  atsDone : Nat                  -- invalidations completed
  zeroReads : List Nat           -- requesters whose zero-length read has completed, in order
  reports : List (List Byte)     -- attestation reports sent
  deriving DecidableEq, Repr

/-- A way of an L2 set (R348); of a modified line also the bytes its backing store holds (R163, R164). -/
structure L2Way where
  line : Option Nat
  age : Nat
  backing : Option (List Byte)
  deriving DecidableEq, Repr

/-- A line that an access has missed and that is on its way into its set, under the access's class; modified when it has been
written meanwhile (R347). -/
structure L2Fill where
  line : Nat
  rcls : Nat
  backing : Option (List Byte)
  deriving DecidableEq, Repr

/-- A fabric die: its walkers and their walk cache (R341). -/
structure Die where
  walkPtr : Nat
  walkCache : List (Nat × Nat × Nat)   -- ASID, address of a level-1 or level-2 table entry, entry
  edie : Nat
  deriving DecidableEq, Repr

/-- One cluster. -/
structure Cluster where
  task : Task
  staged : Option Staged
  seqC : Sequencer
  seqY : Sequencer
  seqM : Sequencer
  events : BitVec 64
  evRel : Table (List RelInfo)
  evAt : Table (Nat × Nat)       -- clk of the flag's latest set, and who made it: a sequencer 0 to 2, or an engine 3 (R179)
  rings : Table Ring
  tiles : Memory                 -- offset in the window, 0 … 2 MiB − 1
  tileQ : Table (List MemReq)    -- 8 × tile + requester: 0 window, 1 copy, 2 matrix, 3 + slot (R241)
  tilePtr : Table Nat
  tileAt : Table Nat             -- tile: clk after that of the latest access its array port has applied (R241)
  slots : Table Slot
  fab : Fabric
  bins : Table Bin
  pushSlot : Option Record
  startQ : List Record
  loads : List Load
  copy : CopyEngine
  mat : Matrix
  fWrites : List Nat             -- identifiers of class-F writes made
  fSeen : List Nat               -- writes its class-F accesses come after (R92, R253)
  tlb : List TlbEntry            -- most recently used first
  misses : List Miss
  clk : Nat
  blocked : Nat                  -- the count of R24
  power : Power
  events10 : Vector Nat 11       -- events seen and not yet forwarded (R409)
  wdog : Bool
  saving : Bool                  -- the Gleaner is writing the record (R363)
  usedMo : List (Nat × Nat)      -- modules and paths used since the last release at MO or wider (R97)
  usedDo : List (Nat × Nat)
  usedSy : List (Nat × Nat)
  usedHost : Bool                -- the cluster has written the host window since the last zero-length read (R93)
  deriving DecidableEq, Repr

/-- What moves next: a sequencer issues, an event of an agent comes about, a packet between partitions of the module
arrives, one leaves an output queue, a request to the host is served, or time passes (log entry 1). -/
inductive Turn where
  | issue (cl : Nat) (q : SeqId)
  | occur (e : Instr)
  | packet (f : Flit)
  | depart (i : Nat)
  | host (id : Nat)
  | elapse (ns : Nat)
  | clocks (cl n : Nat)
  deriving DecidableEq, Repr

/-- The module. -/
structure State where
  cur : Nat × SeqId              -- the sequencer that issues (log entry 1)
  agenda : List Turn             -- what moves next; empty: a round is begun
  now : Nat                      -- ns since the module's last start
  counter : Nat                  -- identifiers given out, and the free-value counter
  clusters : Table Cluster
  savedCl : Table Cluster        -- 16 × cluster + world: a task as the record's internal areas hold it (R367)
  mem : Memory                   -- partition's first die × 2^45 + module-local address
  host : Memory                  -- host memory
  hist : List WriteRec           -- newest first
  reqs : List MemReq
  sheaves : List Sheaf
  l2 : Table (List L2Way)        -- slice set: its 16 ways
  l2Fills : List L2Fill          -- lines missed and not yet filled
  staging : List Nat             -- 4 KiB segments in the Granary ports' staging buffers (R347)
  dies : Table Die
  parts : List Partition
  ctxs : Table Ctx
  jobs : List Job
  silos : Table (List (Nat × Nat))   -- context: job numbers in its Silo, oldest first, each with the place of its record (R47)
  govctl : Word
  dbg : Debug
  boot : Boot
  links : Links
  deriving DecidableEq, Repr

/-! ### The machine after reset (R411 to R420; log entries 2 to 5) -/

def Frame.reset : Frame := ⟨0, 0, 0, []⟩

/-- R144, R147, R308: no program has run. -/
def Sequencer.reset : Sequencer :=
  { regs := Vector.replicate 32 0, preds := (Vector.replicate 8 false).set 0 true, pc := 0,
    pl := false, ppl := false, amask := false, svscr := Vector.replicate 4 0, frame := .reset, shadow := none,
    inProg := false, inSup := false, idle := true, exited := false, sleeping := false, halted := false, haltWant := false,
    haltAtBkpt := false, outstanding := [], waits := [], resume := none, serial := 0, engFaults := [], engPage := false,
    dlrisk := none, mchk := none, own := [], seen := [], past := [], obs := [],
    acqAt := 0, floor := [] }

def Ring.reset : Ring := ⟨false, false, 0, 0, 0, 0, 0, 0, 0, [], [], [], none, none⟩

def Bin.reset : Bin := ⟨[], 0, 0, 0, false⟩

def Slot.reset : Slot :=
  { st := .empty, blk := 0, ver := 0, img := 0, lasterr := 0, frames := [], groups := 0, dispatching := false,
    startClk := 0, readyClk := 0, halted := false, haltPending := false, wasRunning := false, keep := false,
    wdCount := 0, fired := [], sums := Vector.replicate 8 0 }

def Chan.reset : Chan := ⟨[], 0, 0, 0, false⟩

def InVal.reset : InVal := ⟨false, [], [], Vector.replicate 16 0, false, false, false, false, false, false⟩

def OutVal.reset : OutVal := ⟨false, 0, 0, false, false⟩

def Elem.reset : Elem :=
  { q0 := 0, q1 := 0, a := .reset, b := .reset, ctl := none, errs := Vector.replicate 16 0, x := .reset, y := .reset,
    co := false, small := 0 }

def Leg.reset : Leg :=
  { inVal := false, from2 := false, live := [], asErr := 0, lanes := 0, credit := [], eosA := false, eosB := false,
    eosOut := [], nulTo := [], hold := [], copies := 0, pos := 0 }

def Port.reset : Port :=
  { buf := 0, genPos := Vector.replicate 2 0, genEnd := Vector.replicate 2 false,
    slotIn := Vector.replicate 2 false, slotsDone := Vector.replicate 2 0, readQ := [], outQ := [], coQ := [],
    inVal := .reset, words := [], lanes := none, fifo := [], ended := false, eosDue := false, reqs := 0, skips := 0,
    heldRec := [], drainOn := false, moving := none, own := [], before := [], seen := [], floor := [] }

def Fabric.reset : Fabric := ⟨[], [], [], [], [], [], []⟩

def CopyEngine.reset : CopyEngine := ⟨[], [], [], [], [], [], 0, false⟩

def Matrix.reset : Matrix :=
  { acc := [], queue := [], cur := none, arms := [], pending := Vector.replicate 4 0, fired := [], firedAt := [],
    armWait := none, shape := none, a := none, b := none, shShape := none, shA := none, shB := none,
    mrowp := 0, writes := [], reads := [], before := [], floor := [], mark := 0, stopped := false }

def Task.reset : Task :=
  { resident := false, st := .none, ctx := 0, world := 0, job := 0, gi := 0, rank := 0, n := 0, image := 0,
    ptvec := 0, entry := 0, energy := 0, peak := 0, reexec := false, smask := 0, quota := 0, dir := [], init := [],
    flags := 0, prog := 0, arrived := false, stepClk := 0, prevClk := 0, ckpt := none, noReplay := false,
    disc := 0, code := 0, detail := 0, cause := 0, errBlk := 0, abandoned := false, preReq := [], acks := [],
    left := false, flush := [], tReq := 0 }

/-- R387: the reset values of a cluster's power block; VCODE is VQ(16) of an Almanac the store may not hold yet. -/
def Power.reset : Power :=
  { n := 16, target := 16, left := 16, vset := 90, railMv := 450, slewAt := 0, thr := 8, moff := 0, short := false, wrap := false,
    insvc := false, withdrawn := false, code := 0, seq := 0, ecap := 64000, icap := 896, mevt := 0, cec := 0,
    energy := 0, enhi := [], interval := 0, reported := none, recent := [], quiet := 0, errSeen := false, drift := 0,
    planAt := 0, almanac := [], planned := none }

def Cluster.reset : Cluster :=
  { task := .reset, staged := none, seqC := .reset, seqY := .reset, seqM := .reset, events := 0, evRel := [], evAt := [],
    rings := [], tiles := [], tileQ := [], tilePtr := [], tileAt := [], slots := [], fab := .reset, bins := [],
    pushSlot := none, startQ := [], loads := [], copy := .reset, mat := .reset, fWrites := [], fSeen := [], tlb := [],
    misses := [], clk := 0, blocked := 0, power := .reset, events10 := Vector.replicate 11 0, wdog := false,
    saving := false, usedMo := [], usedDo := [], usedSy := [], usedHost := false }

/-- R308, R317, R320: the reset values of a partition's registers. -/
def Partition.reset (first logsz module_ fns : Nat) : Partition :=
  { first := first, logsz := logsz, module_ := module_, fns := fns, svec := 0, svasid := 0,
    rct := Vector.replicate 8 0x33FFFE, ctxtbl := 0, wtbl := 0, wsMode := false, wsNw := 0, wsCur := 0,
    wsBad := false, wsQuant := 0, dropcnt := 0, worlds := [], nextWorlds := none, switching := none,
    quantStart := 0, pendingRct := [], held := [], ptr := Vector.replicate 8 0 }

def Ctx.reset : Ctx :=
  { desc := none, seqHost := 0, seqSpawn := 0, everValid := false, done := 0, lastjob := 0, rej := 0,
    rejReason := 0, dlrp := 0, dlrc := 0, hpasid := 0, cntctl := 0, cntev := 0, cnt := Vector.replicate 8 0 }

def Die.reset : Die := ⟨0, [], 1700000⟩

/-- R400: the reset values of the debug block. -/
def Debug.reset : Debug :=
  { darm := Vector.replicate 16 0, drsel := 0, trbase := 0, trlog := 6, trwr := 0, trrd := 0, trdrop := 0,
    tren := 0, wdlim := 0, lf := Vector.replicate 8 0, lfCount := [], lfNext := [] }

/-- R419: the reset values of the boot block; the root monitor's store is empty (log entry 3). -/
def Boot.reset : Boot :=
  { st := 0, warm := false, wfail := 0, cfail := 0, ncl := 0, errstep := 0, imgaddr := 0, imglen := 0,
    romOnly := false, rsaKey := List.replicate 48 0, slhKey := List.replicate 48 0, minVersion := 0, stage := [], service := [],
    trained := none, store := [], almanacs := [], dmap := [], powered := 0, started := 0, starting := false, step := 0 }

def Links.reset : Links :=
  { hostUp := false, atsOn := [], ats := [], hostReqs := [], hostTlps := [], msix := [], msixOpen := [], msixPend := [], msixTab := [],
    unsupported := 0, aborts := 0, granaryBad := [], granaryCap := [], yQ := [], yOut := [], turned := [], yWait := [], yPath := [], yGot := [], yLines := [], yFailed := [], yDown := [], linkErrors := 0,
    gathers := [], epochs := [], rWrites := [], rFlushed := [], rAgents := [], rKnown := [], moDone := [], syDone := [], hostSent := [], hAgents := [], hView := [],
    hostRels := [], atsOpen := [], atsDone := 0, zeroReads := [], reports := [] }

/-- The module right after reset: the boot ROM has not begun a start (R419 STATE 0), no partition is set up,
no task is resident and memory lists nothing. -/
def State.reset : State :=
  { cur := (0, .control), agenda := [], now := 0, counter := 0, clusters := [], savedCl := [], mem := [], host := [],
    hist := [], reqs := [], sheaves := [], l2 := [], l2Fills := [], staging := [], dies := [], parts := [], ctxs := [],
    jobs := [], silos := [], govctl := 0x470, dbg := .reset, boot := .reset, links := .reset }

end Sys2Proof.Machine
end

