-- ==== Sys2Proof/Machine/Bits.lean ====
section
/-! DEFINITION. Reading and changing sparse tables, lists and bytes: the small operations the machine's own
operations are written in. -/

namespace Sys2Proof

/-! ### Sparse tables -/

/-- The entry of number k, or the common value d. -/
def Table.get {α : Type} (t : Table α) (k : Nat) (d : α) : α :=
  match t with
  | [] => d
  | (i, v) :: r => if i = k then v else Table.get r k d

/-- The table with v as the entry of number k. -/
def Table.set {α : Type} (t : Table α) (k : Nat) (v : α) : Table α :=
  match t with
  | [] => [(k, v)]
  | (i, w) :: r => if i = k then (k, v) :: r else (i, w) :: Table.set r k v

/-- The table without an entry of number k. -/
def Table.drop {α : Type} (t : Table α) (k : Nat) : Table α := t.filter fun e => e.1 != k

theorem Table.get_set_same {α : Type} (t : Table α) (k : Nat) (v d : α) :
    Table.get (Table.set t k v) k d = v := by
  induction t with
  | nil => simp [Table.set, Table.get]
  | cons e r ih =>
    obtain ⟨i, w⟩ := e
    by_cases h : i = k <;> simp [Table.set, Table.get, h, ih]

theorem Table.get_set_ne {α : Type} (t : Table α) (k j : Nat) (v d : α) (h : j ≠ k) :
    Table.get (Table.set t k v) j d = Table.get t j d := by
  induction t with
  | nil => simp [Table.set, Table.get, Ne.symm h]
  | cons e r ih =>
    obtain ⟨i, w⟩ := e
    by_cases hi : i = k
    · subst hi; simp [Table.set, Table.get, Ne.symm h]
    · by_cases hj : i = j
      · subst hj; simp [Table.set, Table.get, hi]
      · simp [Table.set, Table.get, hi, hj, ih]

theorem Table.set_set {α : Type} (t : Table α) (k : Nat) (v w : α) :
    Table.set (Table.set t k v) k w = Table.set t k w := by
  induction t with
  | nil => simp [Table.set]
  | cons e r ih =>
    obtain ⟨i, x⟩ := e
    by_cases h : i = k <;> simp [Table.set, h, ih]

end Sys2Proof

namespace Sys2Proof.Machine

/-! ### Lists -/

/-- The list with f applied to its k-th entry. -/
def modNth {α : Type} : List α → Nat → (α → α) → List α
  | [], _, _ => []
  | x :: r, 0, f => f x :: r
  | x :: r, k + 1, f => x :: modNth r k f

/-- The list without its k-th entry. -/
def dropNth {α : Type} : List α → Nat → List α
  | [], _ => []
  | _ :: r, 0 => r
  | x :: r, k + 1 => x :: dropNth r k

/-- The union of two lists of numbers, each number once. -/
def union (a b : List Nat) : List Nat := b ++ a.filter fun x => !b.contains x

/-- The lists cut in pieces of n. -/
def chunks {α : Type} (n : Nat) : Nat → List α → List (List α)
  | 0, _ => []
  | fuel + 1, l => if l.isEmpty then [] else l.take n :: chunks n fuel (l.drop n)

/-- Insertion before the first entry that does not precede x. -/
def insertBy {α : Type} (lt : α → α → Bool) (x : α) : List α → List α
  | [] => [x]
  | y :: r => if lt x y then x :: y :: r else y :: insertBy lt x r

/-- The list in rising order; entries that tie keep their order. -/
def sortBy {α : Type} (lt : α → α → Bool) (l : List α) : List α :=
  l.foldl (fun acc x => insertBy lt x acc) []

/-! ### Bytes and words -/

/-- Bits hi : lo of a word as a number (R2). -/
def bits (w : Word) (hi lo : Nat) : Nat := w.toNat / 2 ^ lo % 2 ^ (hi + 1 - lo)

/-- Bits lo + n − 1 : lo of a number. -/
def nbits (v lo n : Nat) : Nat := v / 2 ^ lo % 2 ^ n

/-- One bit of a number. -/
def bit (v i : Nat) : Bool := v / 2 ^ i % 2 == 1

/-- A number as a 64-bit word, modulo 2^64. -/
def w64 (n : Nat) : Word := BitVec.ofNat 64 n

/-- A number of n bits sign-extended to an integer. -/
def sext (n v : Nat) : Int := if v % 2 ^ n < 2 ^ (n - 1) then (v % 2 ^ n : Nat) else (v % 2 ^ n : Nat) - (2 ^ n : Nat)

/-- An integer as a word, modulo 2^64. -/
def ofInt64 (i : Int) : Word := BitVec.ofInt 64 i

/-- The n low bytes of a word, lowest first (R2). -/
def toBytes (n : Nat) (w : Word) : List Byte := leBytes n w.toNat

/-- The 64-bit word of little-endian bytes, zero-extended (R2). -/
def ofBytes (b : List Byte) : Word := w64 (leNat b)

/-- Bytes a … a + n − 1 of a byte list, as a number. -/
def field (b : List Byte) (a n : Nat) : Nat := leNat ((b.drop a).take n)

/-! ### Memory in its canonical form -/

/-- The byte at an address; an unlisted byte reads 0 (log entry 4). -/
def Memory.readByte (m : Memory) (a : Nat) : Byte :=
  match m with
  | [] => 0
  | c :: r => if c.1 = a then c.2 else if a < c.1 then 0 else Memory.readByte r a

/-- Memory with byte b at address a: the entry goes when b is what an unlisted byte reads as. -/
def Memory.writeByte (m : Memory) (a : Nat) (b : Byte) : Memory :=
  match m with
  | [] => if b = 0 then [] else [(a, b)]
  | c :: r =>
    if c.1 = a then (if b = 0 then r else (a, b) :: r)
    else if a < c.1 then (if b = 0 then c :: r else (a, b) :: c :: r)
    else c :: Memory.writeByte r a b

/-- The n bytes from address a up. -/
def Memory.read (m : Memory) (a n : Nat) : List Byte := (List.range n).map fun i => m.readByte (a + i)

/-- Memory with the bytes bs from address a up. -/
def Memory.write (m : Memory) (a : Nat) (bs : List Byte) : Memory :=
  match bs with
  | [] => m
  | b :: r => Memory.write (m.writeByte a b) (a + 1) r

/-- Every address of the list lies above lo, addresses rise and no entry is 0. -/
def Memory.wfFrom (lo : Nat) (m : Memory) : Bool :=
  match m with
  | [] => true
  | c :: r => decide (lo ≤ c.1) && c.2 != 0 && Memory.wfFrom (c.1 + 1) r

/-- The canonical form: strictly rising addresses and no entry equal to what an unlisted byte reads as. -/
def Memory.wf (m : Memory) : Bool := Memory.wfFrom 0 m

end Sys2Proof.Machine
end

