-- ==== Sys2Proof/Machine/Num.lean ====
section
/-! DEFINITION. Number formats and rounding (R50 to R56, R71): exact values m × 2^e with a sign, their rounding to a
binary format with the flags of FLAGS, sums, products and the conversion into integers. -/

namespace Sys2Proof.Machine

/-- A value of a binary format: NaN (signalling or not), infinity, or (−1)^neg × m × 2^e exactly (R52, R53). -/
inductive Fp where
  | nan (sig : Bool)
  | inf (neg : Bool)
  | fin (neg : Bool) (m : Nat) (e : Int)
  deriving DecidableEq, Repr

/-- A binary format: fraction bits, exponent bits, bias, and what stands beside the finite values: 2 infinities and
NaN, 1 NaN alone (E4M3), 0 neither (R52). -/
structure Fmt where
  fb : Nat
  eb : Nat
  bias : Int
  kind : Nat
  deriving DecidableEq, Repr

def fmt32 : Fmt := ⟨23, 8, 127, 2⟩
def fmtBf16 : Fmt := ⟨7, 8, 127, 2⟩
def fmtE5m2 : Fmt := ⟨2, 5, 15, 2⟩
def fmtE4m3 : Fmt := ⟨3, 4, 7, 1⟩
def fmtE3m2 : Fmt := ⟨2, 3, 3, 0⟩
def fmtE2m3 : Fmt := ⟨3, 2, 1, 0⟩
def fmtE2m1 : Fmt := ⟨1, 2, 1, 0⟩

/-- The value of a code (R52). -/
def Fmt.decode (f : Fmt) (c : Nat) : Fp :=
  let neg := bit c (f.fb + f.eb)
  let ex := nbits c f.fb f.eb
  let fr := nbits c 0 f.fb
  let top := 2 ^ f.eb - 1
  if f.kind == 2 && ex == top then (if fr == 0 then .inf neg else .nan (!bit fr (f.fb - 1) && f.fb != 2))
  else if f.kind == 1 && ex == top && fr == 2 ^ f.fb - 1 then .nan false
  else if ex == 0 then .fin neg fr (1 - f.bias - f.fb)
  else .fin neg (2 ^ f.fb + fr) (ex - f.bias - f.fb)

/-- The largest finite magnitude, as mantissa and exponent (R52). -/
def Fmt.maxMant (f : Fmt) : Nat := if f.kind == 1 then 2 ^ (f.fb + 1) - 2 else 2 ^ (f.fb + 1) - 1

def Fmt.maxExp (f : Fmt) : Int :=
  ((2 ^ f.eb - 1 : Nat) : Int) - (if f.kind == 2 then 1 else 0) - f.bias - f.fb

/-- The codes of the largest finite value, of an infinity and of the canonical NaN (R52, R53). -/
def Fmt.maxCode (f : Fmt) (neg : Bool) : Nat :=
  (if f.kind == 2 then 2 ^ (f.fb + f.eb) - 1 - 2 ^ f.fb else if f.kind == 1 then 2 ^ (f.fb + f.eb) - 2
   else 2 ^ (f.fb + f.eb) - 1) + if neg then 2 ^ (f.fb + f.eb) else 0

def Fmt.infCode (f : Fmt) (neg : Bool) : Nat :=
  (2 ^ f.eb - 1) * 2 ^ f.fb + if neg then 2 ^ (f.fb + f.eb) else 0

/-- 0x7FC0_0000, 0x7FC0, 0x7F and 0x7F (R53). -/
def Fmt.nanCode (f : Fmt) : Nat :=
  if f.fb == 23 || f.fb == 7 then (2 ^ f.eb - 1) * 2 ^ f.fb + 2 ^ (f.fb - 1) else 0x7F

/-- m / 2^k rounded to nearest, ties to even, and whether anything was rounded away. -/
def rneShift (m k : Nat) : Nat × Bool :=
  let q := m / 2 ^ k
  let r := m % 2 ^ k
  (if 2 * r > 2 ^ k || (2 * r == 2 ^ k && q % 2 == 1) then q + 1 else q, r != 0)

/-- m × 2^e in units of 2^q, rounded to nearest even (R54). -/
def rneTo (m : Nat) (e q : Int) : Nat × Bool :=
  if q ≤ e then (m * 2 ^ (e - q).toNat, false) else rneShift m (q - e).toNat

/-- The exponent of the leading bit of m × 2^e. -/
def topExp (m : Nat) (e : Int) : Int := e + Nat.log2 m

/-- A magnitude in units of 2^q of a format as its code, without sign. -/
def Fmt.pack (f : Fmt) (r : Nat) (q : Int) : Nat :=
  if r == 0 then 0
  else
    let p : Int := q + f.fb + f.bias
    if r < 2 ^ f.fb then r
    else if r == 2 ^ (f.fb + 1) then (p + 1).toNat * 2 ^ f.fb
    else p.toNat * 2 ^ f.fb + (r - 2 ^ f.fb)

/-- R54, R55: the rounded code of (−1)^neg × m × 2^e, whether it overflowed, and its flags NX and UF. -/
def Fmt.round (f : Fmt) (neg : Bool) (m : Nat) (e : Int) : Nat × Bool × Nat :=
  let sgn := if neg then 2 ^ (f.fb + f.eb) else 0
  if m == 0 then (sgn, false, 0)
  else
    let emin : Int := 1 - f.bias
    let q := max (topExp m e - f.fb) (emin - f.fb)
    let (r, nx) := rneTo m e q
    let ov := f.maxMant * 2 ^ (f.maxExp - q).toNat < r && f.maxExp ≥ q || f.maxExp < q
    let (r2, _) := rneTo m e (topExp m e - f.fb)
    let tiny := topExp r2 (topExp m e - f.fb) < emin
    (sgn + f.pack r q, ov, (if nx then 16 else 0) + if nx && tiny then 8 else 0)

/-- fl32 of an exact or special value, with its flags (R53, R54). -/
def fl32 (x : Fp) : Nat × Nat :=
  match x with
  | .nan sig => (fmt32.nanCode, if sig then 1 else 0)
  | .inf neg => (fmt32.infCode neg, 0)
  | .fin neg m e =>
    let (c, ov, fl) := fmt32.round neg m e
    if ov then (fmt32.infCode neg, 4 + 16) else (c, fl)

/-- rne_target(t) under a satfinite bit (R55). -/
def rneTarget (f : Fmt) (satf : Bool) (x : Fp) : Nat × Nat :=
  match x with
  | .nan sig =>
    if f.kind == 0 then (0, 1) else (f.nanCode, if sig then 1 else 0)
  | .inf neg =>
    if f.kind == 0 || satf then (f.maxCode neg, 4)
    else if f.kind == 1 then (f.nanCode, 1) else (f.infCode neg, 0)
  | .fin neg m e =>
    let (c, ov, fl) := f.round neg m e
    if !ov then (c, fl)
    else if f.kind == 0 || satf then (f.maxCode neg, 4 + 16)
    else if f.kind == 1 then (f.nanCode, 4 + 16 + 1) else (f.infCode neg, 4 + 16)

/-- The exact integer m × 2^(e − q) for q ≤ e. -/
def scaleTo (m : Nat) (e q : Int) : Nat := m * 2 ^ (e - q).toNat

/-- The exact signed value of a finite value in units of 2^q, q ≤ e. -/
def signedTo (neg : Bool) (m : Nat) (e q : Int) : Int := if neg then -(scaleTo m e q : Int) else scaleTo m e q

/-- The exact sum, with NV for Inf − Inf and for a signalling NaN (R53). -/
def addFp (a b : Fp) : Fp × Nat :=
  match a, b with
  | .nan s, .nan t => (.nan false, if s || t then 1 else 0)
  | .nan s, _ => (.nan false, if s then 1 else 0)
  | _, .nan t => (.nan false, if t then 1 else 0)
  | .inf x, .inf y => if x == y then (.inf x, 0) else (.nan false, 1)
  | .inf x, _ => (.inf x, 0)
  | _, .inf y => (.inf y, 0)
  | .fin n m e, .fin n' m' e' =>
    let q := min e e'
    let v := signedTo n m e q + signedTo n' m' e' q
    if v == 0 then (.fin (n && n') 0 q, 0) else (.fin (v < 0) v.natAbs q, 0)

/-- The exact product, with NV for 0 × Inf and for a signalling NaN (R53). -/
def mulFp (a b : Fp) : Fp × Nat :=
  match a, b with
  | .nan s, .nan t => (.nan false, if s || t then 1 else 0)
  | .nan s, _ => (.nan false, if s then 1 else 0)
  | _, .nan t => (.nan false, if t then 1 else 0)
  | .inf x, .inf y => (.inf (x != y), 0)
  | .inf x, .fin y m _ => if m == 0 then (.nan false, 1) else (.inf (x != y), 0)
  | .fin x m _, .inf y => if m == 0 then (.nan false, 1) else (.inf (x != y), 0)
  | .fin n m e, .fin n' m' e' => (.fin (n != n') (m * m') (e + e'), 0)

/-- fl32 of the sum of two FP32 codes. -/
def fadd32 (a b : Nat) : Nat × Nat :=
  let (v, f) := addFp (fmt32.decode a) (fmt32.decode b)
  let (c, g) := fl32 v
  (c, f ||| g)

/-- fl32 of the product of two FP32 codes. -/
def fmul32 (a b : Nat) : Nat × Nat :=
  let (v, f) := mulFp (fmt32.decode a) (fmt32.decode b)
  let (c, g) := fl32 v
  (c, f ||| g)

/-- A finite value is less than another. -/
def ltFin (n : Bool) (m : Nat) (e : Int) (n' : Bool) (m' : Nat) (e' : Int) : Bool :=
  let q := min e e'
  signedTo n m e q < signedTo n' m' e' q

/-- Numeric order of two values that are not NaN. -/
def ltFp (a b : Fp) : Bool :=
  match a, b with
  | .fin n m e, .fin n' m' e' => ltFin n m e n' m' e'
  | .inf x, .inf y => x && !y
  | .inf x, _ => x
  | _, .inf y => !y
  | _, _ => false

def Fp.isNan : Fp → Bool
  | .nan _ => true
  | _ => false

def Fp.isFin : Fp → Bool
  | .fin _ _ _ => true
  | _ => false

/-- x × 2^k exactly. -/
def Fp.scale (x : Fp) (k : Int) : Fp :=
  match x with
  | .fin n m e => .fin n m (e + k)
  | y => y

/-- An integer as an exact value. -/
def Fp.ofInt (i : Int) : Fp := .fin (i < 0) i.natAbs 0

/-- sat_int(v, T) for a signed or unsigned format of n bits (R51). -/
def satInt (n : Nat) (signed : Bool) (x : Fp) : Int × Nat :=
  let lo : Int := if signed then -(2 ^ (n - 1) : Nat) else 0
  let hi : Int := if signed then (2 ^ (n - 1) : Nat) - 1 else (2 ^ n : Nat) - 1
  match x with
  | .nan _ => (0, 1)
  | .inf neg => (if neg then lo else hi, 1)
  | .fin neg m e =>
    let (r, nx) := rneTo m e 0
    let v : Int := if neg then -(r : Int) else r
    let c := max lo (min hi v)
    (c, (if nx then 16 else 0) + if c == v then 0 else 4)

/-- The accumulate of an integer dot product: clamped to ±(2^31 − 1) (R71). -/
def satAcc (v : Int) : Int × Nat :=
  let c := max (-(2 ^ 31 - 1)) (min (2 ^ 31 - 1) v)
  (c, if c == v then 0 else 4)

/-- Pairwise sums, level by level (R71). -/
def treeLevel : List Nat → List Nat × Nat
  | a :: b :: r =>
    let (c, f) := fadd32 a b
    let (l, g) := treeLevel r
    (c :: l, f ||| g)
  | l => (l, 0)

/-- The pairwise tree over 2^n leaves (R71). -/
def tree : Nat → List Nat → Nat × Nat
  | 0, l => (l.headD 0, 0)
  | n + 1, l =>
    let (m, f) := treeLevel l
    let (c, g) := tree n m
    (c, f ||| g)

end Sys2Proof.Machine
end

