-- ==== Sys2Proof/Machine/Ops.lean ====
section
/-! DEFINITION. The shared operations: access to clusters, sequencers, partitions and contexts; the guard; taking
a trap, returning from it and terminating a task (R349 to R358); releases and acquires (R82 to R95); flags. -/

namespace Sys2Proof.Machine

/-- What a meaning answers. -/
abbrev Result := Host.Outcome State Fault Refusal

/-! ### Clusters and sequencers -/

def State.cluster (s : State) (c : Nat) : Cluster := s.clusters.get c Cluster.reset

def State.setCl (s : State) (c : Nat) (k : Cluster) : State := { s with clusters := s.clusters.set c k }

def State.mapCl (s : State) (c : Nat) (f : Cluster → Cluster) : State := s.setCl c (f (s.cluster c))

def Cluster.seq (k : Cluster) : SeqId → Sequencer
  | .control => k.seqC
  | .copy => k.seqY
  | .matrix => k.seqM

def Cluster.setSeq (k : Cluster) (q : SeqId) (x : Sequencer) : Cluster :=
  match q with
  | .control => { k with seqC := x }
  | .copy => { k with seqY := x }
  | .matrix => { k with seqM := x }

def State.seq (s : State) (c : Nat) (q : SeqId) : Sequencer := (s.cluster c).seq q

def State.mapSeq (s : State) (c : Nat) (q : SeqId) (f : Sequencer → Sequencer) : State :=
  s.mapCl c fun k => k.setSeq q (f (k.seq q))

/-- The sequencer that issues. -/
def State.me (s : State) : Sequencer := s.seq s.cur.1 s.cur.2

/-- The state with the issuing sequencer changed. -/
def State.mapMe (s : State) (f : Sequencer → Sequencer) : State := s.mapSeq s.cur.1 s.cur.2 f

/-- The cluster of the issuing sequencer. -/
def State.here (s : State) : Cluster := s.cluster s.cur.1

def State.mapHere (s : State) (f : Cluster → Cluster) : State := s.mapCl s.cur.1 f

/-- The number SEQID gives a sequencer (R147). -/
def seqNo : SeqId → Nat
  | .control => 0
  | .copy => 1
  | .matrix => 2

/-! ### Registers (R144, R110) -/

/-- s0 reads as zero. -/
def Sequencer.reg (x : Sequencer) (r : Reg) : Word := if r = 0 then 0 else x.regs[r]

/-- A write to s0 is discarded. -/
def Sequencer.setReg (x : Sequencer) (r : Reg) (v : Word) : Sequencer :=
  if r = 0 then x else { x with regs := x.regs.set r v }

/-- p0 reads as true. -/
def Sequencer.pred (x : Sequencer) (p : PReg) : Bool := if p = 0 then true else x.preds[p]

/-- p0 is never written. -/
def Sequencer.setPred (x : Sequencer) (p : PReg) (v : Bool) : Sequencer :=
  if p = 0 then x else { x with preds := x.preds.set p v }

/-- The next instruction in sequence is n bytes on (R107). -/
def Sequencer.skip (x : Sequencer) (n : Nat) : Sequencer := { x with pc := x.pc + w64 n }

/-- The registers of a pair s[2 dh], s[2 dh + 1] (R160, R186). -/
def evenReg (dh : Fin 16) : Reg := Fin.ofNat 32 (2 * dh.val)

def oddReg (dh : Fin 16) : Reg := Fin.ofNat 32 (2 * dh.val + 1)

/-- R108: an instruction executes when its guard predicate differs from its sense. -/
def State.guardOn (s : State) (g : Guard) : Bool := s.me.pred g.p != g.neg

/-- An instruction of len bytes whose guard fails only advances the pc (R108). -/
def guarded (g : Guard) (len : Nat) (s : State) (act : State → State) : Result :=
  .next (if s.guardOn g then act s else s.mapMe (·.skip len))

/-- A result in s[d], and on to the next instruction. -/
def State.put (s : State) (d : Reg) (v : Word) : State := s.mapMe fun x => (x.setReg d v).skip 4

/-- A result in pd, and on to the next instruction. -/
def State.putPred (s : State) (p : PReg) (v : Bool) : State := s.mapMe fun x => (x.setPred p v).skip 4

/-- On to the next instruction. -/
def State.skip (s : State) (n : Nat) : State := s.mapMe (·.skip n)

/-! ### Partitions, contexts and jobs -/

/-- Cluster c belongs to the partition (R314). -/
def Partition.holds (p : Partition) (c : Nat) : Bool := p.first * 64 ≤ c && c < (p.first + 2 ^ p.logsz) * 64

/-- The partition of eight dies a cluster belongs to when no table gives one (log entry 5). -/
def Partition.whole : Partition := .reset 0 3 0 (2 ^ 256 - 1)

def findPart (l : List Partition) (c : Nat) : Partition := (l.find? (·.holds c)).getD .whole

def updPart (f : Partition → Partition) (c : Nat) : List Partition → List Partition
  | [] => []
  | p :: r => if p.holds c then f p :: r else p :: updPart f c r

def State.part (s : State) (c : Nat) : Partition := findPart s.parts c

/-- The partition of a cluster changed; while no table gives one, the one of eight dies comes to stand (R314, log entry 5). -/
def State.mapPart (s : State) (c : Nat) (f : Partition → Partition) : State :=
  { s with parts := if s.parts.isEmpty then [f .whole] else updPart f c s.parts }

/-- The clusters of a partition, in ascending global number. -/
def Partition.clusters (p : Partition) : List Nat := (List.range (2 ^ p.logsz * 64)).map (· + p.first * 64)

/-- Every listed cluster of a partition changed. -/
def State.mapPartCls (s : State) (p : Partition) (f : Cluster → Cluster) : State :=
  { s with clusters := s.clusters.map fun e => if p.holds e.1 then (e.1, f e.2) else e }

def State.ctx (s : State) (n : Nat) : Ctx := s.ctxs.get n Ctx.reset

def State.mapCtx (s : State) (n : Nat) (f : Ctx → Ctx) : State := { s with ctxs := s.ctxs.set n (f (s.ctx n)) }

def State.die (s : State) (d : Nat) : Die := s.dies.get d Die.reset

def State.mapDie (s : State) (d : Nat) (f : Die → Die) : State := { s with dies := s.dies.set d (f (s.die d)) }

def State.job (s : State) (n : Nat) : Option Job := s.jobs.find? (·.num == n)

def State.mapJob (s : State) (n : Nat) (f : Job → Job) : State :=
  { s with jobs := s.jobs.map fun j => if j.num == n then f j else j }

def State.gang (s : State) (n gi : Nat) : Option Gang := (s.job n).bind fun j => j.gangs.find? (·.gi == gi)

def State.mapGang (s : State) (n gi : Nat) (f : Gang → Gang) : State :=
  s.mapJob n fun j => { j with gangs := j.gangs.map fun g => if g.gi == gi then f g else g }

def State.mapTask (s : State) (c : Nat) (f : Task → Task) : State := s.mapCl c fun k => { k with task := f k.task }

def Cluster.ring (k : Cluster) (h : Nat) : Ring := k.rings.get h Ring.reset

def Cluster.setRing (k : Cluster) (h : Nat) (r : Ring) : Cluster := { k with rings := k.rings.set h r }

def Cluster.slot (k : Cluster) (i : Nat) : Slot := k.slots.get i Slot.reset

def Cluster.mapSlot (k : Cluster) (i : Nat) (f : Slot → Slot) : Cluster :=
  { k with slots := k.slots.set i (f (k.slot i)) }

def Cluster.bin (k : Cluster) (b : Nat) : Bin := k.bins.get b Bin.reset

def Cluster.mapBin (k : Cluster) (b : Nat) (f : Bin → Bin) : Cluster := { k with bins := k.bins.set b (f (k.bin b)) }

/-- A fresh identifier. -/
def State.fresh (s : State) : State := { s with counter := s.counter + 1 }

/-- The address space of a sequencer's accesses: SVASID at PL 1, otherwise the task's context (R306). -/
def State.asidOf (s : State) (c : Nat) (q : SeqId) : Nat :=
  if (s.seq c q).pl then (s.part c).svasid else (s.cluster c).task.ctx

/-! ### The task's flag word (R73, R74) -/

/-- The sticky bits of FLAGS. -/
def fNV : Nat := 1
def fDZ : Nat := 2
def fOF : Nat := 4
def fUF : Nat := 8
def fNX : Nat := 16
def fSF : Nat := 32
def fET : Nat := 64
def fKD : Nat := 128

/-- Sticky flags raised by an engine of the cluster's task. -/
def Cluster.raise (k : Cluster) (f : Nat) : Cluster :=
  { k with task := { k.task with flags := k.task.flags ||| w64 f } }

def State.raise (s : State) (c f : Nat) : State := s.mapCl c (·.raise f)

/-- An event of R408 seen in the cluster, to be forwarded (R409). -/
def Cluster.count (k : Cluster) (e n : Nat) : Cluster :=
  if h : e < 11 then { k with events10 := k.events10.set e (k.events10[e] + n) } else k

/-! ### Classes, releases and acquires (R82 to R95) -/

def maskC : Mask := 1
def maskF : Mask := 2
def maskY : Mask := 4
def maskM : Mask := 8
def maskAll : Mask := 63

/-- The class of the sequencer's engine: Y for copy, M for matrix. -/
def engineCls : SeqId → Option Nat
  | .control => none
  | .copy => some 2
  | .matrix => some 3

/-- The classes of the sequencer's engine as a mask. -/
def engineMask : SeqId → Mask
  | .control => 0
  | .copy => maskY
  | .matrix => maskM

def Sequencer.seenBy (x : Sequencer) (cls : Nat) : List Nat := x.seen.get cls []

/-- R91, R92: the writes an acquire with mask m has found come before the sequencer's later accesses of the
classes of m. -/
def Sequencer.learn (x : Sequencer) (m : Mask) (ids : List Nat) : Sequencer :=
  let add (t : Table (List Nat)) (i : Nat) := if m.getLsbD i then t.set i (union (t.get i []) ids) else t
  { x with seen := (List.range 6).foldl add x.seen }

/-- The identifiers of the writes an engine of the cluster has completed, by class. -/
def Cluster.engWrites (k : Cluster) (cls : Nat) : List Nat :=
  match cls with
  | 1 => k.fWrites
  | 2 => k.copy.writes
  | 3 => k.mat.writes
  | _ => []

/-- R91: the writes of the class-i accesses a release of a sequencer covers, together with those that come before them: class
C by program order, its own engine's commands, another engine's accesses as far as the sequencer has observed their completion;
none of classes N and H (R82). -/
def Cluster.coverOf (k : Cluster) (q : SeqId) (i : Nat) : List Nat :=
  let x := k.seq q
  if i == 0 then union x.own x.past
  else if i < 4 then union (x.obs.get i []) (if engineCls q == some i then k.engWrites i else [])
  else []

/-- R91: what a release with mask m covers. -/
def Cluster.covered (k : Cluster) (q : SeqId) (m : Mask) : List Nat :=
  (List.range 6).foldl (fun acc i => if m.getLsbD i then union acc (k.coverOf q i) else acc) []

/-- The engines' accesses among them, by class. -/
def Cluster.coverDone (k : Cluster) (q : SeqId) (m : Mask) : Table (List Nat) :=
  ([1, 2, 3].filter fun i => m.getLsbD i).map fun i => (i, k.coverOf q i)

/-- R91: a sequencer observes the completion of the engine accesses that releases it finds cover, of the classes it names. -/
def Sequencer.observe (x : Sequencer) (m : Mask) (done : Table (List Nat)) : Sequencer :=
  { x with obs := done.foldl (fun t e => if m.getLsbD e.1 then t.set e.1 (union (t.get e.1 []) e.2) else t) x.obs }

/-- An acquire with mask m has completed: the writes and engine accesses it has found (R91, R96). -/
def Sequencer.acquire (x : Sequencer) (m : Mask) (ids : List Nat) (done : Table (List Nat)) (now : Nat) : Sequencer :=
  { (x.learn m ids).observe m done with acqAt := now }

/-- The engine accesses of the sequencers named, by class (R33, R34). -/
def Cluster.engDone (k : Cluster) (qs : List SeqId) : Table (List Nat) :=
  qs.filterMap fun q => (engineCls q).map fun i => (i, k.coverOf q i)

/-- An access is made: what comes before it comes before what follows it (R85). -/
def Sequencer.access (x : Sequencer) : Sequencer := { x with past := union x.past (x.seenBy 0) }

/-- R83: clusters a and b lie within scope sc of one another; a cluster of another module is numbered
512 × (1 + module) + cluster. -/
def scopeWithin (sc : Scope) (a b : Nat) : Bool :=
  match sc with
  | .cl => a == b
  | .di => a / 64 == b / 64
  | .mo => a / 512 == b / 512
  | _ => true

/-- The engine accesses that the releases observed by a sequencer of cluster c cover (R91, R92). -/
def doneOf (rs : List RelInfo) (c : Nat) : Table (List Nat) :=
  ((rs.filter fun r => r.cluster == c).map (·.done)).flatten

/-- R92: the release at r synchronises with an acquire of cluster c at scope sc. -/
def RelInfo.syncs (r : RelInfo) (c : Nat) (sc : Scope) : Bool := scopeWithin r.scope r.cluster c && scopeWithin sc c r.cluster

/-- The writes an acquire of cluster c at scope sc learns from the releases it observes. -/
def learned (rs : List RelInfo) (c : Nat) (sc : Scope) : List Nat :=
  rs.foldl (fun acc r => if r.syncs c sc then union acc r.known else acc) []

/-- Clusters a and b lie within scope sc of one another: another partition of the module is another module (R79, R83,
R315). -/
def State.within (s : State) (sc : Scope) (a b : Nat) : Bool :=
  match sc with
  | .mo => a / 512 == b / 512 && (512 ≤ a || (s.part a).first == (s.part b).first)
  | _ => scopeWithin sc a b

/-- The writes an acquire of cluster c at scope sc learns from the releases it observes, each within the other's scope
(R92). -/
def State.learned (s : State) (rs : List RelInfo) (c : Nat) (sc : Scope) : List Nat :=
  rs.foldl (fun acc r => if s.within r.scope r.cluster c && s.within sc c r.cluster then union acc r.known else acc) []

/-! ### Waking from IDLE (R168) -/

def Sequencer.wake (x : Sequencer) : Sequencer := { x with sleeping := false }

/-- An event or ring of the cluster moved: every sequencer in IDLE resumes. -/
def Cluster.wakeAll (k : Cluster) : Cluster :=
  { k with seqC := k.seqC.wake, seqY := k.seqY.wake, seqM := k.seqM.wake }

/-- A wait of a flag or ring that is satisfied by an update completes with it (R179, R182). -/
def Sequencer.hitWaits (x : Sequencer) (f : WaitKind → WaitKind) : Sequencer :=
  { x with waits := x.waits.map fun w => { w with kind := f w.kind } }

def Cluster.hitAll (k : Cluster) (f : WaitKind → WaitKind) : Cluster :=
  { k with seqC := k.seqC.hitWaits f, seqY := k.seqY.hitWaits f, seqM := k.seqM.hitWaits f }

/-- An event flag is set as a release with the given writes (R179), by a sequencer 0 to 2 or an engine 3; a flag that was
clear wakes IDLE. -/
def Cluster.setEvent (k : Cluster) (e : Nat) (r : RelInfo) (setter : Nat) : Cluster :=
  let rs := k.evRel.get e [] ++ [r]
  let hit (w : WaitKind) : WaitKind := match w with | .event n none => if n == e then .event n (some rs) else w | _ => w
  let k1 := ({ k with events := k.events ||| w64 (2 ^ e), evRel := k.evRel.set e rs,
                      evAt := k.evAt.set e (k.clk, setter) } : Cluster).hitAll hit
  if k.events.getLsbD e then k1 else k1.wakeAll

/-! ### Collectives that can no longer complete (R187) -/

/-- A cluster holds a task of a gang. -/
def State.sits (s : State) (job gi c : Nat) : Bool :=
  let t := (s.cluster c).task
  t.resident && t.job == job && t.gi == gi

/-- The clusters that hold a task of a gang: one that has retired has left its own (R39, R332). -/
def State.seats (s : State) (job : Nat) (g : Gang) : List Nat := g.clusters.filter (s.sits job g.gi)

/-- The clusters of the tasks that have not retired, in the cluster or saved. -/
def Gang.held (g : Gang) : List Nat := (g.clusters.zipIdx.filter fun e => !g.retired.contains e.2).map (·.1)

/-- Rank r of the gang is live: neither retired nor terminated. -/
def Gang.live (g : Gang) (r : Nat) : Bool := r < g.size && !g.retired.contains r && !g.dead.contains r

/-- R173, R187: one operation of a collective on values of its width. -/
def collOp (op : Nat) (w : Nat) (a b : Nat) : Nat :=
  match op with
  | 0 => (a + b) % 2 ^ w
  | 1 => a &&& b
  | 2 => a ||| b
  | 3 => a ^^^ b
  | 4 => if sext w a ≤ sext w b then a else b
  | 5 => if sext w a ≤ sext w b then b else a
  | 6 => Nat.min a b
  | _ => Nat.max a b

/-- The place of a cluster's context record (R365). -/
def Partition.recordPa (p : Partition) (c w : Nat) : Nat :=
  let n := 2 ^ p.logsz
  (n * 96000000000 - n * 2 ^ 32) / 2 ^ 22 * 2 ^ 22 + 2 ^ 22 * (16 * (c - 64 * p.first) + w)

/-- The memory key of a cluster's record (R365). -/
def Partition.recordKey (p : Partition) (c w : Nat) : Nat := p.first * 2 ^ 45 + p.recordPa c w

/-- ext() of R173 for an old value: MINN, MAXN and FADD.RX zero-extend 32 bits, the others sign-extend. -/
def extOld (op : Nat) (w64 : Bool) (old : Nat) : Word :=
  if w64 || op == 6 || op == 7 || op == 9 then Machine.w64 old else ofInt64 (Machine.sext 32 old)

/-- The members of a group that exist and are live. -/
def Gang.liveMembers (g : Gang) (base size : Nat) : List Nat :=
  ((List.range size).map (· + base)).filter g.live

/-- ext() of a collective's result: FADD zero-extended, as R173 otherwise; BCAST as SWAP (R187). -/
def collExt (bcast : Bool) (op : Nat) (w64 : Bool) (v : Nat) : Word :=
  if bcast then extOld 8 w64 v else extOld (if op == 8 then 9 else op) w64 v

/-- The result when the count is 0 (R187). -/
def collIdentity (bcast : Bool) (op : Nat) (w64 : Bool) : Word :=
  let w := if w64 then 64 else 32
  if bcast then 0
  else
    let v := match op with
      | 1 => 2 ^ w - 1
      | 4 => 2 ^ (w - 1) - 1
      | 5 => 2 ^ (w - 1)
      | 6 => 2 ^ w - 1
      | 8 => 2 ^ 31
      | _ => 0
    collExt false op w64 v

/-- The contributions in ascending rank order. -/
def sortRanks (l : List (Nat × Word)) : List (Nat × Word) := sortBy (fun a b => a.1 < b.1) l

/-- The least n with m ≤ 2^n. -/
def log2Up (m : Nat) : Nat := if m ≤ 1 then 0 else Nat.log2 (m - 1) + 1

/-- R187: the result over the counted contributions, with its flags; a broadcast without rank BASE's contribution
has a free value (log entry 8). -/
def Coll.value (i : Coll) (free : Word) : Word × Nat :=
  let w := if i.w64 then 64 else 32
  let cs := (sortRanks i.contribs).map fun e => e.2.toNat % 2 ^ w
  if i.bcast then
    match i.contribs.find? (·.1 == i.base) with
    | some e => (collExt true 0 i.w64 (e.2.toNat % 2 ^ w), 0)
    | none => (free, 0)
  else if i.op == 8 then
    let n := log2Up cs.length
    let (v, f) := tree n (cs ++ List.replicate (2 ^ n - cs.length) 0)
    (collExt false 8 i.w64 v, f)
  else
    match cs with
    | [] => (collIdentity false i.op i.w64, 0)
    | c :: r => (collExt false i.op i.w64 (r.foldl (collOp i.op w) c), 0)

/-- The write shares a byte with key … key + n − 1 (R162). -/
def WriteRec.overlaps (r : WriteRec) (key n : Nat) : Bool := r.key < key + n && key < r.key + r.new.length

/-- Bytes of a context record, written by the machine itself: no read finds an older write there (R363, R367). -/
def State.overwrite (s : State) (key : Nat) (bs : List Byte) : State :=
  { s with mem := s.mem.write key bs, hist := s.hist.filter (!·.overlaps key bs.length) }

/-- Flags for the task that holds rank r of a gang, in its cluster and, until it has resumed, in its context record (R74, R367); one
that has left is no participant any more. -/
def State.raiseRank (s : State) (job : Nat) (g : Gang) (f r : Nat) : State :=
  match g.clusters[r]? with
  | none => s
  | some c =>
    let key := 16 * c + g.world
    let mine (t : Task) : Bool := t.job == job && t.gi == g.gi && t.rank == r
    let s1 := if s.sits job g.gi c && mine (s.cluster c).task then s.raise c f else s
    match s.savedCl.find? (·.1 == key) with
    | some (_, k) =>
      if mine k.task then
        ({ s1 with savedCl := s1.savedCl.set key (k.raise f) } : State).overwrite ((s.part c).recordKey c g.world + 0x40)
          (toBytes 8 (k.raise f).task.flags)
      else s1
    | none => s1

/-- An instance completes: its results, and its flags to every participant (R187). -/
def State.finishColl (s : State) (job gi id : Nat) (partial_ : Bool) : State :=
  match (s.gang job gi).bind fun g => (g.colls.find? (·.id == id)).map fun i => (g, i) with
  | none => s
  | some (g, i) =>
    let (v, f) := i.value (Config.freeWord s.counter)
    let status := w64 (i.contribs.length + if partial_ then 2 ^ 17 else 0)
    let s1 := s.fresh.mapGang job gi fun g => { g with colls := g.colls.map fun j =>
      if j.id == id then { j with result := some (v, status) } else j }
    if f == 0 then s1 else (i.contribs.map (·.1)).foldl (fun t r => t.raiseRank job g f r) s1

/-- R187: instances that can no longer reach their count complete short. -/
def State.settleColls (s : State) (job gi : Nat) : State :=
  match s.gang job gi with
  | none => s
  | some g =>
    let short (i : Coll) : Bool :=
      i.result.isNone &&
        i.contribs.length + ((g.liveMembers i.base i.size).filter fun r => !i.contribs.any (·.1 == r)).length < i.count
    (g.colls.filter short).foldl (fun t i => t.finishColl job gi i.id true) s

/-- Rank r of a gang is terminated: the collectives that can no longer reach their count complete short at once (R187). -/
def State.rankEnds (s : State) (job gi r : Nat) : State :=
  (s.mapGang job gi fun g => { g with dead := if g.dead.contains r then g.dead else r :: g.dead }).settleColls job gi

/-! ### Termination (R356) -/

/-- The codes of R191 that a record takes. -/
def eBADREC : Nat := 0x0A
def eNOBLK : Nat := 0x0B

/-- The block a record enters, or the code with which it fails validation; 0xFFF is the drop bin (R8 to R10). -/
def Cluster.blockOf (k : Cluster) (r : Record) : Nat ⊕ Nat :=
  let h := r.hdr.toNat
  let b := nbits h 0 12
  if nbits h 12 4 != 0 || nbits h 51 5 != 0 then .inr eBADREC
  else if b == 0xFFF || k.task.dir.any (·.1 == b) then .inl b
  else .inr eNOBLK

/-- The record enters the bin of block b. -/
def Cluster.entersBin (k : Cluster) (b : Nat) (r : Record) : Bool := k.blockOf r == .inl b && b != 0xFFF

/-- The record enters some bin, so that it counts there while its enqueuer still holds it (R219, R245). -/
def Cluster.counts (k : Cluster) (r : Record) : Bool :=
  match k.blockOf r with
  | .inl b => b != 0xFFF
  | .inr _ => false

/-- Records in the write queues of BENQ ports. -/
def Cluster.heldRecords (k : Cluster) : List Record := (k.fab.ports.map fun e => e.2.heldRec).flatten

/-- The records of a task's bins: those in them, and those held for them (R219, R245, R331). -/
def Cluster.binRecords (k : Cluster) : List Record :=
  (k.bins.map fun e => e.2.recs).flatten ++ k.startQ ++ k.pushSlot.toList ++ k.heldRecords.filter k.counts

/-- Records discarded with their bins: counted in DISC, and ET set for an error among them (R11). -/
def Cluster.discardRecs (k : Cluster) (rs : List Record) : Cluster :=
  let k1 := { k with task := { k.task with disc := k.task.disc + rs.length } }
  if rs.any fun r => r.hdr.getLsbD 48 then k1.raise fET else k1

/-- The bins emptied with the records held for them. -/
def Cluster.discardBins (k : Cluster) : Cluster :=
  let rs := k.binRecords
  ({ k with
     bins := k.bins.map fun e => (e.1, { e.2 with recs := [] }), startQ := [], pushSlot := none,
     fab := { k.fab with ports := k.fab.ports.map fun e => (e.1, { e.2 with heldRec := e.2.heldRec.filter (!k.counts ·) }) }
   } : Cluster).discardRecs rs

/-- The records that ports hold for no bin end with the fabric, and set ET as they would on their way (R9, R10). -/
def Cluster.dropRest (k : Cluster) : Cluster :=
  let ends (r : Record) : Bool := match k.blockOf r with | .inl _ => r.hdr.getLsbD 48 | .inr _ => true
  if (k.heldRecords.filter (!k.counts ·)).any ends then k.raise fET else k

/-- A sequencer stopped for good: operations already sent complete, the others are discarded. -/
def Sequencer.stop (x : Sequencer) : Sequencer :=
  { x with outstanding := x.outstanding.filter (fun o => match o.phase with | .sent _ => true | .halves _ _ => true | .failing _ => true | _ => false),
           waits := [], idle := true, exited := true, sleeping := false, shadow := none,
           frame := { x.frame with replay := [] }, engFaults := [], engPage := false, dlrisk := none, mchk := none }

/-- A slot whose region is discarded with its tokens. -/
def Slot.discard (x : Slot) : Slot :=
  match x.st with
  | .empty => x
  | .loading => { x with st := .empty }
  | _ => { x with st := .idle, dispatching := false, keep := false }

/-- R356 steps 1 to 3. -/
def Cluster.fail (k : Cluster) (code cause detail : Nat) : Cluster :=
  let k1 := k.dropRest.discardBins
  { k1 with
    task := { k1.task with st := .failing, code := code, cause := cause, detail := detail },
    seqC := k1.seqC.stop, seqY := k1.seqY.stop, seqM := k1.seqM.stop,
    copy := { k1.copy with queue := [], begun := [] },
    mat := { k1.mat with queue := [], cur := none, arms := [], pending := Vector.replicate 4 0, fired := [],
                         armWait := none },
    saving := false, slots := k1.slots.map (fun e => (e.1, e.2.discard)), fab := .reset, loads := [] }

/-- R356: the task of cluster c fails; a task that has failed already keeps its first cause. -/
def State.terminate (s : State) (c code cause detail : Nat) : State :=
  let k := s.cluster c
  if !k.task.resident || k.task.st == .failing then s
  else
    (s.setCl c (k.fail code cause detail)).rankEnds k.task.job k.task.gi k.task.rank

/-! ### Taking a trap (R349 to R355) -/

/-- The causes of R349. -/
def cILL : Nat := 1
def cPRIV : Nat := 2
def cALIGN : Nat := 3
def cPROT : Nat := 4
def cPAGE : Nat := 5
def cBADPA : Nat := 6
def cFETCH : Nat := 7
def cTRAPI : Nat := 8
def cSYSC : Nat := 9
def cBKPT : Nat := 0xA
def cSEQSTATE : Nat := 0xB
def cRDVFAULT : Nat := 0xC
def cFABSTATE : Nat := 0xD
def cRING : Nat := 0xE
def cCOPY : Nat := 0xF
def cMATRIX : Nat := 0x10
def cENGFAULT : Nat := 0x11
def cDLRISK : Nat := 0x12
def cENGPAGE : Nat := 0x13
def cMCHK : Nat := 0x14

/-- R349, R350: the causes delivered to the supervisor. -/
def causeToSup (cause detail : Nat) : Bool :=
  cause == cPAGE || (cause == cFETCH && detail == 1) || cause == cSYSC || cause == cENGPAGE || cause == cMCHK

/-- TRAPCAUSE of a delivery (R147). -/
def causeWord (cause detail : Nat) (done : Bool) : Word := w64 (cause + 256 * detail + if done then 65536 else 0)

/-- R179, R182, R188: what a waiting instruction has done that is never done twice, and a wait that an update has satisfied;
any other wait begins again. -/
def WaitKind.stands : WaitKind → Bool
  | .released => true
  | .owed _ => true
  | .failed _ _ _ => true
  | .stepEnd _ => true
  | .coll _ _ => true
  | .event _ (some _) => true
  | .ring _ _ _ (some _) => true
  | _ => false

/-- What a trap leaves of a wait: of a release the markers it is owed (R97). -/
def WaitKind.dropped : WaitKind → WaitKind
  | .release r _ => .owed r.markers
  | k => k

def dropWaits (l : List WaitRec) : List WaitRec :=
  (l.map fun w => ⟨w.pc, w.kind.dropped⟩).filter fun w => w.kind.stands

/-- R350, R351 steps 2 and 3, R354: the sequencer writes its frame and goes to the handler of the program or of
the supervisor. TRAPPC holds bits 54:0 of the address (R147). -/
def Sequencer.enter (x : Sequencer) (toSup : Bool) (entry : Word) (f : Frame) : Sequencer :=
  let f1 := { f with pc := w64 (bits f.pc 54 0) }
  let x1 := { x with shadow := if x.inProg then some x.frame else x.shadow, frame := f1, outstanding := [],
                     waits := dropWaits x.waits, sleeping := false, pc := entry }
  if toSup then { x1 with ppl := x.pl, pl := true, inSup := true } else { x1 with inProg := true }

/-- The handler's address for a cause (R350, R354). -/
def State.handler (s : State) (c : Nat) (q : SeqId) (cause detail : Nat) : Bool × Word :=
  let t := (s.cluster c).task
  if causeToSup cause detail || t.ptvec == 0 || (s.seq c q).inProg then (true, (s.part c).svec)
  else (false, t.image + w64 t.ptvec)

/-- Reports that a sequencer's misses have left untaken are gone: an access issued again walks again (R340). -/
def Cluster.dropReports (k : Cluster) : Cluster :=
  { k with misses := (k.misses.map fun m => if m.failed.isSome then { m with seqWants := false } else m).filter fun m =>
      m.failed.isNone || m.cls != 0 }

/-- The reads of a record that an agent has sent: what returns for them is let go (R351). -/
def Links.dropAsks (l : Links) (a : Agent) : Links :=
  let mine (r : RetTo) : Bool := match r with | .line w _ => w == a | _ => false
  { l with
    yLines := l.yLines.filter (·.who != a),
    yWait := l.yWait.map fun e => if mine e.2.ret then (e.1, { e.2 with ret := .nowhere }) else e,
    hostReqs := l.hostReqs.map fun h => if mine h.ret then { h with ret := .nowhere } else h }

def State.dropAsks (s : State) (a : Agent) : State := { s with links := s.links.dropAsks a }

/-- Delivery of a trap (R351, R354, R355): a cause raised at PL 1 terminates the task. -/
def State.deliver (s : State) (c : Nat) (q : SeqId) (cause detail : Nat) (arg pc : Word) (done : Bool)
    (replay : List LongOp) : State :=
  if (s.seq c q).pl then s.terminate c 0xC cause 0xFF
  else
    let h := s.handler c q cause detail
    ((s.dropAsks ⟨c, 0, seqNo q⟩).mapCl c (·.dropReports)).mapSeq c q
      (·.enter h.1 h.2 ⟨pc, causeWord cause detail done, arg, replay⟩)

/-- An operation whose access has been sent and has not returned. -/
def LongOp.isSent (o : LongOp) : Bool :=
  match o.phase with
  | .sent _ => true
  | .halves _ _ => true
  | .failing _ => true
  | _ => false

def LongOp.isDone (o : LongOp) : Bool := match o.phase with | .done _ _ => true | _ => false

def LongOp.isFaulted (o : LongOp) : Bool := match o.phase with | .faulted _ _ _ => true | _ => false

/-- R145: an operation that has performed writes its results. An ACQ.LD's acquire took place when it performed. -/
def Sequencer.writeBack (x : Sequencer) (o : LongOp) : Sequencer :=
  match o.phase with
  | .done v v2 =>
    match o.kind with
    | .load _ _ => x.setReg (Fin.ofNat 32 o.dst) v
    | .amo _ _ _ => x.setReg (Fin.ofNat 32 o.dst) v
    | .cas _ _ => x.setReg (Fin.ofNat 32 o.dst) v
    | .alu => x.setReg (Fin.ofNat 32 o.dst) v
    | .loadPair => (x.setReg (Fin.ofNat 32 o.dst) v).setReg (Fin.ofNat 32 (o.dst + 1)) v2
    | _ => x
  | _ => x

/-- R171: the operations that have performed write their results; the others are the replay queue in issue order, with
the one that faulted first at its head. -/
def Sequencer.settle (x : Sequencer) : Sequencer :=
  let x1 := x.outstanding.foldl (fun y o => if o.isDone then y.writeBack o else y) x
  let rest := x.outstanding.filter fun o => !o.isDone
  { x1 with outstanding := match rest.find? (·.isFaulted) with | some o => o :: rest.erase o | none => rest }

/-- R125, R170, R171: the issuing instruction takes a precise trap. While an operation that was sent has not
returned, it waits. -/
def State.trap (s : State) (cause detail : Nat) (arg : Word) : State :=
  if s.me.outstanding.any (·.isSent) then s
  else
    let s1 := s.mapMe (·.settle)
    s1.deliver s.cur.1 s.cur.2 cause detail arg s1.me.pc false s1.me.outstanding

/-- R165: the instruction completes and then traps, with DONE 1 and TRAPPC after it. -/
def State.trapDone (s : State) (cause : Nat) (arg : Word) : State :=
  if s.me.outstanding.any (·.isSent) then s
  else
    let s1 := s.mapMe (·.settle)
    s1.deliver s.cur.1 s.cur.2 cause 0 arg (s1.me.pc + 4) true s1.me.outstanding

/-- An illegal encoding (R124, R170): ILL with the first instruction word. -/
def State.ill (s : State) (word : Nat) : State := s.trap cILL 0 (w64 (word % 2 ^ 32))

/-- Replay entries are re-injected; an instruction among them issues again as a whole, and then issue goes on at pc (R351,
R369). -/
def Sequencer.reinject (x : Sequencer) (l : List LongOp) (pc : Word) : Sequencer :=
  let whole := l.find? (·.kind == .command)
  { x with outstanding := (l.filter (·.kind != .command)).map fun o => { o with phase := .unsent },
           resume := whole.map fun (o : LongOp) => (o.pc, pc),
           pc := match whole with | some o => o.pc | none => pc }

/-- R167, R305, R354: the return from a handler, whose replay entries are re-injected. -/
def Sequencer.leave (x : Sequencer) : Sequencer :=
  let y := x.reinject x.frame.replay x.frame.pc
  if x.pl then
    { y with pl := x.ppl, inSup := false, frame := match x.shadow with | some f => f | none => { x.frame with replay := [] },
             shadow := none }
  else { y with inProg := false, frame := { x.frame with replay := [] } }

/-! ### Causes of the engines (R357) -/

/-- An engine cause of a copy or matrix sequencer; one that is idle or has exited passes it to the control
sequencer, and when that has exited too the task fails with the cause. -/
def State.raiseEng (s : State) (c : Nat) (q : SeqId) (detail : Nat) (arg : Word) : State :=
  let x := s.seq c q
  let y := s.seq c .control
  if !(x.idle || x.exited) then
    s.mapSeq c q fun z => { z with engFaults := z.engFaults ++ [(detail, arg)], sleeping := false }
  else if !y.exited && !(s.cluster c).task.left then
    s.mapSeq c .control fun z => { z with engFaults := z.engFaults ++ [(detail, arg)], sleeping := false }
  else s.terminate c 0xC cENGFAULT detail

/-! ### What the host receives (R313, R389, R393) -/

/-- A posted write to host memory. -/
def State.hostWrite (s : State) (a : Nat) (bs : List Byte) : State := { s with host := s.host.write a bs }

/-- MSI-X vector k of function f, while it is unmasked; of a masked vector the message is pending, and while the host link is
down none is sent (R389; log entry 36). -/
def State.msix (s : State) (f k : Nat) : State :=
  let l := s.links
  if !l.hostUp then s
  else if l.msixOpen.contains (f, k) then { s with links := { l with msix := l.msix ++ [(f, k)] } }
  else { s with links := { l with msixPend := if l.msixPend.contains (f, k) then l.msixPend else l.msixPend ++ [(f, k)] } }

/-- A vector's mask bit is written: an unmasked one sends the message it has pending (R389; log entry 36). -/
def Links.maskVector (l : Links) (e : Nat × Nat) (masked : Bool) : Links :=
  let others := l.msixOpen.filter (· != e)
  if masked then { l with msixOpen := others }
  else { l with msixOpen := e :: others, msix := if l.msixPend.contains e then l.msix ++ [e] else l.msix,
                msixPend := l.msixPend.filter (· != e) }

/-- The prefix of a context's host-window requests (R393). -/
def State.pasidOf (s : State) (ctx : Nat) : Option Nat :=
  let v := (s.ctx ctx).hpasid
  if v.getLsbD 20 then some (bits v 19 0) else none

/-- Host-window requests leave the list: invalidations that waited for none but them complete (R393). -/
def Links.keepHost (l : Links) (keep : HostReq → Bool) : Links :=
  let left := l.hostReqs.filter keep
  let waits := l.atsOpen.map fun e => e.filter fun i => left.any (·.id == i)
  { l with hostReqs := left, atsOpen := waits.filter (!·.isEmpty), atsDone := l.atsDone + waits.countP (·.isEmpty) }

/-- R404: a trace record of a type, with its header and payload, to the trace buffer in host memory. -/
def State.trace (s : State) (ty ctx region blk ver : Nat) (payload : List Byte) : State :=
  let d := s.dbg
  if !bit d.tren ty then s
  else if (d.trwr + 2 ^ 32 - d.trrd) % 2 ^ 32 < 2 ^ d.trlog then
    let rec_ := leBytes 1 ty ++ leBytes 1 0 ++ leBytes 2 ctx ++ leBytes 2 region ++ leBytes 2 blk ++ leBytes 2 ver
      ++ leBytes 6 s.now ++ payload
    let bs := (rec_ ++ List.replicate 48 0).take 64
    let s1 := s.hostWrite (d.trbase.toNat + 64 * (d.trwr % 2 ^ d.trlog)) bs
    { s1 with dbg := { d with trwr := (d.trwr + 1) % 2 ^ 32 } }
  else { s with dbg := { d with trdrop := Nat.min (d.trdrop + 1) (2 ^ 32 - 1) } }

end Sys2Proof.Machine
end

