-- ==== Sys2Proof/Machine/Operands.lean ====
section
/-! DEFINITION. The operand forms of R109 to R119: immediates, branch targets, effective addresses and counts;
and the checks of R158 and R175 on an address. -/

namespace Sys2Proof.Machine

/-- imm12 sign-extended (R111, R149). -/
def simm12 (i : BitVec 12) : Word := i.signExtend 64

/-- imm12 zero-extended (R111, R149). -/
def zimm12 (i : BitVec 12) : Word := i.zeroExtend 64

/-- imm17 sign-extended (R151). -/
def simm17 (i : BitVec 17) : Word := i.signExtend 64

/-- pc + imm17 × 4 (R151, R156). -/
def rel17 (pc : Word) (i : BitVec 17) : Word := pc + i.signExtend 64 * 4

/-- pc + off22 × 4 (R154). -/
def rel22 (pc : Word) (i : BitVec 22) : Word := pc + i.signExtend 64 * 4

/-- F-MEM: s[a] + off9 × size (R115, R158). -/
def eaMem (x : Sequencer) (a : Reg) (off : BitVec 9) (size : Nat) : Word := x.reg a + off.signExtend 64 * w64 size

/-- ACQ.LD and REL.ST: s[a] + a signed byte offset (R117, R178). -/
def eaX64 (x : Sequencer) (a : Reg) (off : BitVec 16) : Word := x.reg a + off.signExtend 64

/-- The count of a ring operation: s[a] + imm16 (R118, R182). -/
def ringCount (x : Sequencer) (a : Reg) (imm : BitVec 16) : Word := x.reg a + imm.zeroExtend 64

/-- The first byte of the local window, of the hole behind it, and the end of the hole (R78). -/
def winBase : Nat := 0x7FF000000000
def winHole : Nat := 0x7FF000200000
def winEnd : Nat := 0x800000000000

/-- An address in the local window (R78). -/
def inWindow (a : Nat) : Bool := winBase ≤ a && a < winHole

/-- Some byte of a … a + n − 1 lies in the hole (R78, R158). -/
def touchesHole (a n : Nat) : Bool := a < winEnd && winHole < a + n

/-- The checks of R158 at issue, for n bytes with alignment al: the first failure as cause and detail. -/
def checkEa (ea : Word) (al n : Nat) : Option (Nat × Nat) :=
  if bits ea 63 55 != 0 then some (cPROT, 1)
  else if ea.toNat % al != 0 then some (cALIGN, 0)
  else if touchesHole ea.toNat n then some (cPROT, 2)
  else none

/-- A target that is not a multiple of 4 (R155, R180). -/
def misaligned4 (t : Word) : Bool := t.toNat % 4 != 0

/-- A load's value from its bytes: sign- or zero-extended (R159). -/
def extend (size : Nat) (sx : Bool) (bs : List Byte) : Word :=
  if sx then ofInt64 (Machine.sext (8 * size) (leNat bs)) else ofBytes bs

end Sys2Proof.Machine
end

