-- ==== Sys2Proof/Machine/Flags.lean ====
section
/-! DEFINITION. The predicates of the compares (R152), the predicate logic (R153) and the flag word FLAGS as
MFS and MTS see it (R73, R75). -/

namespace Sys2Proof.Machine

/-- EQ, NE (R152). -/
def ccEq (x y : Word) : Bool := x == y
def ccNe (x y : Word) : Bool := x != y
/-- LT, GE: signed (R152). -/
def ccLt (x y : Word) : Bool := x.slt y
def ccGe (x y : Word) : Bool := !x.slt y
/-- LTN, GEN: unsigned (R152). -/
def ccLtn (x y : Word) : Bool := x.ult y
def ccGen (x y : Word) : Bool := !x.ult y

/-- A value MTS may write to FLAGS: bits 63:8 are RZ (R73). -/
def flagsLegal (v : Word) : Bool := v.toNat < 256

end Sys2Proof.Machine
end

