-- ==== Sys2Proof/Machine/Translate.lean ====
section
/-! DEFINITION. Where a physical address lies (R79, R315), context descriptors (R310), page tables and their
walks (R335 to R339), the cluster's TLB and its misses (R340, R341, R343). -/

namespace Sys2Proof.Machine

/-! ### Physical addresses -/

/-- Where a physical address lies for an access of a partition (R79, R315, R394, R395). -/
inductive Place where
  | mem (key : Nat)        -- HBM or Granary of this module
  | host (off : Nat)       -- the host window
  | remote (m : Nat)       -- another module of the domain
  | unbacked
  deriving DecidableEq, Repr

/-- Bytes of HBM a partition holds (R315). -/
def Partition.hbm (p : Partition) : Nat := 2 ^ p.logsz * 96000000000

def granaryBase : Nat := 0x010000000000
def granaryEnd : Nat := 0x0D0000000000
def hostBase : Nat := 0x100000000000

/-- The Granary port of a local address (R79, R315). -/
def Partition.granaryPort (p : Partition) (l : Nat) : Nat :=
  3 * p.first + (l - granaryBase) / 0x10000 % (3 * 2 ^ p.logsz)

/-- Its offset there (R79). -/
def Partition.granaryOffset (p : Partition) (l : Nat) : Nat :=
  (l - granaryBase) / 0x10000 / (3 * 2 ^ p.logsz) * 0x10000 + (l - granaryBase) % 0x10000

/-- A device backs an offset of a Granary port: it is there, it reaches so far, within 512 GiB, and its link has not failed
(R394; log entry 130). -/
def State.granaryBacks (s : State) (port off : Nat) : Bool :=
  off < Nat.min (s.links.granaryCap.get port (2 ^ 39)) (2 ^ 39) && !s.links.granaryBad.contains port

/-- A local address of a partition of this module. -/
def State.localPlace (s : State) (p : Partition) (l : Nat) : Place :=
  if l < p.hbm then .mem (p.first * 2 ^ 45 + l)
  else if granaryBase ≤ l && l < granaryEnd then
    if s.granaryBacks (p.granaryPort l) (p.granaryOffset l) then .mem (p.first * 2 ^ 45 + l) else .unbacked
  else if hostBase ≤ l && l < 2 * hostBase then (if s.links.hostUp then .host (l - hostBase) else .unbacked)
  else .unbacked

/-- The module number and the local address of a global physical address (R79). -/
def paModule (pa : Nat) : Nat := pa / 2 ^ 45 % 2 ^ 13
def paLocal (pa : Nat) : Nat := pa % 2 ^ 45

/-- A module-local address that no module backs (R79). -/
def unbackedLocal (l : Nat) : Bool :=
  (0xB2D05E0000 ≤ l && l < granaryBase) || (granaryEnd ≤ l && l < hostBase) || 2 * hostBase ≤ l

/-! ### The torus of the domain (R395, R396) -/

/-- Entry m of the domain map: valid bit and position. -/
def State.domainEntry (s : State) (m : Nat) : Bool × Nat := s.boot.dmap.get m (false, 0)

/-- A coordinate of a position z × 256 + y × 16 + x: 0 x, 1 y, 2 z. -/
def coord (pos axis : Nat) : Nat := match axis with | 0 => pos % 16 | 1 => pos / 16 % 16 | _ => pos / 256

/-- The positions of the torus along an axis: as far as the valid entries of the map reach (log entry 122). -/
def State.extent (s : State) (axis : Nat) : Nat :=
  s.boot.dmap.foldl (fun n e => if e.2.1 then Nat.max n (coord e.2.2 axis + 1) else n) 1

/-- The axes of a dimension order, first hop first (log entry 122). -/
def axesOf (perm : Nat) : List Nat :=
  match perm with
  | 0 => [0, 1, 2]
  | 1 => [0, 2, 1]
  | 2 => [1, 0, 2]
  | 3 => [1, 2, 0]
  | 4 => [2, 0, 1]
  | _ => [2, 1, 0]

/-- The direction of the shorter way round an axis, + where both are as long; none where the coordinates agree. -/
def State.direction (s : State) (axis here there : Nat) : Option Nat :=
  let n := s.extent axis
  let d := (coord there axis + n - coord here axis) % n
  if d = 0 then none else some (2 * axis + if 2 * d ≤ n then 0 else 1)

/-- The Yilsin port 3d + j by which a packet of a path leaves a position for another: the first hop of its dimension order, at
its lane; none where the positions agree. -/
def State.hopPort (s : State) (here there path : Nat) : Option Nat :=
  ((axesOf (path % 6)).findSome? fun a => s.direction a here there).map fun d => 3 * d + path / 6

/-- The position of the module. -/
def State.position (s : State) : Nat := (s.domainEntry ((s.parts.head?.map (·.module_)).getD 0)).2

/-- The output port of this module towards module m on a path. -/
def State.outPort (s : State) (m path : Nat) : Option Nat := s.hopPort s.position (s.domainEntry m).2 path

/-- The paths towards module m whose port is in use (R396, R397). -/
def State.pathsUp (s : State) (m : Nat) : List Nat :=
  (List.range 18).filter fun p => match s.outPort m p with | some port => !s.links.yDown.contains port | none => true

/-- R79, R395: where an access of partition p to a physical address goes. Another partition of the module, which stands at
the module's own position of the domain map, is another module. -/
def State.placeOf (s : State) (p : Partition) (pa : Nat) : Place :=
  let m := paModule pa
  if m == p.module_ then s.localPlace p (paLocal pa)
  else
    let e := s.domainEntry m
    if !e.1 then .unbacked
    else if e.2 == (s.domainEntry p.module_).2 then
      match s.parts.find? (·.module_ == m) with
      | some p' => match s.localPlace p' (paLocal pa) with | .unbacked => .unbacked | _ => .remote m
      | none => .unbacked
    else if unbackedLocal (paLocal pa) || (s.pathsUp m).isEmpty then .unbacked
    else .remote m

/-- The key lies in the Granary. -/
def inGranary (key : Nat) : Bool := granaryBase ≤ key % 2 ^ 45 && key % 2 ^ 45 < granaryEnd

/-! ### Context descriptors (R310, R311) -/

/-- A descriptor counts as valid when VALID is set and every reserved field is zero. -/
def descValid (d : List Byte) : Bool :=
  field d 8 1 % 2 == 1 && field d 8 1 / 4 == 0 && field d 10 2 == 0 && field d 36 28 == 0 && field d 0 8 % 65536 == 0
    && field d 0 8 / 2 ^ 58 == 0

/-- The function a context belongs to (R309). -/
def fnOf (n : Nat) : Nat := n / 64

/-- The descriptor of context n as a partition reads it: the cached copy, or the table, of which it reads its own functions'
descriptors alone (R310). -/
def State.descOf (s : State) (p : Partition) (n : Nat) : List Byte :=
  if !bit p.fns (fnOf n) then List.replicate 64 0
  else
  match (s.ctx n).desc with
  | some d => d
  | none =>
    match s.placeOf p (p.ctxtbl.toNat + 64 * n) with
    | .mem k => s.mem.read k 64
    | _ => List.replicate 64 0

/-- A partition that holds no function. -/
def Partition.nobody : Partition := .reset 0 0 0 0

/-- The partition a function belongs to (R309): one that no entry of the table lists belongs to none. -/
def State.partOfFn (s : State) (f : Nat) : Partition :=
  (s.parts.find? fun p => bit p.fns f).getD (if s.parts.isEmpty then .whole else .nobody)

/-- The partition a context belongs to. -/
def State.partOfCtx (s : State) (n : Nat) : Partition := s.partOfFn (fnOf n)

/-- The descriptor read and held in the cache, until it is dropped (R311). -/
def State.cacheDesc (s : State) (p : Partition) (n : Nat) : State :=
  if bit p.fns (fnOf n) then s.mapCtx n fun x => { x with desc := some (s.descOf p n) } else s

/-! ### Page tables -/

/-- R336: a valid entry that is malformed at its level. -/
def pteMalformed (p : Partition) (e lvl : Nat) : Bool :=
  let tbl := bit e 1
  let addr := nbits e 16 42 * 65536
  nbits e 12 4 != 0
    || (tbl && lvl == 3)
    || (tbl && (nbits e 2 10 != 0 || !(paModule addr == p.module_ && paLocal addr < p.hbm)))
    || (!tbl && bit e 3 && !bit e 2)
    || (!tbl && lvl == 1 && nbits e 16 26 != 0)
    || (!tbl && lvl == 2 && nbits e 16 13 != 0)
    || (!tbl && lvl != 3 && bit e 11)

/-- How a walk ends (R337, R344). -/
inductive Walk where
  | leaf (e : TlbEntry)
  | miss (level kind : Nat)
  deriving DecidableEq, Repr

/-- The leaf of an entry (R337, R338). -/
def leafOf (asid va e lvl : Nat) : TlbEntry :=
  let size := if lvl == 3 && bit e 11 then 2 ^ 21 else 2 ^ (55 - 13 * lvl)
  { asid := asid, global := bit e 5, vbase := va / size * size, size := size,
    pbase := nbits e 0 58 / size * size, r := bit e 2, w := bit e 3, x := bit e 4, pin := bit e 6,
    cmp := bit e 7, cls := nbits e 8 3 }

/-- What the walk cache of a die holds of a level-1 or level-2 entry (R341). -/
def Die.cached (d : Die) (asid lvl a : Nat) : Option Nat :=
  if lvl == 3 then none else (d.walkCache.find? fun x => x.1 == asid && x.2.1 == a).map (·.2.2)

/-- One level after another from the table page at t (R337). Each entry is read at its home, unless the walk cache holds it
(R341, R342). -/
def State.walkFrom (s : State) (p : Partition) (d : Die) (asid va : Nat) : List Nat → Nat → Walk
  | [], _ => .miss 3 1
  | lvl :: rest, t =>
    let a := t + 8 * nbits va (55 - 13 * lvl) 13
    match s.placeOf p a with
    | .mem k =>
      let e := (d.cached asid lvl a).getD (leNat (s.mem.read k 8))
      if !bit e 0 then .miss lvl 0
      else if pteMalformed p e lvl then .miss lvl 1
      else if bit e 1 then s.walkFrom p d asid va rest (nbits e 16 42 * 65536)
      else .leaf (leafOf asid va e lvl)
    | _ => .miss lvl 1

/-- R337: the walk of va in an address space, by a walker with a walk cache. -/
def State.walkBy (s : State) (p : Partition) (d : Die) (asid va : Nat) : Walk :=
  s.walkFrom p d asid va [1, 2, 3] (nbits (field (s.descOf p asid) 0 8) 16 42 * 65536)

/-- The walk by a walker of a fabric die (R341). -/
def State.walk (s : State) (p : Partition) (d asid va : Nat) : Walk := s.walkBy p (s.die d) asid va

/-- The entries a walk reads from memory: their level, address, memory key and value (R337, R341). -/
def State.walkReads (s : State) (p : Partition) (d : Die) (asid va : Nat) : List Nat → Nat → List (Nat × Nat × Nat × Nat)
  | [], _ => []
  | lvl :: rest, t =>
    let a := t + 8 * nbits va (55 - 13 * lvl) 13
    match s.placeOf p a with
    | .mem k =>
      let c := d.cached asid lvl a
      let e := c.getD (leNat (s.mem.read k 8))
      let mine := if c.isSome then [] else [(lvl, a, k, e)]
      if bit e 0 && bit e 1 && !pteMalformed p e lvl then mine ++ s.walkReads p d asid va rest (nbits e 16 42 * 65536) else mine
    | _ => []

/-- The entries the walk of va reads. -/
def State.walkPath (s : State) (p : Partition) (d : Die) (asid va : Nat) : List (Nat × Nat × Nat × Nat) :=
  s.walkReads p d asid va [1, 2, 3] (nbits (field (s.descOf p asid) 0 8) 16 42 * 65536)

/-- The table entries among them that the walk cache takes: those that lead to a further level (R341). -/
def cacheable (p : Partition) (asid : Nat) (l : List (Nat × Nat × Nat × Nat)) : List (Nat × Nat × Nat) :=
  (l.filter fun x => x.1 != 3 && bit x.2.2.2 0 && bit x.2.2.2 1 && !pteMalformed p x.2.2.2 x.1).map fun x => (asid, x.2.1, x.2.2.2)

/-! ### The TLB (R340) -/

def TlbEntry.covers (e : TlbEntry) (va : Nat) : Bool := e.vbase ≤ va && va < e.vbase + e.size

def TlbEntry.hits (e : TlbEntry) (asid va : Nat) : Bool := (e.global || e.asid == asid) && e.covers va

def Cluster.lookup (k : Cluster) (asid va : Nat) : Option TlbEntry := k.tlb.find? (·.hits asid va)

/-- The entry becomes the most recently used. -/
def Cluster.touch (k : Cluster) (e : TlbEntry) : Cluster := { k with tlb := e :: k.tlb.erase e }

/-- R340: a leaf is installed in place of the least recently used unpinned entry of 256; a pinned leaf beside 32
pinned entries is held as unpinned. A pinned entry of the same leaf stays: only a TLBI removes it. -/
def Cluster.install (k : Cluster) (e : TlbEntry) : Cluster :=
  let same (f : TlbEntry) : Bool := f.asid == e.asid && f.vbase == e.vbase && f.size == e.size
  let rest := k.tlb.filter fun f => !same f
  let e1 := if e.pin && 32 ≤ rest.countP (·.pin) then { e with pin := false } else e
  let kept :=
    if rest.length < 256 then rest
    else
      let r := rest.reverse
      (dropNth r (r.findIdx fun f => !f.pin)).reverse
  match k.tlb.find? fun f => same f && f.pin with
  | some f => k.touch f
  | none => { k with tlb := e1 :: kept }

/-- What an access does with its translation: reads, writes, or is fetched. -/
structure Need where
  r : Bool
  w : Bool
  x : Bool
  deriving DecidableEq, Repr

def needR : Need := ⟨true, false, false⟩
def needW : Need := ⟨false, true, false⟩
def needRW : Need := ⟨true, true, false⟩
def needX : Need := ⟨false, false, true⟩

/-- R337: the permissions an access needs. -/
def TlbEntry.allows (e : TlbEntry) (n : Need) : Bool := (!n.r || e.r) && (!n.w || e.w) && (!n.x || e.x)

/-- A translation in the TLB as it stands. -/
inductive Xlat where
  | ok (pa : Nat) (e : TlbEntry)
  | perm
  | miss
  deriving DecidableEq, Repr

def Cluster.xlat (k : Cluster) (asid va : Nat) (n : Need) : Xlat :=
  match k.lookup asid va with
  | some e => if e.allows n then .ok (e.pbase + va % e.size) e else .perm
  | none => .miss

/-! ### Misses (R341, R343) -/

/-- Page number of a virtual address (R341). -/
def pageOf (va : Nat) : Nat := nbits va 16 39

/-- The miss of a page that has not ended. -/
def Miss.waits (m : Miss) (asid va : Nat) : Bool := m.asid == asid && m.page == pageOf va && m.failed.isNone

/-- The misses outstanding: those whose walk has not ended. A held access stands in its own queue (R343). -/
def Cluster.missesOut (k : Cluster) : Nat := k.misses.countP (·.failed.isNone)

/-- A sequencer's access misses: it joins the outstanding miss of its page, or begins one when fewer than 32 are
outstanding. -/
def Cluster.seqMiss (k : Cluster) (asid va : Nat) : Cluster :=
  if k.misses.any (·.waits asid va) then
    { k with misses := k.misses.map fun m => if m.waits asid va then { m with seqWants := true } else m }
  else if k.missesOut < 32 then
    { k.count 8 1 with misses := k.misses ++ [⟨asid, pageOf va, va, 0, 0, true, [], false, none, false⟩] }
  else k

/-- A miss of engines on the page is held (R343). -/
def Miss.held (m : Miss) (asid va : Nat) : Bool :=
  m.asid == asid && m.page == pageOf va && m.failed.isSome && m.cls != 0

/-- One more access joins a miss; the first names it in the fault queue (R341, R344). -/
def Miss.join (m : Miss) (va cls sub acc : Nat) : Miss :=
  let m1 := { m with joins := if m.joins.contains (va, cls, sub) then m.joins else m.joins ++ [(va, cls, sub)] }
  if m.cls == 0 then { m1 with cls := cls, va := va, acc := acc } else m1

/-- An engine's access of a class misses: it joins the miss of its page, held or outstanding, or begins one when fewer than 32
are outstanding (R341). -/
def Cluster.engMiss (k : Cluster) (asid va cls sub acc : Nat) : Cluster :=
  let joins (m : Miss) : Bool := m.held asid va || m.waits asid va
  if k.misses.any joins then { k with misses := k.misses.map fun m => if joins m then m.join va cls sub acc else m }
  else if k.missesOut < 32 then
    { k.count 8 1 with misses := k.misses ++ [⟨asid, pageOf va, va, cls, acc, false, [(va, cls, sub)], false, none, false⟩] }
  else k

/-- This very access of an engine is held: it stays so until a TLBI wakes it, while any other looks the TLB up (R340, R343,
R345). -/
def Miss.isHeld (m : Miss) (asid va cls sub : Nat) : Bool :=
  m.asid == asid && m.failed.isSome && m.joins.contains (va, cls, sub)

/-- The walk of a page wanted by a sequencer has missed: the fault it is to report. -/
def Cluster.seqFailed (k : Cluster) (asid va : Nat) : Bool :=
  k.misses.any fun m => m.asid == asid && m.page == pageOf va && m.failed.isSome && m.seqWants

/-- The report taken by a sequencer. -/
def Cluster.takeFailed (k : Cluster) (asid va : Nat) : Cluster :=
  let ms := k.misses.map fun m =>
    if m.asid == asid && m.page == pageOf va && m.failed.isSome then { m with seqWants := false } else m
  { k with misses := ms.filter fun m => m.seqWants || m.cls != 0 || m.failed.isNone }

end Sys2Proof.Machine
end

