-- ==== Sys2Proof/Machine/Memory.lean ====
section
/-! DEFINITION. Memory accesses: the serialisation of writes and what a read may return (R81 to R104), packets to
other modules (R97, R396, R397), and the reads and writes of records and engines through translation. -/

namespace Sys2Proof.Machine

/-- The request writes its location; to a tile it has performed once its write queue accepts it (R93). -/
def ReqKind.writes : ReqKind → Bool
  | .read _ => false
  | .flush => false
  | _ => true

/-! ### Locations -/

/-- The place of byte off of cluster c's window among the locations of R85. -/
def tileKey (c off : Nat) : Nat := 2 ^ 60 + 2 ^ 21 * c + off

/-- The n bytes a location holds last in its serialisation order (R90). -/
def State.rawRead (s : State) (key n : Nat) : List Byte :=
  if 2 ^ 60 ≤ key then (s.cluster ((key - 2 ^ 60) / 2 ^ 21)).tiles.read ((key - 2 ^ 60) % 2 ^ 21) n
  else s.mem.read key n

def State.rawWrite (s : State) (key : Nat) (bs : List Byte) : State :=
  if 2 ^ 60 ≤ key then
    s.mapCl ((key - 2 ^ 60) / 2 ^ 21) fun k => { k with tiles := k.tiles.write ((key - 2 ^ 60) % 2 ^ 21) bs }
  else { s with mem := s.mem.write key bs }

/-! ### The L2 slices (R80, R347, R348) -/

/-- The partition whose memory a key lies in. -/
def State.partOfKey (s : State) (key : Nat) : Partition := (s.parts.find? (·.first == key / 2 ^ 45)).getD .whole

/-- The slice that is a line's home, numbered 32 × die + slice: its die is one of its partition's (R80, R315). -/
def State.homeSlice (s : State) (key : Nat) : Nat :=
  let l := key % 2 ^ 45
  let p := s.partOfKey key
  let g := 2 ^ p.logsz
  32 * (p.first + if l < granaryBase then l / 4096 % (2 * g) / 2 else (nbits l 6 3 ^^^ nbits l 21 3) % g)
    + (nbits l 6 5 ^^^ nbits l 16 5)

/-- The set a line lies in, numbered through the slices. -/
def State.setOf (s : State) (key : Nat) : Nat := 4096 * s.homeSlice key + Config.l2Set (key / 64) % 4096

/-- A class's replacement control at the home of a key (R320, R347). -/
def State.rctOf (s : State) (key rcls : Nat) : Nat := if h : rcls < 8 then (s.partOfKey key).rct[rcls].toNat else 0

/-- The line of a key stands in L2. -/
def State.hitsL2 (s : State) (key : Nat) : Bool := (s.l2.get (s.setOf key) []).any (·.line == some (key / 64))

/-- R347, R394: a read of the Granary that neither L2 nor the staging buffer serves finds its line poisoned. -/
def State.poisoned (s : State) (key : Nat) : Bool :=
  inGranary key && !s.hitsL2 key && !s.staging.contains (key / 4096) && Config.granaryPoison (key / 64) s.counter

/-- R348: a line enters a set in place of a victim among the ways it may use, and takes an age; a modified victim is
written back. -/
def State.fillWay (s : State) (line set : Nat) (allowed : Nat → Bool) (age : Nat) (backing : Option (List Byte)) : State :=
  let ways := let l := s.l2.get set []; if l.length == 16 then l else List.replicate 16 ⟨none, 3, none⟩
  let oldest := ((List.range 16).filter allowed).foldl (fun m w => Nat.max m ((ways[w]?.map (·.age)).getD 0)) 0
  let aged := (List.range 16).zip ways |>.map fun (w, x) => if allowed w then { x with age := x.age + (3 - oldest) } else x
  { s with l2 :=
      match (List.range 16).find? fun w => allowed w && (ways[w]?.map (·.age)).getD 0 == oldest with
      | none => s.l2
      | some v => s.l2.set set (modNth aged v fun _ => ⟨some line, age, backing⟩) }

/-- The class allocates in L2 (R320, R347). -/
def allocates (rct : Nat) : Bool := bit rct 20 && nbits rct 18 2 != 2 && nbits rct 2 16 != 0

/-- R347: a line fills its set under a class's replacement control. -/
def State.fillClass (s : State) (line set rct : Nat) (backing : Option (List Byte)) : State :=
  if !allocates rct then s
  else s.fillWay line set (fun w => bit rct (2 + w)) (if nbits rct 18 2 == 3 then 3 else nbits rct 0 2) backing

/-- R347: a read miss of the Granary may bring its 4 KiB segment into the port's staging buffer: an open choice (log entry
110). -/
def State.stage4k (s : State) (key rct : Nat) : State :=
  if inGranary key && bit rct 21 && Config.granaryStage (key / 4096) s.counter && !s.staging.contains (key / 4096) then
    { s with staging := key / 4096 :: s.staging, counter := s.counter + 1 }
  else s

/-- R347, R348: what an access of a class does to L2 as it reaches its home: a hit makes the line young, except under streaming,
and a miss of a class that allocates asks for the line. -/
def State.touchL2 (s : State) (key rcls : Nat) (reads : Bool) : State :=
  let rct := s.rctOf key rcls
  let line := key / 64
  let hit := s.hitsL2 key
  let s1 := if reads && inGranary key && !hit then s.stage4k key rct else s
  let young (w : L2Way) : L2Way := if w.line == some line then { w with age := 0 } else w
  { s1 with l2 := if hit && !(nbits rct 18 2 == 3 && bit rct 20) then s.l2.set (s.setOf key) ((s.l2.get (s.setOf key) []).map young) else s.l2,
            l2Fills := if allocates rct && !hit && !s.l2Fills.any (·.line == line) then s.l2Fills ++ [⟨line, rcls, none⟩] else s.l2Fills }

/-- R342: a table line that a walk reads is filled in its slice with insertion age 0, in any way, or made young there (R348). -/
def State.tableFill (s : State) (k : Nat) : State :=
  let young (w : L2Way) : L2Way := if w.line == some (k / 64) then { w with age := 0 } else w
  { s with l2 :=
      if s.hitsL2 k then s.l2.set (s.setOf k) ((s.l2.get (s.setOf k) []).map young)
      else (s.fillWay (k / 64) (s.setOf k) (fun _ => true) 0 none).l2 }

/-- The lines of the entries that a walk reads (R337, R342). -/
def State.tableFills (s : State) (reads : List (Nat × Nat × Nat × Nat)) : State := reads.foldl (fun t x => t.tableFill x.2.2.1) s

/-- R347: what L2 holds modified after a write of bs at key. -/
def State.markDirty (s : State) (key : Nat) (bs : List Byte) (wpol : Nat) : State :=
  let line := key / 64
  let at_ := line * 64
  let mark (b : Option (List Byte)) : Option (List Byte) :=
    match b with
    | some old => some (if wpol == 1 then Memory.read (Memory.write (Memory.write [] at_ old) key bs) at_ 64 else old)
    | none => if wpol == 1 then none else some (s.mem.read at_ 64)
  let way (w : L2Way) : L2Way := if w.line == some line then { w with backing := mark w.backing } else w
  let fill (f : L2Fill) : L2Fill := if f.line == line then { f with backing := mark f.backing } else f
  if 2 ^ 60 ≤ key then s
  else
    { s with l2 := if s.hitsL2 key then s.l2.set (s.setOf key) ((s.l2.get (s.setOf key) []).map way) else s.l2,
             l2Fills := if s.hitsL2 key then s.l2Fills else s.l2Fills.map fill }

/-- The bytes that the backing store of a line holds where L2 holds it modified. -/
def State.backing (s : State) (line : Nat) : Option (List Byte) :=
  ((s.l2.get (s.setOf (64 * line)) []).findSome? fun w => if w.line == some line then w.backing else none).or
    (s.l2Fills.findSome? fun f => if f.line == line then f.backing else none)

/-- The line is clean: written back (R163). -/
def State.cleanLine (s : State) (line : Nat) : State :=
  let set := s.setOf (64 * line)
  let way (w : L2Way) : L2Way := if w.line == some line then { w with backing := none } else w
  let fill (f : L2Fill) : L2Fill := if f.line == line then { f with backing := none } else f
  { s with l2 := if (s.l2.get set []).isEmpty then s.l2 else s.l2.set set ((s.l2.get set []).map way),
           l2Fills := s.l2Fills.map fill }

/-- The line leaves L2 without being written back (R164). -/
def State.dropLine (s : State) (line : Nat) : State :=
  let set := s.setOf (64 * line)
  let way (w : L2Way) : L2Way := if w.line == some line then { w with line := none, backing := none } else w
  { s with l2 := if (s.l2.get set []).isEmpty then s.l2 else s.l2.set set ((s.l2.get set []).map way),
           l2Fills := s.l2Fills.filter (·.line != line) }

/-- The writes that precede a write at one of its bytes. -/
def WriteRec.before (r : WriteRec) (a : Nat) : List Nat := r.pred.getD (a - r.key) []

/-- R86, R90: the write `id` takes its place: after every write before it, and, for an atomic, after every write the
location has had. What comes before those comes before it too. -/
def State.commit (s : State) (id key : Nat) (bs : List Byte) (view : List Nat) (atomic : Bool) (rels : List RelInfo)
    (wpol : Nat) : State :=
  let olds := s.hist.filter (·.overlaps key bs.length)
  let before := if atomic then olds else olds.filter fun o => view.contains o.id
  let pred (i : Nat) : List Nat :=
    (before.filter (·.overlaps (key + i) 1)).foldl (fun acc o => union acc (o.id :: o.before (key + i))) []
  let r : WriteRec := ⟨id, key, s.rawRead key bs.length, bs, (List.range bs.length).map pred, rels, s.counter⟩
  let s1 := (s.markDirty key bs wpol).rawWrite key bs
  { s1 with hist := r :: s1.hist }

/-- A plain write made at once, under a new identifier. -/
def State.store (s : State) (key : Nat) (bs : List Byte) (view : List Nat) (rels : List RelInfo) (wpol : Nat) : State :=
  (s.commit s.counter key bs view false rels wpol).fresh

/-- The newest write of each byte. -/
def State.newest (s : State) (key n : Nat) : List WriteRec :=
  let rs := s.hist.filter (·.overlaps key n)
  (List.range n).filterMap fun i => rs.find? (·.overlaps (key + i) 1)

/-- The releases whose sequences the newest writes of a location belong to (R92). -/
def State.relsAt (s : State) (key n : Nat) : List RelInfo := ((s.newest key n).map (·.rels)).flatten.eraseDups

/-- What a read returns: bytes, the writes they come from, and the releases it observes. -/
abbrev ReadOf := List Byte × List Nat × List RelInfo

/-- Digit i of a choice: how many of the newest writes of byte i a read passes over (R87). -/
def digit (choice i : Nat) : Nat := choice / 2 ^ (32 * i) % 2 ^ 32

/-- The writes among rs, newest first, that cover a byte, with their places in rs. -/
def coverers (rs : List WriteRec) (a : Nat) : List (WriteRec × Nat) := rs.zipIdx.filter fun e => e.1.overlaps a 1

/-- R87, R88: the write of byte a that a read takes which passes over the d newest: superseded when one of those that it must
not miss comes after it. -/
def candidate (ws : List (WriteRec × Nat)) (a d : Nat) (must : List Nat) : Option (Option (WriteRec × Nat)) :=
  let src := ws[d]?
  let late (w : WriteRec) : Bool := must.contains w.id && match src with | none => true | some u => (w.before a).contains u.1.id
  if ws.length < d || (ws.take d).any fun w => late w.1 then none else some src

/-- R81: a byte taken from one write goes with no older value in another byte that the write covers. -/
def wholeWrites (srcs : List (Option (WriteRec × Nat))) (key : Nat) : Bool :=
  srcs.all fun e =>
    match e with
    | none => true
    | some (u, i) => srcs.zipIdx.all fun f =>
        !u.overlaps (key + f.2) 1 || match f.1 with | some (_, j) => decide (j ≤ i) | none => false

/-- R81, R87, R88: what a read of a single-copy atomic part returns, byte by byte by the digits of `choice`; none when it may
not. -/
def State.readPart (s : State) (key n choice : Nat) (view floor : List Nat) : Option ReadOf :=
  let rs := s.hist.filter (·.overlaps key n)
  let must := union view floor
  let ws (i : Nat) : List (WriteRec × Nat) := coverers rs (key + i)
  let src (i : Nat) : Option (Option (WriteRec × Nat)) := candidate (ws i) (key + i) (digit choice i) must
  let got := (List.range n).filterMap src
  let byte (i : Nat) (e : Option (WriteRec × Nat)) : Byte :=
    if (ws i).head? == e then (s.rawRead (key + i) 1).headD 0
    else
      match e with
      | some (u, _) => u.new.getD (key + i - u.key) 0
      | none => ((ws i).getLast?.map fun e => e.1.old.getD (key + i - e.1.key) 0).getD 0
  if got.length < n || !wholeWrites got key || choice / 2 ^ (32 * n) != 0 then none
  else
    let from_ := got.filterMap fun e => e.map (·.1)
    some ((got.zipIdx.map fun e => byte e.2 e.1), (from_.map (·.id)).eraseDups, (from_.map (·.rels)).flatten.eraseDups)

/-- The aligned 8-byte parts of n bytes (R81). -/
def parts8 : Nat → Nat → Nat → List (Nat × Nat)
  | 0, _, _ => []
  | fuel + 1, key, n =>
    if n = 0 then [] else (key, Nat.min n (8 - key % 8)) :: parts8 fuel (key + Nat.min n (8 - key % 8)) (n - Nat.min n (8 - key % 8))

def partsOf (key n : Nat) : List (Nat × Nat) := parts8 (n / 8 + 2) key n

/-- Part after part: each has its own digits of `choice` (R81). -/
def State.readParts (s : State) (view floor : List Nat) : List (Nat × Nat) → Nat → Option ReadOf
  | [], choice => if choice = 0 then some ([], [], []) else none
  | (k, m) :: r, choice =>
    match s.readPart k m (choice % 2 ^ (32 * m)) view floor, s.readParts view floor r (choice / 2 ^ (32 * m)) with
    | some x, some y => some (x.1 ++ y.1, union x.2.1 y.2.1, x.2.2 ++ y.2.2)
    | _, _ => none

/-- R81, R87, R88: a read of n bytes. -/
def State.staleRead (s : State) (key n choice : Nat) (view floor : List Nat) : Option ReadOf :=
  s.readParts view floor (partsOf key n) choice

/-- A part as a read that is made within a larger event finds it: which candidate of R87 it takes is open. -/
def State.readOpen (s : State) (key n : Nat) (view floor : List Nat) : ReadOf :=
  let rs := s.hist.filter (·.overlaps key n)
  let newest : ReadOf := (s.rawRead key n, ((s.newest key n).map (·.id)).eraseDups, s.relsAt key n)
  let d (i : Nat) : Nat := Config.pick s.counter (key + i) % ((rs.countP (·.overlaps (key + i) 1)) + 1) * 2 ^ (32 * i)
  if rs.isEmpty then newest else (s.readPart key n ((List.range n).map d).sum view floor).getD newest

/-- Such a read of any length, part after part. -/
def State.readAll (s : State) (view floor : List Nat) (l : List (Nat × Nat)) : ReadOf :=
  l.foldl (fun acc p =>
    let x := s.readOpen p.1 p.2 view floor
    (acc.1 ++ x.1, union acc.2.1 x.2.1, acc.2.2 ++ x.2.2)) ([], [], [])

/-- R173: the value an AMO leaves, with its flags. -/
def amoNew (op : Nat) (w : Nat) (old y : Nat) : Nat × Nat :=
  match op with
  | 0 => ((old + y) % 2 ^ w, 0)
  | 1 => (old &&& y, 0)
  | 2 => (old ||| y, 0)
  | 3 => (old ^^^ y, 0)
  | 4 => (if Machine.sext w old ≤ Machine.sext w y then old else y, 0)
  | 5 => (if Machine.sext w old ≤ Machine.sext w y then y else old, 0)
  | 6 => (Nat.min old y, 0)
  | 7 => (Nat.max old y, 0)
  | 8 => (y, 0)
  | _ => fadd32 old y

/-! ### Agents -/

/-- The number by which a partition's scheduler makes class-C accesses in a context's space: it is no sequencer of a cluster, and
its events count for the context directly (R331, R409). -/
def schedulerSub : Nat := 0xFFFF

/-- The agent is one of a cluster's task: neither an inbound access nor the scheduler. -/
def Agent.isOf (a : Agent) (c : Nat) : Bool := a.cluster == c && a.cls < 5 && a.sub != schedulerSub

/-- The sequencer of a number (R147). -/
def seqOfNo : Nat → Option SeqId
  | 0 => some .control
  | 1 => some .copy
  | 2 => some .matrix
  | _ => none

/-- The channel number of a port: 32 × slot + tile. -/
def portKey (slot tile : Nat) : Nat := 32 * slot + tile

def Cluster.port (k : Cluster) (slot tile : Nat) : Port := k.fab.ports.get (portKey slot tile) Port.reset

def Cluster.mapPort (k : Cluster) (slot tile : Nat) (f : Port → Port) : Cluster :=
  { k with fab := { k.fab with ports := k.fab.ports.set (portKey slot tile) (f (k.port slot tile)) } }

/-- What an agent has written itself, and the writes it has read: its accesses to those locations come after them (R84,
R85 item 1, R88). -/
def State.ownOf (s : State) (a : Agent) : List Nat × List Nat :=
  if 512 ≤ a.cluster then s.links.rAgents.get (8 * (a.cluster - 512) + a.cls) ([], [])
  else
    match a.cls with
    | 0 => match seqOfNo (a.sub % 16) with
      | some q => ((s.seq a.cluster q).own, (s.seq a.cluster q).floor)
      | none => ([], [])
    | 1 =>
      if a.sub < 128 then
        let p := (s.cluster a.cluster).port (a.sub / 32) (a.sub % 32)
        (p.own, p.floor)
      else ([], [])
    | 5 => s.links.hAgents.get a.sub ([], [])
    | _ => ([], [])

/-- An agent has made writes and read others' (R85, R88, R91). -/
def State.note (s : State) (a : Agent) (ws rs : List Nat) : State :=
  if ws.isEmpty && rs.isEmpty then s
  else if 512 ≤ a.cluster then
    let c := a.cluster - 512
    let e := s.links.rAgents.get (8 * c + a.cls) ([], [])
    { s with links := { s.links with rAgents := s.links.rAgents.set (8 * c + a.cls) (union e.1 ws, union e.2 rs),
                                     rWrites := s.links.rWrites.set c (union (s.links.rWrites.get c []) ws) } }
  else
    match a.cls with
    | 0 => match seqOfNo (a.sub % 16) with
      | some q => s.mapSeq a.cluster q fun x => { x with own := union x.own ws, floor := union x.floor rs }
      | none => s
    | 1 =>
      if a.sub < 128 then
        s.mapCl a.cluster fun k =>
          { k.mapPort (a.sub / 32) (a.sub % 32) fun p => { p with own := union p.own ws, floor := union p.floor rs } with
            fWrites := union k.fWrites ws }
      else s
    | 2 => s.mapCl a.cluster fun k => { k with copy := { k.copy with reads := union k.copy.reads rs } }
    | 3 => s.mapCl a.cluster fun k => { k with mat := { k.mat with reads := union k.mat.reads rs } }
    | 5 =>
      let e := s.links.hAgents.get a.sub ([], [])
      { s with links := { s.links with hAgents := s.links.hAgents.set a.sub (union e.1 ws, union e.2 rs) } }
    | _ => s

/-- The agents whose requests a request carries: those of a sheaf's members (R103). -/
def members (hs : List Sheaf) : Nat → MemReq → List Agent
  | 0, r => [r.agent]
  | fuel + 1, r =>
    match r.ret with
    | .sheaf n =>
      match hs.find? (·.id == n) with
      | some h => members hs fuel h.first ++ members hs fuel h.second
      | none => [r.agent]
    | _ => [r.agent]

def State.agentsOf (s : State) (r : MemReq) : List Agent := members s.sheaves s.sheaves.length r

/-! ### Answers -/

/-- What an access returns: its bytes, the writes they come from, the releases it observes, its own write. -/
structure Answer where
  bytes : List Byte
  from_ : List Nat
  rels : List RelInfo
  wrote : Option Nat
  deriving DecidableEq, Repr

/-- A REL.ST covers what an operation issued before it brings with it (R91). -/
def Release.credit (r : Release) (serial : Nat) (ids : List Nat) : Release :=
  if serial < r.before && r.mask.getLsbD 0 then { r with known := union r.known ids } else r

def Sequencer.credit (x : Sequencer) (serial : Nat) (ids : List Nat) : Sequencer :=
  if ids.isEmpty then x
  else { x with outstanding := x.outstanding.map fun p => { p with rel := p.rel.map (·.credit serial ids) } }

/-- An operation of a sequencer has performed with its values and its writes; an acquiring one learns what it has observed,
as of number `now` (R145, R159, R173, R178). -/
def Sequencer.performed (x : Sequencer) (o : LongOp) (v v2 : Word) (wrote known : List Nat) (done : Table (List Nat))
    (now : Nat) : Sequencer :=
  let x1 := { x with outstanding := x.outstanding.map fun (p : LongOp) => if p.serial == o.serial then { p with phase := .done v v2 } else p }
  let x2 := x1.credit o.serial wrote
  match o.acq with
  | some (m, _) => x2.acquire m known done now
  | none => x2

/-- The value of an operation from the bytes returned. -/
def OpKind.value (k : OpKind) (bs : List Byte) : Word :=
  match k with
  | .load size sx => extend size sx bs
  | .amo op w64 _ => extOld op w64 (leNat bs)
  | .cas w64 _ => extOld 0 w64 (leNat bs)
  | .loadPair => ofBytes (bs.take 8)
  | _ => 0

/-- The answer to a sequencer's operation. -/
def State.perform (s : State) (c : Nat) (q : SeqId) (serial : Nat) (a : Answer) : State :=
  s.mapSeq c q fun x =>
    match x.outstanding.find? (·.serial == serial) with
    | none => x
    | some o =>
      let known := match o.acq with | some (_, sc) => s.learned a.rels c sc | none => []
      x.performed o (o.kind.value a.bytes) (ofBytes ((a.bytes.drop 8).take 8)) a.wrote.toList known (doneOf a.rels c) s.counter

/-- A pair faults with BADPA at one half; what the other has done stands and is not made again (R79, R160, R171). -/
def Sequencer.pairFaults (x : Sequencer) (o : LongOp) (hi : Bool) (other : Option Word) : Sequencer :=
  let p : Phase := .faulted cBADPA 0 (o.ea + if hi then 8 else 0)
  { x with outstanding := x.outstanding.map fun e =>
      if e.serial == o.serial then { e with phase := p, half := other.map fun v => (!hi, v) } else e }

/-- The answer to one half of a pair: with both the pair has performed (R81, R160). -/
def Sequencer.performHalf (x : Sequencer) (serial : Nat) (hi : Bool) (v : Word) (wrote : List Nat) : Sequencer :=
  let x := x.credit serial wrote
  match x.outstanding.find? (·.serial == serial) with
  | none => x
  | some o =>
    match o.phase with
    | .halves l h =>
      let l1 := if hi then l else some v
      let h1 := if hi then some v else h
      let p : Phase := match l1, h1 with | some a, some b => .done a b | _, _ => .halves l1 h1
      { x with outstanding := x.outstanding.map fun e => if e.serial == serial then { e with phase := p } else e }
    | .failing bad => if bad == hi then x else x.pairFaults o bad (some v)
    | _ => x

/-- One half of a pair fails with BADPA (R79, R160): the pair faults once the other half has returned, too. -/
def Sequencer.halfFails (x : Sequencer) (serial : Nat) (hi : Bool) : Sequencer :=
  match x.outstanding.find? (·.serial == serial) with
  | none => x
  | some o =>
    match o.phase with
    | .halves l h =>
      match if hi then l else h with
      | some v => x.pairFaults o hi (some v)
      | none => { x with outstanding := x.outstanding.map fun e => if e.serial == serial then { e with phase := .failing hi } else e }
    | .failing bad => if bad == hi then x else x.pairFaults o false none
    | _ => x

/-- The cluster of this module that an agent belongs to, in whatever partition. -/
def State.clusterOf (s : State) (a : Agent) : Option Nat :=
  if a.cluster < 512 then some a.cluster
  else if s.parts.any (·.module_ == a.cluster / 512 - 1) then some (a.cluster % 512)
  else none

/-- Flags of a memory operation belong to the task that issued it, in whatever partition of the module (R74, R104). -/
def State.raiseAgent (s : State) (a : Agent) (f : Nat) : State :=
  if f == 0 then s else match s.clusterOf a with | some c => s.raise c f | none => s

/-- A value returned to a port, as the 32-bit words it emits (R240). -/
def wordsOf : List Byte → List W32
  | a :: b :: c :: d :: r => BitVec.ofNat 32 (leNat [a, b, c, d]) :: wordsOf r
  | _ => []

/-- The fields of a packet's header flit: lowest bit, width and value (R397). -/
def flitFields (f : Flit) : List (Nat × Nat × Nat) :=
  [(0, 4, f.kind), (4, 13, f.dmod), (17, 13, f.smod), (30, 9, f.scl), (39, 3, f.cls), (42, 3, f.scope), (45, 4, f.op),
   (49, 1, f.w64.toNat), (52, 12, f.tag), (64, 45, f.addr), (112, 5, f.path), (118, 18, f.pmask), (136, 16, f.epoch),
   (152, 64, f.opnd), (216, 64, f.ben), (280, 64, f.cmpnd)]

/-- The header flit: its other bits are zero. -/
def flitHeader (f : Flit) : Nat := ((flitFields f).map fun e => e.2.2 % 2 ^ e.2.1 * 2 ^ e.1).sum

/-- The packet of a header flit and a data flit. -/
def flitOf (h : Nat) (data : List Byte) : Flit :=
  { kind := nbits h 0 4, dmod := nbits h 4 13, smod := nbits h 17 13, scl := nbits h 30 9, cls := nbits h 39 3,
    scope := nbits h 42 3, op := nbits h 45 4, w64 := bit h 49, tag := nbits h 52 12, addr := nbits h 64 45,
    path := nbits h 112 5, pmask := nbits h 118 18, epoch := nbits h 136 16, opnd := nbits h 152 64, ben := nbits h 216 64,
    cmpnd := nbits h 280 64, data := data.take 64 }

/-- The packet as its flits hold it. -/
def flitNorm (f : Flit) : Flit := flitOf (flitHeader f) f.data

/-- R397: the answer of this module to a packet. -/
def answerFlit (f : Flit) (a : Answer) : Flit :=
  let kind := if f.kind == 0 then 3 else if f.kind == 1 then 4 else 5
  let line := if f.kind == 0 then a.bytes else []
  { f with kind := kind, dmod := f.smod, smod := f.dmod, data := line, ben := 0, cmpnd := 0,
           opnd := if f.kind == 2 || f.kind == 8 then leNat a.bytes else 0 }

/-- The partition of this module that a packet is for. -/
def State.partNumbered (s : State) (m : Nat) : Option Partition :=
  if s.parts.isEmpty && m == 0 then some .whole else s.parts.find? (·.module_ == m)

/-- The key of a physical address whose home is in this module, in the partition's own memory or in another's. -/
def State.keyAt (s : State) (p : Partition) (pa : Nat) : Option Nat :=
  match s.placeOf p pa with
  | .mem key => some key
  | .remote m =>
    match s.partNumbered m with
    | some p' => match s.localPlace p' (paLocal pa) with | .mem key => some key | _ => none
    | none => none
  | _ => none

/-- A packet between partitions of this module (R79). -/
def State.inside (s : State) (f : Flit) : Bool := (s.partNumbered f.dmod).isSome && (s.partNumbered f.smod).isSome

/-- The request behind a packet of another partition of this module, as its agent has made it (R79). -/
def State.near (s : State) (f : Flit) : Option MemReq :=
  if s.inside f then (s.links.yWait.find? (·.1 == f.tag)).map (·.2) else none

/-- A request to another module has ended, and its tag is free. -/
def Links.dropTag (l : Links) (tag : Nat) : Links :=
  { l with yWait := l.yWait.drop tag, yPath := l.yPath.drop tag, yGot := l.yGot.drop tag }

/-- Packets leave: into the output queues of the port dies, or, between partitions of this module, turned back there (R79,
R396); their headers hold the fields of R397. -/
def State.emit (s : State) (fs : List Flit) : State :=
  let gs := fs.map flitNorm
  { s with links := { s.links with yQ := s.links.yQ ++ gs.filter (!s.inside ·), turned := s.links.turned ++ gs.filter s.inside } }

/-- A port's read has returned, with its bytes or with the code of its failure. -/
def Port.returned (p : Port) (id : Nat) (bs : List Byte) (code : Nat) : Port :=
  { p with readQ := p.readQ.map fun e => if e.id == id then { e with data := some bs, code := code } else e }

/-- The answer goes where the request's return route says. -/
def State.answer (s : State) (r : MemReq) (a : Answer) : State :=
  match r.ret with
  | .seqOp cl q serial => s.perform cl q serial a
  | .seqHalf cl q serial hi => s.mapSeq cl q (·.performHalf serial hi (ofBytes a.bytes) a.wrote.toList)
  | .portRead cl slot tile id => s.mapCl cl (·.mapPort slot tile (·.returned id a.bytes 0))
  | .port cl slot tile =>
    s.mapCl cl (·.mapPort slot tile fun p => { p with reqs := p.reqs - 1, outQ := p.outQ ++ (wordsOf a.bytes).map .word })
  | .portDone cl slot tile => s.mapCl cl (·.mapPort slot tile fun p => { p with reqs := p.reqs - 1 })
  | .remote f =>
    let s1 := s.emit [answerFlit f a]
    if s.inside f then { s1 with links := { s1.links with yGot := s1.links.yGot.set f.tag ⟨a.from_, a.rels, a.wrote⟩ } } else s1
  | .sheaf n =>
    { s with sheaves := s.sheaves.map fun h => if h.id == n then { h with old := some (ofBytes a.bytes), wrote := a.wrote } else h }
  | .line _ _ => s
  | .nowhere => s

/-- One atomic of an entry at its place in the serialisation order (R89, R98): the old bytes, and the flags. -/
def State.atomic (s : State) (id key op : Nat) (w64 : Bool) (y : Word) (view : List Nat) (rel : Option RelInfo)
    (wpol : Nat) : State × List Byte × Nat :=
  let n := if w64 then 8 else 4
  let old := s.rawRead key n
  let (v, f) := amoNew op (8 * n) (leNat old) (y.toNat % 2 ^ (8 * n))
  (s.commit id key (leBytes n v) view true (s.relsAt key n ++ rel.toList) wpol, old, f)

/-- The access takes its place at its home or in its tile's array, and is answered (R87, R89, R90, R98, R99, R163, R164);
`choice` newest writes are passed over by a plain read, none when it may not pass them. A write has the request's
identifier. -/
def State.serve (s : State) (r : MemReq) (choice : Nat) : Option State :=
  let own := s.ownOf r.agent
  let view := union r.view own.1
  let done (t : State) (a : Answer) : State :=
    ((s.agentsOf r).foldl (fun u g => u.note g a.wrote.toList a.from_) t).answer r a
  match r.kind with
  | .read n =>
    match s.staleRead r.key n choice view (union r.floor own.2) with
    | some (bs, ids, rels) => some (done s ⟨bs, ids, rels, none⟩)
    | none => none
  | .write bs =>
    if choice != 0 then none else some (done (s.commit r.id r.key bs view false r.rel.toList r.wpol) ⟨[], [], [], some r.id⟩)
  | .group l =>
    if choice != 0 then none
    else some (done (l.foldl (fun t e => t.commit r.id e.1 e.2 view false r.rel.toList r.wpol) s) ⟨[], [], [], some r.id⟩)
  | .amo op w64 y _ =>
    if choice != 0 then none
    else
      let rels := s.relsAt r.key (if w64 then 8 else 4)
      let (s1, old, f) := s.atomic r.id r.key op w64 y view r.rel r.wpol
      some (done (s1.raiseAgent r.agent f) ⟨old, [], rels, some r.id⟩)
  | .reds l =>
    if choice != 0 then none
    else
      let one (t : State) (e : Nat × Nat × Bool × Word) : State :=
        let (t1, _, f) := t.atomic r.id e.1 e.2.1 e.2.2.1 e.2.2.2 view none r.wpol
        t1.raiseAgent r.agent f
      some (done (l.foldl one s) ⟨[], [], [], some r.id⟩)
  | .cas w64 cmp new =>
    if choice != 0 then none
    else
      let n := if w64 then 8 else 4
      let old := s.rawRead r.key n
      let rels := s.relsAt r.key n
      if leNat old == cmp.toNat % 2 ^ (8 * n) then
        some (done (s.commit r.id r.key (toBytes n new) view true (rels ++ r.rel.toList) r.wpol) ⟨old, [], rels, some r.id⟩)
      else some (done s ⟨old, (s.newest r.key n).map (·.id), rels, none⟩)
  | .flush =>
    if choice != 0 then none
    else some (done (s.cleanLine (r.key / 64)) ⟨[], [], [], none⟩)
  | .invalidate =>
    if choice != 0 then none
    else
      let line := r.key / 64 * 64
      let bs := (s.backing (line / 64)).getD (s.rawRead line 64)
      some (done ((s.commit r.id line bs view true [] 1).dropLine (line / 64)) ⟨[], [], [], some r.id⟩)

/-! ### Packets to other modules (R97, R396, R397) -/

/-- The path of a packet towards a module: one of those in use, by a load the spec does not quantify, and that of the agent's
requests to the line that are unacknowledged (R97, R396). -/
def State.pathTo (s : State) (a : Agent) (m pa : Nat) : Nat :=
  let mine (e : Nat × MemReq) : Bool := (s.agentsOf e.2).contains a && e.2.pa / 64 == pa / 64
  match (s.links.yWait.find? mine).bind fun e => (s.links.yPath.find? (·.1 == e.1)).map (·.2) with
  | some p => p
  | none =>
    let up := s.pathsUp m
    up.getD (Config.yilsinPath m s.counter % up.length) 0

/-- The byte mask of n bytes at an address within their line. -/
def benOf (pa n : Nat) : Nat := (2 ^ n - 1) * 2 ^ (pa % 64)

/-- Bytes at places of a line, as the line. -/
def lineOf (l : List (Nat × List Byte)) : List Byte := Memory.read (l.foldl (fun m e => Memory.write m (e.1 % 64) e.2) []) 0 64

/-- The header and data of a request packet. -/
def requestFlit (r : MemReq) (smod tag path : Nat) : Flit :=
  let m := paModule r.pa
  let base : Flit :=
    { kind := 0, dmod := m, smod := smod, scl := r.agent.cluster, cls := r.agent.cls, scope := r.scope.code, op := 0,
      w64 := false, tag := tag, addr := paLocal r.pa, path := path, pmask := 0, epoch := 0, opnd := 0,
      ben := 0, cmpnd := 0, data := [] }
  match r.kind with
  | .read n => { base with ben := benOf r.pa n }
  | .write bs => { base with kind := 1, ben := benOf r.pa bs.length, data := lineOf [(r.pa, bs)] }
  | .group l => { base with kind := 1, ben := (l.map fun e => benOf e.1 e.2.length).sum, data := lineOf l }
  | .amo op w y _ => { base with kind := 2, op := op, w64 := w, opnd := y.toNat }
  | .cas w c n => { base with kind := 8, w64 := w, opnd := n.toNat, cmpnd := c.toNat }
  | _ => base

/-- The cluster number of an agent of another module. -/
def flitCluster (f : Flit) : Nat := 512 * (1 + f.smod) + f.scl

/-- The scope of a code (R83). -/
def scopeOfCode (n : Nat) : Scope :=
  match n with
  | 0 => .cl
  | 1 => .di
  | 2 => .mo
  | 3 => .do_
  | _ => .sy

/-- The cluster has used a path towards a module (R97). -/
def Cluster.usePath (k : Cluster) (m p : Nat) : Cluster :=
  let add (l : List (Nat × Nat)) := if l.contains (m, p) then l else l ++ [(m, p)]
  { k with usedMo := add k.usedMo, usedDo := add k.usedDo, usedSy := add k.usedSy }

/-- A request leaves for another module; its answer returns under its tag. -/
def State.sendRemote (s : State) (r : MemReq) : State :=
  let busy (t : Nat) : Bool := s.links.yWait.any (·.1 == t)
  let tag := if busy (s.counter % 4096) then ((List.range 4096).find? (!busy ·)).getD (s.counter % 4096) else s.counter % 4096
  let smod := (s.part r.agent.cluster).module_
  let path := s.pathTo r.agent (paModule r.pa) r.pa
  let s1 := (s.mapCl r.agent.cluster (·.usePath (paModule r.pa) path)).emit [requestFlit r smod tag path]
  { s1 with counter := s1.counter + 1,
            links := { s1.links with yWait := s1.links.yWait.set tag { r with id := s.counter }, yPath := s1.links.yPath.set tag path } }

/-- Writes of this module that the domain can have come to know: those that releases here have made known at DO, and those of
other modules that their flushes have gathered (R92, R97). -/
def State.farWrites (s : State) : List Nat := s.links.rFlushed.foldl (fun acc e => union acc e.2) s.links.rKnown

/-- Those of them that someone of another module knows by now: by ways that this module does not see, so that it is open (log
entry 93). -/
def State.farKnown (s : State) (who : Nat) : List Nat := s.farWrites.filter fun i => Config.farKnows who i ≤ s.counter

/-- What a read of another module's line observes: which releases is open (R92; log entry 93). -/
def State.domainRel (s : State) (m : Nat) : RelInfo :=
  ⟨s.farWrites.filter fun i => Config.farKnows (2 ^ 32 + s.counter) i ≤ s.counter, .do_, 512 * (1 + m), []⟩

/-- A write of host memory, which may be a release (R92). -/
def State.hostStore (s : State) (off : Nat) (bs : List Byte) (rel : Option RelInfo) : State :=
  let s1 := s.hostWrite off bs
  let kept := s1.links.hostRels.filter fun e => !(e.1 < off + bs.length && off < e.1 + e.2.1)
  { s1 with links := { s1.links with hostRels := kept ++ rel.toList.map fun r => (off, bs.length, r) } }

/-- The releases observed by a read of host memory: those whose stores still stand there (R92). -/
def State.hostRelsAt (s : State) (off n : Nat) : List RelInfo :=
  (s.links.hostRels.filter fun e => e.1 < off + n && off < e.1 + e.2.1).map (·.2.2)

/-! ### Reads and writes of records and engines -/

/-- Who makes an access: an engine of a class, or a sequencer reading a record. -/
structure Who where
  cl : Nat
  asid : Nat
  cls : Nat
  seq : Bool
  view : List Nat          -- writes its accesses come after
  floor : List Nat         -- writes it has read (R88)
  sub : Nat
  deriving DecidableEq, Repr

/-- How an access of records and engines ends: done, failed with a cause and detail of R349 at an address, or held
until a miss or a packet has come back. -/
inductive Got (α : Type) where
  | ok (s : State) (v : α)
  | fail (s : State) (cause detail va : Nat)
  | wait (s : State)

/-- Where one access of at most 64 bytes in one line goes. -/
inductive Target where
  | tile (key : Nat)
  | mem (key pa rcls : Nat)
  | host (off : Nat)
  | remote (pa : Nat)
  deriving DecidableEq, Repr

/-- R347: how a class treats L2. -/
def wpolOf (rct : Word) : Nat := if bit rct.toNat 20 then nbits rct.toNat 18 2 else 2

def Partition.wpol (p : Partition) (cls : Nat) : Nat := wpolOf (if h : cls < 8 then p.rct[cls] else 0)

/-- R78, R158, R233, R337, R343: the target of an access, after its checks and its translation. An engine's access to a
page on which one is held waits for the TLBI that wakes it (R340, R345). -/
def State.resolve (s : State) (w : Who) (va n : Nat) (need : Need) : Got Target :=
  let k := s.cluster w.cl
  if 2 ^ 55 ≤ va + n - 1 then .fail s cPROT 1 va
  else if inWindow va && !touchesHole va n then .ok s (.tile (tileKey w.cl (va - winBase)))
  else if touchesHole va n then .fail s cPROT 2 va
  else
    if !w.seq && k.misses.any (·.isHeld w.asid va (Nat.max 1 w.cls) w.sub) then .wait s
    else
    match k.xlat w.asid va need with
    | .ok pa e =>
      let s1 := s.mapCl w.cl (·.touch e)
      match s.placeOf (s.part w.cl) pa with
      | .mem key => if (need.r || need.x) && s.poisoned key then .fail s cBADPA 0 va else .ok s1 (.mem key pa e.cls)
      | .host off => .ok s1 (.host off)
      | .remote _ => .ok s1 (.remote pa)
      | .unbacked => .fail s cBADPA 0 va
    | .perm => .fail s cPROT 3 va
    | .miss =>
      if w.seq then
        if k.seqFailed w.asid va then .fail (s.mapCl w.cl (·.takeFailed w.asid va)) cPAGE 0 va
        else .wait (s.mapCl w.cl (·.seqMiss w.asid va))
      else .wait (s.mapCl w.cl (·.engMiss w.asid va (Nat.max 1 w.cls) w.sub (need.r.toNat + 2 * need.w.toNat)))

/-- The TLB entry that translates an access. -/
def State.leafOf (s : State) (w : Who) (va : Nat) : Option TlbEntry := (s.cluster w.cl).lookup w.asid va

/-- The pieces of va … va + n − 1 within 64-byte lines. -/
def lines : Nat → Nat → Nat → List (Nat × Nat)
  | 0, _, _ => []
  | fuel + 1, va, n =>
    if n = 0 then [] else (va, Nat.min n (64 - va % 64)) :: lines fuel (va + Nat.min n (64 - va % 64)) (n - Nat.min n (64 - va % 64))

def linesOf (va n : Nat) : List (Nat × Nat) := lines (n / 64 + 2) va n

/-- The agent of an access. -/
def Who.agent (w : Who) : Agent := ⟨w.cl, w.cls, w.sub⟩

/-- A request of an engine or record for another module's line. -/
def Who.lineReq (w : Who) (pa : Nat) (leaf : Option TlbEntry) : MemReq :=
  { id := 0, agent := w.agent, kind := .read 64, key := 0, pa := pa / 64 * 64, asid := w.asid, scope := .do_,
    rel := none, view := w.view, floor := w.floor, wpol := 0, rcls := 0, region := 0xFFFF, ret := .line w.agent (pa / 64 * 64),
    leaf := leaf }

/-- A failed line has been reported. -/
def State.forgetLine (s : State) (a : Agent) (line : Nat) : State :=
  { s with links := { s.links with yFailed := s.links.yFailed.filter (· != (a, line)) } }

/-! ### The host window (R79, R393) -/

/-- Whose context an access is made for. -/
def State.ctxOf (s : State) (w : Who) : Nat := if w.seq then (s.cluster w.cl).task.ctx else w.asid

/-- A request leaves on the host link, under the requester ID of its context's function and with its prefix (R393). -/
def State.hostLeaves (s : State) (h : HostReq) : State :=
  { s with links := { s.links with hostSent := s.links.hostSent ++ [⟨fnOf h.ctx, h.addr, h.kind.writes, h.pasid⟩] } }

/-- A host-window access of a context: with ATS enabled for the function it is sent once its translation is in the cache
(R393). -/
def State.toHost (s : State) (a : Agent) (ctx off : Nat) (kind : ReqKind) (ret : RetTo) (rel : Option RelInfo)
    (leaf : Option TlbEntry) : State :=
  let ats := s.links.atsOn.contains (fnOf ctx) && !s.links.ats.contains (fnOf ctx, off / 4096)
  let h : HostReq := ⟨s.counter, a, off, ctx, kind, ret, rel, ats, s.now, s.pasidOf ctx, leaf⟩
  let s0 := if kind.writes && a.isOf a.cluster then s.mapCl a.cluster fun k => { k with usedHost := true } else s
  let s1 := if ats then s0 else s0.hostLeaves h
  { s1 with counter := s1.counter + 1, links := { s1.links with hostReqs := s1.links.hostReqs ++ [h] } }

/-- How the lines of the host window are numbered among those that engines and records read. -/
def hostLine (off : Nat) : Nat := 2 ^ 60 + off / 64 * 64

/-- An entry of a tile's queues comes before an access with this view: it has performed, and its place in the array is
still to come (R93, R98, R241). -/
def State.tilePending (s : State) (key : Nat) (view : List Nat) : Bool :=
  (s.cluster ((key - 2 ^ 60) / 2 ^ 21)).tileQ.any fun e =>
    e.1 / 8 == (key - 2 ^ 60) % 2 ^ 21 / 65536 && e.2.any fun r => view.contains r.id

/-- The requester's place in a tile's array port: window, copy engine, matrix array, slots (R241). -/
def tileSlot (key requester : Nat) : Nat := 8 * ((key - 2 ^ 60) % 2 ^ 21 / 65536) + requester

/-- Reductions to one line merge with an entry of their requester that has not been served, when nothing behind it touches
the line (R98, R241). -/
def mergeRed (q : List MemReq) (r : MemReq) : Option (List MemReq) :=
  let line (x : MemReq) : Nat := x.key / 64
  match r.kind with
  | .reds l =>
    match q.reverse.find? fun x => line x == line r with
    | some x =>
      match x.kind with
      | .reds l' =>
        let y : MemReq := { x with kind := .reds (l' ++ l), view := union x.view r.view }
        some (q.map fun e => if e.id == x.id then y else e)
      | _ => none
    | none => none
  | _ => none

/-- An entry for a tile's array port, while its queue of 16 has room (R241): its identifier and the state. A write has
performed at once, and its place in the array comes later (R93, R98). -/
def State.toTile (s : State) (c : Nat) (requester : Nat) (r : MemReq) : Option State :=
  let k := s.cluster c
  let slot := tileSlot r.key requester
  let q := k.tileQ.get slot []
  match mergeRed q r with
  | some l =>
    let id := ((q.reverse.find? fun x => x.key / 64 == r.key / 64).map (·.id)).getD r.id
    some ((s.setCl c { k with tileQ := k.tileQ.set slot l }).note r.agent [id] [])
  | none =>
    if q.length < 16 then
      let s1 := (s.setCl c { k with tileQ := k.tileQ.set slot (q ++ [r]) }).fresh
      some (if r.kind.writes then s1.note r.agent [r.id] [] else s1)
    else none

/-! ### What an access meets at its home (R407, R408) -/

/-- The kind of an access for a filter: read, write, atomic, sheaf or merged read (R407). -/
def MemReq.traceKind (r : MemReq) (merged : Bool) : Nat :=
  match r.ret, r.kind with
  | .sheaf _, _ => 3
  | _, .read _ => if merged then 4 else 0
  | _, .amo _ _ _ _ => 2
  | _, .cas _ _ _ => 2
  | _, _ => 1

/-- The access matches filter f (R407). -/
def State.filterHit (s : State) (r : MemReq) (kind f : Nat) : Bool :=
  let reg (i : Nat) : Nat := if h : i < 8 then s.dbg.lf[i].toNat else 0
  let ct := reg (4 * f + 2)
  bit ct 30 && nbits (reg (4 * f)) 6 52 ≤ r.pa / 64 && r.pa / 64 ≤ nbits (reg (4 * f + 1)) 6 52
    && (!bit ct 14 || nbits ct 0 14 == r.asid) && bit ct (15 + kind) && bit ct (20 + r.agent.cls)

/-- A slice writes an L2 record, at most one in 16 clk of its die; one that it cannot write is lost (R407; log entry 84). -/
def State.traceL2 (s : State) (r : MemReq) (kind slice : Nat) : State :=
  let clk := (s.cluster (64 * (slice / 32))).clk
  if clk < s.dbg.lfNext.get slice 0 then
    if bit s.dbg.tren 5 then { s with dbg := { s.dbg with trdrop := Nat.min (s.dbg.trdrop + 1) (2 ^ 32 - 1) } } else s
  else
    let sl := (s.cluster (r.region / 4)).slot (r.region % 4)
    let ofRegion (x : Nat) : Nat := if r.region == 0xFFFF then 0 else x
    let s1 : State := { s with dbg := { s.dbg with lfNext := s.dbg.lfNext.set slice (clk + 16) } }
    s1.trace 5 r.asid r.region (ofRegion sl.blk) (ofRegion sl.ver)
      (leBytes 8 r.pa ++ leBytes 1 kind ++ leBytes 1 r.agent.cls ++ leBytes 2 (r.agent.cluster % 512)
        ++ leBytes 2 (if 512 ≤ r.agent.cluster then r.agent.cluster / 512 - 1 else (s.part r.agent.cluster).module_)
        ++ leBytes 1 ((s.hitsL2 r.key).toNat + if kind == 3 then 2 else 0))

/-- A slice counts the matches of filter f and writes a record for every 2^SAMP-th of them (R407). -/
def State.l2Filter (s : State) (r : MemReq) (kind slice f : Nat) : State :=
  if !s.filterHit r kind f then s
  else
    let n := s.dbg.lfCount.get (2 * slice + f) 0 + 1
    let samp := if h : 4 * f + 2 < 8 then nbits s.dbg.lf[4 * f + 2].toNat 26 4 else 0
    let s1 : State := { s with dbg := { s.dbg with lfCount := s.dbg.lfCount.set (2 * slice + f) n } }
    if n % 2 ^ samp == 0 then s1.traceL2 r kind slice else s1

/-- The request is one for the bytes of its line: not cache maintenance. -/
def ReqKind.isData : ReqKind → Bool
  | .flush => false
  | .invalidate => false
  | _ => true

/-- An access of a cluster that misses in L2 counts (R408). -/
def State.countMiss (s : State) (c key : Nat) : State := s.mapCl c (·.count 6 (if s.hitsL2 key then 0 else 1))

/-- An access comes to its home: its miss counts for its task's context, once for a pair in one line, it meets the trace
filters, and a hit or miss has its effect on L2 (R347, R348, R407, R408). -/
def State.meetsL2 (s : State) (r : MemReq) (merged again : Bool) : State :=
  let counts := !again && r.agent.cls != 5 && r.agent.sub != schedulerSub
  let s1 := match s.clusterOf r.agent with
    | some c => if counts then s.countMiss c r.key else s
    | none => s
  let kind := r.traceKind merged
  let s2 := (s1.l2Filter r kind (s1.homeSlice r.key) 0).l2Filter r kind (s1.homeSlice r.key) 1
  if r.kind.isData then s2.touchL2 r.key r.rcls (!r.kind.writes) else s2

/-- The access of an engine or record at its home. -/
def Who.homeReq (w : Who) (kind : ReqKind) (key pa rcls : Nat) : MemReq :=
  { id := 0, agent := w.agent, kind := kind, key := key, pa := pa, asid := w.asid, scope := .sy, rel := none, view := [],
    floor := [], wpol := 0, rcls := rcls, region := 0xFFFF, ret := .nowhere, leaf := none }

/-- A line of another module or of the host is asked for once and read when it has come. -/
def State.readFar (s : State) (w : Who) (line va n off : Nat) (ask : State → State) : Got (List Byte × List RelInfo) :=
  match s.links.yLines.find? fun e => e.who == w.agent && e.line == line with
  | some e => .ok s ((e.bytes.drop off).take n, e.rels)
  | none =>
    let out := RetTo.line w.agent line
    if s.links.yFailed.contains (w.agent, line) then .fail (s.forgetLine w.agent line) cBADPA 0 va
    else if s.links.yWait.any (·.2.ret == out) || s.links.hostReqs.any (·.ret == out) then .wait s
    else .wait (ask s)

/-- n bytes read at a target, with the releases observed: of a line of this module no write older than one that has performed
at MO (R93). -/
def State.readAt (s : State) (w : Who) (t : Target) (va n : Nat) : Got (List Byte × List RelInfo) :=
  match t with
  | .tile key => if s.tilePending key w.view then .wait s else .ok s (s.rawRead key n, s.relsAt key n)
  | .mem key pa rcls =>
    let own := s.ownOf w.agent
    let late := if w.cls == 5 then [] else s.links.moDone
    let x := s.readAll (union w.view own.1) (union w.floor (union own.2 late)) (partsOf key n)
    .ok ((s.note w.agent [] x.2.1).meetsL2 (w.homeReq (.read n) key pa rcls) false false) (x.1, x.2.2)
  | .host off =>
    s.readFar w (hostLine off) va n (off % 64) fun s =>
      s.toHost w.agent (s.ctxOf w) (off / 64 * 64) (.read 64) (.line w.agent (hostLine off)) none (s.leafOf w va)
  | .remote pa => s.readFar w (pa / 64 * 64) va n (pa % 64) (·.sendRemote (w.lineReq pa (s.leafOf w va)))

/-- One piece read. -/
def State.readPiece (s : State) (w : Who) (va n : Nat) : Got (List Byte × List RelInfo) :=
  match s.resolve w va n needR with
  | .ok s1 t => s1.readAt w t va n
  | .fail s1 c d a => .fail s1 c d a
  | .wait s1 => .wait s1

/-- The pieces one after another. -/
def State.readPieces (s : State) (w : Who) : List (Nat × Nat) → List Byte × List RelInfo → Got (List Byte × List RelInfo)
  | [], acc => .ok s acc
  | (va, n) :: r, acc =>
    match s.readPiece w va n with
    | .ok s1 x => s1.readPieces w r (acc.1 ++ x.1, acc.2 ++ x.2)
    | .fail s1 c d a => .fail s1 c d a
    | .wait s1 => .wait s1

/-- n bytes at a virtual address, with the releases their reading observes. -/
def State.vreadRel (s : State) (w : Who) (va n : Nat) : Got (List Byte × List RelInfo) :=
  s.readPieces w (linesOf va n) ([], [])

/-- n bytes at a virtual address. -/
def State.vread (s : State) (w : Who) (va n : Nat) : Got (List Byte) :=
  match s.vreadRel w va n with
  | .ok s1 x => .ok s1 x.1
  | .fail s1 c d a => .fail s1 c d a
  | .wait s1 => .wait s1

/-- Lines of other modules or of the host that an agent has used are let go. -/
def State.dropLines (s : State) (a : Agent) : State :=
  { s with links := { s.links with yLines := s.links.yLines.filter (·.who != a) } }

/-- A posted write of an engine to another module; one that it refuses is reported at its virtual address (R277). -/
def Who.posted (w : Who) (pa va : Nat) (bs : List Byte) (leaf : Option TlbEntry) : MemReq :=
  { id := 0, agent := w.agent, kind := .write bs, key := va, pa := pa, asid := w.asid, scope := .do_, rel := none,
    view := w.view, floor := [], wpol := 0, rcls := 0, region := 0xFFFF, ret := .nowhere, leaf := leaf }

/-- One piece written, with the identifier of its write: to a tile through the queue of its requester, the copy engine's 1 or the
matrix array's 2, once it has room (R241). -/
def State.writePiece (s : State) (w : Who) (va : Nat) (bs : List Byte) : Got (List Nat) :=
  match s.resolve w va bs.length needW with
  | .ok s1 (.tile key) =>
    match s1.toTile w.cl (w.cls - 1) { w.homeReq (.write bs) key 0 0 with id := s1.counter, scope := .cl, view := w.view } with
    | some s2 => .ok s2 [s1.counter]
    | none => .wait s1
  | .ok s1 (.mem key pa rcls) =>
    let view := union w.view (s1.ownOf w.agent).1
    let s2 := s1.meetsL2 (w.homeReq (.write bs) key pa rcls) false false
    .ok ((s2.store key bs view [] ((s2.part w.cl).wpol rcls)).note w.agent [s2.counter] []) [s2.counter]
  | .ok s1 (.host off) => .ok (s1.toHost w.agent (s1.ctxOf w) off (.write bs) .nowhere none (s1.leafOf w va)) []
  | .ok s1 (.remote pa) => .ok (s1.sendRemote (w.posted pa va bs (s1.leafOf w va))) []
  | .fail s1 c d a => .fail s1 c d a
  | .wait s1 => .wait s1

def State.writePieces (s : State) (w : Who) : List (Nat × Nat) → List Byte → List Nat → Got (List Nat)
  | [], _, ids => .ok s ids
  | (va, n) :: r, bs, ids =>
    match s.writePiece { w with view := union w.view ids } va (bs.take n) with
    | .ok s1 l => s1.writePieces w r (bs.drop n) (ids ++ l)
    | .fail s1 c d a => .fail s1 c d a
    | .wait s1 => .wait s1

/-- Bytes written at a virtual address; the identifiers of the writes. -/
def State.vwrite (s : State) (w : Who) (va : Nat) (bs : List Byte) : Got (List Nat) :=
  s.writePieces w (linesOf va bs.length) bs []

end Sys2Proof.Machine
end

