-- ==== Sys2Proof/Machine/Release.lean ====
section
/-! DEFINITION. Releases: their flush markers, when they have performed, and what they then do (R91 to R97, R177 to
R182, R188). -/

namespace Sys2Proof.Machine

/-- Bit p of a path mask for each path. -/
def pathMask (l : List (Nat × Nat)) (m : Nat) : Nat :=
  (l.filter fun e => e.1 == m).foldl (fun acc e => acc ||| 2 ^ e.2) 0

/-- R97, R398: the FLUSH packets of a release: one on each path used towards each module. -/
def flushFlits (smod c epoch : Nat) (sc : Scope) (l : List (Nat × Nat)) : List Flit :=
  l.map fun e =>
    { kind := 6, dmod := e.1, smod := smod, scl := c, cls := 0, scope := sc.code, op := 0, w64 := false, tag := 0,
      addr := 0, path := e.2, pmask := pathMask l e.1, epoch := epoch, opnd := 0, ben := 0, cmpnd := 0, data := [] }

/-- The paths a release at a scope sends markers on, and the lists it leaves (R97). -/
def Cluster.takePaths (k : Cluster) (sc : Scope) : List (Nat × Nat) × Cluster :=
  match sc with
  | .mo => (k.usedMo, { k with usedMo := [] })
  | .do_ => (k.usedDo, { k with usedMo := [], usedDo := [] })
  | .sy => (k.usedSy, { k with usedMo := [], usedDo := [], usedSy := [] })
  | _ => ([], k)

/-- The commands of a sequencer's engine that are not complete. -/
def Cluster.openCmds (k : Cluster) (q : SeqId) : List Nat :=
  match q with
  | .control => []
  | .copy => k.copy.queue.map (·.id) ++ k.copy.begun.map (·.id)
  | .matrix => k.mat.queue.map (·.id) ++ k.mat.cur.toList.map (·.cmd.id) ++ k.mat.armWait.toList.map (·.id)
      ++ (k.mat.arms.filter fun e => k.mat.fired.contains e.1).map (·.2.id)

/-- R36: a sequencer that has exited takes no trap: of its long operations one that has faulted ends with those not sent. -/
def Sequencer.dropFaulted (x : Sequencer) : Sequencer :=
  if x.exited && x.outstanding.any (·.isFaulted) then
    { x with outstanding := x.outstanding.filter fun o => o.isSent || o.isDone }
  else x

/-- R33, R36: a copy or matrix sequencer that has exited is idle once its long operations have completed and its engine's
commands are complete. -/
def Cluster.settleIdle (k : Cluster) : Cluster :=
  let f (q : SeqId) (k : Cluster) : Cluster :=
    let x := (k.seq q).dropFaulted
    k.setSeq q (if x.exited && x.outstanding.isEmpty && (k.openCmds q).isEmpty then { x with idle := true } else x)
  f .matrix (f .copy k)

/-- R97: the markers of a release of cluster c at a scope go out behind every packet sent before; the acknowledgements it
waits for. -/
def State.sendMarkers (s : State) (c : Nat) (sc : Scope) : State × List (Nat × Nat) :=
  let (paths, k1) := (s.cluster c).takePaths sc
  let epoch := (s.links.epochs.get c 0 + 1) % 65536
  if paths.isEmpty then (s, [])
  else
    let s1 := (s.setCl c k1).emit (flushFlits (s.part c).module_ c epoch sc paths)
    ({ s1 with links := { s1.links with epochs := s1.links.epochs.set c epoch } },
      (paths.map (·.1)).eraseDups.map fun m => (m, epoch))

/-- R84: a release of the engine's own sequencer naming its class stands between the commands before it and those after
it. -/
def Cluster.markCmds (k : Cluster) (q : SeqId) (m : Mask) (mark : Nat) : Cluster :=
  match q with
  | .copy =>
    if m &&& maskY == 0 then k
    else { k with copy := { k.copy with before := k.copy.writes, floor := k.copy.reads, mark := mark } }
  | .matrix =>
    if m &&& maskM == 0 then k
    else { k with mat := { k.mat with before := k.mat.writes, floor := k.mat.reads, mark := mark } }
  | .control => k

/-- R85 item 2: the accesses a release covers come before the later accesses of its sequencer. -/
def Cluster.follow (k : Cluster) (q : SeqId) (m : Mask) : Cluster := k.setSeq q ((k.seq q).learn maskC (k.covered q m))

/-- R91, R97: a release begins: its markers go out. -/
def State.beginRelease (s : State) (c : Nat) (q : SeqId) (m : Mask) (sc : Scope) : State × Release :=
  let k := s.cluster c
  let cmds := match engineCls q with | some e => if m.getLsbD e then k.openCmds q else [] | none => []
  let (s1, ms) := s.sendMarkers c sc
  (s1, ⟨m, sc, ms, (k.seq q).serial, cmds, k.covered q m, k.coverDone q m, none, false⟩)

/-- Who waits for the answer of a request: a sequencer or a port. -/
def RetTo.asker : RetTo → Option (Nat × Nat)
  | .seqOp cl q _ => some (cl, seqNo q)
  | .seqHalf cl q _ _ => some (cl, seqNo q)
  | .portRead cl slot tile _ => some (cl, 4 + portKey slot tile)
  | .port cl slot tile => some (cl, 4 + portKey slot tile)
  | .portDone cl slot tile => some (cl, 4 + portKey slot tile)
  | _ => none

/-- A posted request of the cluster to another module has not been acknowledged, or one to the host has not been issued; `all`:
nor has one to the host arrived (R93). -/
def State.postedOut (s : State) (c : Nat) (all : Bool) : Bool :=
  s.links.yWait.any (fun e => e.2.agent.isOf c && e.2.kind.writes && match e.2.ret with | .nowhere => true | _ => false)
    || s.links.hostReqs.any fun h => h.kind.writes && h.agent.isOf c && (all || h.needAts)

/-- A zero-length read of the host by a cluster's task is on its way (R93). -/
def State.zeroOut (s : State) (c : Nat) : Bool := s.links.hostReqs.any fun h => h.agent.isOf c && h.kind == .read 0

/-- R91, R93: the writes a release covers have performed at its scope, but for the host's answer, and the reads it covers have
returned. -/
def State.releaseDrained (s : State) (c : Nat) (q : SeqId) (r : Release) : Bool :=
  let k := s.cluster c
  let x := k.seq q
  (!r.mask.getLsbD 0 || x.outstanding.all fun o => r.before ≤ o.serial || o.isDone || o.kind == .alu)
    && r.cmds.all (fun i => !(k.openCmds q).contains i)
    && r.markers.isEmpty
    && (r.mask == 0 || match r.scope with | .cl => true | .di => true | sc => !s.postedOut c (sc == .sy))

/-- R93: a release at SY that covers writes of the host window waits for the completion of a zero-length read sent after
them. -/
def State.owesZero (s : State) (c : Nat) (r : Release) : Bool :=
  r.mask != 0 && r.scope == .sy && (r.zero.isNone && (s.cluster c).usedHost || s.zeroOut c)

/-- R91, R93: the release performs when every write it covers has performed at its scope and every read it covers
has returned. -/
def State.releaseReady (s : State) (c : Nat) (q : SeqId) (r : Release) : Bool := s.releaseDrained c q r && !s.owesZero c r

/-- A zero-length read of the host leaves, behind the writes of the cluster's task (R93). -/
def State.askZero (s : State) (c : Nat) : State :=
  (s.mapCl c fun k => { k with usedHost := false }).toHost ⟨c, 0, 0⟩ (s.cluster c).task.ctx 0 (.read 0) .nowhere none none

/-- The zero-length read of a release at SY leaves once its writes have (R93). -/
def State.sendZero (s : State) (c : Nat) (q : SeqId) (r : Release) : State × Release :=
  if s.releaseDrained c q r && s.owesZero c r && r.zero.isNone then (s.askZero c, { r with zero := some s.counter })
  else (s, r)

/-- What the release makes known (R92). -/
def State.relInfo (s : State) (c : Nat) (q : SeqId) (m : Mask) (sc : Scope) : RelInfo :=
  ⟨(s.cluster c).covered q m, sc, c, (s.cluster c).coverDone q m⟩

/-- A command of a sequencer's engine is complete: the releases that it comes before cover its writes (R91). -/
def Sequencer.creditCmd (x : Sequencer) (id cls : Nat) (ids : List Nat) : Sequencer :=
  let one (r : Release) : Release :=
    if r.cmds.contains id then { r with known := union r.known ids, done := r.done.set cls (union (r.done.get cls []) ids) } else r
  { x with outstanding := x.outstanding.map fun p => { p with rel := p.rel.map one } }

/-- Slots the copy engine has claimed (R266). -/
def Ring.claimed (r : Ring) (produce : Bool) : Nat :=
  r.claims.foldl (fun n c => if c.produce == produce then n + c.n else n) 0

/-- Full and free slots that no claim holds (R182, R266). -/
def Ring.full (r : Ring) : Nat := r.p - r.c - r.claimed false
def Ring.free (r : Ring) : Nat := r.nslot - (r.p - r.c) - r.claimed true

/-- A ring's new state, with the waits it satisfies (R182). -/
def Cluster.putRing (k : Cluster) (h : Nat) (r : Ring) : Cluster :=
  let hit (w : WaitKind) : WaitKind :=
    match w with
    | .ring g f m none =>
      if g == h && m ≤ (if f then r.full else r.free) then .ring g f m (some (if f then r.relP else r.relC)) else w
    | _ => w
  (k.setRing h r).hitAll hit

/-- R182: an advance of a ring's producer or consumer count by its side `who`, which wakes IDLE unless it is 0. -/
def Cluster.advance (k : Cluster) (h : Nat) (produce : Bool) (n : Nat) (i : RelInfo) (who : Nat) : Cluster :=
  let r := k.ring h
  let r1 := if produce then { r with p := r.p + n, relP := r.relP ++ [i], byP := some who }
    else { r with c := r.c + n, relC := r.relC ++ [i], byC := some who }
  let k1 := k.putRing h r1
  if n == 0 then k1 else k1.wakeAll

/-- A release has performed: its writes have performed at MO, at DO are known to other modules, and at SY to the host (R92,
R93). -/
def State.knownFar (s : State) (sc : Scope) (ids : List Nat) : State :=
  let l := s.links
  match sc with
  | .cl => s
  | .di => s
  | .mo => { s with links := { l with moDone := union l.moDone ids } }
  | .do_ => { s with links := { l with moDone := union l.moDone ids, rKnown := union l.rKnown ids } }
  | .sy =>
    { s with links := { l with moDone := union l.moDone ids, rKnown := union l.rKnown ids, syDone := union l.syDone ids } }

/-- What a waiting instruction does once its release has performed (R94, R179, R182); the wait record then says so. -/
def State.effect (s : State) (c : Nat) (q : SeqId) (r : Release) (e : RelEffect) : State × WaitKind :=
  let ids := (s.cluster c).covered q r.mask
  let s := (s.mapCl c fun k => (k.follow q r.mask).markCmds q r.mask s.counter).knownFar r.scope ids
  match e with
  | .fence k2 => (s.mapSeq c q fun x => { x.learn k2 ids with acqAt := s.counter }, .released)
  | .setEvent n => (s.mapCl c (·.setEvent n (s.relInfo c q r.mask .cl) (seqNo q)), .released)
  | .advanceP h n =>
    let g := (s.cluster c).ring h
    if !g.defined then (s, .failed cRING 4 n)
    else if g.free < n.toNat then (s, .failed cRING 3 n)
    else (s.mapCl c (·.advance h true n.toNat (s.relInfo c q r.mask .cl) (seqNo q)), .released)
  | .advanceC h n =>
    let g := (s.cluster c).ring h
    if !g.defined then (s, .failed cRING 4 n)
    else if g.full < n.toNat then (s, .failed cRING 3 n)
    else (s.mapCl c (·.advance h false n.toNat (s.relInfo c q r.mask .cl) (seqNo q)), .released)

/-- The progress of the waiting instruction at the pc (R188). -/
def Sequencer.waitAt (x : Sequencer) : Option WaitKind := (x.waits.find? (·.pc == x.pc)).map (·.kind)

/-- An engine command stalls, which is no instruction boundary (R256). -/
def Sequencer.stalled (x : Sequencer) : Bool :=
  match x.waitAt with
  | some .placing => true
  | some (.reading _ _ stall) => stall
  | _ => false

def Sequencer.setWait (x : Sequencer) (k : WaitKind) : Sequencer :=
  { x with waits := x.waits.filter (fun w => w.pc != x.pc) ++ [⟨x.pc, k⟩] }

def Sequencer.endWait (x : Sequencer) : Sequencer := { x with waits := x.waits.filter fun w => w.pc != x.pc }

/-- A waiting instruction has completed: on to the next one. -/
def State.complete (s : State) (n : Nat) : State := s.mapMe fun x => x.endWait.skip n

/-- The waiting instruction fails with a trap of its own, which stands while an operation sent has not returned. -/
def State.failWait (s : State) (cause detail : Nat) (arg : Word) : State :=
  if s.me.outstanding.any (·.isSent) then s.mapMe (·.setWait (.failed cause detail arg))
  else (s.mapMe (·.endWait)).trap cause detail arg

/-- A waiting instruction that is a release: begun once; when it has performed the instruction completes, or traps
where the effect says so; otherwise it waits. -/
def State.releasing (s : State) (len : Nat) (m : Mask) (sc : Scope) (e : RelEffect) : State :=
  let finish (s : State) (k : WaitKind) : State :=
    match k with
    | .failed cause detail arg => s.failWait cause detail arg
    | _ => s.complete len
  let go (s : State) (r : Release) (e : RelEffect) : State :=
    if s.releaseReady s.cur.1 s.cur.2 r then
      let (s1, k) := s.effect s.cur.1 s.cur.2 r e
      finish s1 k
    else
      let (s1, r1) := s.sendZero s.cur.1 s.cur.2 r
      s1.mapMe (·.setWait (.release r1 e))
  match s.me.waitAt with
  | some .released => s.complete len
  | some (.failed cause detail arg) => finish s (.failed cause detail arg)
  | some (.release r e') => go s r e'
  | w =>
    let (s1, r0) := s.beginRelease s.cur.1 s.cur.2 m sc
    go s1 (match w with | some (.owed ms) => { r0 with markers := ms ++ r0.markers } | _ => r0) e

end Sys2Proof.Machine
end

