-- ==== Sys2Proof/Machine/LoadStore.lean ====
section
/-! DEFINITION. Loads, stores, prefetch, atomics, acquiring loads, releasing stores and cache maintenance as they
issue (R158 to R164, R172 to R178), and the events that complete them (R145, R171). -/

namespace Sys2Proof.Machine

/-- A long operation issues after its checks at issue (R145, R158, R175). -/
def State.issueOp (s : State) (i : Instr) (len : Nat) (kind : OpKind) (ea : Word) (al n : Nat) (d1 d2 : Word)
    (dst : Nat) (rel : Option Release) (acq : Option (Mask × Scope)) : State :=
  match checkEa ea al n with
  | some (cause, detail) => s.trap cause detail ea
  | none =>
    s.mapMe fun x =>
      { x.skip len with serial := x.serial + 1,
                        outstanding := x.outstanding ++ [⟨i, x.pc, kind, ea, d1, d2, dst, rel, acq, .unsent, x.serial, x.seenBy 0, none⟩] }

/-- LD.B (R159). -/
def execLdB (g : Guard) (d a : Reg) (off : BitVec 9) (s : State) : Result :=
  guarded g 4 s fun s =>
    s.issueOp (.ldB g d a off) 4 (.load 1 true) (eaMem s.me a off 1) 1 1 0 0 d.val none none

/-- LD.H (R159). -/
def execLdH (g : Guard) (d a : Reg) (off : BitVec 9) (s : State) : Result :=
  guarded g 4 s fun s =>
    s.issueOp (.ldH g d a off) 4 (.load 2 true) (eaMem s.me a off 2) 2 2 0 0 d.val none none

/-- LD.W (R159). -/
def execLdW (g : Guard) (d a : Reg) (off : BitVec 9) (s : State) : Result :=
  guarded g 4 s fun s =>
    s.issueOp (.ldW g d a off) 4 (.load 4 true) (eaMem s.me a off 4) 4 4 0 0 d.val none none

/-- LD.BN (R159). -/
def execLdBn (g : Guard) (d a : Reg) (off : BitVec 9) (s : State) : Result :=
  guarded g 4 s fun s =>
    s.issueOp (.ldBn g d a off) 4 (.load 1 false) (eaMem s.me a off 1) 1 1 0 0 d.val none none

/-- LD.HN (R159). -/
def execLdHn (g : Guard) (d a : Reg) (off : BitVec 9) (s : State) : Result :=
  guarded g 4 s fun s =>
    s.issueOp (.ldHn g d a off) 4 (.load 2 false) (eaMem s.me a off 2) 2 2 0 0 d.val none none

/-- LD.WN (R159). -/
def execLdWn (g : Guard) (d a : Reg) (off : BitVec 9) (s : State) : Result :=
  guarded g 4 s fun s =>
    s.issueOp (.ldWn g d a off) 4 (.load 4 false) (eaMem s.me a off 4) 4 4 0 0 d.val none none

/-- LD.D (R159). -/
def execLdD (g : Guard) (d a : Reg) (off : BitVec 9) (s : State) : Result :=
  guarded g 4 s fun s =>
    s.issueOp (.ldD g d a off) 4 (.load 8 false) (eaMem s.me a off 8) 8 8 0 0 d.val none none

/-- ST.B (R159). -/
def execStB (g : Guard) (d a : Reg) (off : BitVec 9) (s : State) : Result :=
  guarded g 4 s fun s =>
    s.issueOp (.stB g d a off) 4 (.store 1) (eaMem s.me a off 1) 1 1 (s.me.reg d) 0 0 none none

/-- ST.H (R159). -/
def execStH (g : Guard) (d a : Reg) (off : BitVec 9) (s : State) : Result :=
  guarded g 4 s fun s =>
    s.issueOp (.stH g d a off) 4 (.store 2) (eaMem s.me a off 2) 2 2 (s.me.reg d) 0 0 none none

/-- ST.W (R159). -/
def execStW (g : Guard) (d a : Reg) (off : BitVec 9) (s : State) : Result :=
  guarded g 4 s fun s =>
    s.issueOp (.stW g d a off) 4 (.store 4) (eaMem s.me a off 4) 4 4 (s.me.reg d) 0 0 none none

/-- ST.D (R159). -/
def execStD (g : Guard) (d a : Reg) (off : BitVec 9) (s : State) : Result :=
  guarded g 4 s fun s =>
    s.issueOp (.stD g d a off) 4 (.store 8) (eaMem s.me a off 8) 8 8 (s.me.reg d) 0 0 none none

/-- LDP (R160). -/
def execLdp (g : Guard) (dh : Fin 16) (a : Reg) (off : BitVec 9) (s : State) : Result :=
  guarded g 4 s fun s =>
    s.issueOp (.ldp g dh a off) 4 .loadPair (eaMem s.me a off 8) 8 16 0 0 (evenReg dh).val none none

/-- STP (R160). -/
def execStp (g : Guard) (dh : Fin 16) (a : Reg) (off : BitVec 9) (s : State) : Result :=
  guarded g 4 s fun s =>
    s.issueOp (.stp g dh a off) 4 .storePair (eaMem s.me a off 8) 8 16 (s.me.reg (evenReg dh)) (s.me.reg (oddReg dh))
      0 none none

/-- The leaf of an address for a prefetch: from the TLB, or by the page tables. -/
def State.prefLeaf (s : State) (va : Nat) : Option TlbEntry :=
  let asid := s.asidOf s.cur.1 s.cur.2
  let ok (e : TlbEntry) : Option TlbEntry := if e.allows needR then some e else none
  match s.here.lookup asid va with
  | some e => ok e
  | none => match s.walk (s.part s.cur.1) (s.cur.1 / 64) asid va with | .leaf e => ok e | .miss _ _ => none

/-- A prefetched line comes to its home slice under its class, or is made young there (R161, R347, R348). -/
def State.prefetch (s : State) (key rcls : Nat) : State :=
  let rct := s.rctOf key rcls
  if s.hitsL2 key then s.touchL2 key rcls true
  else if s.l2Fills.any (·.line == key / 64) then s
  else (s.stage4k key rct).fillClass (key / 64) (s.setOf key) rct none

/-- What a PREF at ea brings, as its home key and class: nothing where it fails a check or in translation, or names the window or
the host window (R161). -/
def State.prefKey (s : State) (ea : Word) : Option (Nat × Nat) :=
  if (checkEa ea 1 1).isSome || inWindow ea.toNat then none
  else (s.prefLeaf ea.toNat).bind fun e => (s.keyAt (s.part s.cur.1) (e.pbase + ea.toNat % e.size)).map fun k => (k, e.cls)

/-- The table lines that the translation of a PREF reads (R342). -/
def State.prefWalk (s : State) (va : Nat) : State :=
  let asid := s.asidOf s.cur.1 s.cur.2
  if (s.here.lookup asid va).isSome then s
  else s.tableFills (s.walkPath (s.part s.cur.1) (s.die (s.cur.1 / 64)) asid va)

/-- PREF: its line enters its home slice as its class has it; one that fails a check or in translation, or names the window
or the host window, is discarded (R161). No class of R320 allocates on writes alone, so that the hint makes no difference. -/
def execPref (g : Guard) (_write : Bool) (a : Reg) (off : BitVec 9) (s : State) : Result :=
  guarded g 4 s fun s =>
    let ea := eaMem s.me a off 1
    match s.prefKey ea with
    | some (key, rcls) => ((s.prefWalk ea.toNat).prefetch key rcls).skip 4
    | none => s.skip 4

/-- AMO.ADD.W (R172, R173). -/
def execAmoAddW (g : Guard) (d a b : Reg) (sc : Scope) (s : State) : Result :=
  guarded g 4 s fun s =>
    s.issueOp (.amoAddW g d a b sc) 4 (.amo 0 false sc) (s.me.reg a) 4 4 (s.me.reg b) 0 d.val none none

/-- AMO.AND.W (R172, R173). -/
def execAmoAndW (g : Guard) (d a b : Reg) (sc : Scope) (s : State) : Result :=
  guarded g 4 s fun s =>
    s.issueOp (.amoAndW g d a b sc) 4 (.amo 1 false sc) (s.me.reg a) 4 4 (s.me.reg b) 0 d.val none none

/-- AMO.OR.W (R172, R173). -/
def execAmoOrW (g : Guard) (d a b : Reg) (sc : Scope) (s : State) : Result :=
  guarded g 4 s fun s =>
    s.issueOp (.amoOrW g d a b sc) 4 (.amo 2 false sc) (s.me.reg a) 4 4 (s.me.reg b) 0 d.val none none

/-- AMO.XOR.W (R172, R173). -/
def execAmoXorW (g : Guard) (d a b : Reg) (sc : Scope) (s : State) : Result :=
  guarded g 4 s fun s =>
    s.issueOp (.amoXorW g d a b sc) 4 (.amo 3 false sc) (s.me.reg a) 4 4 (s.me.reg b) 0 d.val none none

/-- AMO.MIN.W (R172, R173). -/
def execAmoMinW (g : Guard) (d a b : Reg) (sc : Scope) (s : State) : Result :=
  guarded g 4 s fun s =>
    s.issueOp (.amoMinW g d a b sc) 4 (.amo 4 false sc) (s.me.reg a) 4 4 (s.me.reg b) 0 d.val none none

/-- AMO.MAX.W (R172, R173). -/
def execAmoMaxW (g : Guard) (d a b : Reg) (sc : Scope) (s : State) : Result :=
  guarded g 4 s fun s =>
    s.issueOp (.amoMaxW g d a b sc) 4 (.amo 5 false sc) (s.me.reg a) 4 4 (s.me.reg b) 0 d.val none none

/-- AMO.MINN.W (R172, R173). -/
def execAmoMinnW (g : Guard) (d a b : Reg) (sc : Scope) (s : State) : Result :=
  guarded g 4 s fun s =>
    s.issueOp (.amoMinnW g d a b sc) 4 (.amo 6 false sc) (s.me.reg a) 4 4 (s.me.reg b) 0 d.val none none

/-- AMO.MAXN.W (R172, R173). -/
def execAmoMaxnW (g : Guard) (d a b : Reg) (sc : Scope) (s : State) : Result :=
  guarded g 4 s fun s =>
    s.issueOp (.amoMaxnW g d a b sc) 4 (.amo 7 false sc) (s.me.reg a) 4 4 (s.me.reg b) 0 d.val none none

/-- AMO.SWAP.W (R172, R173). -/
def execAmoSwapW (g : Guard) (d a b : Reg) (sc : Scope) (s : State) : Result :=
  guarded g 4 s fun s =>
    s.issueOp (.amoSwapW g d a b sc) 4 (.amo 8 false sc) (s.me.reg a) 4 4 (s.me.reg b) 0 d.val none none

/-- AMO.FADD.RX.W (R172, R173). -/
def execAmoFaddRxW (g : Guard) (d a b : Reg) (sc : Scope) (s : State) : Result :=
  guarded g 4 s fun s =>
    s.issueOp (.amoFaddRxW g d a b sc) 4 (.amo 9 false sc) (s.me.reg a) 4 4 (s.me.reg b) 0 d.val none none

/-- AMO.ADD.D (R172, R173). -/
def execAmoAddD (g : Guard) (d a b : Reg) (sc : Scope) (s : State) : Result :=
  guarded g 4 s fun s =>
    s.issueOp (.amoAddD g d a b sc) 4 (.amo 0 true sc) (s.me.reg a) 8 8 (s.me.reg b) 0 d.val none none

/-- AMO.AND.D (R172, R173). -/
def execAmoAndD (g : Guard) (d a b : Reg) (sc : Scope) (s : State) : Result :=
  guarded g 4 s fun s =>
    s.issueOp (.amoAndD g d a b sc) 4 (.amo 1 true sc) (s.me.reg a) 8 8 (s.me.reg b) 0 d.val none none

/-- AMO.OR.D (R172, R173). -/
def execAmoOrD (g : Guard) (d a b : Reg) (sc : Scope) (s : State) : Result :=
  guarded g 4 s fun s =>
    s.issueOp (.amoOrD g d a b sc) 4 (.amo 2 true sc) (s.me.reg a) 8 8 (s.me.reg b) 0 d.val none none

/-- AMO.XOR.D (R172, R173). -/
def execAmoXorD (g : Guard) (d a b : Reg) (sc : Scope) (s : State) : Result :=
  guarded g 4 s fun s =>
    s.issueOp (.amoXorD g d a b sc) 4 (.amo 3 true sc) (s.me.reg a) 8 8 (s.me.reg b) 0 d.val none none

/-- AMO.MIN.D (R172, R173). -/
def execAmoMinD (g : Guard) (d a b : Reg) (sc : Scope) (s : State) : Result :=
  guarded g 4 s fun s =>
    s.issueOp (.amoMinD g d a b sc) 4 (.amo 4 true sc) (s.me.reg a) 8 8 (s.me.reg b) 0 d.val none none

/-- AMO.MAX.D (R172, R173). -/
def execAmoMaxD (g : Guard) (d a b : Reg) (sc : Scope) (s : State) : Result :=
  guarded g 4 s fun s =>
    s.issueOp (.amoMaxD g d a b sc) 4 (.amo 5 true sc) (s.me.reg a) 8 8 (s.me.reg b) 0 d.val none none

/-- AMO.MINN.D (R172, R173). -/
def execAmoMinnD (g : Guard) (d a b : Reg) (sc : Scope) (s : State) : Result :=
  guarded g 4 s fun s =>
    s.issueOp (.amoMinnD g d a b sc) 4 (.amo 6 true sc) (s.me.reg a) 8 8 (s.me.reg b) 0 d.val none none

/-- AMO.MAXN.D (R172, R173). -/
def execAmoMaxnD (g : Guard) (d a b : Reg) (sc : Scope) (s : State) : Result :=
  guarded g 4 s fun s =>
    s.issueOp (.amoMaxnD g d a b sc) 4 (.amo 7 true sc) (s.me.reg a) 8 8 (s.me.reg b) 0 d.val none none

/-- AMO.SWAP.D (R172, R173). -/
def execAmoSwapD (g : Guard) (d a b : Reg) (sc : Scope) (s : State) : Result :=
  guarded g 4 s fun s =>
    s.issueOp (.amoSwapD g d a b sc) 4 (.amo 8 true sc) (s.me.reg a) 8 8 (s.me.reg b) 0 d.val none none

/-- CAS.W: the comparand is s[d], the new value s[b] (R172, R173). -/
def execCasW (g : Guard) (d a b : Reg) (sc : Scope) (s : State) : Result :=
  guarded g 4 s fun s =>
    s.issueOp (.casW g d a b sc) 4 (.cas false sc) (s.me.reg a) 4 4 (s.me.reg b) (s.me.reg d) d.val
      none none

/-- CAS.D: the comparand is s[d], the new value s[b] (R172, R173). -/
def execCasD (g : Guard) (d a b : Reg) (sc : Scope) (s : State) : Result :=
  guarded g 4 s fun s =>
    s.issueOp (.casD g d a b sc) 4 (.cas true sc) (s.me.reg a) 8 8 (s.me.reg b) (s.me.reg d) d.val
      none none

/-- ACQ.LD: a load, and then an acquire; with MASK 0 a plain load (R178). -/
def execAcqLd (g : Guard) (d a : Reg) (size : Fin 4) (sx : Bool) (mask : Mask) (sc : Scope) (off : BitVec 16)
    (s : State) : Result :=
  guarded g 8 s fun s =>
    s.issueOp (.acqLd g d a size sx mask sc off) 8 (.load (2 ^ size.val) sx) (eaX64 s.me a off) (2 ^ size.val)
      (2 ^ size.val) 0 0 d.val none (if mask == 0 then none else some (mask, sc))

/-- REL.ST: a release, and its store once the release has performed; with MASK 0 a plain store (R178). -/
def execRelSt (g : Guard) (d a : Reg) (size : Fin 4) (mask : Mask) (sc : Scope) (off : BitVec 16) (s : State) :
    Result :=
  guarded g 8 s fun s =>
    let ea := eaX64 s.me a off
    let i : Instr := .relSt g d a size mask sc off
    if mask == 0 then s.issueOp i 8 (.store (2 ^ size.val)) ea (2 ^ size.val) (2 ^ size.val) (s.me.reg d) 0 0 none none
    else if (checkEa ea (2 ^ size.val) (2 ^ size.val)).isSome then
      s.issueOp i 8 (.store (2 ^ size.val)) ea (2 ^ size.val) (2 ^ size.val) (s.me.reg d) 0 0 none none
    else
      let (s1, r) := s.beginRelease s.cur.1 s.cur.2 mask sc
      let s1 := s1.mapHere fun k => (k.follow s.cur.2 mask).markCmds s.cur.2 mask s.counter
      s1.issueOp i 8 (.store (2 ^ size.val)) ea (2 ^ size.val) (2 ^ size.val) (s.me.reg d) 0 0 (some r) none

/-- CFLUSH (R163). -/
def execCflush (g : Guard) (a : Reg) (s : State) : Result :=
  guarded g 4 s fun s => s.issueOp (.cflush g a) 4 .flush (s.me.reg a) 1 1 0 0 0 none none

/-- CINV: privileged (R164, R306). -/
def execCinv (g : Guard) (a : Reg) (s : State) : Result :=
  guarded g 4 s fun s =>
    if !s.me.pl then s.trap cPRIV 0 0
    else s.issueOp (.cinv g a) 4 .invalidate (s.me.reg a) 1 1 0 0 0 none none

/-! ### Sending and completing -/

/-- The permissions an operation needs (R163, R164, R337). -/
def OpKind.need : OpKind → Need
  | .store _ => needW
  | .storePair => needW
  | .invalidate => needW
  | .amo _ _ _ => needRW
  | .cas _ _ => needRW
  | _ => needR

/-- Bytes an operation accesses. -/
def OpKind.size : OpKind → Nat
  | .load n _ => n
  | .store n => n
  | .loadPair => 16
  | .storePair => 16
  | .amo _ d _ => if d then 8 else 4
  | .cas d _ => if d then 8 else 4
  | _ => 1

def OpKind.isAtomic : OpKind → Bool
  | .amo _ _ _ => true
  | .cas _ _ => true
  | _ => false

def OpKind.isLine : OpKind → Bool
  | .flush => true
  | .invalidate => true
  | _ => false

/-- The request an operation makes. -/
def LongOp.req (o : LongOp) : ReqKind :=
  match o.kind with
  | .load n _ => .read n
  | .loadPair => .read 16
  | .store n => .write (toBytes n o.d1)
  | .storePair => .write (toBytes 8 o.d1 ++ toBytes 8 o.d2)
  | .amo op d _ => .amo op d o.d1 false
  | .cas d _ => .cas d o.d2 o.d1
  | .flush => .flush
  | .invalidate => .invalidate
  | .alu => .read 0
  | .command => .read 0

def LongOp.scope (o : LongOp) : Scope :=
  match o.kind, o.rel with
  | .amo _ _ sc, _ => sc
  | .cas _ sc, _ => sc
  | _, some r => r.scope
  | _, none => .cl

/-- An operation that writes and has not performed (R49); cache maintenance changes no value (R163). -/
def LongOp.writesStill (o : LongOp) : Bool := !o.isDone && o.req.writes

/-- An operation's phase changed, by serial number. -/
def Sequencer.setPhase (x : Sequencer) (serial : Nat) (p : Phase) : Sequencer :=
  { x with outstanding := x.outstanding.map fun o => if o.serial == serial then { o with phase := p } else o }

/-- The physical line of an address of a sequencer, by the TLB or by the page tables. -/
def State.paLine (s : State) (c : Nat) (q : SeqId) (va : Nat) : Option Nat :=
  let asid := s.asidOf c q
  match (s.cluster c).lookup asid va with
  | some e => some ((e.pbase + va % e.size) / 64)
  | none =>
    match s.walk (s.part c) (c / 64) asid va with
    | .leaf e => some ((e.pbase + va % e.size) / 64)
    | .miss _ _ => none

/-- n bytes at va and m bytes at wa, as a sequencer addresses them, touch one line, by their addresses or by where these lead
(R85 item 1). -/
def State.meetLines (s : State) (c : Nat) (q : SeqId) (va n wa m : Nat) : Bool :=
  let ends (a k : Nat) : List Nat := [a, a + k - 1]
  let far (l : List Nat) : List Nat := (l.filter (!inWindow ·)).filterMap (s.paLine c q)
  ((ends va n).map (· / 64)).any ((ends wa m).map (· / 64)).contains || (far (ends va n)).any (far (ends wa m)).contains

/-- Two operations of a sequencer touch one line (R85 item 1). -/
def State.sameLine (s : State) (c : Nat) (q : SeqId) (o p : LongOp) : Bool :=
  s.meetLines c q o.ea.toNat o.kind.size p.ea.toNat p.kind.size

/-- R85 item 1, R97: an operation is sent after the earlier operations on its lines, cache maintenance when they have performed;
none is sent once one has faulted (R171); the store of a REL.ST waits for its release (R178), and a later access for the
commands that release covers (R85 item 2). -/
def State.maySend (s : State) (c : Nat) (q : SeqId) (o : LongOp) : Bool :=
  let x := s.seq c q
  let clear (p : LongOp) : Bool := p.kind == .alu || p.isDone || (p.phase != .unsent && !o.kind.isLine) || !s.sameLine c q o p
  let open_ (p : LongOp) : Bool := match p.rel with | some r => r.cmds.all fun i => !((s.cluster c).openCmds q).contains i | none => true
  !x.outstanding.any (·.isFaulted)
    && x.outstanding.all (fun p => o.serial ≤ p.serial || (clear p && open_ p))
    && match o.rel with | some r => r.performed | none => true

/-- An operation is sent: what comes before it comes before what follows it, and before the releases that cover it (R85,
R91). -/
def Sequencer.departs (x : Sequencer) (o : LongOp) : Sequencer :=
  ({ x with past := union x.past o.view } : Sequencer).credit o.serial o.view

/-- What a REL.ST's store makes known: what its release covers, and what comes before the store itself (R85, R92). -/
def LongOp.relInfo (o : LongOp) (c : Nat) : Option RelInfo :=
  o.rel.map fun r => ⟨union r.known o.view, r.scope, c, r.done⟩

/-- The request of an operation, or of one half of a pair, towards a resolved place. It returns no write older than one that
has performed at MO before it is sent (R93). -/
def State.opReq (s : State) (c : Nat) (q : SeqId) (o : LongOp) (kind : ReqKind) (ret : RetTo) (key pa rcls : Nat) : MemReq :=
  { id := s.counter, agent := ⟨c, 0, seqNo q⟩, kind := kind, key := key, pa := pa, asid := s.asidOf c q,
    scope := o.scope, rel := o.relInfo c, view := union o.view ((o.rel.map (·.known)).getD []),
    floor := s.links.moDone, wpol := (s.part c).wpol rcls, rcls := rcls, region := 0xFFFF, ret := ret,
    leaf := (s.cluster c).lookup (s.asidOf c q) o.ea.toNat }

/-- One access of an operation goes where its translation leads (R78, R79, R145, R163, R175): `done` when it has performed
by that, `sent` otherwise; none while there is no room for it. A line of another partition of the module is flushed or
discarded in that partition's slices; what its home in another module does is that module's (R163, R164; log entry 40). -/
def State.sendOne (s : State) (c : Nat) (q : SeqId) (o : LongOp) (kind : ReqKind) (ret : RetTo) (t : Target)
    (done sent : Sequencer → Sequencer) : Option State :=
  match t with
  | .tile key =>
    if o.kind.isLine then some (s.mapSeq c q done)
    else
      (s.toTile c 0 (s.opReq c q o kind ret key 0 0)).map fun s1 =>
        s1.mapSeq c q (match kind with | .write _ => fun x => (done x).credit o.serial [s.counter] | _ => sent)
  | .mem key pa rcls =>
    let r := s.opReq c q o kind ret key pa rcls
    some ({ (s.mapSeq c q sent) with reqs := s.reqs ++ [r] } : State).fresh
  | .host off =>
    if o.kind.isLine then some (s.mapSeq c q done)
    else if o.kind.isAtomic then some (s.mapSeq c q (·.setPhase o.serial (.faulted cPROT 4 o.ea)))
    else some ((s.mapSeq c q sent).toHost ⟨c, 0, seqNo q⟩ (s.cluster c).task.ctx off kind ret (o.relInfo c)
      ((s.cluster c).lookup (s.asidOf c q) o.ea.toNat))
  | .remote pa =>
    if o.kind.isLine then
      match s.keyAt (s.part c) pa with
      | some key => some ({ (s.mapSeq c q sent) with reqs := s.reqs ++ [s.opReq c q o kind ret key pa 0] } : State).fresh
      | none => some (s.mapSeq c q done)
    else if o.kind.isAtomic && hostBase ≤ paLocal pa then some (s.mapSeq c q (·.setPhase o.serial (.faulted cPROT 4 o.ea)))
    else some ((s.mapSeq c q sent).sendRemote (s.opReq c q o kind ret 0 pa 0))

/-- Where an operation goes once its translation is found. -/
def State.sendOp (s : State) (c : Nat) (q : SeqId) (o : LongOp) (t : Target) : State :=
  let phase (p : Phase) (x : Sequencer) : Sequencer := (x.setPhase o.serial p).departs o
  (s.sendOne c q o o.req (.seqOp c q o.serial) t (phase (.done 0 0)) (phase (.sent s.counter))).getD s

/-- Who reads and writes for a sequencer's own instruction. -/
def State.seqWho (s : State) (c : Nat) (q : SeqId) : Who :=
  ⟨c, s.asidOf c q, 0, true, union ((s.seq c q).seenBy 0) (s.seq c q).own, [], seqNo q⟩

/-- The request of one half of a pair (R160). -/
def LongOp.halfReq (o : LongOp) (hi : Bool) : ReqKind :=
  match o.kind with
  | .storePair => .write (toBytes 8 (if hi then o.d2 else o.d1))
  | _ => .read 8

/-- The place eight bytes on. -/
def Target.next : Target → Target
  | .tile key => .tile (key + 8)
  | .mem key pa rcls => .mem (key + 8) (pa + 8) rcls
  | .host off => .host (off + 8)
  | .remote pa => .remote (pa + 8)

/-- R81, R160: the halves of a pair are single accesses of 8 bytes, both sent at once; one that has performed before is not made
again. -/
def State.sendHalves (s : State) (c : Nat) (q : SeqId) (o : LongOp) (lo hi : Target) : State :=
  let one (h : Bool) (t : Target) (s : State) : Option State :=
    if o.half.map (·.1) == some h then some s
    else s.sendOne c q o (o.halfReq h) (.seqHalf c q o.serial h) t (·.performHalf o.serial h 0 []) (fun x => x)
  let got (h : Bool) : Option Word := o.half.bind fun e => if e.1 == h then some e.2 else none
  let s0 := s.mapSeq c q fun x => (x.setPhase o.serial (.halves (got false) (got true))).departs o
  ((one false lo s0).bind (one true hi)).getD s

/-- R160: a pair that lies in two lines is checked as a whole and then sent in its two halves. -/
def State.sendPair (s : State) (c : Nat) (q : SeqId) (o : LongOp) : State :=
  let w := s.seqWho c q
  let halt (s : State) (cause detail va : Nat) : State := s.mapSeq c q (·.setPhase o.serial (.faulted cause detail (w64 va)))
  match s.resolve w o.ea.toNat 8 o.kind.need with
  | .ok s1 lo =>
    match s1.resolve w (o.ea.toNat + 8) 8 o.kind.need with
    | .ok s2 hi => s2.sendHalves c q o lo hi
    | .fail s2 cause detail va => halt s2 cause detail va
    | .wait s2 => s2
  | .fail s1 cause detail va => halt s1 cause detail va
  | .wait s1 => s1

/-- A pair within one line goes to its home or tile in two halves, and in one request to the host or to another module (R160). -/
def State.sendWhole (s : State) (c : Nat) (q : SeqId) (o : LongOp) (t : Target) : State :=
  match t with
  | .tile _ => s.sendHalves c q o t t.next
  | .mem _ _ _ => s.sendHalves c q o t t.next
  | _ => s.sendOp c q o t

/-- The answer of the host goes where its request's return route says. -/
def State.hostGives (s : State) (h : HostReq) (a : Answer) : State :=
  match h.ret with
  | .seqOp cl q serial => s.perform cl q serial a
  | .seqHalf cl q serial hi => s.mapSeq cl q (·.performHalf serial hi (ofBytes a.bytes) [])
  | .portRead cl slot tile i => s.mapCl cl (·.mapPort slot tile (·.returned i a.bytes 0))
  | .portDone cl slot tile => s.mapCl cl (·.mapPort slot tile fun p => { p with reqs := p.reqs - 1 })
  | .line who line => { s with links := { s.links with yLines := ⟨who, line, a.bytes, a.rels⟩ :: s.links.yLines } }
  | _ => s

/-- A host-window request whose translation is at hand is one read or posted write of host memory. -/
def State.hostServeOne (s : State) (h : HostReq) : State :=
  let s1 := { s with links := s.links.keepHost fun g => g.id != h.id }
  match h.kind with
  | .read n => s1.hostGives h ⟨s1.host.read h.addr n, [], s1.hostRelsAt h.addr n, none⟩
  | .write bs => (s1.hostStore h.addr bs h.rel).hostGives h ⟨[], [], [], none⟩
  | .group l => (l.foldl (fun t e => t.hostStore e.1 e.2 h.rel) s1).hostGives h ⟨[], [], [], none⟩
  | _ => s1

/-- Requests of one pair that lies in two lines (R160). -/
def RetTo.mates : RetTo → RetTo → Bool
  | .seqHalf c q n _, .seqHalf c' q' n' _ => c == c' && q == q' && n == n'
  | _, _ => false

/-- R393: a host-window request is served behind those of its agent to the line (R85); the halves of a pair are served
together (R160). -/
def State.hostServe (s : State) (id : Nat) : State :=
  match s.links.hostReqs.find? (·.id == id) with
  | none => s
  | some h =>
    let both := s.links.hostReqs.filter fun g => g.id == id || g.ret.mates h.ret
    let behind (g : HostReq) : Bool :=
      (s.links.hostReqs.takeWhile (·.id != g.id)).any fun p => p.agent == g.agent && p.addr / 64 == g.addr / 64
    if both.any fun g => g.needAts || behind g then s else both.foldl (·.hostServeOne ·) s

/-- The host request of one half of a pair. -/
def State.halfAt (s : State) (c : Nat) (q : SeqId) (serial : Nat) : Option Nat :=
  (s.links.hostReqs.find? fun h => h.ret.mates (.seqHalf c q serial false)).map (·.id)

/-- LONG_OP_COMPLETE: the operation goes to its place or faults, unless the replay queue is frozen (R362, R401); a host
access comes back; one that has performed writes its result (R145, R170, R171). -/
def execLongOpComplete (cl : Nat) (q : SeqId) (k : Nat) (s : State) : Result :=
  let x := s.seq cl q
  .next <| match x.outstanding[k]? with
  | none => s
  | some o =>
    match o.phase with
    | .done _ _ =>
      (s.mapSeq cl q fun y =>
        { y.writeBack o with outstanding := y.outstanding.filter fun p => p.serial != o.serial }).mapCl cl (·.settleIdle)
    | .sent id => s.hostServe id
    | .halves _ _ => match s.halfAt cl q o.serial with | some id => s.hostServe id | none => s
    | .failing _ => match s.halfAt cl q o.serial with | some id => s.hostServe id | none => s
    | .faulted _ _ _ => s.mapCl cl (·.settleIdle)
    | .unsent =>
      if !s.maySend cl q o || x.halted || (x.haltWant && !x.stalled) || (s.cluster cl).task.st == .preempting then s
      else if o.kind.size == 16 && o.ea.toNat / 64 != (o.ea.toNat + 15) / 64 then s.sendPair cl q o
      else
        match s.resolve (s.seqWho cl q) o.ea.toNat o.kind.size o.kind.need with
        | .ok s1 t => if o.kind.size == 16 then s1.sendWhole cl q o t else s1.sendOp cl q o t
        | .fail s1 cause detail va => s1.mapSeq cl q (·.setPhase o.serial (.faulted cause detail (w64 va)))
        | .wait s1 => s1

/-- The release of an outstanding REL.ST changed, by serial number. -/
def Sequencer.setRel (x : Sequencer) (serial : Nat) (r : Release) : Sequencer :=
  { x with outstanding := x.outstanding.map fun p => if p.serial == serial then { p with rel := some r } else p }

/-- The release of a REL.ST has performed: what it covers comes before the accesses that follow it (R85 item 2). -/
def Sequencer.relPerformed (x : Sequencer) (serial : Nat) (r : Release) : Sequencer :=
  let later (p : LongOp) : LongOp := if serial < p.serial then { p with view := union p.view r.known } else p
  let x1 := (x.learn maskC r.known).setRel serial { r with performed := true }
  { x1 with outstanding := x1.outstanding.map later }

/-- RELEASE_PERFORMED: the release of the waiting instruction (k = 0) or of an outstanding REL.ST (k ≥ 1) performs
(R91, R178, R188), or its zero-length read of the host leaves (R93). -/
def execReleasePerformed (cl : Nat) (q : SeqId) (k : Nat) (s : State) : Result :=
  let x := s.seq cl q
  .next <| match k with
  | 0 =>
    match x.waitAt with
    | some (.release r e) =>
      if s.releaseReady cl q r then
        let (s1, w) := s.effect cl q r e
        s1.mapSeq cl q (·.setWait w)
      else
        let (s1, r1) := s.sendZero cl q r
        if r1 == r then s else s1.mapSeq cl q (·.setWait (.release r1 e))
    | _ => s
  | j + 1 =>
    match x.outstanding[j]? with
    | some o =>
      match o.rel with
      | some r =>
        if r.performed then s
        else if s.releaseReady cl q r then (s.knownFar r.scope r.known).mapSeq cl q (·.relPerformed o.serial r)
        else
          let (s1, r1) := s.sendZero cl q r
          if r1 == r then s else s1.mapSeq cl q (·.setRel o.serial r1)
      | none => s
    | none => s

/-! ### Serving -/

/-- A request to a line follows in its order every earlier one of an agent it carries (R85, R97, R102). -/
def State.behind (s : State) (l : List MemReq) (r : MemReq) : Bool :=
  let who := s.agentsOf r
  l.any fun p => p.key / 64 == r.key / 64 && (s.agentsOf p).any who.contains

/-- R96: a read may return what an older read of its line returns that is still pending, unless its agent has written the line,
or made an acquire, since that one left. -/
def State.mayMerge (s : State) (r : MemReq) : Bool :=
  let since := match r.agent.cls, seqOfNo r.agent.sub with
    | 0, some q => if r.agent.cluster < 512 then (s.seq r.agent.cluster q).acqAt else 0
    | _, _ => 0
  let wrote (o : MemReq) : Bool :=
    s.hist.any fun w => (s.ownOf r.agent).1.contains w.id && w.overlaps (r.key / 64 * 64) 64 && decide (o.id < w.at_)
  let older (o : MemReq) : Bool :=
    !o.kind.writes && o.kind.isData && o.key / 64 == r.key / 64 && o.agent != r.agent && decide (since ≤ o.id) && !wrote o
  match r.kind with
  | .read _ => (s.reqs.takeWhile (·.id != r.id)).any older
  | _ => false

/-- The markers of other modules' releases that are gathered are acknowledged once the requests that came before them have been
served (R97, R398). -/
def State.settleGathers (s : State) : State :=
  let ready (g : Gather) : Bool :=
    g.pmask &&& g.got == g.pmask
      && !s.reqs.any fun r => decide (r.id < g.mark) && (s.agentsOf r).any fun a =>
        a.cluster == 512 * (1 + g.smod) + g.scl || ((s.partNumbered g.smod).isSome && a.cluster == g.scl)
  let one (t : State) (g : Gather) : State :=
    let c := 512 * g.smod + g.scl
    let ack : Flit :=
      { kind := 7, dmod := g.smod, smod := g.dmod, scl := g.scl, cls := 0, scope := 0, op := 0, w64 := false, tag := 0, addr := 0,
        path := g.path, pmask := g.pmask, epoch := g.epoch, opnd := 0, ben := 0, cmpnd := 0, data := [] }
    ({ t with links := { t.links with rFlushed := t.links.rFlushed.set c (t.links.rWrites.get c []) } } : State).emit [ack]
  let s1 : State := { s with links := { s.links with gathers := s.links.gathers.filter (!ready ·) } }
  (s.links.gathers.filter ready).foldl one s1

/-- HOME_ACCESS: a home serves a request. The lowest bit of `choice` says that it is merged into an older read (R96); the rest
says by digits how many of the newest writes of each byte it passes over (R87, R90, R99). The requests of one agent to one line
are served in order (R85, R97). -/
def execHomeAccess (id choice : Nat) (s : State) : Result :=
  .next <| match s.reqs.find? (·.id == id) with
  | none => s
  | some r =>
    let merged := choice % 2 == 1
    if s.behind (s.reqs.takeWhile (·.id != id)) r || (merged && !s.mayMerge r) then s
    else
      let again := match r.ret with | .seqHalf _ _ _ hi => hi && r.key % 64 != 0 | _ => false
      let s1 := ({ s with reqs := s.reqs.filter fun p => p.id != id } : State).meetsL2 r merged again
      match s1.serve r (choice / 2) with
      | none => s
      | some s2 => s2.settleGathers

/-- L2_FILL: a line that an access has missed enters its set under that access's class, in place of the victim R348 chooses; a
modified victim is written back (R347, R348). A line that the Granary returns poisoned is not filled (R394). -/
def execL2Fill (line set cls : Nat) (s : State) : Result :=
  .next <| match s.l2Fills.find? fun f => f.line == line && f.rcls == cls with
  | none => s
  | some f =>
    if s.setOf (64 * line) != set then s
    else
      let s1 : State := { s with l2Fills := s.l2Fills.erase f }
      if s1.hitsL2 (64 * line) then s1
      else if s1.poisoned (64 * line) then s1.fresh
      else s1.fillClass line set (s1.rctOf (64 * line) cls) f.backing

/-- The head of a requester's queue can be applied: no entry that comes before it stands in another queue of the tile. -/
def Cluster.mayServe (k : Cluster) (tile r : Nat) : Bool :=
  match k.tileQ.get (8 * tile + r) [] with
  | [] => false
  | e :: _ => !k.tileQ.any fun q => q.1 / 8 == tile && q.1 != 8 * tile + r && q.2.any fun x => e.view.contains x.id

/-- The requesters of a tile's array port as its pointer reaches them (R241). -/
def Cluster.tileOrder (k : Cluster) (tile : Nat) : List Nat := (List.range 7).map fun i => (k.tilePtr.get tile 0 + i) % 7

/-- ARRAY_PORT_SERVE: a tile's array port applies the next entry of the requester its pointer reaches, one in a clk (R98,
R241). -/
def execArrayPortServe (cl tile : Nat) (s : State) : Result :=
  .next <|
    let k := s.cluster cl
    match (k.tileOrder tile).find? (k.mayServe tile) with
    | none => s
    | some r =>
      match k.tileQ.get (8 * tile + r) [] with
      | [] => s
      | e :: rest =>
        let k1 : Cluster := { k with tileQ := k.tileQ.set (8 * tile + r) rest, tilePtr := k.tilePtr.set tile ((r + 1) % 7),
                                     tileAt := k.tileAt.set tile (k.clk + 1) }
        if k.tileAt.get tile 0 == k.clk + 1 then s else ((s.setCl cl k1).serve e 0).getD s

/-- The tiles of a cluster's window that pieces lie in. -/
def tilesIn (ps : List (Nat × Nat)) : List Nat :=
  ((ps.filter fun p => inWindow p.1).map fun p => (p.1 - winBase) / 65536).eraseDups

/-- An engine's accesses to tiles go through its requester of their array ports, the copy engine's 1 or the matrix array's
2: each tile gives it a turn when no requester that its pointer reaches earlier has an entry ready (R241). The tiles
already granted to the same run need none. -/
def State.engineTurn (s : State) (cl req : Nat) (ps : List (Nat × Nat)) (granted : List Nat) : Option (State × List Nat) :=
  let k := s.cluster cl
  let ts := (tilesIn ps).filter fun t => !granted.contains t
  let free (t : Nat) : Bool := !((k.tileOrder t).takeWhile (· != req)).any (k.mayServe t)
  if ts.all free then
    some (s.setCl cl { k with tilePtr := ts.foldl (fun p t => p.set t ((req + 1) % 7)) k.tilePtr }, granted ++ ts)
  else none

/-! ### Combining (R100 to R104) -/

/-- The operations that combine (R100). -/
def combines (op : Nat) : Bool := op ≤ 9

/-- R102: a ⊕ b, with its flags. -/
def sheafOperand (op w a b : Nat) : Nat × Nat := amoNew op w a b

/-- The sheaf of two requests that may combine (R100, R102): its request, and the flags of a ⊕ b for b's task (R104). -/
def sheafOf (a b : MemReq) (n : Nat) : Option (MemReq × Nat) :=
  match a.kind, b.kind with
  | .amo op w64 x pa, .amo op' w64' y pb =>
    if a.pa == b.pa && a.key == b.key && op == op' && w64 == w64' && a.scope == b.scope && combines op then
      let w := if w64 then 64 else 32
      let (v, f) := sheafOperand op w (x.toNat % 2 ^ w) (y.toNat % 2 ^ w)
      some ({ a with id := n, kind := .amo op w64 (Machine.w64 v) (pa && pb), rel := none, view := union a.view b.view,
                     ret := .sheaf n, leaf := none }, f)
    else none
  | _, _ => none

/-- Two requests have combined: b's flags, the counter of its cluster (R408), and the wait-buffer entry (R101), of a Yilsin port
where they meet in one. -/
def State.sheafMade (s : State) (a b : MemReq) (f : Nat) (pkt : Option Flit) (port : Option Nat) : State :=
  let s1 := s.raiseAgent b.agent f
  let s2 := match s1.clusterOf b.agent with | some c => s1.mapCl c (·.count 7 1) | none => s1
  { s2 with sheaves := s2.sheaves ++ [⟨s.counter, a, b, none, none, pkt, port⟩], counter := s.counter + 1 }

/-- Two packets are one request: module and tag of the requester. -/
def samePkt (f g : Flit) : Bool := f.smod == g.smod && f.tag == g.tag

/-- The request behind an AMO packet in an output queue of the port dies: this module's own, or one in transit, whose answer
goes on to its module, or to the sheaf that it has become here (R103, R397, R398). -/
def State.outReq (s : State) (f : Flit) : Option MemReq :=
  if f.kind != 2 then none
  else if (s.partNumbered f.smod).isSome then (s.links.yWait.find? (·.1 == f.tag)).map (·.2)
  else
    let ret := match s.sheaves.find? fun h => h.pkt.any (samePkt f) with | some h => .sheaf h.id | none => .remote f
    some { id := 0, agent := ⟨flitCluster f, f.cls, 0⟩, kind := .amo f.op f.w64 (w64 f.opnd) (f.cls == 1), key := 0,
           pa := f.dmod * 2 ^ 45 + f.addr, asid := 0, scope := scopeOfCode f.scope, rel := none, view := [], floor := [],
           wpol := 0, rcls := 0, region := 0xFFFF, ret := ret, leaf := none }

/-- Packets i and j of the output queues of the port dies combine, the later into the earlier in the queue of the same port,
while its wait buffer of 32 entries has room (R101, R398); an earlier packet of the second's agents to the line keeps its place
(R97). -/
def State.combineOut (s : State) (i j : Nat) : State :=
  match s.links.yQ[i]?, s.links.yQ[j]? with
  | some f, some g =>
    match s.outReq f, s.outReq g with
    | some a, some b =>
      let port := s.outPort f.dmod f.path
      let between := (s.links.yQ.take j).drop (i + 1)
      let blocked := between.any fun h => h.dmod == g.dmod && h.addr / 64 == g.addr / 64 && h.smod == g.smod && h.scl == g.scl && h.cls == g.cls
      match sheafOf a b s.counter with
      | some (r, fl) =>
        if j ≤ i || f.path != g.path || blocked || port.isNone || 32 ≤ s.sheaves.countP (·.port == port) then s
        else
          let operand := match r.kind with | .amo _ _ y _ => y.toNat | _ => 0
          let own := (s.partNumbered f.smod).isSome
          let carried (h : Sheaf) : Bool := h.pkt.any fun x => samePkt x f || samePkt x g
          let s0 : State := { s with sheaves := s.sheaves.map fun h => if carried h then { h with pkt := none } else h }
          let s1 := s0.sheafMade a b fl (if own then none else some f) port
          let gone := if (s.partNumbered g.smod).isSome then s1.links.yWait.filter (·.1 != g.tag) else s1.links.yWait
          { s1 with links := { s1.links with
              yQ := dropNth (modNth s1.links.yQ i fun x => { x with opnd := operand }) j,
              yWait := if own then Table.set gone f.tag r else gone } }
      | none => s
    | _, _ => s
  | _, _ => s

/-- COMBINE_REQUEST: `second` meets `first`, which entered the output queue before it, and combines with it when address,
operation, width and scope are equal (R100 to R103); a request to the line that an agent of `second` has sent before it
keeps its place (R85, R97). Numbers from 2^32 name packets in the output queues of the port dies by their place. -/
def execCombineRequest (first second : Nat) (s : State) : Result :=
  .next <|
    if 2 ^ 32 ≤ first && 2 ^ 32 ≤ second then s.combineOut (first - 2 ^ 32) (second - 2 ^ 32)
    else
      match s.reqs.find? (·.id == first), s.reqs.find? (·.id == second) with
      | some a, some b =>
        let order := s.reqs.takeWhile (·.id != second)
        match sheafOf a b s.counter with
        | some (r, f) =>
          if !order.any (·.id == first) || s.behind (order.filter (·.id != first)) b then s
          else
            let s1 := s.sheafMade a b f none none
            { s1 with reqs := (s1.reqs.map fun p => if p.id == first then r else p).filter fun p => p.id != second }
        | none => s
      | _, _ => s

/-- SHEAF_RETURN: the old value v returns to the switch; a receives v and b receives v ⊕ a (R102, R104). -/
def execSheafReturn (id : Nat) (s : State) : Result :=
  .next <| match s.sheaves.find? (·.id == id) with
  | none => s
  | some h =>
    match h.old, h.first.kind with
    | some v, .amo op w64 x _ =>
      let n := if w64 then 8 else 4
      let (v2, f) := sheafOperand op (8 * n) (v.toNat % 2 ^ (8 * n)) (x.toNat % 2 ^ (8 * n))
      let s1 := { s with sheaves := s.sheaves.filter fun g => g.id != id }
      let s2 := s1.answer h.first ⟨toBytes n v, [], [], h.wrote⟩
      (s2.raiseAgent h.second.agent f).answer h.second ⟨leBytes n v2, [], [], h.wrote⟩
    | _, _ => s

end Sys2Proof.Machine
end

