-- ==== Sys2Proof/Machine/Sync.lean ====
section
/-! DEFINITION. Fences, event flags, ring waits and advances, steps, FORK, JOIN, EXIT, RDV and collectives (R32 to
R43, R177 to R188). -/

namespace Sys2Proof.Machine

/-- An instruction legal only on the control sequencer takes SEQSTATE elsewhere (R180, R184 to R186). -/
def State.onControl (s : State) (act : State → State) : State :=
  if s.cur.2 == .control then act s else s.trap cSEQSTATE 0 0

/-! ### Fences and events -/

/-- FENCE.P; with K1 or K2 zero it completes at once and orders nothing (R94, R177). -/
def execFenceP (g : Guard) (k1 k2 : Mask) (sc : Scope) (s : State) : Result :=
  guarded g 4 s fun s => if k1 == 0 || k2 == 0 then s.skip 4 else s.releasing 4 k1 sc (.fence k2)

/-- SETE (R179). -/
def execSete (g : Guard) (e : Fin 64) (mask : Mask) (s : State) : Result :=
  guarded g 4 s fun s => s.releasing 4 mask .cl (.setEvent e.val)

/-- The flag was set in this clk by another than sequencer q. -/
def Cluster.setNow (k : Cluster) (q : SeqId) (e : Nat) : Bool :=
  k.events.getLsbD e && match k.evAt.find? (·.1 == e) with | some (_, c, w) => c == k.clk && w != seqNo q | none => false

/-- CLRE applies before a set of the same clk (R179): the flag goes from clear to set, with the release of that set alone (R168). -/
def Cluster.clearFirst (k : Cluster) (e : Nat) : Cluster :=
  ({ k with evRel := k.evRel.set e ((k.evRel.get e []).getLast?).toList } : Cluster).wakeAll

/-- CLRE (R179). -/
def execClre (g : Guard) (e : Fin 64) (s : State) : Result :=
  guarded g 4 s fun s =>
    let clear (k : Cluster) : Cluster := { k with events := k.events &&& ~~~(w64 (2 ^ e.val)), evRel := k.evRel.drop e.val }
    (s.mapHere fun k => if k.setNow s.cur.2 e.val then k.clearFirst e.val else clear k).skip 4

/-- The acquire of a satisfied wait, which completes and observes the completion of the accesses it finds (R91, R95). -/
def State.acquired (s : State) (len : Nat) (m : Mask) (rs : List RelInfo) : State :=
  (s.mapMe (·.acquire m (s.learned rs s.cur.1 .cl) (doneOf rs s.cur.1) s.counter)).complete len

/-- WAITE: does not clear the flag (R179). -/
def execWaite (g : Guard) (e : Fin 64) (mask : Mask) (s : State) : Result :=
  guarded g 4 s fun s =>
    match s.me.waitAt with
    | some (.event _ (some rs)) => s.acquired 4 mask rs
    | _ =>
      if s.here.events.getLsbD e.val then s.acquired 4 mask (s.here.evRel.get e.val [])
      else s.mapMe (·.setWait (.event e.val none))

/-! ### Rings (R182, R183) -/

/-- A ring wait for full or free slots. -/
def State.ringWait (s : State) (h : Fin 16) (full : Bool) (count : Word) (m : Mask) : State :=
  let r := s.here.ring h.val
  match s.me.waitAt with
  | some (.ring _ _ _ (some rs)) => s.acquired 8 m rs
  | _ =>
    if !r.defined then s.trap cRING 4 count
    else if r.nslot < count.toNat then s.trap cRING 3 count
    else if count.toNat ≤ (if full then r.full else r.free) then s.acquired 8 m (if full then r.relP else r.relC)
    else s.mapMe (·.setWait (.ring h.val full count.toNat none))

/-- RWAIT.F (R182). -/
def execRwaitF (g : Guard) (a : Reg) (h : Fin 16) (mask : Mask) (imm : BitVec 16) (s : State) : Result :=
  guarded g 8 s fun s => s.ringWait h true (ringCount s.me a imm) mask

/-- RWAIT.E (R182). -/
def execRwaitE (g : Guard) (a : Reg) (h : Fin 16) (mask : Mask) (imm : BitVec 16) (s : State) : Result :=
  guarded g 8 s fun s => s.ringWait h false (ringCount s.me a imm) mask

/-- RADV.P (R182). With a count of 0 it waits for its release as with any other (log entry 123). -/
def execRadvP (g : Guard) (a : Reg) (h : Fin 16) (mask : Mask) (imm : BitVec 16) (s : State) : Result :=
  guarded g 8 s fun s =>
    let n := ringCount s.me a imm
    if !(s.here.ring h.val).defined then s.trap cRING 4 n
    else s.releasing 8 mask .cl (.advanceP h.val n)

/-- RADV.C (R182). With a count of 0 it waits for its release as with any other (log entry 123). -/
def execRadvC (g : Guard) (a : Reg) (h : Fin 16) (mask : Mask) (imm : BitVec 16) (s : State) : Result :=
  guarded g 8 s fun s =>
    let n := ringCount s.me a imm
    if !(s.here.ring h.val).defined then s.trap cRING 4 n
    else s.releasing 8 mask .cl (.advanceC h.val n)

/-- The status word of a ring (R183). -/
def Ring.status (r : Ring) : Word :=
  if !r.defined then 0
  else w64 ((r.p - r.c) % 2 ^ 13 + (r.nslot - (r.p - r.c)) % 2 ^ 13 * 2 ^ 16 + r.p % r.nslot % 2 ^ 12 * 2 ^ 32
    + r.c % r.nslot % 2 ^ 12 * 2 ^ 48 + 2 ^ 63)

/-- RSTAT (R182, R183). -/
def execRstat (g : Guard) (d : Reg) (h : Fin 16) (s : State) : Result :=
  guarded g 8 s fun s => s.mapMe fun x => (x.setReg d (s.here.ring h.val).status).skip 8

/-! ### Steps (R41 to R43, R184) -/

/-- The gang of a cluster's task. -/
def State.gangOf (s : State) (c : Nat) : Option Gang := s.gang (s.cluster c).task.job (s.cluster c).task.gi

/-- STEP.BEGIN: the first of rank 0 in a step sets its deadline (R42, R184). -/
def execStepBegin (g : Guard) (a : Reg) (s : State) : Result :=
  guarded g 4 s fun s => s.onControl fun s =>
    let t := s.here.task
    let v := bits (s.me.reg a) 31 0
    let set (x : Gang) : Gang :=
      if t.rank != 0 || x.deadlineSet then x
      else { x with deadlineSet := true, deadline := if v == 0 then none else some (x.stepStart + v) }
    (s.mapGang t.job t.gi set).skip 4

/-- STEP.PROG (R43, R184). -/
def execStepProg (g : Guard) (a : Reg) (s : State) : Result :=
  guarded g 4 s fun s => s.onControl fun s =>
    (s.mapTask s.cur.1 fun t => { t with prog := bits (s.me.reg a) 15 0 }).skip 4

/-- The step a cluster's gang is in. -/
def State.stepOf (s : State) (c : Nat) : Nat := ((s.gangOf c).map (·.step)).getD 0

/-- The instances of a gang once a rank has its results (R187). -/
def Gang.tookColl (g : Gang) (id rank : Nat) : Gang :=
  let left (i : Coll) : Coll := if i.id == id then { i with contribs := i.contribs.filter fun e => e.1 != rank } else i
  { g with colls := (g.colls.map left).filter fun i => !(i.id == id && i.contribs.isEmpty) }

/-- R188: a STEP.END whose step has ended and a collective whose instance has completed have their results written, and
issue continues after them. -/
def State.landed (s : State) (c : Nat) (q : SeqId) : State :=
  let t := (s.cluster c).task
  match (s.seq c q).waitAt with
  | some (.stepEnd k) => if k == s.stepOf c then s else s.mapSeq c q fun x => x.endWait.skip 4
  | some (.coll id dh) =>
    match (s.gangOf c).bind fun g => (g.colls.find? (·.id == id)).bind (·.result) with
    | some (r, st) =>
      (s.mapGang t.job t.gi (·.tookColl id t.rank)).mapSeq c q fun x =>
        ((x.setReg (evenReg dh) r).setReg (oddReg dh) st).endWait.skip 8
    | none => s
  | _ => s

/-- STEP.END: arrives once and waits for the end of the step (R41, R184, R188). -/
def execStepEnd (g : Guard) (s : State) : Result :=
  guarded g 4 s fun s => s.onControl fun s =>
    match s.me.waitAt with
    | some (.stepEnd _) => s.landed s.cur.1 s.cur.2
    | _ => (s.mapTask s.cur.1 fun t => { t with arrived := true }).mapMe (·.setWait (.stepEnd (s.stepOf s.cur.1)))

/-! ### Sequencers meeting (R32 to R37, R180) -/

/-- The sequencers a mask names (R119). -/
def seqsOf (m : BitVec 4) : List SeqId :=
  (if m.getLsbD 0 then [.control] else []) ++ (if m.getLsbD 1 then [.copy] else [])
    ++ if m.getLsbD 2 then [.matrix] else []

/-- R32: the state of a sequencer that FORK starts: s1 to s7 of the control sequencer, everything else cleared. One halted by debug
stays so (R401). -/
def Sequencer.forked (y x : Sequencer) (entry : Word) (known : List Nat) : Sequencer :=
  let regs := (List.range 8).foldl (fun (v : Vector Word 32) i =>
    if h : 0 < i ∧ i < 32 then v.set i (x.regs[i]'h.2) h.2 else v) (Vector.replicate 32 (0 : Word))
  ({ Sequencer.reset with regs := regs, pc := entry, idle := false, svscr := y.svscr, serial := y.serial, own := y.own,
                          halted := y.halted, haltAtBkpt := y.haltAtBkpt, seen := y.seen, past := y.past, obs := y.obs,
                          acqAt := y.acqAt, floor := y.floor } : Sequencer).learn maskC known

/-- FORK: on the control sequencer, naming idle copy and matrix sequencers (R32, R180). Its release performs first. -/
def execFork (g : Guard) (a : Reg) (mask : BitVec 4) (s : State) : Result :=
  guarded g 4 s fun s =>
    let k := s.here
    let e := s.me.reg a
    if s.cur.2 != .control || mask.getLsbD 0 || mask.getLsbD 3 || (seqsOf mask).any (fun q => !(k.seq q).idle) then
      s.trap cSEQSTATE 0 0
    else if misaligned4 e then s.trap cALIGN 0 e
    else if s.me.outstanding.any (fun o => !o.isDone && o.kind != .alu) then s
    else
      let known := k.covered .control maskC
      let start (k : Cluster) (q : SeqId) : Cluster := k.setSeq q ((k.seq q).forked k.seqC e known)
      (s.mapHere fun k => (seqsOf mask).foldl start k).skip 4

/-- JOIN (R33, R180). -/
def execJoin (g : Guard) (mask : BitVec 4) (s : State) : Result :=
  guarded g 4 s fun s =>
    let k := s.here
    if s.cur.2 != .control || mask.getLsbD 0 || mask.getLsbD 3 then s.trap cSEQSTATE 0 0
    else if (seqsOf mask).all fun q => (k.seq q).idle then
      let m := (seqsOf mask).foldl (fun m q => m ||| engineMask q) maskC
      let ids := (seqsOf mask).foldl (fun l q => union l (k.covered q (maskC ||| engineMask q))) []
      (s.mapMe (·.acquire m ids (k.engDone (seqsOf mask)) s.counter)).complete 4
    else s

/-- The rendezvous a sequencer waits at. -/
def Sequencer.rdvAt (x : Sequencer) : Option (BitVec 4 × BitVec 8 × Release) :=
  match x.waitAt with
  | some (.rdv m i r) => some (m, i, r)
  | _ => none

/-- R34: every sequencer waiting at a rendezvous that p picks takes RDVFAULT at its RDV. -/
def Cluster.failRdv (k : Cluster) (p : SeqId → BitVec 4 → Bool) : Cluster :=
  let f (k : Cluster) (q : SeqId) : Cluster :=
    match (k.seq q).rdvAt with
    | some (m, _, _) => if p q m then k.setSeq q ((k.seq q).setWait (.failed cRDVFAULT 0 0)) else k
    | none => k
  [SeqId.control, .copy, .matrix].foldl f k

/-- The bit of a sequencer mask (R119). -/
def seqBit (q : SeqId) : Nat := seqNo q

/-- R34: all participants wait at the same rendezvous and their releases have performed: they continue together. -/
def State.meet (s : State) (mask : BitVec 4) (id : BitVec 8) : State :=
  let k := s.here
  let qs := seqsOf mask
  let m := qs.foldl (fun m q => m ||| engineMask q) maskC
  let ready (q : SeqId) : Bool :=
    match (k.seq q).rdvAt with
    | some (m', i', r) => m' == mask && i' == id && s.releaseReady s.cur.1 q r
    | none => false
  if qs.all ready then
    let ids := qs.foldl (fun l q => union l (k.covered q (maskC ||| engineMask q))) []
    let done := k.engDone qs
    let go (k : Cluster) (q : SeqId) : Cluster := k.setSeq q (((k.seq q).acquire m ids done s.counter).setWait .released)
    (s.mapHere fun k => qs.foldl go k).complete 4
  else s

/-- RDV (R34, R180, R188). A mask that names a sequencer which has executed EXIT before and is not idle yet fails it as one that
names an idle sequencer does (log entry 123). -/
def execRdv (g : Guard) (mask : BitVec 4) (id : BitVec 8) (s : State) : Result :=
  guarded g 4 s fun s =>
    let q := s.cur.2
    let k := s.here
    if mask.getLsbD 3 || !mask.getLsbD (seqBit q) then s.trap cSEQSTATE 0 0
    else if seqsOf mask == [q] then s.complete 4
    else
      match s.me.waitAt with
      | some .released => s.complete 4
      | some (.failed c d a) => s.failWait c d a
      | some (.rdv _ _ _) => s.meet mask id
      | _ =>
        let others := [SeqId.control, .copy, .matrix].filter (· != q)
        let mismatch (p : SeqId) : Bool :=
          match (k.seq p).rdvAt with
          | some (m', i', _) => m'.getLsbD (seqBit q) && !(m' == mask && i' == id)
          | none => false
        let gone (p : SeqId) : Bool := mask.getLsbD (seqBit p) && ((k.seq p).idle || (k.seq p).exited)
        if others.any mismatch || others.any gone then
          (s.mapHere fun k => k.failRdv fun p m' => p != q && (m'.getLsbD (seqBit q) || mask.getLsbD (seqBit p))).failWait
            cRDVFAULT 0 0
        else
          let (s1, r) := s.beginRelease s.cur.1 q (maskC ||| engineMask q) .cl
          (s1.mapMe (·.setWait (.rdv mask id r))).meet mask id

/-- Every RUNNING pinned region enters DRAINING, and none runs on after a halt (R35, R220). -/
def Cluster.drainPinned (k : Cluster) : Cluster :=
  { k with slots := k.slots.map fun e =>
      if bit k.task.smask e.1 then e
      else (e.1, { e.2 with wasRunning := false, st := if e.2.st == SlotState.running then SlotState.draining else e.2.st }) }

/-- EXIT: it waits for the sequencer's own long operations; a control sequencer then stands at it until the task
retires (R33 to R35, R188). -/
def execExit (g : Guard) (s : State) : Result :=
  guarded g 4 s fun s =>
    let q := s.cur.2
    if !s.me.outstanding.isEmpty then s
    else
      let s1 := s.mapHere fun k => k.failRdv fun p m' => p != q && m'.getLsbD (seqBit q)
      let s2 := s1.mapMe fun x => { x with exited := true }
      if q == .control then
        s2.mapHere fun k =>
          ({ k with task := { k.task with left := true, st := if k.task.st == .running then .exiting else k.task.st } } : Cluster).drainPinned
      else s2.mapHere (·.settleIdle)

/-- R36: commands an engine has not begun are discarded, with the armed ones and the pending fires. -/
def Cluster.discardCopy (k : Cluster) : Cluster := { k with copy := { k.copy with queue := [] } }

def Cluster.discardMatrix (k : Cluster) : Cluster :=
  { k with mat := { k.mat with queue := [], arms := [], pending := Vector.replicate 4 0, fired := [], armWait := none } }

/-- R36: bins stop dispatching and the groups in flight drain. -/
def Cluster.abandonFabric (k : Cluster) : Cluster :=
  { k with slots := k.slots.map fun e =>
      (e.1, { e.2 with dispatching := false, wasRunning := false,
                       st := if e.2.st == SlotState.running then SlotState.draining else e.2.st }) }

/-- EXIT.A (R36, R37). -/
def execExitA (g : Guard) (s : State) : Result :=
  guarded g 4 s fun s =>
    let q := s.cur.2
    if !s.me.outstanding.isEmpty then s
    else
      let s1 := s.mapHere fun k => k.failRdv fun p m' => p != q && m'.getLsbD (seqBit q)
      let s2 := s1.mapMe fun x => { x with exited := true }
      match q with
      | .control =>
        s2.mapHere fun k =>
          let k1 := (k.discardCopy.discardMatrix.abandonFabric).discardBins
          let st := if k1.task.st == .running then TaskState.abandoning else k1.task.st
          ({ k1 with task := { k1.task with st := st, abandoned := true, left := true },
                     seqY := { k1.seqY with exited := true },
                     seqM := { k1.seqM with exited := true } } : Cluster).settleIdle
      | .copy => s2.mapHere fun k => k.discardCopy.settleIdle
      | .matrix => s2.mapHere fun k => k.discardMatrix.settleIdle

/-! ### Collectives (R186, R187) -/

/-- The results of a collective, and on to the next instruction. -/
def State.collDone (s : State) (dh : Fin 16) (v st : Word) : State :=
  s.mapMe fun x => ((x.setReg (evenReg dh) v).setReg (oddReg dh) st).endWait.skip 8

/-- COLL.RED and COLL.BCAST (R186 to R188). -/
def State.collIn (s : State) (dh : Fin 16) (a b : Reg) (bcast : Bool) (op : Nat) (w64 : Bool) (base size tag : Nat) :
    State :=
  let t := s.here.task
  let count := (s.me.reg b).toNat
  let v := if w64 then s.me.reg a else Machine.w64 ((s.me.reg a).toNat % 2 ^ 32)
  let w := if w64 then 64 else 32
  match s.gangOf s.cur.1 with
  | none => s
  | some g =>
    match s.me.waitAt with
    | some (.coll _ _) => s.landed s.cur.1 s.cur.2
    | _ =>
      let s0 := s.mapTask s.cur.1 fun t => { t with noReplay := true }
      if t.rank < base || base + size ≤ t.rank then s0.collDone dh 0 (Machine.w64 (2 ^ 20))
      else if count == 0 then s0.collDone dh (collIdentity bcast op w64) (Machine.w64 (2 ^ 16))
      else if count == 1 then
        s0.collDone dh (collExt bcast op w64 (v.toNat % 2 ^ w)) 1
      else if (g.liveMembers base size).length < count || (bcast && !g.live base) then
        s0.collDone dh 0 (Machine.w64 (2 ^ 18))
      else
        match g.colls.find? fun i => i.result.isNone && i.base == base && i.size == size && i.tag == tag with
        | some i =>
          if i.op != op || i.w64 != w64 || i.count != count || i.bcast != bcast then
            s0.fresh.collDone dh (Config.freeWord s.counter) (Machine.w64 (2 ^ 19))
          else
            let s1 := s0.mapGang t.job t.gi fun g => { g with colls := g.colls.map fun j =>
              if j.id == i.id then { j with contribs := j.contribs ++ [(t.rank, v)] } else j }
            let s2 := s1.mapMe (·.setWait (.coll i.id dh))
            if i.contribs.length + 1 == count then s2.finishColl t.job t.gi i.id false else s2
        | none =>
          let i : Coll := ⟨s.counter, base, size, tag, bcast, op, w64, count, [(t.rank, v)], none⟩
          (s0.fresh.mapGang t.job t.gi fun g => { g with colls := g.colls ++ [i] }).mapMe (·.setWait (.coll s.counter dh))

/-- COLL.RED (R186, R187). -/
def execCollRed (g : Guard) (dh : Fin 16) (a b : Reg) (op : Fin 9) (w64 : Bool) (base size : Fin 512)
    (tag : BitVec 8) (s : State) : Result :=
  guarded g 8 s fun s => s.onControl fun s => s.collIn dh a b false op.val w64 base.val (size.val + 1) tag.toNat

/-- COLL.BCAST (R186, R187). -/
def execCollBcast (g : Guard) (dh : Fin 16) (a b : Reg) (w64 : Bool) (base size : Fin 512) (tag : BitVec 8)
    (s : State) : Result :=
  guarded g 8 s fun s => s.onControl fun s => s.collIn dh a b true 0 w64 base.val (size.val + 1) tag.toNat

end Sys2Proof.Machine
end

