-- ==== Sys2Proof/Machine/System.lean ====
section
/-! DEFINITION. TRAP, SYSC, RETR, IDLE, BKPT and the special registers (R146, R147, R165 to R168, R305 to R312, R355,
R361). -/

namespace Sys2Proof.Machine

/-! ### Traps by instruction -/

/-- The task of every rank of a gang fails (R355, R364). -/
def State.terminateGang (s : State) (job gi code cause detail : Nat) : State :=
  match s.gang job gi with
  | none => s
  | some g => (s.seats job g).foldl (fun t c => t.terminate c code cause detail) s

/-- R355: TRAP #0 at PL 1: the task fails with the cause of the trap being handled. -/
def State.trapEnd (s : State) : State :=
  let w := s.me.frame.cause
  s.terminate s.cur.1 0xC (bits w 7 0) (bits w 15 8)

/-- TRAP #code, code 3 to 65,535: TRAPI at PL 0, a nested trap at PL 1 (R165, R355). -/
def execTrap (g : Guard) (code : BitVec 16) (s : State) : Result :=
  guarded g 4 s fun s =>
    if s.me.pl then s.terminate s.cur.1 0xC cILL 0xFF else s.trapDone cTRAPI (code.zeroExtend 64)

/-- TRAP #0 (R165, R355). -/
def execTrapTerminate (g : Guard) (s : State) : Result :=
  guarded g 4 s fun s => if s.me.pl then s.trapEnd else s.trapDone cTRAPI 0

/-- TRAP #1 (R165, R355). -/
def execTrapTerminateGang (g : Guard) (s : State) : Result :=
  guarded g 4 s fun s =>
    if s.me.pl then
      let w := s.me.frame.cause
      let t := s.here.task
      (s.terminateGang t.job t.gi 0xC (bits w 7 0) (bits w 15 8)).trapEnd
    else s.trapDone cTRAPI 1

/-- TRAP #2: at PL 1 it requests pre-emption of the gang at the handler's RETR (R165, R355, R361). -/
def execTrapPreempt (g : Guard) (s : State) : Result :=
  guarded g 4 s fun s =>
    if s.me.pl then (s.mapTask s.cur.1 fun t => { t with preReq := s.cur.2 :: t.preReq }).skip 4 else s.trapDone cTRAPI 2

/-- SYSC: to the supervisor; at PL 1 a trap terminates the task (R165, R307, R355). -/
def execSysc (g : Guard) (code : BitVec 16) (s : State) : Result :=
  guarded g 4 s fun s => s.trapDone cSYSC (code.zeroExtend 64)

/-- R362: a RUNNING region drains, and its ports keep their positions when it is pinned; so do those of a pinned region
that drains already. -/
def Slot.preempt (x : Slot) (sched : Bool) : Slot :=
  match x.st with
  | .running => { x with st := .draining, dispatching := false, keep := !sched, wasRunning := !sched }
  | .draining => if sched then x else { x with keep := true, wasRunning := x.haltPending && x.wasRunning }
  | _ => x

/-- The request reaches a task that has not failed: its engines begin nothing new (R361, R362). A TRAP #2 that has been
executed still pre-empts at its handler's RETR (R355). -/
def Cluster.preempt (k : Cluster) (now : Nat) : Cluster :=
  let x := k.task
  if x.resident && x.st != .failing then
    { k with task := { x with st := .preempting, acks := [], tReq := now },
             slots := k.slots.map (fun e => (e.1, e.2.preempt (bit x.smask e.1))),
             copy := { k.copy with stopped := true }, mat := { k.mat with stopped := true } }
  else k

/-- R361: the pre-emption request reaches every task of a gang at once. -/
def State.preemptGang (s : State) (job gi : Nat) : State :=
  match s.gang job gi with
  | none => s
  | some g =>
    if g.st != .resident then s
    else
      let req (t : State) (c : Nat) : State := t.mapCl c (·.preempt s.now)
      ((s.seats job g).foldl req s).mapGang job gi fun g => { g with st := .preempting, preAt := s.now }

/-- RETR: outside a handler SEQSTATE; it waits for the handler's own long operations; after TRAP #2 the gang's
pre-emption is requested (R167, R305, R354, R361). A STEP.END or
collective that is over by then has its results (R188). -/
def execRetr (g : Guard) (s : State) : Result :=
  guarded g 4 s fun s =>
    let x := s.me
    if !x.inProg && !x.inSup then s.trap cSEQSTATE 0 0
    else if !x.outstanding.isEmpty then s
    else
      let s1 := ((s.mapHere (·.dropReports)).mapMe (·.leave)).landed s.cur.1 s.cur.2
      let t := s.here.task
      if x.pl && t.preReq.contains s.cur.2 then
        (s1.mapTask s.cur.1 fun t => { t with preReq := t.preReq.filter (· != s.cur.2) }).preemptGang t.job t.gi
      else s1

/-- IDLE: issue stops until an event, a ring, a trap or the step's end wakes it, and resumes at pc + 4 (R168). -/
def execIdle (g : Guard) (s : State) : Result :=
  guarded g 4 s fun s => s.mapMe fun x => { x.skip 4 with sleeping := true }

/-- A debugger has armed halting at BKPT for a context (R166, R400). -/
def State.bkptArmed (s : State) (ctx : Nat) : Bool :=
  s.dbg.darm.toList.any fun e => bit e.toNat 15 && bit e.toNat 14 && nbits e.toNat 0 14 == ctx

/-- R405: the record of a sequencer's halt. -/
def State.traceSeqHalt (s : State) (c : Nat) (q : SeqId) : State :=
  s.trace 6 (s.cluster c).task.ctx 0xFFFF 0 0
    (leBytes 1 (seqNo q) ++ List.replicate 7 0 ++ toBytes 8 (s.seq c q).pc)

/-- BKPT: the trap, or a halt at its pc under an armed debugger, with the replay queue frozen once what has been sent has returned
(R166, R351, R401). -/
def execBkpt (g : Guard) (s : State) : Result :=
  guarded g 4 s fun s =>
    if s.bkptArmed s.here.task.ctx then
      if s.me.outstanding.any (·.isSent) then s
      else (s.mapMe fun x => { x.settle with halted := true, haltAtBkpt := true }).traceSeqHalt s.cur.1 s.cur.2
    else s.trap cBKPT 0 0

/-! ### Special registers -/

/-- CLUSTERID (R147). -/
def State.clusterId (s : State) (c : Nat) : Word := w64 (c % 512 + (s.part c).module_ % 2 ^ 13 * 512)

/-- PSTATE (R308). -/
def Sequencer.pstate (x : Sequencer) : Word := w64 (x.pl.toNat + 2 * x.ppl.toNat + 4 * x.amask.toNat)

/-- PARTINFO (R308). -/
def Partition.info (p : Partition) : Word := w64 (p.first % 8 + p.logsz % 4 * 8 + p.module_ % 2 ^ 13 * 32)

/-- WSCTL as it reads (R317). -/
def Partition.wsctl (p : Partition) : Word :=
  w64 (p.wsMode.toNat + p.wsNw % 16 * 2 + (if p.wsMode then p.wsCur % 16 * 32 else 0) + p.wsBad.toNat * 1024
    + p.wsQuant % 65536 * 65536)

/-- The value MFS reads (R122, R147, R308). -/
def State.sreg (s : State) (c : Nat) (q : SeqId) (r : Nat) : Word :=
  let k := s.cluster c
  let x := k.seq q
  let p := s.part c
  match r with
  | 0 => w64 (seqNo q)
  | 1 => k.task.flags
  | 2 => w64 k.task.rank
  | 3 => w64 k.task.n
  | 4 => s.clusterId c
  | 8 => x.frame.pc
  | 9 => x.frame.cause
  | 0xA => x.frame.arg
  | 0xB => w64 x.frame.replay.length
  | 0x10 => k.mat.mrowp
  | 0x400 => x.pstate
  | 0x401 => p.svec
  | 0x402 => x.svscr[0]
  | 0x403 => x.svscr[1]
  | 0x404 => x.svscr[2]
  | 0x405 => x.svscr[3]
  | 0x408 => w64 (k.task.ctx % 2 ^ 14 + k.task.world % 16 * 2 ^ 14)
  | 0x409 => w64 p.svasid
  | 0x40A => p.info
  | 0x418 => p.ctxtbl
  | 0x419 => p.wsctl
  | 0x41A => p.wtbl
  | 0x41B => w64 p.dropcnt
  | n => if h : 0x410 ≤ n ∧ n ≤ 0x417 then p.rct[n - 0x410] else 0

/-- A supervisor register needs PL 1 (R146, R306). -/
def State.privReg (s : State) (r : Nat) (act : State → State) : State :=
  if 0x400 ≤ r && !s.me.pl then s.trap cPRIV 0 (w64 r) else act s

/-- MFS (R146). -/
def execMfs (g : Guard) (d : Reg) (r : BitVec 12) (s : State) : Result :=
  guarded g 4 s fun s => s.privReg r.toNat fun s => s.put d (s.sreg s.cur.1 s.cur.2 r.toNat)

/-- RZ fields of the registers MTS writes under its own row: non-zero bits are refused (R147, R308, R310, R320). -/
def sregRz (r : Nat) : Nat :=
  match r with
  | 8 => 2 ^ 64 - 2 ^ 55 + 3
  | 0x400 => 2 ^ 64 - 2 ^ 3
  | 0x401 => 2 ^ 64 - 2 ^ 55 + 3
  | 0x408 => 2 ^ 64 - 2 ^ 18
  | 0x409 => 2 ^ 64 - 2 ^ 14
  | 0x40A => 2 ^ 64 - 2 ^ 18
  | 0x418 => 2 ^ 64 - 2 ^ 58 + 2 ^ 16 - 1
  | 0x41A => 2 ^ 64 - 2 ^ 58 + 2 ^ 8 - 1
  | 0x41B => 2 ^ 64 - 2 ^ 32
  | 0x41C => 2 ^ 64 - 2 ^ 14
  | n => if 0x410 ≤ n ∧ n ≤ 0x417 then 2 ^ 64 - 2 ^ 22 else 0

/-- A value MTS accepts: no RZ bit set, and no illegal field (R308, R320: WAYS 0 with L2 set). -/
def sregLegal (r : Nat) (v : Word) : Bool :=
  v.toNat &&& sregRz r == 0 && !(0x410 ≤ r && r ≤ 0x417 && nbits v.toNat 2 16 == 0 && bit v.toNat 20)

/-- MTS TRAPPC: a handler that resumes elsewhere leaves the wait of the instruction it interrupted. -/
def Sequencer.setTrapPc (x : Sequencer) (v : Word) : Sequencer :=
  { x with frame := { x.frame with pc := v },
           waits := if v == x.frame.pc then x.waits else x.waits.filter fun w => w.pc != x.frame.pc }

/-- The register written (R147, R308, R319: during a world switch RCT writes wait for the incoming world). -/
def State.setSreg (s : State) (r : Nat) (v : Word) : State :=
  let c := s.cur.1
  match r with
  | 8 => s.mapMe (·.setTrapPc v)
  | 0x400 => s.mapMe fun x => { x with ppl := v.getLsbD 1, amask := v.getLsbD 2 }
  | 0x401 => s.mapPart c fun p => { p with svec := v }
  | 0x402 => s.mapMe fun x => { x with svscr := x.svscr.set 0 v }
  | 0x403 => s.mapMe fun x => { x with svscr := x.svscr.set 1 v }
  | 0x404 => s.mapMe fun x => { x with svscr := x.svscr.set 2 v }
  | 0x405 => s.mapMe fun x => { x with svscr := x.svscr.set 3 v }
  | 0x409 => s.mapPart c fun p => { p with svasid := v.toNat }
  | 0x418 => s.mapPart c fun p => { p with ctxtbl := v }
  | 0x41B => s.mapPart c fun p => { p with dropcnt := v.toNat }
  | n =>
    if h : 0x410 ≤ n ∧ n ≤ 0x417 then
      s.mapPart c fun p =>
        if p.switching.isSome then { p with pendingRct := p.pendingRct.set (n - 0x410) v }
        else { p with rct := p.rct.set (n - 0x410) v }
    else s

/-- MTS of the registers without a row of their own (R146, R147, R308). -/
def execMts (g : Guard) (a : Reg) (r : BitVec 12) (s : State) : Result :=
  guarded g 4 s fun s => s.privReg r.toNat fun s =>
    let v := s.me.reg a
    if !sregLegal r.toNat v then s.ill (encodeNat (.mts g a r)) else (s.setSreg r.toNat v).skip 4

/-- MTS FLAGS (R73, R75). -/
def execMtsFlags (g : Guard) (a : Reg) (s : State) : Result :=
  guarded g 4 s fun s =>
    let v := s.me.reg a
    if !flagsLegal v then s.ill (encodeNat (.mtsFlags g a))
    else (s.mapTask s.cur.1 fun t => { t with flags := v }).skip 4

/-- MTS REPLAYCNT: 0 discards every entry, another value leaves the count unchanged (R147, R167). -/
def execMtsReplaycnt (g : Guard) (a : Reg) (s : State) : Result :=
  guarded g 4 s fun s =>
    let v := s.me.reg a
    if 16 ≤ v.toNat then s.ill (encodeNat (.mtsReplaycnt g a))
    else if v == 0 then (s.mapMe fun x => { x with frame := { x.frame with replay := [] } }).skip 4
    else s.skip 4

/-- R311, R323: a context's descriptor is dropped from the cache; the first time it is found VALID without a live
job, its job counters begin at 0. -/
def State.rereadCtx (s : State) (p : Partition) (n : Nat) : State :=
  let s1 := s.mapCtx n fun x => { x with desc := none }
  let live := s1.jobs.any fun j => j.ctx == n && j.live
  if descValid (s1.descOf p n) && !(s1.ctx n).everValid && !live then
    s1.mapCtx n fun x => { x with everValid := true, seqHost := 0, seqSpawn := 0 }
  else s1

/-- MTS CTXINV (R308, R311). -/
def execMtsCtxinv (g : Guard) (a : Reg) (s : State) : Result :=
  guarded g 4 s fun s => s.privReg 0x41C fun s =>
    let v := s.me.reg a
    if !sregLegal 0x41C v then s.ill (encodeNat (.mtsCtxinv g a))
    else (s.rereadCtx (s.part s.cur.1) v.toNat).skip 4

end Sys2Proof.Machine
end

