-- ==== Sys2Proof/Machine/Frames.lean ====
section
/-! DEFINITION. Configuration frames: their fields, the checks that make a block image illegal, and the CRC of an
image (R127 to R132, R197 to R200, R222 to R230, R250 to R254, R421). -/

namespace Sys2Proof.Machine

/-! ### Header and positions -/

def fKind (f : Nat) : Nat := nbits f 248 8
def fAddr (f : Nat) : Nat := nbits f 232 16
def fSlot (f : Nat) : Nat := nbits f 230 2

/-- The tile at a position is a digit tile (R128). -/
def digitTile (pos : Nat) : Bool := (pos / 8 + pos % 8) % 2 == 0

/-- The position of memory tile t (R129). -/
def tilePos (t : Nat) : Nat := t / 4 * 8 + 2 * (t % 4) + 1 - t / 4 % 2

/-- The number of the memory tile at a position (R129). -/
def posTile (pos : Nat) : Nat := pos / 8 * 4 + pos % 8 / 2

/-- R128: an ADDR that its kind does not have. -/
def addrBad (kind a : Nat) : Bool :=
  let pos := a % 64
  match kind with
  | 1 => 256 ≤ a || !digitTile pos
  | 2 => 64 ≤ a || digitTile pos
  | 3 => 192 ≤ a
  | 4 => 128 ≤ a || digitTile pos
  | _ => a != 0

/-- IMG, VER, NFR and CRC of an image header (R130). -/
def hImg (f : Nat) : Nat := nbits f 218 12
def hVer (f : Nat) : Nat := nbits f 202 16
def hNfr (f : Nat) : Nat := nbits f 192 10
def hCrc (f : Nat) : Nat := nbits f 160 32

/-! ### CRC-32C (R131) -/

/-- One bit of the reflected polynomial. -/
def crcBit (c : BitVec 32) : BitVec 32 := if c.getLsbD 0 then (c >>> 1) ^^^ 0x82F63B78#32 else c >>> 1

def crcByte (c : BitVec 32) (b : Byte) : BitVec 32 :=
  crcBit (crcBit (crcBit (crcBit (crcBit (crcBit (crcBit (crcBit (c ^^^ b.zeroExtend 32))))))))

/-- The CRC register over more bytes; it begins at 0xFFFF_FFFF and its complement is the CRC. -/
def crcBytes (c : BitVec 32) (bs : List Byte) : BitVec 32 := bs.foldl crcByte c

/-- The header's 32 bytes with bytes 23:20 taken as zero. -/
def crcHeader (f : Nat) : List Byte := leBytes 32 (f - hCrc f * 2 ^ 160)

/-! ### Digit-element frames (R197 to R200) -/

def deOp (f : Nat) : Nat := nbits f 224 6
def deNda (f : Nat) : Nat := nbits f 220 4
def deNdb (f : Nat) : Nat := nbits f 216 4
def deNdx (f : Nat) : Nat := nbits f 212 4
def deEnB (f : Nat) : Bool := bit f 210
def deEnC (f : Nat) : Bool := bit f 209
def deEnX (f : Nat) : Bool := bit f 208
def deEnY (f : Nat) : Bool := bit f 207
def deEnCo (f : Nat) : Bool := bit f 206
def deParam (f : Nat) : Nat := nbits f 190 16

/-- The constant an operation selects: its exponent, and its fraction in units of 2^−22 (R200). -/
def deConst (f : Nat) : Int × Int :=
  let c := nbits f (32 * (deParam f % 4)) 32
  (sext 8 (c / 2 ^ 24), sext 24 (c % 2 ^ 24))

/-- The ports an operation uses: B, C, X, Y, and CO (0 never, 1 optional, 2 always); and its PARAM bits (R198). -/
def dePorts (op : Nat) : Option (Bool × Bool × Bool × Bool × Nat × Nat) :=
  match op with
  | 0x03 => some (false, false, true, false, 0, 0xFF)
  | 0x05 => some (true, false, true, false, 0, 0)
  | 0x06 => some (true, false, true, false, 0, 0)
  | 0x07 => some (false, false, true, false, 0, 3)
  | 0x08 => some (true, false, true, false, 0, 0)
  | 0x0A => some (true, false, true, false, 0, 0)
  | 0x0D => some (true, false, true, false, 1, 0)
  | 0x0E => some (true, false, true, false, 1, 0)
  | 0x0F => some (false, false, true, false, 1, 0)
  | 0x10 => some (true, false, false, false, 2, 1)
  | 0x11 => some (false, false, false, false, 2, 7)
  | 0x12 => some (true, true, true, false, 0, 0)
  | 0x13 => some (false, true, true, true, 0, 0)
  | 0x14 => some (true, false, true, false, 0, 0)
  | n => if n ≤ 0x15 then some (false, false, true, false, 0, 0) else none

/-- R199: the frame breaks no rule of digit elements. -/
def deLegal (f : Nat) : Bool :=
  match dePorts (deOp f) with
  | none => false
  | some (b, c, x, y, co, pm) =>
    bit f 211 && deEnB f == b && deEnC f == c && deEnX f == x && deEnY f == y
      && (co == 1 || deEnCo f == (co == 2))
      && 3 ≤ deNda f && (if b then 3 ≤ deNdb f else deNdb f == 0) && (if x then 3 ≤ deNdx f else deNdx f == 0)
      && !(deOp f == 0 && deNdx f != deNda f) && !(deOp f == 4 && deNda f < deNdx f)
      && deParam f &&& pm == deParam f && nbits f 128 62 == 0
      && !(deOp f == 7 && 2 ^ 21 < (deConst f).2.natAbs)

/-! ### Switch frames (R222, R224, R229) -/

/-- The box of a network at a position has this port on its incoming (`inc`) or outgoing side (R222). -/
def portPresent (net pos p : Nat) (inc : Bool) : Bool :=
  match p with
  | 0 => 8 ≤ pos
  | 1 => pos % 8 < 7
  | 2 => pos < 56
  | 3 => 0 < pos % 8
  | _ =>
    match net, digitTile pos with
    | 0, false => p == 4 || (p == 5 && !inc)
    | 1, true => p < 12
    | 1, false => p == 4
    | 2, true => p < 8
    | 2, false => p == 4
    | _, _ => false

/-- A leg of a switch frame. -/
structure LegCfg where
  op : Nat
  src : Nat
  src2 : Nat
  dest : Nat
  par : Nat
  deriving DecidableEq, Repr

def swLeg (f n : Nat) : LegCfg :=
  ⟨nbits f (32 * n) 3, nbits f (32 * n + 3) 4, nbits f (32 * n + 7) 4, nbits f (32 * n + 11) 12, nbits f (32 * n + 23) 8⟩

/-- The ports of DEST in ascending order. -/
def LegCfg.ports (l : LegCfg) : List Nat := (List.range 12).filter fun p => bit l.dest p

/-- The leg takes tokens of SRC2 (R224), and from the scalar box. -/
def LegCfg.indexed (l : LegCfg) : Bool := l.op == 2 || l.op == 5

/-- R225, R229: one leg by itself. -/
def LegCfg.legal (l : LegCfg) (net pos : Nat) : Bool :=
  let n := l.ports.length
  if l.op == 0 then l.src == 0 && l.src2 == 0 && l.dest == 0 && l.par == 0
  else
    l.op != 7 && portPresent net pos l.src true && l.ports.all (fun p => portPresent net pos p false)
      && (if l.indexed then portPresent 0 pos l.src2 true
          else if l.op == 4 then portPresent net pos l.src2 true && l.src != l.src2 else l.src2 == 0)
      && (l.op == 6 || l.par == 0) && !bit l.dest l.src
      && (match l.op with | 1 => n == 1 | 2 => 1 ≤ n | 3 => 2 ≤ n | 4 => n == 1 | 5 => n == 2 | _ => n == 1)

/-- The incoming sides a leg names, as network and port. -/
def LegCfg.sides (l : LegCfg) (net : Nat) : List (Nat × Nat) :=
  if l.op == 0 then []
  else if l.indexed then ((net, l.src) :: [(0, l.src2)]).eraseDups
  else (net, l.src) :: if l.op == 4 then [(net, l.src2)] else []

/-- R229: the frame breaks no rule of switch frames. -/
def swLegal (f : Nat) : Bool :=
  let net := fAddr f / 64
  let pos := fAddr f % 64
  let ls := (List.range 6).map (swLeg f)
  let dests := (ls.map (·.ports)).flatten
  let sides := (ls.map (·.sides net)).flatten
  nbits f 192 38 == 0 && ls.all (·.legal net pos) && (List.range 6).all (fun n => !bit f (32 * n + 31))
    && dests.eraseDups.length == dests.length && sides.eraseDups.length == sides.length

/-! ### Memory-tile frames (R230, R250, R421) -/

def mtMode (f : Nat) : Nat := nbits f 227 3
def mtOpr (f : Nat) : Nat := nbits f 222 5
def mtNbuf (f : Nat) : Nat := nbits f 220 2
def mtNd (f : Nat) : Nat := nbits f 216 4 + 1
def mtWfmt (f : Nat) : Bool := bit f 215
def mtGlob (f : Nat) : Bool := bit f 214
def mtPdly (f : Nat) : Nat := nbits f 204 10
def mtBase (f : Nat) : Nat := nbits f 194 10
def mtLen (f : Nat) : Nat := nbits f 183 11
def mtRed (f : Nat) : Nat := nbits f 179 4
def mtW64 (f : Nat) : Bool := bit f 178
def mtEosev (f : Nat) : Bool := bit f 177
def mtEvt (f : Nat) : Nat := nbits f 171 6
def mtAgr (f : Nat) : Nat := nbits f 169 2
def mtAgw (f : Nat) : Nat := nbits f 167 2
def mtGbase (f : Nat) : Nat := nbits f 64 64

/-- R232: the operation is legal in the mode. -/
def oprLegal (mode opr : Nat) : Bool :=
  match mode with
  | 0 => opr ≤ 0x0E || opr == 0x10
  | 1 => opr == 0x11 || opr == 0x12
  | 2 => opr == 0x13
  | 3 => 1 ≤ opr && opr ≤ 4
  | 4 => opr == 0x0F
  | _ => false

def usesAgr (opr : Nat) : Bool := opr == 1 || opr == 3 || opr == 0x10
def usesAgw (opr : Nat) : Bool := opr == 2 || opr == 4 || opr == 5 || opr == 6 || opr == 0x10

/-- R421: the operation uses storage of its tile. -/
def usesStorage (opr : Nat) (glob : Bool) : Bool :=
  (1 ≤ opr && opr ≤ 6 && !glob) || opr == 0x10 || opr == 0x11 || opr == 0x12 || opr == 0x13 || opr == 0x0F

def isDigitOpr (opr : Nat) : Bool := opr == 3 || opr == 4 || opr == 0x0C || opr == 0x0D

/-- R250: the frame breaks no rule of memory-tile frames. -/
def mtLegal (f : Nat) : Bool :=
  let mode := mtMode f
  let opr := mtOpr f
  let dig := isDigitOpr opr
  let amo := opr == 5 || opr == 6
  oprLegal mode opr && (mode == 0 || mtNbuf f == 0) && mtLen f % (mtNbuf f + 1) == 0
    && (if dig then 4 ≤ mtNd f else mtNd f == 1) && (dig || !mtWfmt f) && (mode == 4 || mtPdly f == 0)
    && mtBase f + mtLen f ≤ 1024 && !(usesStorage opr (mtGlob f) && mode != 3 && mtLen f == 0)
    && (mode != 3 || (mtBase f == 0 && mtLen f == 0))
    && (if mtGlob f then 1 ≤ opr && opr ≤ 6 && mtGbase f < 2 ^ 55 else mtGbase f == 0)
    && (if amo then mtRed f < 10 && !(opr == 6 && mtRed f == 8) && !(mtRed f == 9 && mtW64 f)
        else mtRed f == 0 && !mtW64 f)
    && (mtEosev f || mtEvt f == 0) && mtAgr f < 3 && mtAgw f < 3
    && (usesAgr opr || mtAgr f == 0) && (usesAgw opr || mtAgw f == 0)
    && !(opr == 0x10 && (mtAgr f == 0) != (mtAgw f == 0)) && !(mtAgr f != 0 && mtAgr f == mtAgw f)
    && nbits f 128 39 == 0 && nbits f 0 64 == 0

/-! ### Address-generator frames (R251, R254) -/

def agPat (f : Nat) : Nat := nbits f 228 2
def agStart (f : Nat) : Nat := nbits f 212 16
def agWrap (f : Nat) : Nat := nbits f 196 16
def agCount (f d : Nat) : Nat := nbits f (144 + 13 * d) 13
def agStride (f d : Nat) : Int := sext 16 (nbits f (80 + 16 * d) 16)
def agHnd (f : Nat) : Nat := nbits f 76 4
def agScnt (f : Nat) : Nat := nbits f 64 12
def agRdir (f : Nat) : Bool := bit f 63

/-- R254: the frame breaks no rule of address-generator frames. -/
def agLegal (f : Nat) : Bool :=
  (List.range 4).all (fun d => agCount f d ≤ 4096) && nbits f 0 63 == 0
    && match agPat f with
       | 0 => nbits f 0 228 == 0
       | 1 => nbits f 63 17 == 0
       | 2 => nbits f 144 52 == 0 && nbits f 96 48 == 0 && nbits f 63 17 == 0
       | _ => nbits f 80 148 == 0

/-! ### Images (R132, R215) -/

/-- A payload field illegal under its chapter. -/
def payloadLegal (f : Nat) : Bool :=
  match fKind f with
  | 1 => deLegal f
  | 2 => mtLegal f
  | 3 => swLegal f
  | _ => agLegal f

/-- R130, R132, R215: the detail with which an image's first frame fails for a block; 0 when it passes. -/
def headerError (f blk : Nat) : Nat :=
  if fKind f != 5 then 1
  else if fAddr f != 0 || fSlot f != 0 then 2
  else if nbits f 0 160 != 0 || hImg f == 0xFFF || hNfr f == 0 || 416 < hNfr f then 4
  else if hImg f != blk then 5
  else 0

/-- The detail with which a later frame fails beside the frames before it; 0 when it passes. -/
def frameError (f : Nat) (before : List Nat) : Nat :=
  if fKind f == 0 || 4 < fKind f then 1
  else if addrBad (fKind f) (fAddr f) || fSlot f != 0 then 2
  else if before.any fun g => fKind g == fKind f && fAddr g == fAddr f then 3
  else if !payloadLegal f then 7
  else 0

/-- The frame of a kind and address in a list. -/
def findFrame (fs : List Nat) (kind a : Nat) : Option Nat := fs.find? fun f => fKind f == kind && fAddr f == a

/-- R250: the generators a memory tile names stand in the block and suit its mode and operation. -/
def gensLegal (fs : List Nat) (f : Nat) : Bool :=
  let pos := fAddr f % 64
  let ok (field : Nat) (produce : Bool) : Bool :=
    field == 0 ||
      match findFrame fs 4 (pos + 64 * (field - 1)) with
      | none => false
      | some g =>
        agPat g != 0 && (mtMode f == 3) == (agPat g == 3) && (agPat g != 3 || agRdir g == produce)
  ok (mtAgr f) false && ok (mtAgw f) true

/-- R229: no scalar port named as SRC2 elsewhere is also a source of the position's scalar box. -/
def scalarsLegal (fs : List Nat) (f : Nat) : Bool :=
  let net := fAddr f / 64
  let pos := fAddr f % 64
  net == 0 ||
    match findFrame fs 3 pos with
    | none => true
    | some g =>
      let used := (((List.range 6).map (swLeg g)).map (·.sides 0)).flatten
      ((List.range 6).map (swLeg f)).all fun l => !(l.op != 0 && l.indexed && used.contains (0, l.src2))

/-- R229, R243, R250: the checks made when the last frame is written; `sched` for a scheduler slot. -/
def lastError (fs : List Nat) (sched : Bool) : Nat :=
  let bins := fs.countP fun f => fKind f == 2 && mtMode f == 4
  if bins != (if sched then 1 else 0)
    || fs.any (fun f => fKind f == 2 && !gensLegal fs f) || fs.any (fun f => fKind f == 3 && !scalarsLegal fs f) then 7
  else 0

/-- The frame written with its slot (R127). -/
def withSlot (f slot : Nat) : Nat := f + slot * 2 ^ 230

/-- A frame as its image has it. -/
def unslotted (f : Nat) : Nat := f % 2 ^ 230 + f / 2 ^ 232 * 2 ^ 232

end Sys2Proof.Machine
end

