-- ==== Sys2Proof/Machine/Channels.lean ====
section
/-! DEFINITION. The channels of the fabric: tokens, demand and kills between a producer and a consumer (R189 to
R196), and where the channels of a switch box lead (R222, R223). -/

namespace Sys2Proof.Machine

/-! ### Places -/

/-- The channel into a box of a network at a position, by its incoming side. -/
def inKey (slot net pos port : Nat) : Nat := (((slot * 3 + net) * 64 + pos) * 2) * 16 + port

/-- The neighbour's position and the port it meets. -/
def neighbour (pos port : Nat) : Nat × Nat :=
  match port with
  | 0 => (pos - 8, 2)
  | 1 => (pos + 1, 3)
  | 2 => (pos + 8, 0)
  | _ => (pos - 1, 1)

/-- The channel a box's outgoing side feeds: the neighbour's incoming side, or the local input (R222). -/
def outKey (slot net pos port : Nat) : Nat :=
  if port < 4 then inKey slot net (neighbour pos port).1 (neighbour pos port).2
  else (((slot * 3 + net) * 64 + pos) * 2 + 1) * 16 + port

/-- Slot, network, position, local input or not, and port of a channel. -/
structure ChanAt where
  slot : Nat
  net : Nat
  pos : Nat
  local_ : Bool
  port : Nat
  deriving DecidableEq, Repr

def chanAt (key : Nat) : ChanAt :=
  ⟨key / 6144, key / 2048 % 3, key / 32 % 64, key / 16 % 2 == 1, key % 16⟩

/-- Entries of a channel's buffer: two in a box, four at an element's or port's input (R15). -/
def chanCap (key : Nat) : Nat := if (chanAt key).local_ then 4 else 2

/-! ### Tokens -/

/-- The token ends its value: TAIL, NUL, and every scalar or control token (R190, R225). -/
def Token.ends : Token → Bool
  | .tail => true
  | .nul => true
  | .word _ => true
  | .serr _ => true
  | .ctl _ => true
  | _ => false

def Token.isEos : Token → Bool
  | .eos => true
  | _ => false

/-! ### Channels -/

def Cluster.chan (k : Cluster) (key : Nat) : Chan := k.fab.chans.get key Chan.reset

def Cluster.setChan (k : Cluster) (key : Nat) (c : Chan) : Cluster :=
  { k with fab := { k.fab with chans := k.fab.chans.set key c } }

/-- A beat against an outstanding REQ; one of a value the consumer has killed is discarded (R193, R194). -/
def Chan.push (c : Chan) (t : Token) : Chan :=
  { c with req := c.req - 1, produced := if t.ends then c.produced + 1 else c.produced,
           buf := if c.produced < c.consumed && !t.isEos then c.buf else c.buf ++ [t] }

/-- The consumer takes the next beat. -/
def Chan.pop (c : Chan) : Chan :=
  { c with buf := c.buf.drop 1, consumed := if (c.buf.head?.map (·.ends)).getD false then c.consumed + 1 else c.consumed }

/-- A beat goes out on a channel, and crosses it at its slot's turn (R223). -/
def Cluster.push (k : Cluster) (key : Nat) (t : Token) : Cluster :=
  let c := (k.chan key).push t
  k.setChan key (if c.buf.length == (k.chan key).buf.length then c else { c with late := true })

/-- One beat of a channel crosses in a clk, of the first slot with a beat there that its pointer reaches (R193, R223). -/
def Fabric.cross (f : Fabric) (link : Nat) : Fabric :=
  let late (i : Nat) : Bool := (f.chans.get (6144 * i + link) Chan.reset).late
  let from_ := f.links.get link 0
  match ((List.range 4).map fun i => (from_ + i) % 4).find? late with
  | none => f
  | some i =>
    let c := f.chans.get (6144 * i + link) Chan.reset
    { f with chans := f.chans.set (6144 * i + link) { c with late := false }, links := f.links.set link ((i + 1) % 4) }

/-- The beats that have gone out cross, one on each channel in each clk. -/
def Fabric.crossings (f : Fabric) : Nat → Fabric
  | 0 => f
  | n + 1 =>
    let waiting := ((f.chans.filter fun e => e.2.late).map fun e => e.1 % 6144).eraseDups
    if waiting.isEmpty then f else Fabric.crossings (waiting.foldl Fabric.cross f) n

def Cluster.pop (k : Cluster) (key : Nat) : Cluster := k.setChan key ((k.chan key).pop)

/-- A KILL of the channel has not reached its producer. -/
def Cluster.killWaits (k : Cluster) (key : Nat) : Bool := k.fab.kills.any (·.chan == key)

/-- The REQs outstanding when a consumer wants n beats in hand or requested: up to the buffer's free entries (R193). -/
def Cluster.wantReq (k : Cluster) (key n : Nat) : Nat :=
  let c := k.chan key
  if k.killWaits key then c.req else Nat.max c.req (Nat.min (n - c.buf.length) (chanCap key - c.buf.length))

/-- A REQ of the demand has still to be sent (R19, R212). -/
def Cluster.lacksReq (k : Cluster) (e : Nat × Nat) : Bool := (k.chan e.1).req < k.wantReq e.1 e.2

/-- The consumer wants n beats in hand or requested. -/
def Cluster.want (k : Cluster) (key n : Nat) : Cluster :=
  if k.lacksReq (key, n) then k.setChan key { k.chan key with req := k.wantReq key n } else k

/-- The demand on several channels. -/
def Cluster.wants (k : Cluster) (l : List (Nat × Nat)) : Cluster := l.foldl (fun k e => k.want e.1 e.2) k

/-- Beats of the value being killed leave the buffer, its TAIL or NUL the last; EOS stays. -/
def dropValue : List Token → List Token × Bool
  | [] => ([], false)
  | t :: r => if t.isEos then (t :: r, false) else if t.ends then (r, true) else dropValue r

/-- R194: the consumer kills its current value: what has arrived is discarded, and a KILL travels to a producer that
has not emitted the value's end. -/
def Cluster.killValue (k : Cluster) (key : Nat) : Cluster :=
  let c := k.chan key
  let rest := (dropValue c.buf).1
  let k1 := k.setChan key { c with buf := rest, consumed := c.consumed + 1, late := c.late && !rest.isEmpty }
  if c.produced ≤ c.consumed then { k1 with fab := { k1.fab with kills := k1.fab.kills ++ [⟨key, c.consumed⟩] } } else k1

/-- The next beat that has come on a channel. -/
def Cluster.next? (k : Cluster) (key : Nat) : Option Token :=
  let c := k.chan key
  if c.late && c.buf.length ≤ 1 then none else c.buf.head?

/-- A REQ is outstanding on a channel, and no beat of the slot waits to cross it. -/
def Cluster.ready (k : Cluster) (key : Nat) : Bool := 0 < (k.chan key).req && !(k.chan key).late

/-! ### The value an input is consuming (R190) -/

/-- R67, R190: a lane byte that is illegal in a DIG beat. -/
def badLane (b : Byte) : Bool := 16 ≤ b.toNat || (!bit b.toNat 3 && (b.toNat % 8 == 3 || b.toNat % 8 == 4))

/-- One lane of the value as far as it has come: null in every DIG beat, each of them legal (R67, R190). -/
def InVal.laneNull (v : InVal) (i : Nat) : Bool :=
  v.nul || (!v.digs.isEmpty && v.digs.all fun d => bit (d.getD i 0).toNat 3 && !badLane (d.getD i 0))

/-- The lanes of a set take an error; a lane keeps the first it takes (R191). -/
def InVal.take1 (v : InVal) (p : Nat → Bool) (code : Nat) : InVal :=
  { v with errs := Vector.ofFn fun i => if v.errs[i] == 0 && p i.val then code else v.errs[i] }

/-- Every real lane of the value takes BADDIG (R190). -/
def InVal.spoil (v : InVal) : InVal := v.take1 (fun _ => true) 1

/-- A DIG beat: an illegal lane byte, or a lane flag that differs from the beats before, is BADDIG (R67, R190). -/
def InVal.takeDig (v : InVal) (d : List Byte) : InVal :=
  let flag (e : List Byte) (i : Nat) : Bool := bit (e.getD i 0).toNat 3
  ({ v with digs := v.digs ++ [d] } : InVal).take1
    (fun i => badLane (d.getD i 0) || v.digs.any fun e => flag e i != flag d i) 1

/-- One beat taken by an input of n digits; the answer says whether it was consumed. A HEAD, NUL or EOS that comes
where the value has not ended ends it as BADDIG and is taken after it; a misplaced DIG makes the input discard up to
the next TAIL, NUL or EOS, which ends the stream as well (log entry 89). -/
def InVal.take (v : InVal) (n : Nat) (t : Token) : InVal × Bool :=
  if !v.active then
    match t with
    | .head e => ({ v with active := true, headed := true, head := e }, true)
    | .nul => ({ v with active := true, done := true, nul := true }, true)
    | .eos => ({ v with eos := true }, true)
    | .tail => (({ v with active := true, headed := true, done := true } : InVal).spoil, true)
    | _ => (({ v with active := true, headed := true, skip := true } : InVal).spoil, true)
  else if v.skip then
    match t with
    | .tail => ({ v with done := true, skip := false }, true)
    | .nul => ({ v with done := true, skip := false }, true)
    | .eos => ({ v with done := true, skip := false }, false)
    | _ => (v, true)
  else
    match t with
    | .dig d => (if v.digs.length < n then v.takeDig d else { v.spoil with skip := true }, true)
    | .err m c => (v.take1 (fun i => bit m i && !v.laneNull i) c, true)
    | .tail => ({ v with done := true }, true)
    | .nul => ({ v.spoil with done := true }, false)
    | .head _ => ({ v.spoil with done := true }, false)
    | .eos => ({ v.spoil with done := true }, false)
    | _ => (v.spoil, true)

/-- The first error of a lane; none for a null lane (R191). -/
def InVal.laneErr (v : InVal) (i : Nat) : Nat := if v.laneNull i then 0 else v.errs.toList.getD i 0

/-- The input's stream has ended before this value (R190, R211). -/
def InVal.ended (v : InVal) : Bool := v.eos && !v.active

/-- The value says nothing of its lanes: the stream has ended, or the value was killed before its first DIG beat. -/
def InVal.silent (v : InVal) : Bool := v.ended || (v.killed && !v.done && !v.nul && v.digs.isEmpty)

/-- The digits of a lane, first digit first. -/
def InVal.laneDigs (v : InVal) (i : Nat) : List Int := v.digs.map fun d => sext 3 ((d.getD i 0).toNat % 8)

/-- The HEAD exponent of a lane. -/
def InVal.laneExp (v : InVal) (i : Nat) : Int := sext 8 (v.head.getD i 0).toNat

/-- The nullness of its lanes is known: a DIG beat, its TAIL or a NUL has come. -/
def InVal.known (v : InVal) : Bool := v.done || v.ended || v.skip || !v.digs.isEmpty

/-- The first n digits stand: received, or zero because the value has ended (R190). -/
def InVal.has (v : InVal) (n : Nat) : Bool := v.done || v.ended || v.killed || v.skip || n ≤ v.digs.length

/-- The lanes as a mask. -/
def laneMask (p : Nat → Bool) : Nat := (List.range 16).foldl (fun m i => if p i then m + 2 ^ i else m) 0

/-! ### Regions -/

/-- The frame a slot's image holds for a kind and address. -/
def Cluster.frame (k : Cluster) (slot kind a : Nat) : Option Nat := findFrame (k.slot slot).frames kind a

/-- The slot is in a configuration period: RUNNING or DRAINING. -/
def Cluster.inPeriod (k : Cluster) (slot : Nat) : Bool :=
  match (k.slot slot).st with
  | .running => true
  | .draining => true
  | _ => false

/-- The slot runs: it is in a period and not halted (R401). -/
def Cluster.runs (k : Cluster) (slot : Nat) : Bool := k.inPeriod slot && !(k.slot slot).halted

/-- A digit element or port of a slot, by the kind and address of its frame (R405). -/
def unitKey (kind addr : Nat) : Nat := 65536 * kind + addr

/-- A unit of the slot fires, for its clk classes and the watchdog (R405, R406). -/
def Cluster.fires (k : Cluster) (slot unit : Nat) : Cluster := k.mapSlot slot fun x => { x with fired := x.fired ++ [(unit, 0)] }

end Sys2Proof.Machine
end

