-- ==== Sys2Proof/Machine/Digits.lean ====
section
/-! DEFINITION. The digits an element's output has for the digits its inputs have delivered: alignment, the prefix
recurrence, division, square root and decisions (R68, R69, R198 to R210). Fractions are exact integers in units of
2^−96. -/

namespace Sys2Proof.Machine

/-- One in units of 2^−96. -/
def one96 : Int := 2 ^ 96

/-- 4^−k in units of 2^−96. -/
def pow4 (k : Nat) : Int := 2 ^ (96 - 2 * k)

/-! ### Selection (R68, R69) -/

def clamp2 (v : Int) : Int := max (-2) (min 2 v)

/-- sel_std(w, 4). -/
def selStd (w : Int) : Int := clamp2 ((w * 16 / one96 + 8) / 16)

/-- sel_div(w, d, 8, 8). -/
def selDiv (w d : Int) : Int :=
  let dd : Int := max ((d.natAbs : Int) * 256 / one96) 1
  let q := clamp2 ((2 * (w * 256 / one96) + dd) / (2 * dd))
  if d < 0 then -q else q

/-! ### Aligned digits (R201) -/

/-- The aligned digit k of a lane shifted down by sh places. -/
def alignedDigit (d : List Int) (sh k : Nat) : Int := if 16 < sh || k ≤ sh then 0 else d.getD (k - sh - 1) 0

/-- The prefix through the aligned digit k. -/
def prefixSum (d : List Int) (sh k : Nat) : Int :=
  (List.range k).foldl (fun acc i => acc + alignedDigit d sh (i + 1) * pow4 (i + 1)) 0

/-! ### Elements in one lane -/

/-- What one lane of an element works on: both inputs' digits with their shifts. -/
structure LaneIn where
  da : List Int
  sa : Nat
  db : List Int
  sb : Nat
  deriving DecidableEq, Repr

def LaneIn.preA (l : LaneIn) (k : Nat) : Int := prefixSum l.da l.sa k
def LaneIn.preB (l : LaneIn) (k : Nat) : Int := prefixSum l.db l.sb k

/-- δ of an operation (R198). -/
def deDelta (op : Nat) : Nat :=
  match op with
  | 5 => 2
  | 6 => 2
  | 7 => 2
  | 8 => 3
  | 9 => 3
  | 0x0A => 4
  | 0x0B => 4
  | 0x0C => 4
  | 0x0D => 2
  | 0x0E => 2
  | 0x0F => 2
  | 0x15 => 2
  | _ => 0

/-- The shifts of A and B and the output exponent of a lane; `wl` is OLRED's working exponent (R203 to R207). -/
def deAlign (f : Nat) (ea eb wl : Int) : Nat × Nat × Int :=
  let op := deOp f
  let ec := (deConst f).1
  match op with
  | 3 => (0, 0, ea + sext 8 (deParam f % 256))
  | 7 => (0, 0, ea + ec)
  | 8 => (0, 0, ea + eb)
  | 9 => (0, 0, 2 * ea)
  | 0x0A => (1, 0, ea - eb + 1)
  | 0x0B => (0, 0, 2 - ea)
  | 0x0C => if ea % 2 == 1 then (1, 0, (ea + 1) / 2) else (2, 0, (ea + 2) / 2)
  | 0x0F => (1, 0, ea + 1)
  | 0x10 => ((max ea eb - ea).toNat, (max ea eb - eb).toNat, 0)
  | 0x11 => ((max ea ec - ea).toNat, (max ea ec - ec).toNat, 0)
  | 0x15 => ((wl - ea).toNat, 0, wl)
  | n =>
    if n == 5 || n == 6 || n == 0x0D || n == 0x0E then
      let w := max ea eb + 1
      ((w - ea).toNat, (w - eb).toNat, w)
    else (0, 0, ea)

/-- R204, R207: what a lane compares at aligned digit j: the difference, the factor of (2/3) × 4^−j beyond which it
has decided, and the power of 4 both are multiplied by so that a constant stands exactly. -/
def deDiff (f : Nat) (l : LaneIn) (j : Nat) : Int × Int × Nat :=
  match deOp f with
  | 0x0F => (l.preA j, 1, 0)
  | 0x11 => (l.preA j * 4 ^ l.sb - (deConst f).2 * 2 ^ 74, 1, l.sb)
  | _ => (l.preA j - l.preB j, 2, 0)

/-- The outcome of a decision on a difference (R204, R207): A wins, or the comparison holds. -/
def deOutcome (f : Nat) (d : Int) : Bool :=
  match deOp f with
  | 0x0D => 0 ≤ d
  | 0x0E => d ≤ 0
  | 0x0F => 0 < d
  | 0x10 => 0 < d || (bit (deParam f) 0 && d == 0)
  | _ => 0 < d || (bit (deParam f) 2 && d == 0)

/-- The first aligned digit at or below `av` at which a lane has decided, and the outcome; from `last` on it
compares exact values. -/
def deDecide (f : Nat) (l : LaneIn) (av last : Nat) : Option (Nat × Bool) :=
  (List.range (av + 1)).findSome? fun j =>
    if j == 0 then none
    else
      let (d, c, n) := deDiff f l j
      if last ≤ j || 2 * c * pow4 j * 4 ^ n < 3 * (d.natAbs : Int) then some (j, deOutcome f d) else none

/-- The target prefix M(k) of R204. -/
def deM (f : Nat) (l : LaneIn) (dec : Option (Nat × Bool)) (k : Nat) : Int :=
  let a := l.preA k
  let b := l.preB k
  let decided : Option Bool := match dec with | some (kd, o) => if kd ≤ k then some o else none | none => none
  match deOp f with
  | 5 => a + b
  | 6 => a - b
  | 7 => (deConst f).2 * a / 2 ^ 22
  | 8 => a * b / one96
  | 9 => a * a / one96
  | 0x0D => match decided with | some o => if o then a else b | none => max a b
  | 0x0E => match decided with | some o => if o then a else b | none => min a b
  | 0x0F => match decided with | some o => if o then a else 0 | none => max a 0
  | _ => a

/-- R204: the first n output digits for a target prefix with delay δ. -/
def recurDigits (m : Nat → Int) (delta n : Nat) : List Int :=
  ((List.range n).foldl (fun (acc : List Int × Int) i =>
    let j := i + 1
    let z := selStd ((m (j + delta) - acc.2) * 4 ^ j)
    (acc.1 ++ [z], acc.2 + z * pow4 j)) ([], 0)).1

/-- R205: the first n quotient digits of a dividend's digits x′ by a divisor's digits. -/
def divDigits (x : Nat → Int) (d : List Int) (n : Nat) : List Int :=
  ((List.range (n + 4)).foldl (fun (acc : List Int × Int × Int) i =>
    let k := i + 1
    let (zs, w, q) := acc
    let dk := d.getD (k - 1) 0
    let v := 4 * w + (x k * one96 - q * dk) / 256
    let D := prefixSum d 0 k
    if 4 ≤ i then
      let z := selDiv v D
      (zs ++ [z], v - z * D, q + z * pow4 (i - 3))
    else (zs, v, q)) ([], 0, 0)).1

/-- The integer square root of a number below 2^16. -/
def isqrt16 (n : Nat) : Nat := (List.range 256).countP fun i => 0 < i && i * i ≤ n

/-- R206: the first n digits of the square root of a radicand's aligned digits. -/
def sqrtDigits (y : Nat → Int) (yk : Nat → Int) (n : Nat) : List Int :=
  ((List.range n).foldl (fun (acc : List Int × Int × Int) i =>
    let j := i + 1
    let k := j + 4
    let (zs, w, s) := acc
    if j ≤ 3 then
      let big : Int := max (y k) 0
      let m : Int := ((isqrt16 (4 * 16 ^ j * big.toNat / 2 ^ 96) + 1) / 2 : Nat)
      let z := clamp2 (m - s * 4 ^ j / one96)
      let s1 := s + z * pow4 j
      (zs ++ [z], (y k - s1 * s1 / one96) * 4 ^ j, s1)
    else
      let v := 4 * w + yk k * one96 / 256
      let z := selDiv v (2 * s)
      (zs ++ [z], v - z * (2 * s + z * pow4 j), s + z * pow4 j)) ([], 0, 0)).1

/-- OABS: every digit takes the sign that makes the first non-zero one positive (R203). -/
def absDigits (d : List Int) : List Int := if (d.find? (· != 0)).getD 0 < 0 then d.map (- ·) else d

/-- The first n output digits of a lane for the operations of one lane (R203 to R206). -/
def deDigits (f : Nat) (l : LaneIn) (dec : Option (Nat × Bool)) (n : Nat) : List Int :=
  let pad (d : List Int) : List Int := (d ++ List.replicate n 0).take n
  match deOp f with
  | 0 => pad l.da
  | 1 => pad (l.da.map (- ·))
  | 2 => pad (absDigits l.da)
  | 3 => pad l.da
  | 4 => pad l.da
  | 0x0A => divDigits (fun k => alignedDigit l.da l.sa k) l.db n
  | 0x0B => divDigits (fun k => if k == 2 then 1 else 0) l.da n
  | 0x0C => sqrtDigits l.preA (fun k => alignedDigit l.da l.sa k) n
  | _ => recurDigits (deM f l dec) (deDelta (deOp f)) n

/-- R205: the divisor's prefix shows that it lies below 1/4. -/
def divTooSmall (d : List Int) : Bool :=
  (List.range d.length).any fun i =>
    12 * ((prefixSum d 0 (i + 1)).natAbs : Int) + 8 * pow4 (i + 1) < 3 * one96

end Sys2Proof.Machine
end

