-- ==== Sys2Proof/Machine/Elements.lean ====
section
/-! DEFINITION. Digit elements: firing against demand, kills, errors, EOS and slot switches (R16, R189 to R212). -/

namespace Sys2Proof.Machine

/-! ### What an element knows of its value -/

/-- An element's slot: its frame and its state. -/
structure Cell where
  f : Nat
  x : Elem
  deriving DecidableEq, Repr

def Cell.op (c : Cell) : Nat := deOp c.f
def Cell.na (c : Cell) : Nat := deNda c.f + 1
def Cell.nb (c : Cell) : Nat := deNdb c.f + 1
def Cell.nx (c : Cell) : Nat := deNdx c.f + 1
def Cell.two (c : Cell) : Bool := deEnB c.f
def Cell.usesC (c : Cell) : Bool := deEnC c.f

/-- OSEL and OMRG take each lane from one input (R201, R209). -/
def Cell.picks (c : Cell) : Bool := c.op == 0x12 || c.op == 0x14

/-- The control token's bit of a lane. -/
def Cell.tok (c : Cell) (i : Nat) : Bool := (c.x.ctl.getD 0).getLsbD i

/-- The lane of OSEL or OMRG comes from A (R209, R21). -/
def Cell.fromA (c : Cell) (i : Nat) : Bool :=
  match c.op with
  | 0x12 => c.tok i
  | 0x14 => !c.x.a.ended && c.x.a.known && !c.x.a.laneNull i
  | _ => true

/-- The lane is null in every output, as far as is known: null in each input that shows its lanes (R201, R209, R21). -/
def Cell.null (c : Cell) (i : Nat) : Bool :=
  let a := !c.x.a.ended && c.x.a.laneNull i
  let b := !c.x.b.ended && c.x.b.laneNull i
  match c.op with
  | 0x12 => if (c.tok i && !c.x.a.ended) || c.x.b.ended then a else b
  | 0x15 => i != 0 || (List.range 16).all c.x.a.laneNull
  | _ =>
    if !c.two then a
    else !(c.x.a.silent && c.x.b.silent) && (a || c.x.a.silent) && (b || c.x.b.silent)

/-- Every used input's null lanes are known, or never will be. -/
def Cell.nullKnown (c : Cell) : Bool := (c.x.a.known || c.x.a.killed) && (!c.two || c.x.b.known || c.x.b.killed)

/-- The HEAD exponent of a lane of A and of B; an ended input follows the other. -/
def Cell.exps (c : Cell) (i : Nat) : Int × Int :=
  let ea := if c.x.a.headed then c.x.a.laneExp i else if c.x.b.headed then c.x.b.laneExp i else 0
  let eb := if c.two && c.x.b.headed then c.x.b.laneExp i else ea
  (ea, eb)

/-- OLRED's working exponent (R204). -/
def Cell.lredExp (c : Cell) : Int :=
  let es := ((List.range 16).filter fun i => !c.x.a.laneNull i).map fun i => c.x.a.laneExp i
  es.foldl max (es.headD 0) + 3

/-- Shifts and output exponent of a lane. -/
def Cell.align (c : Cell) (i : Nat) : Nat × Nat × Int :=
  let (ea, eb) := c.exps i
  if c.picks then (0, 0, if c.fromA i then ea else eb) else deAlign c.f ea eb c.lredExp

/-- A lane's digits and shifts. -/
def Cell.lane (c : Cell) (i : Nat) : LaneIn :=
  let (sa, sb, _) := c.align i
  let db := c.x.b.laneDigs i
  if c.op == 0x11 then ⟨c.x.a.laneDigs i, sa, [], sb⟩ else ⟨c.x.a.laneDigs i, sa, db, sb⟩

/-- R201: an error a lane has taken from its inputs. -/
def Cell.inErr (c : Cell) (i : Nat) : Nat :=
  let ea := if c.x.a.ended then 0 else c.x.a.laneErr i
  let eb := if c.x.b.ended then 0 else c.x.b.laneErr i
  if c.op == 0x15 then
    (((List.range 16).filter fun j => !c.x.a.laneNull j).findSome? fun j =>
      if c.x.a.laneErr j == 0 then none else some (c.x.a.laneErr j)).getD 0
  else if c.picks then (if c.fromA i then ea else eb)
  else if ea != 0 then ea
  else if c.two then eb else 0

/-- The divisor's digits of a lane, with the zeros that complete a value which has ended (R190, R205). -/
def Cell.divisor (c : Cell) (i : Nat) : List Int :=
  let v := if c.op == 0x0A then c.x.b else c.x.a
  v.laneDigs i ++ if v.done then List.replicate (if c.op == 0x0A then c.nb else c.na) 0 else []

/-- R191, R201, R205, R206, R210, R21: the error a lane takes on what has been consumed, with the flags its raising
sets. A lane that is or may be null takes none (R12). Of several that become known in one clk the first of this order is taken,
A's before B's by R201; the spec orders no others (log entry 128). -/
def Cell.errNow (c : Cell) (i : Nat) : Nat × Nat :=
  let an := c.x.a.laneNull i
  let bn := c.x.b.laneNull i
  let both := c.two && !c.x.a.silent && !c.x.b.silent
  let (_, _, e) := c.align i
  if !c.nullKnown || (c.usesC && c.x.ctl.isNone) || c.null i then (0, 0)
  else if c.inErr i != 0 then (c.inErr i, 0)
  else if c.two && (c.x.a.ended || c.x.b.ended) then (7, 0)
  else if both && c.op == 0x14 && !an && !bn then (6, 0)
  else if both && !c.picks && an != bn then (2, 0)
  else if deEnX c.f && (e < -128 || 127 < e) then (3, fOF)
  else if (c.op == 0x0A || c.op == 0x0B) && divTooSmall (c.divisor i) then (4, 0)
  else if c.op == 0x0C && ((c.x.a.laneDigs i).find? (· != 0)).getD 0 < 0 then (5, fNV)
  else (0, 0)

/-- The error a lane stands in: the first it has taken (R191). -/
def Cell.err (c : Cell) (i : Nat) : Nat :=
  let e := c.x.errs.toList.getD i 0
  if e != 0 then e else (c.errNow i).1

/-- The lanes keep their first errors; the flags raised (R191, R201, R206). -/
def Cell.keepErrs (c : Cell) : Elem × Nat :=
  let now := (List.range 16).map c.errNow
  let own (i : Nat) : Bool := c.x.errs.toList.getD i 0 == 0 && (now.getD i (0, 0)).1 == 4 && c.inErr i == 0
  ({ c.x with errs := Vector.ofFn fun i => if c.x.errs[i] != 0 then c.x.errs[i] else (now.getD i (0, 0)).1,
              small := c.x.small ||| laneMask own },
   (List.range 16).foldl (fun acc i => if c.x.errs.toList.getD i 0 == 0 then acc ||| (now.getD i (0, 0)).2 else acc) 0)

/-- A lane that decisions wait for: real in every used input and not in error. -/
def Cell.real (c : Cell) (i : Nat) : Bool :=
  !c.null i && !c.x.a.laneNull i && (!c.two || !c.x.b.laneNull i) && c.err i == 0

/-! ### Decisions (R204, R207) -/

def isDeciding (op : Nat) : Bool := op == 0x0D || op == 0x0E || op == 0x0F || op == 0x10 || op == 0x11

/-- Aligned digits an input has delivered in a lane. -/
def InVal.reach (v : InVal) (n sh : Nat) : Nat := if v.has n || 16 < sh then 64 else v.digs.length + sh

/-- The aligned digit from which an input adds nothing more. -/
def InVal.lastAt (v : InVal) (n sh : Nat) : Nat :=
  if 16 < sh then 0 else if v.done || v.killed then v.digs.length + sh else n + sh

def Cell.decided (c : Cell) (i : Nat) : Option (Nat × Bool) :=
  let l := c.lane i
  let ra := c.x.a.reach c.na l.sa
  let la := c.x.a.lastAt c.na l.sa
  if !c.nullKnown then none
  else if c.two then
    deDecide c.f l (Nat.min (Nat.min ra (c.x.b.reach c.nb l.sb)) 40) (Nat.max (Nat.max la (c.x.b.lastAt c.nb l.sb)) 1)
  else deDecide c.f l (Nat.min ra 40) (Nat.max la 1)

/-- Every real lane has decided. -/
def Cell.allDecided (c : Cell) : Bool := c.nullKnown && (List.range 16).all fun i => !c.real i || (c.decided i).isSome

/-- The control token of a decided value (R204, R207). -/
def Cell.coToken (c : Cell) : BitVec 16 :=
  BitVec.ofNat 16 (laneMask fun i => c.real i && ((c.decided i).map (·.2)).getD false)

/-! ### Output beats -/

/-- The lane is null on output Y (`y`) or X of the element (R208). -/
def Cell.outNull (c : Cell) (y : Bool) (i : Nat) : Bool := c.null i || (c.op == 0x13 && c.tok i == y)

/-- An input is ready for an output HEAD. OSEL's unselected one may be killed before its HEAD, unless the other's stream
has ended and it is still to be seen whether this one's has too (R193, R201, R209, R211). -/
def Cell.inReady (c : Cell) (v o : InVal) : Bool :=
  v.headed || v.nul || v.eos || (v.killed && (v.active || (c.op == 0x12 && !o.ended)))

/-- OSTEER sends lanes both ways, so that an output may turn out to have no real lane (R208). -/
def Cell.splits (c : Cell) : Bool :=
  c.op == 0x13 && (List.range 16).any c.tok && !(List.range 16).all c.tok

/-- The output's HEAD waits for the null lanes: OLRED, OMRG, and an OSTEER that splits the group (R201, R208; log
entry 90). -/
def Cell.headNeedsLanes (c : Cell) : Bool := c.op == 0x15 || c.op == 0x14 || c.splits

/-- R201: every input has what the output's HEAD or NUL needs. -/
def Cell.headReady (c : Cell) : Bool :=
  c.inReady c.x.a c.x.b && (!c.two || c.inReady c.x.b c.x.a) && (!c.usesC || c.x.ctl.isSome)
    && !(c.headNeedsLanes && !c.nullKnown) && !(c.x.a.ended && (!c.two || c.x.b.ended))

/-- Every lane of the output is known to be null: a NUL (R21, R204, R208). -/
def Cell.outNul (c : Cell) (y : Bool) : Bool := (List.range 16).all (c.outNull y)

/-- The HEAD beat (R189). -/
def Cell.headBeat (c : Cell) (y : Bool) : Token :=
  .head ((List.range 16).map fun i => if c.outNull y i then 0 else BitVec.ofInt 8 (c.align i).2.2)

/-- Original digits of an input needed before output digit j stands in every lane; at least one shows the null
lanes. -/
def Cell.needOf (c : Cell) (second : Bool) (j : Nat) : Nat :=
  let sh (i : Nat) : Nat := if second then (c.align i).2.1 else (c.align i).1
  let v := if second then c.x.b else c.x.a
  let n := if second then c.nb else c.na
  let least := (List.range 16).foldl (fun m i => if v.laneNull i then m else Nat.min m (sh i)) 64
  Nat.min n (Nat.max 1 (j + deDelta c.op - least))

/-- The first n digits of output lane i. -/
def Cell.digits (c : Cell) (i n : Nat) : List Int :=
  if c.op == 0x15 then
    let lanes := (List.range 16).filter fun j => !c.x.a.laneNull j
    recurDigits (fun k => lanes.foldl (fun acc j => acc + (c.lane j).preA k) 0) 2 n
  else if c.picks then ((if c.fromA i then c.x.a.laneDigs i else c.x.b.laneDigs i) ++ List.replicate n 0).take n
  else if c.op == 0x13 then (c.x.a.laneDigs i ++ List.replicate n 0).take n
  else deDigits c.f (c.lane i) (if isDeciding c.op then c.decided i else none) n

/-- DIG beat j (R67, R191). -/
def Cell.digBeat (c : Cell) (y : Bool) (j : Nat) : Token :=
  .dig ((List.range 16).map fun i =>
    if c.outNull y i then 8
    else if c.err i != 0 then 0 else BitVec.ofNat 8 (((c.digits i j).getD (j - 1) 0) % 8).toNat)

/-- Lanes whose ERR is still to go out, with the lowest code among them (R191). -/
def Cell.pending (c : Cell) (y : Bool) (o : OutVal) : Option (Nat × Nat) :=
  let ls := (List.range 16).filter fun i => c.err i != 0 && !bit o.err i && !c.outNull y i
  match ls with
  | [] => none
  | i :: r =>
    let code := r.foldl (fun m j => Nat.min m (c.err j)) (c.err i)
    some (laneMask fun j => ls.contains j && c.err j == code, code)

/-- Every vector input has delivered EOS and every earlier value is over (R210, R211). -/
def Cell.over (c : Cell) : Bool := c.x.a.ended && (!c.two || c.x.b.ended)

/-- The next beat of a vector output, when what it depends on has been consumed (R191, R193, R211). -/
def Cell.beat (c : Cell) (y : Bool) (o : OutVal) : Option (Token × OutVal) :=
  if c.over then
    if o.eos then none else some (.eos, { o with eos := true, done := true })
  else if o.done then none
  else if !o.head then
    if !c.headReady then none
    else if c.outNul y then some (.nul, { o with head := true, done := true })
    else some (c.headBeat y, { o with head := true })
  else
    match c.pending y o with
    | some (m, code) => some (.err m code, { o with err := o.err ||| m })
    | none =>
      if o.dig < c.nx then
        if c.x.a.has (c.needOf false (o.dig + 1)) && (!c.two || c.x.b.has (c.needOf true (o.dig + 1))) then
          some (c.digBeat y (o.dig + 1), { o with dig := o.dig + 1 })
        else none
      else some (.tail, { o with done := true })

/-! ### Channels of an element -/

/-- Inputs A, B, C and outputs X, Y, CO of element n (R222). -/
def elA (slot pos n : Nat) : Nat := outKey slot 1 pos (4 + 2 * n)
def elB (slot pos n : Nat) : Nat := outKey slot 1 pos (5 + 2 * n)
def elC (slot pos n : Nat) : Nat := outKey slot 2 pos (4 + n)
def elX (slot pos n : Nat) : Nat := inKey slot 1 pos (4 + 2 * n)
def elY (slot pos n : Nat) : Nat := inKey slot 1 pos (5 + 2 * n)
def elCo (slot pos n : Nat) : Nat := inKey slot 2 pos (4 + n)

/-- The number of an element's slot in the table of elements. -/
def elemKey (slot pos n : Nat) : Nat := (slot * 64 + pos) * 4 + n

def Cluster.elem (k : Cluster) (slot pos n : Nat) : Elem := k.fab.elems.get (elemKey slot pos n) Elem.reset

def Cluster.setElem (k : Cluster) (slot pos n : Nat) (x : Elem) : Cluster :=
  { k with fab := { k.fab with elems := k.fab.elems.set (elemKey slot pos n) x } }

/-! ### Firing -/

/-- Emission of one beat on each output that has one and a REQ for it. Where one input of OCMP, OMAX or OMIN has ended, control
tokens go on for the values of the other: the spec names no governing input of theirs (R192; log entry 128). -/
def Cluster.elemEmit (k : Cluster) (slot pos n f : Nat) : Cluster × Bool :=
  let vec (k : Cluster) (y : Bool) : Cluster × Bool :=
    let x := k.elem slot pos n
    let o := if y then x.y else x.x
    let key := if y then elY slot pos n else elX slot pos n
    if !k.ready key then (k, false)
    else
      match (Cell.mk f x).beat y o with
      | none => (k, false)
      | some (t, o') =>
        let q := if o'.done && !o'.eos then x.q0 + 1 else x.q0
        ((k.push key t).setElem slot pos n (if y then { x with y := o', q0 := q } else { x with x := o', q0 := q }), true)
  let co (k : Cluster) : Cluster × Bool :=
    let x := k.elem slot pos n
    let c : Cell := ⟨f, x⟩
    if x.co || !k.ready (elCo slot pos n) || !c.headReady || !c.allDecided then (k, false)
    else ((k.push (elCo slot pos n) (.ctl c.coToken)).setElem slot pos n { x with co := true }, true)
  let r1 := if deEnX f then vec k false else (k, false)
  let r2 := if deEnY f then vec r1.1 true else (r1.1, false)
  let r3 := if deEnCo f then co r2.1 else (r2.1, false)
  (r3.1, r1.2 || r2.2 || r3.2)

/-- Output beats requested: whether any is, and the last output digit they reach (R193). -/
def Cluster.elemDemand (k : Cluster) (slot pos n f : Nat) : Bool × Nat :=
  let x := k.elem slot pos n
  let one (o : OutVal) (key : Nat) : Bool × Nat :=
    let r := (k.chan key).req
    if o.done && !x.a.ended || r == 0 then (false, 0)
    else (true, Nat.min (deNdx f + 1) (o.dig + r - if o.head then 0 else 1))
  let a := if deEnX f then one x.x (elX slot pos n) else (false, 0)
  let b := if deEnY f then one x.y (elY slot pos n) else (false, 0)
  let c := deEnCo f && !x.co && k.ready (elCo slot pos n)
  (a.1 || b.1 || c, Nat.max a.2 b.2)

/-- Original digits of an input that the lanes still to decide need next: one aligned digit beyond what both inputs have
delivered (R193, R201, R207). -/
def Cell.coNeed (c : Cell) (second : Bool) : Nat :=
  let v := if second then c.x.b else c.x.a
  if !c.nullKnown then (if v.known || v.killed then 0 else 1)
  else
    (List.range 16).foldl (fun m i =>
      if !c.real i || (c.decided i).isSome then m
      else
        let l := c.lane i
        let ra := c.x.a.reach c.na l.sa
        let av := if c.two then Nat.min ra (c.x.b.reach c.nb l.sb) else ra
        Nat.max m (av + 1 - if second then l.sb else l.sa)) 0

/-- Beats an input still has to deliver for what is requested (R193). -/
def Cluster.elemMissing (k : Cluster) (slot pos n f : Nat) (second : Bool) : Nat :=
  let x := k.elem slot pos n
  let c : Cell := ⟨f, x⟩
  let v := if second then x.b else x.a
  let nd := if second then c.nb else c.na
  let (any, jd) := k.elemDemand slot pos n f
  let w := if second then x.a else x.b
  if v.killed then (if any && c.op == 0x12 && !v.active && w.ended then 1 else 0)
  else if v.done || v.eos then 0
  else if !v.active then (if any then 1 else 0)
  else if v.skip then 1
  else
    let forDigits := if jd == 0 then 0 else c.needOf second jd
    let forHead := if any && c.headNeedsLanes && v.digs.isEmpty then 1 else 0
    let forCo :=
      if deEnCo f && !x.co && k.ready (elCo slot pos n) && c.headReady && !c.allDecided then c.coNeed second else 0
    let want := Nat.min nd (Nat.max forDigits (Nat.max forHead forCo))
    if want == nd && v.digs.length == nd then 1 else want - v.digs.length

/-- OSEL has killed this input before its HEAD and the other's stream has ended: an EOS that comes with the killed value
unmet shows that there was none (R209, R211). -/
def Cluster.elemUnkill (k : Cluster) (key : Nat) (v : InVal) (t : Token) : InVal × Bool :=
  let c := k.chan key
  if t.isEos && c.produced < c.consumed then ({ InVal.reset with eos := true }, true) else ({ v with active := true }, false)

/-- One input consumes its next beat when it is needed. -/
def Cluster.elemTake (k : Cluster) (slot pos n f : Nat) (second : Bool) : Cluster × Bool :=
  let x := k.elem slot pos n
  let v := if second then x.b else x.a
  let key := if second then elB slot pos n else elA slot pos n
  let nd := if second then deNdb f + 1 else deNda f + 1
  match k.next? key with
  | some t =>
    if k.elemMissing slot pos n f second == 0 then (k, false)
    else
      let (v', used) := if v.killed then k.elemUnkill key v t else v.take nd t
      let k1 := if used then k.pop key else k
      (k1.setElem slot pos n (if second then { x with b := v' } else { x with a := v' }), true)
  | none => (k, false)

/-- The control token is asked for with the output beats requested (R193). -/
def Cluster.elemAsksC (k : Cluster) (slot pos n f : Nat) : Bool :=
  let x := k.elem slot pos n
  deEnC f && x.ctl.isNone && ((k.elemDemand slot pos n f).1 || x.x.done || x.a.killed)
    && !(Cell.mk f x).over

/-- The control input: read while a value is in progress, for OSEL from the request of its HEAD; discarded after the
end (R209, R211). -/
def Cluster.elemWantsC (k : Cluster) (slot pos n f : Nat) : Bool :=
  let x := k.elem slot pos n
  k.elemAsksC slot pos n f && (deOp f == 0x12 || x.a.active || x.x.done || x.a.killed)

def Cluster.elemTakeC (k : Cluster) (slot pos n f : Nat) : Cluster × Bool :=
  let x := k.elem slot pos n
  match k.next? (elC slot pos n) with
  | some (.ctl m) =>
    if k.elemWantsC slot pos n f then ((k.pop (elC slot pos n)).setElem slot pos n { x with ctl := some m }, true)
    else if deEnC f && (Cell.mk f x).over then (k.pop (elC slot pos n), true)
    else (k, false)
  | _ => (k, false)

/-- An input value is killed unless its end has been consumed; a stream that has ended has none (R196). -/
def Cluster.elemKill (k : Cluster) (slot pos n : Nat) (second : Bool) : Cluster :=
  let x := k.elem slot pos n
  let v := if second then x.b else x.a
  let key := if second then elB slot pos n else elA slot pos n
  let put (k : Cluster) (v : InVal) : Cluster := k.setElem slot pos n (if second then { x with b := v } else { x with a := v })
  if v.done || v.killed || v.eos then k
  else if !v.active && (k.next? key) == some .eos then put (k.pop key) { v with eos := true }
  else put (k.killValue key) { v with killed := true }

/-- The inputs R196, R201 and R209 kill before the value's end: A and B. -/
def Cell.early (c : Cell) : Bool × Bool :=
  let lanes := List.range 16
  let real := lanes.filter c.real
  let far (second : Bool) : Bool :=
    let v := if second then c.x.b else c.x.a
    let sh (i : Nat) : Nat := if second then (c.align i).2.1 else (c.align i).1
    v.headed && (!v.digs.isEmpty || c.two) && c.headReady && !c.picks
      && lanes.all fun i => v.laneNull i || 16 < sh i
  let dec := isDeciding c.op && c.headReady && c.allDecided
  let lost (o : Bool) : Bool := dec && real.all fun i => (c.decided i).map (·.2) == some o
  match c.op with
  | 0x0D => (far false || lost false, far true || lost true)
  | 0x0E => (far false || lost false, far true || lost true)
  | 0x0F => (far false || lost false, false)
  | 0x10 => (far false || dec, far true || dec)
  | 0x11 => (far false || dec, false)
  | 0x12 =>
    let unsel (a : Bool) : Bool := c.x.ctl.isSome && lanes.all fun i =>
      c.tok i != a || (if a then c.x.a.laneNull i else c.x.b.laneNull i)
    (unsel true, unsel false)
  | _ => (far false, far true)

/-- A vector output needs no more input digits: all its digits are out, it is done, or it is to be a NUL (R208). -/
def Cell.outSated (c : Cell) (y : Bool) (o : OutVal) : Bool :=
  o.done || (o.head && o.dig == c.nx && (c.pending y o).isNone) || (c.headReady && c.outNul y)

/-- R205: a divisor that the element has found below 1/4 and whose digits are all in and all 0, as the value ends. -/
def Cell.divZero (c : Cell) : Bool :=
  let v := if c.op == 0x0A then c.x.b else c.x.a
  let nd := if c.op == 0x0A then c.nb else c.na
  (c.op == 0x0A || c.op == 0x0B) && v.active && (v.done || nd ≤ v.digs.length)
    && (List.range 16).any fun i => bit c.x.small i && (v.laneDigs i).all (· == 0)

/-- KILLs, flags and the end of a value, after beats have moved (R196, R201, R202, R205). A token read for a value that
turns out not to come is discarded (R211). -/
def Cluster.elemSettle (k : Cluster) (slot pos n f : Nat) : Cluster :=
  let x0 := k.elem slot pos n
  let inProg := x0.a.active || x0.b.active || x0.a.killed || x0.b.killed || x0.ctl.isSome || x0.x.done || x0.y.done || x0.co
  if (Cell.mk f x0).over then (if x0.ctl.isNone then k else k.setElem slot pos n { x0 with ctl := none })
  else if !inProg then k
  else
    let (x, fl) := (Cell.mk f x0).keepErrs
    let c : Cell := ⟨f, x⟩
    let k1 := ((if fl == 0 then k else k.raise fl)).setElem slot pos n x
    let sated := (!deEnX f || c.outSated false x.x) && (!deEnY f || c.outSated true x.y) && (!deEnCo f || x.co)
    let (ea, eb) := c.early
    let k2 := if ea || sated then k1.elemKill slot pos n false else k1
    let k3 := if c.two && (eb || sated) then k2.elemKill slot pos n true else k2
    let y := k3.elem slot pos n
    let over_ (v : InVal) : Bool := v.done || v.killed || v.ended
    if (!deEnX f || y.x.done) && (!deEnY f || y.y.done) && (!deEnCo f || y.co) && over_ y.a && (!c.two || over_ y.b)
        && (!c.usesC || y.ctl.isSome) then
      (if (Cell.mk f y).divZero then k3.raise fDZ else k3).setElem slot pos n
        { Elem.reset with q0 := y.q0, q1 := y.q1, a := { InVal.reset with eos := y.a.eos },
                          b := { InVal.reset with eos := y.b.eos } }
    else k3

/-- The beats an element asks of its inputs for what its outputs' demand still needs (R193). -/
def Cluster.elemAsks (k : Cluster) (slot pos n f : Nat) : List (Nat × Nat) :=
  [(elA slot pos n, k.elemMissing slot pos n f false)]
    ++ (if deEnB f then [(elB slot pos n, k.elemMissing slot pos n f true)] else [])
    ++ if k.elemAsksC slot pos n f then [(elC slot pos n, 1)] else []

def Cluster.elemReqs (k : Cluster) (slot pos n f : Nat) : Cluster := k.wants (k.elemAsks slot pos n f)

/-- One clk of an element: emit, consume, settle, request; whether a beat moved. -/
def Cluster.elemFire (k : Cluster) (slot pos n : Nat) : Cluster × Bool :=
  match k.frame slot 1 (pos + 64 * n) with
  | none => (k, false)
  | some f =>
    let (k1, e) := k.elemEmit slot pos n f
    let (k2, a) := k1.elemTake slot pos n f false
    let (k3, b) := if deEnB f then k2.elemTake slot pos n f true else (k2, false)
    let (k4, c) := k3.elemTakeC slot pos n f
    ((k4.elemSettle slot pos n f).elemReqs slot pos n f, e || a || b || c)

/-- The slot an element is running (R16). -/
def Cluster.runningSlot (k : Cluster) (pos n : Nat) : Nat := k.fab.running.get (pos * 4 + n) 0

/-- A slot of an element has a firing ready. -/
def Cluster.canFire (k : Cluster) (slot pos n : Nat) : Bool := k.runs slot && (k.elemFire slot pos n).2

/-- ELEMENT_FIRE: the element's running slot (R16, R193). Demand travels in a slot that does not run as well. -/
def execElementFire (cl slot pos n : Nat) (s : State) : Result :=
  .next <|
    let k := s.cluster cl
    if !k.runs slot || k.saving then s
    else
      let (k1, moved) := k.elemFire slot pos n
      if !moved then s.setCl cl k1
      else if k.runningSlot pos n != slot then s
      else s.setCl cl ((k1.fires slot (unitKey 1 (pos + 64 * n))).count 2 1)

/-- SLOT_SWITCH: the running slot stalls and the first ready one of the others, in rotating order, runs (R16). -/
def execSlotSwitch (cl slot pos n : Nat) (s : State) : Result :=
  .next <|
    let k := s.cluster cl
    let cur := k.runningSlot pos n
    if k.canFire cur pos n then s
    else
      match ((List.range 3).map fun i => (cur + 1 + i) % 4).find? fun j => k.canFire j pos n with
      | none => s
      | some j =>
        if j != slot then s
        else s.setCl cl
          (({ k with fab := { k.fab with running := k.fab.running.set (pos * 4 + n) j } } : Cluster).mapSlot j fun x =>
            { x with fired := x.fired ++ [(unitKey 1 (pos + 64 * n), 1)] })

/-- R194 item 3, R196: a KILL has reached an element's output while its value stood: X, Y or CO. -/
def Cluster.elemKilled (k : Cluster) (slot pos n : Nat) (which : Nat) : Cluster :=
  match k.frame slot 1 (pos + 64 * n) with
  | none => k
  | some f =>
    let x := k.elem slot pos n
    let c : Cell := ⟨f, x⟩
    let o := if which == 1 then x.y else x.x
    let nul := c.headReady && c.outNul (which == 1)
    let left := which < 2 && !nul && o.dig < c.nx
    let x1 : Elem := match which with
      | 0 => { x with x := { o with done := true }, q1 := x.q1 + 1 }
      | 1 => { x with y := { o with done := true }, q1 := x.q1 + 1 }
      | _ => { x with co := true, q1 := x.q1 + 1 }
    let k1 := k.setElem slot pos n x1
    ((if left then (k1.raise fKD).count 3 1 else k1).elemSettle slot pos n f).elemReqs slot pos n f

end Sys2Proof.Machine
end

