-- ==== Sys2Proof/Machine/Legs.lean ====
section
/-! DEFINITION. The legs of switch boxes (R222 to R228): one beat of one leg at a time, demand and KILLs. -/

namespace Sys2Proof.Machine

/-- A leg of a slot's box: its configuration, its place, and its state. -/
structure LegAt where
  slot : Nat
  net : Nat
  pos : Nat
  n : Nat
  c : LegCfg
  deriving DecidableEq, Repr

def LegAt.key (l : LegAt) : Nat := ((l.slot * 3 + l.net) * 64 + l.pos) * 8 + l.n

def LegAt.src (l : LegAt) : Nat := inKey l.slot l.net l.pos l.c.src

/-- SRC2: of the scalar box for IDX and STEER (R224). -/
def LegAt.src2 (l : LegAt) : Nat := inKey l.slot (if l.c.indexed then 0 else l.net) l.pos l.c.src2

def LegAt.out (l : LegAt) (p : Nat) : Nat := outKey l.slot l.net l.pos p

def Cluster.leg (k : Cluster) (l : LegAt) : Leg := k.fab.legs.get l.key Leg.reset

def Cluster.setLeg (k : Cluster) (l : LegAt) (x : Leg) : Cluster :=
  { k with fab := { k.fab with legs := k.fab.legs.set l.key x } }

/-- The leg a slot's image holds. -/
def Cluster.legAt (k : Cluster) (slot net pos n : Nat) : Option LegAt :=
  match k.frame slot 3 (pos + 64 * net) with
  | some f => if n < 6 && (swLeg f n).op != 0 then some ⟨slot, net, pos, n, swLeg f n⟩ else none
  | none => none

/-- The source of the value in progress, or to be taken next. -/
def LegAt.from (l : LegAt) (x : Leg) : Nat := if x.from2 then l.src2 else l.src

/-- A value ends at the leg. -/
def Leg.rest (x : Leg) : Leg := { x with inVal := false, live := [], asErr := 0, lanes := 0 }

/-- Ports of a value that have not killed it before it began; the kills are used up. -/
def Leg.begin (x : Leg) (targets : List Nat) : Leg :=
  { x with inVal := true, live := targets.filter fun p => !x.credit.contains p,
           credit := x.credit.foldl (fun acc p => if targets.contains p && !acc.2.contains p then (acc.1, p :: acc.2)
                                                  else (acc.1 ++ [p], acc.2)) ([], []) |>.1 }

/-- The leg's value is wanted no more: its source's value is killed. -/
def Cluster.legDrop (k : Cluster) (l : LegAt) : Cluster :=
  let x := k.leg l
  if x.inVal && x.live.isEmpty then (k.killValue (l.from x)).setLeg l x.rest else k

/-- Whether a value may begin: its targets and the code it is delivered with as ERR, after its index or predicate
token (R225, R226). -/
def Cluster.legTargets (k : Cluster) (l : LegAt) (x : Leg) : Option (List Nat × Nat × Cluster) :=
  let ps := l.c.ports
  let low := ps.take 1
  if !l.c.indexed then some (ps, 0, k)
  else if x.eosB then some (low, 7, k)
  else
    match k.next? l.src2 with
    | some (.word w) =>
      if l.c.op == 2 then
        if w.toNat < ps.length then some ((ps.drop w.toNat).take 1, 0, k.pop l.src2) else some (low, 8, k.pop l.src2)
      else some (if w.getLsbD 0 then low else ps.drop 1, 0, k.pop l.src2)
    | some (.serr e) => some (low, e, k.pop l.src2)
    | _ => none

/-- One beat to every port that still receives the value, when each has a REQ. -/
def Cluster.legDeliver (k : Cluster) (l : LegAt) (x : Leg) (t : Token) : Option Cluster :=
  if x.live.all fun p => k.ready (l.out p) then some (x.live.foldl (fun k p => k.push (l.out p) t) k) else none

/-- R226: the token that stands for a value delivered as ERR, on the scalar and control networks. -/
def errToken (net code : Nat) : Token := if net == 2 then .ctl 0 else .serr code

/-- The lanes a DIG beat shows as real. -/
def realLanes (d : List Byte) : Nat := laneMask fun i => !bit (d.getD i 0).toNat 3

/-- The source of an IDX or STEER leg of the scalar box is its SRC2 too: index and value come in turn on one side. -/
def LegAt.shared (l : LegAt) : Bool := l.c.indexed && l.src == l.src2

/-- One beat of the value in progress passes (R225, R226). On the vector network a value delivered as ERR keeps its
beats and is given an ERR beat for its real lanes before its TAIL. -/
def Cluster.legPass (k : Cluster) (l : LegAt) : Cluster × Bool :=
  let x := k.leg l
  let src := l.from x
  match k.next? src with
  | none => (k, false)
  | some t =>
    if l.shared && t == .eos then ((k.pop src).setLeg l { x.rest with eosA := true, eosB := true }, true)
    else if x.asErr != 0 && l.net != 1 then
      match k.legDeliver l x (errToken l.net x.asErr) with
      | some k1 => ((((if l.net == 2 then k1.raise fET else k1).pop src)).setLeg l x.rest, true)
      | none => (k, false)
    else
      let isTail := match t with | .tail => true | _ => false
      if x.asErr != 0 && isTail && x.lanes < 2 ^ 16 then
        let m := if x.lanes == 0 then 0xFFFF else x.lanes
        match k.legDeliver l x (.err m x.asErr) with
        | some k1 => (k1.setLeg l { x with lanes := 2 ^ 16 }, true)
        | none => (k, false)
      else
        match k.legDeliver l x t with
        | some k1 =>
          let x1 : Leg := match t with | .dig d => { x with lanes := if x.lanes < 2 ^ 16 then x.lanes ||| realLanes d else x.lanes } | _ => x
          ((k1.pop src).setLeg l (if t.ends then x1.rest else x1), true)
        | none => (k, false)

/-- R225: EOS of SRC goes once to every port of DEST that asks for it. -/
def Cluster.legEos (k : Cluster) (l : LegAt) : Cluster × Bool :=
  let x := k.leg l
  match l.c.ports.find? fun p => !x.eosOut.contains p && k.ready (l.out p) with
  | some p => ((k.push (l.out p) .eos).setLeg l { x with eosOut := x.eosOut ++ [p] }, true)
  | none => (k, false)

/-- The NUL a vector STEER gives the port that does not receive the value (R225). -/
def Cluster.legNul (k : Cluster) (l : LegAt) : Cluster × Bool :=
  let x := k.leg l
  match x.nulTo.find? fun p => k.ready (l.out p) with
  | some p => ((k.push (l.out p) .nul).setLeg l { x with nulTo := x.nulTo.erase p }, true)
  | none => (k, false)

/-- The next beat of a source: a value begins, or EOS is taken. A NUL killed before it was due is not given (R194). -/
def Cluster.legBegin (k : Cluster) (l : LegAt) (from2 : Bool) : Cluster × Bool :=
  let x := k.leg l
  let src := if from2 then l.src2 else l.src
  match k.next? src with
  | none => (k, false)
  | some .eos => ((k.pop src).setLeg l (if from2 then { x with eosB := true } else { x with eosA := true }), true)
  | some _ =>
    match k.legTargets l x with
    | none => (k, false)
    | some (ts, code, k1) =>
      let nuls := if l.c.op == 5 && l.net == 1 then l.c.ports.filter (!ts.contains ·) else []
      let x1 := { x.begin (ts ++ nuls) with live := ts.filter (!x.credit.contains ·), from2 := from2, asErr := code,
                                            nulTo := nuls.filter (!x.credit.contains ·) }
      ((k1.setLeg l x1).legDrop l, true)

/-- The EOS of SRC2 is consumed (R225). -/
def Cluster.legEos2 (k : Cluster) (l : LegAt) : Cluster :=
  let x := k.leg l
  match k.next? l.src2 with
  | some .eos =>
    if l.c.indexed && !x.eosB && !(l.shared && x.inVal) then
      (k.pop l.src2).setLeg l { x with eosB := true, eosA := x.eosA || l.shared }
    else k
  | _ => k

/-- The beats a leg asks of its sources for what its ports ask of it (R193). -/
def Cluster.legAsks (k : Cluster) (l : LegAt) : List (Nat × Nat) :=
  let x := k.leg l
  let any := l.c.ports.any fun p => k.ready (l.out p)
  if l.c.op == 6 then
    let whole := (x.hold.getLast?.map (·.ends)).getD false
    if any && x.hold[x.pos]?.isNone && !whole && !x.eosA then [(l.src, 1)] else []
  else if x.inVal then [(l.from x, (x.live.map fun p => (k.chan (l.out p)).req).foldl Nat.min 2)]
  else
    let n := if any && x.nulTo.isEmpty then 1 else 0
    if l.shared then (if x.eosA then [] else [(l.src, 2 * n)]) else
    (if x.eosA then [] else [(l.src, n)]) ++ (if l.c.op == 4 && !x.eosB then [(l.src2, n)] else [])
      ++ if l.c.indexed && !x.eosB && any then [(l.src2, 1)] else []

def Cluster.legReqs (k : Cluster) (l : LegAt) : Cluster := k.wants (k.legAsks l)

/-- One clk of a ROUTE, BCAST, IDX, STEER or MERGE leg. -/
def Cluster.legStep (k0 : Cluster) (l : LegAt) : Cluster × Bool :=
  let k := k0.legEos2 l
  let x := k.leg l
  let (k1, moved) :=
    if !x.nulTo.isEmpty && (k.legNul l).2 then k.legNul l
    else if x.inVal then k.legPass l
    else if !x.nulTo.isEmpty then (k, false)
    else if x.eosA && (l.c.op != 4 || x.eosB) then k.legEos l
    else if l.c.op == 4 && (x.eosA || (k.next? l.src).isNone) then k.legBegin l true
    else k.legBegin l false
  (k1.legReqs l, moved)

/-- The copy of a HOLD leg ends: the next one, or the next value (R228). -/
def Cluster.holdNext (k : Cluster) (l : LegAt) : Cluster :=
  let x := k.leg l
  if x.copies < l.c.par + 1 then k
  else
    let whole := (x.hold.getLast?.map (·.ends)).getD false
    let k1 := if whole then k else k.killValue l.src
    k1.setLeg l { x with hold := [], copies := 0, pos := 0 }

/-- One clk of a HOLD leg: the current copy's next beat, from the store or from the source (R228). -/
def Cluster.holdStep (k : Cluster) (l : LegAt) : Cluster × Bool :=
  let x := k.leg l
  let key := l.out (l.c.ports.headD 0)
  let give (k : Cluster) (t : Token) (x : Leg) : Cluster :=
    let x1 := if t.ends then { x with copies := x.copies + 1, pos := 0 } else { x with pos := x.pos + 1 }
    ((k.push key t).setLeg l x1).holdNext l
  if !k.ready key then (k, false)
  else
    match x.hold[x.pos]? with
    | some t => (give k t x, true)
    | none =>
      match k.next? l.src with
      | some .eos => if x.hold.isEmpty && !x.eosA then (((k.pop l.src).push key .eos).setLeg l { x with eosA := true }, true) else (k, false)
      | some t => (give (k.pop l.src) t { x with hold := x.hold ++ [t] }, true)
      | none => (k.legReqs l, false)

/-- A leg's event: its operation must be the row's. -/
def State.legEvent (s : State) (op cl slot net pos leg : Nat) : State :=
  let k := s.cluster cl
  match k.legAt slot net pos leg with
  | none => s
  | some l =>
    if l.c.op != op || !k.runs slot || k.saving then s
    else s.setCl cl (if op == 6 then k.holdStep l else k.legStep l).1

/-- LEG_ROUTE (R225). -/
def execLegRoute (cl slot net pos leg : Nat) (s : State) : Result := .next (s.legEvent 1 cl slot net pos leg)

/-- LEG_IDX (R226). -/
def execLegIdx (cl slot net pos leg : Nat) (s : State) : Result := .next (s.legEvent 2 cl slot net pos leg)

/-- LEG_BCAST (R225, R195). -/
def execLegBcast (cl slot net pos leg : Nat) (s : State) : Result := .next (s.legEvent 3 cl slot net pos leg)

/-- LEG_MERGE (R227). -/
def execLegMerge (cl slot net pos leg : Nat) (s : State) : Result := .next (s.legEvent 4 cl slot net pos leg)

/-- LEG_STEER (R225). -/
def execLegSteer (cl slot net pos leg : Nat) (s : State) : Result := .next (s.legEvent 5 cl slot net pos leg)

/-- LEG_HOLD (R228). -/
def execLegHold (cl slot net pos leg : Nat) (s : State) : Result := .next (s.legEvent 6 cl slot net pos leg)

/-- The leg has given the port EOS: a KILL names no value that comes (R190). -/
def Cluster.legOver (k : Cluster) (l : LegAt) (p : Nat) : Bool :=
  let x := k.leg l
  if l.c.op == 6 then x.eosA else x.eosOut.contains p

/-- R194, R195, R227, R228: a KILL of a value on a leg's port that the leg has not passed in full. -/
def Cluster.legKilled (k : Cluster) (l : LegAt) (p : Nat) : Cluster :=
  let x := k.leg l
  if l.c.op == 6 then (k.setLeg l { x with copies := x.copies + 1, pos := 0 }).holdNext l
  else if x.nulTo.contains p then k.setLeg l { x with nulTo := x.nulTo.erase p }
  else if x.inVal && x.live.contains p then (k.setLeg l { x with live := x.live.erase p }).legDrop l
  else
    let x1 := { x with credit := x.credit ++ [p] }
    if !x.inVal && (l.c.op == 1 || l.c.op == 3) && l.c.ports.all x1.credit.contains then
      (k.setLeg l { x1 with credit := l.c.ports.foldl List.erase x1.credit }).killValue l.src
    else k.setLeg l x1

end Sys2Proof.Machine
end

