-- ==== Sys2Proof/Machine/Words.lean ====
section
/-! DEFINITION. The word functions of a port (R242): exact function values to 320 fraction bits, rounded once. -/

namespace Sys2Proof.Machine

/-- One in units of 2^−320. -/
def one320 : Int := 2 ^ 320

/-- Σ z^(2i+1) / (2i+1) for z in units of 2^−320, |z| ≤ 1/3. -/
def atanh320 (z : Int) : Int :=
  ((List.range 110).foldl (fun (acc : Int × Int) i => (acc.1 + acc.2 / (2 * i + 1), acc.2 * z / one320 * z / one320)) (0, z)).1

/-- ln 2. -/
def ln2 : Int := 2 * atanh320 (one320 / 3)

/-- 2^f for f in units of 2^−320, 0 ≤ f < 1: the series of e^(f ln 2). -/
def exp2Frac (f : Int) : Int :=
  let t := f * ln2 / one320
  ((List.range 80).foldl (fun (acc : Int × Int) i => (acc.1 + acc.2, acc.2 * t / one320 / (i + 1))) (0, one320)).1

/-- The integer square root, bit by bit from 2^127 down. -/
def isqrtBits (n : Nat) : Nat :=
  (List.range 128).foldl (fun q i => let t := q + 2 ^ (127 - i); if t * t ≤ n then t else q) 0

/-- A positive value that lies strictly between v and v + 1 units of 2^e. -/
def between (neg : Bool) (v : Nat) (e : Int) : Fp := .fin neg (2 * v + 1) (e - 1)

/-- A finite value in units of 2^−320, when its exponent is at least −320. -/
def fixed (neg : Bool) (m : Nat) (e : Int) : Int := signedTo neg m e (-320)

/-- NaN results: a quiet NaN, with NV for an invalid operand. -/
def nanResult (nv : Bool) : Nat × Nat := (fmt32.nanCode, if nv then fNV else 0)

/-- EXP2 (R242). -/
def exp2W (x : Fp) : Nat × Nat :=
  match x with
  | .nan s => nanResult s
  | .inf neg => if neg then (0, 0) else (fmt32.infCode false, 0)
  | .fin neg m e =>
    if m == 0 then fl32 (.fin false 1 0)
    else if 8 ≤ topExp m e then fl32 (.fin false 1 (if neg then -1000 else 1000))
    else
      let v := fixed neg m e
      let n := v / one320
      let f := v % one320
      if f == 0 then fl32 (.fin false 1 n) else fl32 (between false (exp2Frac f).toNat (n - 320))

/-- LOG2 (R242). -/
def log2W (x : Fp) : Nat × Nat :=
  match x with
  | .nan s => nanResult s
  | .inf neg => if neg then nanResult true else (fmt32.infCode false, 0)
  | .fin neg m e =>
    if m == 0 then (fmt32.infCode true, fDZ)
    else if neg then nanResult true
    else
      let k := topExp m e
      let y := scaleTo m 0 (k - e - 320)
      let n : Int := (y : Int) - one320
      if n == 0 then fl32 (Fp.ofInt k)
      else
        let z := n * one320 / (y + one320)
        let v := k * one320 + 2 * atanh320 z * one320 / ln2
        if v < 0 then fl32 (between true (-v - 1).toNat (-320)) else fl32 (between false v.toNat (-320))

/-- RCP (R242). -/
def rcpW (x : Fp) : Nat × Nat :=
  match x with
  | .nan s => nanResult s
  | .inf neg => fl32 (.fin neg 0 0)
  | .fin neg m e =>
    if m == 0 then (fmt32.infCode neg, fDZ)
    else
      let q := 2 ^ 96 / m
      if q * m == 2 ^ 96 then fl32 (.fin neg q (-96 - e)) else fl32 (between neg q (-96 - e))

/-- RSQRT (R242). -/
def rsqrtW (x : Fp) : Nat × Nat :=
  match x with
  | .nan s => nanResult s
  | .inf neg => if neg then nanResult true else (0, 0)
  | .fin neg m e =>
    if m == 0 then (fmt32.infCode neg, fDZ)
    else if neg then nanResult true
    else
      let (m1, e1) := if e % 2 == 0 then (m, e) else (2 * m, e - 1)
      let q := isqrtBits (2 ^ 200 / m1)
      if q * q * m1 == 2 ^ 200 then fl32 (.fin false q (-100 - e1 / 2)) else fl32 (between false q (-100 - e1 / 2))

/-- TANH (R242): (E − 1) / (E + 1) with E = 2^(2x / ln 2). Below 2^−40 the value lies just below x in magnitude, and
from 64 on just below 1. -/
def tanhW (x : Fp) : Nat × Nat :=
  match x with
  | .nan s => nanResult s
  | .inf neg => fl32 (.fin neg 1 0)
  | .fin neg m e =>
    if m == 0 then fl32 (.fin neg 0 0)
    else if topExp m e < -40 then fl32 (between neg (m * 2 ^ 64 - 1) (e - 64))
    else if 6 ≤ topExp m e then fl32 (between neg (2 ^ 64 - 1) (-64))
    else
      let y := 2 * fixed false m e * one320 / ln2
      let n := y / one320
      let g := exp2Frac (y % one320) * 2 ^ n.toNat
      fl32 (between neg ((g - one320) * one320 / (g + one320)).toNat (-320))

/-- A word function by its port operation, 0x07 to 0x0B. -/
def wordFn (opr : Nat) (w : W32) : W32 × Nat :=
  let x := fmt32.decode w.toNat
  let r := match opr with
    | 7 => exp2W x
    | 8 => log2W x
    | 9 => rcpW x
    | 0x0A => rsqrtW x
    | _ => tanhW x
  (BitVec.ofNat 32 r.1, r.2)

end Sys2Proof.Machine
end

