-- ==== Sys2Proof/Machine/PortParts.lean ====
section
/-! DEFINITION. What the ports of memory tiles share: their channels, indices and addresses, the conversion between
words and digits, and what they emit (R231 to R238, R251 to R253). -/

namespace Sys2Proof.Machine

/-! ### Places -/

/-- A port's slot: its cluster, slot, tile and frame. -/
structure PortAt where
  cl : Nat
  slot : Nat
  tile : Nat
  f : Nat
  deriving DecidableEq, Repr

def PortAt.pos (q : PortAt) : Nat := tilePos q.tile
def PortAt.sa (q : PortAt) : Nat := outKey q.slot 0 q.pos 4
def PortAt.sb (q : PortAt) : Nat := outKey q.slot 0 q.pos 5
def PortAt.va (q : PortAt) : Nat := outKey q.slot 1 q.pos 4
def PortAt.ci (q : PortAt) : Nat := outKey q.slot 2 q.pos 4
def PortAt.sx (q : PortAt) : Nat := inKey q.slot 0 q.pos 4
def PortAt.vx (q : PortAt) : Nat := inKey q.slot 1 q.pos 4
def PortAt.co (q : PortAt) : Nat := inKey q.slot 2 q.pos 4
def PortAt.opr (q : PortAt) : Nat := mtOpr q.f

/-- The output that carries the operation's results: VX for digit values, otherwise SX. -/
def PortAt.out (q : PortAt) : Nat := if q.opr == 3 || q.opr == 0x0C || q.opr == 0x11 then q.vx else q.sx

def Cluster.portAt (k : Cluster) (cl slot tile : Nat) : Option PortAt :=
  (k.frame slot 2 (tilePos tile)).map fun f => ⟨cl, slot, tile, f⟩

def Cluster.portOf (k : Cluster) (q : PortAt) : Port := k.port q.slot q.tile

def Cluster.setPort (k : Cluster) (q : PortAt) (p : Port) : Cluster := k.mapPort q.slot q.tile fun _ => p

def Cluster.updPort (k : Cluster) (q : PortAt) (f : Port → Port) : Cluster := k.mapPort q.slot q.tile f

/-! ### Generators (R251 to R253) -/

/-- The frame of generator g = 1 or 2 as AGR and AGW name them. -/
def Cluster.genFrame (k : Cluster) (q : PortAt) (g : Nat) : Option Nat := k.frame q.slot 4 (q.pos + 64 * (g - 1))

/-- The number of indices of an AFFINE pattern. -/
def agTotal (g : Nat) : Nat := agCount g 0 * agCount g 1 * agCount g 2 * agCount g 3

/-- WRAP (R252). -/
def agWrapped (g : Nat) (i : Int) : Int := if agWrap g == 0 then i else i % (agWrap g : Int)

/-- Index number n of an AFFINE pattern, dimension 0 innermost (R252). -/
def affineIndex (g n : Nat) : Int :=
  let c0 := agCount g 0
  let c1 := agCount g 1
  let c2 := agCount g 2
  agWrapped g (agStart g + ((n % c0 : Nat) : Int) * agStride g 0 + ((n / c0 % c1 : Nat) : Int) * agStride g 1
    + ((n / (c0 * c1) % c2 : Nat) : Int) * agStride g 2 + ((n / (c0 * c1 * c2) : Nat) : Int) * agStride g 3)

/-- The bytes an index addresses (R233). -/
def PortAt.elem (q : PortAt) : Nat :=
  match q.opr with
  | 3 => 64
  | 4 => 64
  | 5 => if mtW64 q.f then 8 else 4
  | 6 => if mtW64 q.f then 8 else 4
  | _ => 4

/-- The indices of one ring slot: words or groups (R253). -/
def PortAt.perSlot (q : PortAt) (r : Ring) : Nat := if q.elem == 64 then r.slotu else 16 * r.slotu

/-- What the address source has: an index, an error, its end, or nothing yet. -/
inductive Idx where
  | at_ (i : Int)
  | bad (code : Nat)
  | ended
  deriving DecidableEq, Repr

/-- The RING generator's slot, whose first byte lies at this offset of the tile (R181, R253). -/
def Ring.slotOff (r : Ring) (produce : Bool) : Nat :=
  64 * (r.base + r.slotu * ((if produce then r.p else r.c) % r.nslot))

/-- The next index of an address field, taken; none while it is not there yet (R232, R251 to R253). -/
def Cluster.takeIndex (k : Cluster) (q : PortAt) (field : Nat) : Option (Cluster × Idx) :=
  let token (conv : Nat → Int) : Option (Cluster × Idx) :=
    match k.next? q.sa with
    | some (.word w) => some (k.pop q.sa, .at_ (conv w.toNat))
    | some (.serr e) => some (k.pop q.sa, .bad e)
    | some .eos => some (k, .ended)
    | _ => none
  if field == 0 then token fun n => n
  else
    let p := k.portOf q
    let gi := field - 1
    match k.genFrame q field with
    | none => some (k, .ended)
    | some g =>
      if h : gi < 2 then
        let n := p.genPos[gi]
        if p.genEnd[gi] then some (k, .ended)
        else
          match agPat g with
          | 1 =>
            if n < agTotal g then
              some (k.setPort q { p with genPos := p.genPos.set gi (n + 1) }, .at_ (affineIndex g n))
            else some (k.setPort q { p with genEnd := p.genEnd.set gi true }, .ended)
          | 2 => token fun t => agWrapped g (agStart g + (t : Int) * agStride g 0)
          | _ =>
            let r := k.ring (agHnd g)
            if p.slotIn[gi] && n < q.perSlot r then
              some (k.setPort q { p with genPos := p.genPos.set gi (n + 1) },
                .at_ ((r.slotOff (agRdir g) / q.elem + n : Nat) : Int))
            else none
      else none

/-- The address field uses tokens on SA: it names no generator, or one with INDEX. -/
def Cluster.fromSa (k : Cluster) (q : PortAt) (field : Nat) : Bool :=
  field == 0 || match k.genFrame q field with | some g => agPat g == 2 | none => false

/-- The field drives the operation by a generator that needs no token. -/
def Cluster.driven (k : Cluster) (q : PortAt) (field : Nat) : Bool := !k.fromSa q field

/-! ### Addresses (R231, R233) -/

/-- Bytes of one buffer. -/
def PortAt.bufLen (q : PortAt) : Nat := 64 * mtLen q.f / (mtNbuf q.f + 1)

/-- R233: where an index of n bytes points: an offset in the window, or none outside the buffer or tile. -/
def PortAt.local_ (q : PortAt) (p : Port) (i : Int) (n : Nat) : Option Nat :=
  let ring := mtMode q.f == 3
  let lim : Int := if ring then 65536 else q.bufLen
  let off := i * n
  if off < 0 || lim < off + n then none
  else some (65536 * q.tile + (if ring then 0 else 64 * mtBase q.f + p.buf * q.bufLen) + off.toNat)

/-- R233: the global address of an index. -/
def PortAt.global (q : PortAt) (i : Int) : Nat := (((mtGbase q.f : Int) + i * q.elem) % 2 ^ 64).toNat

/-- What a port's accesses come after: the region's dispatch and the port's own ring waits (R92, R253). -/
def Cluster.portView (k : Cluster) (q : PortAt) : List Nat := union k.fSeen (k.portOf q).seen

/-- Who makes the port's accesses. -/
def Cluster.portWho (k : Cluster) (q : PortAt) : Who :=
  ⟨q.cl, k.task.ctx, 1, false, k.portView q, [], portKey q.slot q.tile⟩

/-- What a release of the port makes known (R247, R253). -/
def Cluster.portRel (k : Cluster) (q : PortAt) : RelInfo := ⟨union (k.portView q) (k.portOf q).own, .cl, q.cl, [(1, (k.portOf q).own)]⟩

/-- A request of the port: it returns no write older than one that has performed at MO before it is sent (R93). -/
def State.portReq (s : State) (q : PortAt) (kind : ReqKind) (key pa rcls wpol : Nat) (ret : RetTo)
    (leaf : Option TlbEntry) : MemReq :=
  let k := s.cluster q.cl
  { id := s.counter, agent := ⟨q.cl, 1, portKey q.slot q.tile⟩, kind := kind, key := key, pa := pa, asid := k.task.ctx,
    scope := if mtGlob q.f then .mo else .cl, rel := none, view := k.portView q,
    floor := s.links.moDone, wpol := wpol, rcls := rcls, region := 4 * q.cl + q.slot, ret := ret, leaf := leaf }

/-- How an access of a port ends. -/
inductive PortGot where
  | ok (s : State)
  | fail (code : Nat)
  | wait (s : State)

/-- R158, R233: the checks of a global access of n bytes. -/
def globalBad (va n : Nat) : Bool := (checkEa (w64 va) n n).isSome

/-- What an access of a port does once its place is known: `red` for a reduction, `words` for a write of some words of an
element. -/
inductive PortAct where
  | read (n : Nat)
  | words (l : List (Nat × W32))
  | atomic (op : Nat) (w64 : Bool) (y : Word) (red : Bool)

/-- The request of an access at a place. -/
def PortAct.kind (a : PortAct) (base : Nat) (local_ : Bool) : ReqKind :=
  match a with
  | .read n => .read n
  | .words [(i, w)] => if i == 0 then .write (leBytes 4 w.toNat) else .group [(base + 4 * i, leBytes 4 w.toNat)]
  | .words l => .group (l.map fun e => (base + 4 * e.1, leBytes 4 e.2.toNat))
  | .atomic op w y red => if red && local_ then .reds [(base, op, w, y)] else .amo op w y true

/-- R233, R241: an access goes to a tile's array port, through the requester of its slot, to its home, to the host, or to
another module. One that the port waits for is counted: an atomic's old value, and the acknowledgement of a global write
or reduction; a write accepted by a tile has performed (R93). -/
def State.portSend (s : State) (q : PortAt) (t : Target) (a : PortAct) (ret : RetTo)
    (leaf : Option TlbEntry) : PortGot :=
  let sent (s : State) : State := match ret with
    | .portRead _ _ _ _ => s
    | _ => s.mapCl q.cl fun k => k.updPort q fun p => { p with reqs := p.reqs + 1 }
  let atomic : Bool := match a with | .atomic _ _ _ _ => true | _ => false
  match t with
  | .tile key =>
    let r := s.portReq q (a.kind key true) key 0 0 0 (match ret with | .portDone _ _ _ => .nowhere | r => r) none
    match s.toTile q.cl (3 + q.slot) r, ret with
    | some s1, .portDone _ _ _ => .ok s1
    | some s1, _ => .ok (sent s1)
    | none, _ => .wait s
  | .mem key pa rcls =>
    let r := s.portReq q (a.kind key false) key pa rcls ((s.part q.cl).wpol rcls) ret leaf
    .ok (sent ({ s with reqs := s.reqs ++ [r] } : State).fresh)
  | .host off =>
    if atomic then .fail 9
    else
      .ok (sent (s.toHost ⟨q.cl, 1, portKey q.slot q.tile⟩ (s.cluster q.cl).task.ctx off (a.kind off false) ret none leaf))
  | .remote pa =>
    if atomic && hostBase ≤ paLocal pa then .fail 9
    else .ok (sent (s.sendRemote (s.portReq q (a.kind pa false) 0 pa 0 0 ret leaf)))

/-- R233, R235: an access at an index: local, or global through translation. -/
def State.portAccess (s : State) (q : PortAt) (i : Int) (need : Need) (a : PortAct) (ret : Nat → RetTo) : PortGot :=
  let k := s.cluster q.cl
  if mtGlob q.f then
    let va := q.global i
    if globalBad va q.elem then .fail 9
    else
      match s.resolve (k.portWho q) va q.elem need with
      | .ok s1 t => s1.portSend q t a (ret s1.counter) (s1.leafOf (k.portWho q) va)
      | .fail _ _ _ _ => .fail 9
      | .wait s1 => .wait s1
  else
    match q.local_ (k.portOf q) i q.elem with
    | none => .fail 0x101
    | some off => s.portSend q (.tile (tileKey q.cl off)) a (ret s.counter) none

/-! ### Words and digits (R237, R238) -/

/-- The word of a lane as an FP32 value under WFMT. -/
def laneValue (bf16 : Bool) (w : W32) : Fp := fmt32.decode (if bf16 then w.toNat / 65536 * 65536 else w.toNat)

/-- R237: HEAD exponent and n digits of a lane, or its error; radix-4 Booth recoding with one bit of lookahead. -/
def toDigits (x : Fp) (n : Nat) : Option (Int × List Int) :=
  match x with
  | .fin neg m e0 =>
    if m == 0 then some (0, List.replicate n 0)
    else
      let e := (topExp m e0 + 3) / 2
      let sh : Int := e0 + 2 * n + 1 - 2 * e
      let v : Int := if neg then -(m : Int) else m
      let t : Int := if 0 ≤ sh then v * 2 ^ sh.toNat else v / 2 ^ (-sh).toNat
      let u := (t % 2 ^ (2 * n + 1)).toNat
      let b (i : Nat) : Int := if bit u (2 * n + 1 - i) then 1 else 0
      some (e, (List.range n).map fun i => b (2 * i + 2) + b (2 * i + 3) - 2 * b (2 * i + 1))
  | _ => none

/-- The beats of a digit value: lane i is null, in error with a code, or carries an exponent and digits. -/
inductive LaneOut where
  | null
  | err (code : Nat)
  | real (e : Int) (d : List Int)
  deriving DecidableEq, Repr

def LaneOut.headByte : LaneOut → Byte
  | .real e _ => BitVec.ofInt 8 e
  | _ => 0

def LaneOut.digByte (j : Nat) : LaneOut → Byte
  | .null => 8
  | .err _ => 0
  | .real _ d => BitVec.ofNat 8 ((d.getD j 0) % 8).toNat

def LaneOut.code : LaneOut → Nat
  | .err c => c
  | _ => 0

/-- A whole value of n digits: HEAD, ERR beats in ascending code order, DIG beats, TAIL; a NUL when no lane is real. -/
def valueBeats (n : Nat) (ls : List LaneOut) : List Token :=
  if ls.all (· == .null) then [.nul]
  else
    let codes := sortBy (fun a b => a < b) ((ls.map (·.code)).filter (· != 0)).eraseDups
    let mask (c : Nat) : Nat := laneMask fun i => ((ls[i]?).map (·.code)).getD 0 == c
    [.head (ls.map (·.headByte))] ++ codes.map (fun c => .err (mask c) c)
      ++ (List.range n).map (fun j => .dig (ls.map (·.digByte j))) ++ [.tail]

/-- R237: a lane from its word. -/
def laneOf (bf16 : Bool) (n : Nat) (w : W32) : LaneOut :=
  match toDigits (laneValue bf16 w) n with
  | some (e, d) => .real e d
  | none => .err 0x102

/-- R238: the exact value of a lane's first n digits. -/
def digitsFp (e : Int) (d : List Int) (n : Nat) : Fp :=
  let v := (d.take n).foldl (fun acc x => 4 * acc + x) 0
  let m := Nat.min n d.length
  .fin (v < 0) v.natAbs (2 * e - 2 * m)

/-- R238: a lane's word and its flags. -/
def fromDigits (bf16 : Bool) (x : Fp) : W32 × Nat :=
  if bf16 then
    let (c, f) := rneTarget fmtBf16 false x
    (BitVec.ofNat 32 (c * 65536), f)
  else
    let (c, f) := fl32 x
    (BitVec.ofNat 32 c, f)

/-- The lanes of a value that has been consumed: null, in error, or its word with its flags. -/
inductive LaneWord where
  | null
  | err (code : Nat)
  | word (w : W32) (f : Nat)
  deriving DecidableEq, Repr

def laneWord (v : InVal) (bf16 : Bool) (n i : Nat) : LaneWord :=
  if v.laneNull i then .null
  else if v.laneErr i != 0 then .err (v.laneErr i)
  else
    let (w, f) := fromDigits bf16 (digitsFp (v.laneExp i) (v.laneDigs i) n)
    .word w f

/-! ### Emitting -/

/-- R247: the event of EOSEV, a release of class F at CL scope. -/
def Cluster.portEvent (k : Cluster) (q : PortAt) : Cluster :=
  if mtEosev q.f then k.setEvent (mtEvt q.f) (k.portRel q) 3 else k

/-- R231: the current buffer moves on. -/
def Cluster.nextBuf (k : Cluster) (q : PortAt) : Cluster :=
  k.updPort q fun p => { p with buf := (p.buf + 1) % (mtNbuf q.f + 1) }

/-- At most one token on the result output and one on CO, each against a REQ: a group's control token goes before its words, and
the EOS comes after every result (R238, R243). -/
def Cluster.portEmit (k : Cluster) (q : PortAt) : Cluster × Bool :=
  let p := k.portOf q
  let (k1, c) := match p.coQ with
    | t :: r => if k.ready q.co then ((k.push q.co t).updPort q fun p => { p with coQ := r }, true) else (k, false)
    | [] => (k, false)
  match p.outQ with
  | t :: r => if p.coQ.isEmpty && k1.ready q.out then ((k1.push q.out t).updPort q fun p => { p with outQ := r }, true) else (k1, c)
  | [] =>
    if p.eosDue && p.readQ.isEmpty && p.reqs == 0 && p.fifo.isEmpty && p.moving.isNone && k1.ready q.out then
      let k2 := ((k1.push q.out .eos).updPort q fun p => { p with eosDue := false }).portEvent q
      (if (q.opr == 1 || q.opr == 3) && mtAgr q.f != 0 then k2.nextBuf q else k2, true)
    else (k1, c)

/-! ### Bins as enqueues see them (R26, R245) -/

/-- The count of R26 and R219: the bin's records, and those held for it. -/
def Cluster.binCount (k : Cluster) (b : Nat) : Nat :=
  (k.bin b).recs.length + k.pushSlot.toList.countP (k.entersBin b) + k.startQ.countP (k.entersBin b)
    + k.heldRecords.countP (k.entersBin b)

/-- A record has come for a block: the age of an empty bin begins (R26). -/
def Cluster.recordComes (k : Cluster) (r : Record) : Cluster :=
  match k.blockOf r with
  | .inl b => if b != 0xFFF && k.binCount b == 0 then k.mapBin b fun x => { x with since := k.clk, aged := false } else k
  | .inr _ => k

end Sys2Proof.Machine
end

