-- ==== Sys2Proof/Machine/Ports.lean ====
section
/-! DEFINITION. The operations of memory-tile ports (R231 to R255). -/

namespace Sys2Proof.Machine

/-! ### Demand (R236) -/

/-- The beats a port asks of its inputs: as a sink up to the free space, for a reading operation against demand. -/
def Cluster.portAsks (k : Cluster) (q : PortAt) : List (Nat × Nat) :=
  let p := k.portOf q
  let rx := (k.chan q.out).req
  let sa (field n : Nat) : List (Nat × Nat) := if k.fromSa q field then [(q.sa, n)] else []
  match q.opr with
  | 1 => if p.ended then [] else sa (mtAgr q.f) (Nat.min 4 (rx - p.readQ.length - p.outQ.length + p.skips))
  | 2 => (q.sb, 4) :: sa (mtAgw q.f) 4
  | 3 => if p.ended then [] else sa (mtAgr q.f) (if (0 < rx && p.readQ.isEmpty && p.outQ.isEmpty) || 0 < p.skips then 1 else 0)
  | 4 => (q.va, 4) :: sa (mtAgw q.f) 4
  | 5 => (q.sb, 4) :: sa (mtAgw q.f) 4
  | 6 => (q.sb, 4) :: sa (mtAgw q.f) 4
  | 0x0C =>
    if 0 < rx && p.outQ.isEmpty && !p.ended then (if p.lanes.isNone then [(q.ci, 1)] else []) ++ [(q.sb, 1)] else []
  | 0x0D => if (0 < rx || k.ready q.co) && p.outQ.isEmpty && p.coQ.isEmpty && !p.ended then [(q.va, 1)] else []
  | 0x0E => [(q.ci, 4), (q.sb, 4)]
  | 0x10 => if p.ended then [] else [(q.sa, 4)]
  | 0x11 => if p.drainOn || p.ended then [] else [(q.va, Nat.min 4 (2 * mtLen q.f - p.fifo.length))]
  | 0x12 => if p.ended then [] else [(q.sb, Nat.min 4 (8 * mtLen q.f - p.fifo.length))]
  | 0x13 => if p.ended then [] else [(q.sb, if p.fifo.length ≤ 16 * mtLen q.f then 1 else 0)]
  | n => if 7 ≤ n && n ≤ 0x0B && !p.ended then [(q.sb, Nat.min 4 (rx - p.outQ.length))] else []

def Cluster.portReqs (k : Cluster) (q : PortAt) : Cluster := k.wants (k.portAsks q)

/-- One clk of a port: it emits, does the step of its operation, and requests. -/
def State.portRun (s : State) (ops : List Nat) (cl slot tile : Nat) (act : PortAt → State → State × Bool) : State :=
  match (s.cluster cl).portAt cl slot tile with
  | none => s
  | some q =>
    if !ops.contains q.opr || !(s.cluster cl).runs slot || (s.cluster cl).saving then s
    else
      let (k1, e) := (s.cluster cl).portEmit q
      let (s1, a) := act q (s.setCl cl k1)
      let s2 := s1.mapCl cl fun k => k.portReqs q
      if e || a then s2.mapCl cl (·.fires slot (unitKey 2 q.pos)) else s2

/-- The state with a cluster's fabric as it was before: an index is given back when its access is held. -/
def State.restoreFab (s : State) (cl : Nat) (fab : Fabric) : State := s.mapCl cl fun k => { k with fab := fab }

/-- The sink of an error (R235): nothing is performed and ET is set. -/
def State.portSink (s : State) (q : PortAt) : State := s.raise q.cl fET

def State.updPort (s : State) (q : PortAt) (f : Port → Port) : State := s.mapCl q.cl fun k => k.updPort q f

/-! ### Reads (R236, R237, R239) -/

/-- The next read is issued against demand; one for a value killed beforehand only takes its index. A port whose region
keeps its positions takes none (R362). -/
def State.portIssueRead (s : State) (q : PortAt) (wanted : Bool) : State × Bool :=
  let k := s.cluster q.cl
  let p := k.portOf q
  if p.ended || 8 ≤ p.readQ.length || !(wanted || 0 < p.skips) || (k.slot q.slot).keep then (s, false)
  else
    match k.takeIndex q (mtAgr q.f) with
    | none => (s, false)
    | some (k1, i) =>
      let s1 := s.setCl q.cl k1
      let add (s : State) (r : PortRead) : State :=
        s.updPort q fun p => if 0 < p.skips then { p with skips := p.skips - 1 } else { p with readQ := p.readQ ++ [r] }
      match i with
      | .ended =>
        if k.driven q (mtAgr q.f) then (s1.updPort q fun p => { p with ended := true, eosDue := true }, true) else (s, false)
      | .bad c => (add s1 ⟨0, some [], c, false⟩, true)
      | .at_ i =>
        if 0 < p.skips then (add s1 ⟨0, some [], 0, false⟩, true)
        else
          match s1.portAccess q i needR (.read q.elem) fun id => .portRead q.cl q.slot q.tile id with
          | .ok s2 => (add s2 ⟨s2.counter - 1, none, 0, false⟩, true)
          | .fail c => (add s1 ⟨0, some [], c, false⟩, true)
          | .wait s2 => (s2.restoreFab q.cl k.fab, false)

/-- PORT_WRD: a read for each word requested (R236, R239). -/
def execPortWrd (cl slot tile : Nat) (s : State) : Result :=
  .next <| s.portRun [1] cl slot tile fun q s =>
    let k := s.cluster cl
    let p := k.portOf q
    s.portIssueRead q (p.readQ.length + p.outQ.length < (k.chan q.sx).req)

/-- PORT_DRD: the read of a group when its HEAD is requested (R236). -/
def execPortDrd (cl slot tile : Nat) (s : State) : Result :=
  .next <| s.portRun [3] cl slot tile fun q s =>
    let k := s.cluster cl
    let p := k.portOf q
    s.portIssueRead q (p.readQ.isEmpty && p.outQ.isEmpty && k.ready q.vx)

/-- The results of a read: a word on SX or a digit value on VX. -/
def PortAt.result (q : PortAt) (bs : List Byte) : List Token :=
  if q.opr == 1 then (wordsOf bs).map .word
  else valueBeats (mtNd q.f) ((wordsOf bs).map (laneOf (mtWfmt q.f) (mtNd q.f)))

/-- The result of a read that failed (R235). -/
def PortAt.failure (q : PortAt) (code : Nat) : List Token :=
  if q.opr == 1 then [.serr code] else valueBeats (mtNd q.f) (List.replicate 16 (.err code))

/-- NV for a NaN or infinity among the words a DRD or CVD converts (R237). -/
def nonfinFlags (bf16 : Bool) (ws : List W32) : Nat := if ws.all fun w => (laneValue bf16 w).isFin then 0 else fNV

/-- PORT_READ_RETURN: the oldest read's data return and are converted or emitted; a bin's port emits what BDEQ has
dispatched (R233, R235, R237, R239, R243). -/
def execPortReadReturn (cl slot tile : Nat) (s : State) : Result :=
  .next <| s.portRun [1, 3, 0x0F] cl slot tile fun q s =>
    let k := s.cluster cl
    match (k.portOf q).readQ with
    | [] => (s, false)
    | r :: rest =>
      let fin (s : State) (ts : List Token) : State × Bool :=
        (s.updPort q fun p => { p with readQ := rest, outQ := p.outQ ++ ts }, true)
      match r.data with
      | none => (s, false)
      | some bs =>
        if r.killed then fin s []
        else if r.code != 0 then fin s (q.failure r.code)
        else
          let f := if q.opr == 3 then nonfinFlags (mtWfmt q.f) (wordsOf bs) else 0
          fin (if f == 0 then s else s.raise cl f) (q.result bs)

/-! ### Writes (R235, R238, R239) -/

/-- A write at the next index: what it does when the index is there; the flags of its words' conversion come with what is
performed (R235, R238, R251). -/
def State.portPut (s : State) (q : PortAt) (ws : List (Nat × W32)) (nul : Bool) (fl : Nat) (done : State → State) :
    State × Bool :=
  let k := s.cluster q.cl
  let flagged (s : State) : State := if fl == 0 then s else s.raise q.cl fl
  match k.takeIndex q (mtAgw q.f) with
  | none => (s, false)
  | some (k1, i) =>
    let s1 := s.setCl q.cl k1
    match i with
    | .ended => if k.driven q (mtAgw q.f) then (done (if nul then s1 else s1.portSink q), true) else (s, false)
    | .bad _ => (done (s1.portSink q), true)
    | .at_ i =>
      if ws.isEmpty then (done (flagged s1), true)
      else
        match s1.portAccess q i needW (.words ws) fun _ => .portDone q.cl q.slot q.tile with
        | .ok s2 => (done (flagged s2), true)
        | .fail _ => (done (s1.portSink q), true)
        | .wait s2 => (s2.restoreFab q.cl k.fab, false)

/-- The port's region keeps its positions: at a value boundary it takes no further value and no further index (R362). -/
def State.portKeeps (s : State) (q : PortAt) : Bool := ((s.cluster q.cl).slot q.slot).keep

/-- PORT_WWR (R239). Data after the operation's end is discarded with ET. -/
def execPortWwr (cl slot tile : Nat) (s : State) : Result :=
  .next <| s.portRun [2] cl slot tile fun q s =>
    let k := s.cluster cl
    let drop (s : State) : State := s.mapCl cl (·.pop q.sb)
    if s.portKeeps q then (s, false)
    else
      match k.next? q.sb with
      | some (.word w) => if (k.portOf q).ended then (drop (s.portSink q), true) else s.portPut q [(0, w)] false 0 drop
      | some (.serr _) => if (k.portOf q).ended then (drop (s.portSink q), true) else s.portPut q [] false fET drop
      | _ => (s, false)

/-- PORT_DWR: one beat of the value, and its write when it has ended (R238). -/
def execPortDwr (cl slot tile : Nat) (s : State) : Result :=
  .next <| s.portRun [4] cl slot tile fun q s =>
    let k := s.cluster cl
    let p := k.portOf q
    let reset (s : State) : State := s.updPort q fun p => { p with inVal := .reset }
    if p.ended then
      match k.next? q.va with
      | some t => if t.isEos then (s, false) else (((if t == .nul then s else s.portSink q)).mapCl cl (·.pop q.va), true)
      | none => (s, false)
    else if p.inVal.done then
      let n := mtNd q.f
      let ls := (List.range 16).map fun i => (i, laneWord p.inVal (mtWfmt q.f) n i)
      let ws := ls.filterMap fun e => match e.2 with | .word w _ => some (e.1, w) | _ => none
      let fl := ls.foldl (fun acc e => match e.2 with | .word _ f => acc ||| f | .err _ => acc ||| fET | .null => acc) 0
      s.portPut q ws p.inVal.nul fl reset
    else
      match k.next? q.va with
      | some t =>
        if !p.inVal.active && (t.isEos || s.portKeeps q) then (s, false)
        else
          let (v, used) := p.inVal.take (mtNd q.f) t
          (s.mapCl cl fun k => (if used then k.pop q.va else k).updPort q fun p => { p with inVal := v }, true)
      | none => (s, false)

/-! ### Atomics (R240) -/

/-- The operand of AMO and RED from its collected tokens, or the first error among them. -/
def operandOf (ws : List Token) : Nat ⊕ Nat :=
  match ws with
  | [.word a] => .inl a.toNat
  | [.word a, .word b] => .inl (a.toNat + b.toNat * 2 ^ 32)
  | [.serr e] => .inr e
  | [.serr e, _] => .inr e
  | [_, .serr e] => .inr e
  | _ => .inr 0

/-- AMO and RED: operand words, an index, the operation (R235, R240). An AMO waits for the one before it. Of an index and an
operand that are both ERR, the index's code is emitted (log entry 128). -/
def State.portRmw (s : State) (q : PortAt) (amo : Bool) : State × Bool :=
  let k := s.cluster q.cl
  let p := k.portOf q
  let n := if mtW64 q.f then 2 else 1
  let clear (s : State) : State := s.updPort q fun p => { p with words := [] }
  let failed (s : State) (c : Nat) : State :=
    if amo then clear (s.updPort q fun p => { p with outQ := p.outQ ++ List.replicate n (.serr c) }) else clear (s.portSink q)
  let refused (s : State) (c : Nat) : State := failed (if amo then s.portSink q else s) c
  if p.words.length < n then
    match k.next? q.sb with
    | some t =>
      if t.isEos || (p.words.isEmpty && s.portKeeps q) then (s, false)
      else if p.ended then ((s.portSink q).mapCl q.cl (·.pop q.sb), true)
      else (s.mapCl q.cl fun k => (k.pop q.sb).updPort q fun p => { p with words := p.words ++ [t] }, true)
    | none => (s, false)
  else if amo && (p.reqs != 0 || 4 ≤ p.outQ.length) then (s, false)
  else
    match k.takeIndex q (mtAgw q.f) with
    | none => (s, false)
    | some (k1, i) =>
      let s1 := s.setCl q.cl k1
      match i, operandOf p.words with
      | .ended, _ => if k.driven q (mtAgw q.f) then (clear (s1.portSink q), true) else (s, false)
      | .bad c, _ => (failed s1 c, true)
      | .at_ _, .inr c => (failed s1 c, true)
      | .at_ i, .inl y =>
        let ret : RetTo := if amo then .port q.cl q.slot q.tile else .portDone q.cl q.slot q.tile
        match s1.portAccess q i needRW (.atomic (mtRed q.f) (mtW64 q.f) (w64 y) (!amo)) fun _ => ret with
        | .ok s2 => (clear s2, true)
        | .fail c => (refused s1 c, true)
        | .wait s2 => (s2.restoreFab q.cl k.fab, false)

/-- PORT_AMO (R240). -/
def execPortAmo (cl slot tile : Nat) (s : State) : Result :=
  .next <| s.portRun [5] cl slot tile fun q s => s.portRmw q true

/-- PORT_RED (R240). -/
def execPortRed (cl slot tile : Nat) (s : State) : Result :=
  .next <| s.portRun [6] cl slot tile fun q s => s.portRmw q false

/-! ### Word functions and conversions (R237, R238, R242) -/

/-- A word function against demand; an ERR token passes through (R235, R236, R242). -/
def State.portFn (s : State) (q : PortAt) : State × Bool :=
  let k := s.cluster q.cl
  let p := k.portOf q
  let give (s : State) (t : Token) : State × Bool :=
    (s.mapCl q.cl fun k => (k.pop q.sb).updPort q fun p => { p with outQ := p.outQ ++ [t] }, true)
  if (k.chan q.sx).req ≤ p.outQ.length then (s, false)
  else
    match k.next? q.sb with
    | some (.word w) =>
      let (r, f) := wordFn q.opr w
      give (if f == 0 then s else s.raise q.cl f) (.word r)
    | some (.serr e) => give s (.serr e)
    | _ => (s, false)

/-- PORT_EXP2 (R242). -/
def execPortExp2 (cl slot tile : Nat) (s : State) : Result := .next <| s.portRun [7] cl slot tile fun q s => s.portFn q

/-- PORT_LOG2 (R242). -/
def execPortLog2 (cl slot tile : Nat) (s : State) : Result := .next <| s.portRun [8] cl slot tile fun q s => s.portFn q

/-- PORT_RCP (R242). -/
def execPortRcp (cl slot tile : Nat) (s : State) : Result := .next <| s.portRun [9] cl slot tile fun q s => s.portFn q

/-- PORT_RSQRT (R242). -/
def execPortRsqrt (cl slot tile : Nat) (s : State) : Result := .next <| s.portRun [0x0A] cl slot tile fun q s => s.portFn q

/-- PORT_TANH (R242). -/
def execPortTanh (cl slot tile : Nat) (s : State) : Result := .next <| s.portRun [0x0B] cl slot tile fun q s => s.portFn q

/-- The lanes of a mask in ascending order. -/
def maskLanes (m : BitVec 16) : List Nat := (List.range 16).filter m.getLsbD

/-- CVD's value from its lane mask and the tokens collected; missing lanes are ERR EOSMIX (R237, R248). -/
def cvdLanes (f : Nat) (m : BitVec 16) (ws : List Token) : List LaneOut :=
  (List.range 16).map fun i =>
    if !m.getLsbD i then .null
    else
      match ws[((maskLanes m).findIdx (· == i))]? with
      | some (.word w) => laneOf (mtWfmt f) (mtNd f) w
      | some (.serr e) => .err e
      | _ => .err 7

/-- CVD's group is complete: its beats, and NV for a NaN or infinity. -/
def State.cvdFinish (s : State) (q : PortAt) (m : BitVec 16) (ws : List Token) : State :=
  let nums := ws.filterMap fun t => match t with | .word w => some w | _ => none
  let f := nonfinFlags (mtWfmt q.f) nums
  let beats := valueBeats (mtNd q.f) (cvdLanes q.f m ws)
  (if f == 0 then s else s.raise q.cl f).updPort q fun p =>
    if 0 < p.skips then { p with lanes := none, words := [], skips := p.skips - 1 }
    else { p with lanes := none, words := [], outQ := p.outQ ++ beats }

/-- PORT_CVD (R237). No control token is taken where EOS stands on SB (R248). -/
def execPortCvd (cl slot tile : Nat) (s : State) : Result :=
  .next <| s.portRun [0x0C] cl slot tile fun q s =>
    let k := s.cluster cl
    let p := k.portOf q
    if !(k.ready q.vx || 0 < p.skips) || !p.outQ.isEmpty || p.ended then (s, false)
    else
      match p.lanes with
      | none =>
        match k.next? q.ci with
        | some (.ctl m) =>
          let s1 := s.mapCl cl fun k => (k.pop q.ci).updPort q fun p => { p with lanes := some m, words := [] }
          if k.next? q.sb == some .eos then (s, false) else (if m == 0 then s1.cvdFinish q m [] else s1, true)
        | _ => (s, false)
      | some m =>
        match k.next? q.sb with
        | some t =>
          if t.isEos then (s, false)
          else
            let ws := p.words ++ [t]
            let s1 := s.mapCl cl fun k => (k.pop q.sb).updPort q fun p => { p with words := ws }
            (if ws.length == (maskLanes m).length then s1.cvdFinish q m ws else s1, true)
        | none => (s, false)

/-- PORT_CVW (R238). -/
def execPortCvw (cl slot tile : Nat) (s : State) : Result :=
  .next <| s.portRun [0x0D] cl slot tile fun q s =>
    let k := s.cluster cl
    let p := k.portOf q
    if p.ended then (s, false)
    else if p.inVal.done then
      let ls := (List.range 16).map fun i => laneWord p.inVal (mtWfmt q.f) (mtNd q.f) i
      let out := ls.filterMap fun l => match l with | .null => none | .err e => some (.serr e) | .word w _ => some (.word w)
      let fl := ls.foldl (fun acc l => match l with | .word _ f => acc ||| f | _ => acc) 0
      let m := BitVec.ofNat 16 (laneMask fun i => (ls[i]?.map (· != .null)).getD false)
      ((if fl == 0 then s else s.raise cl fl).updPort q fun p =>
        { p with inVal := .reset, coQ := p.coQ ++ [.ctl m], outQ := p.outQ ++ out }, true)
    else if !p.outQ.isEmpty || !p.coQ.isEmpty then (s, false)
    else
      match k.next? q.va with
      | some t =>
        if t.isEos && !p.inVal.active then (s, false)
        else
          let (v, used) := p.inVal.take (mtNd q.f) t
          (s.mapCl cl fun k => (if used then k.pop q.va else k).updPort q fun p => { p with inVal := v }, true)
      | none => (s, false)

/-! ### Records (R244) -/

/-- A record from its sixteen words, or the first error among them. -/
def recordOf (ws : List Token) : Record ⊕ Nat :=
  match ws.findSome? fun t => match t with | .serr e => some e | _ => none with
  | some e => .inr e
  | none =>
    let ns := ws.filterMap fun t => match t with | .word w => some w | _ => none
    .inl ⟨w64 ((ns.getD 0 0).toNat + (ns.getD 1 0).toNat * 2 ^ 32), ns.drop 2⟩

/-- PORT_BENQ: lane mask, then sixteen words a lane; each record waits in the port's write queue (R244, R245). -/
def execPortBenq (cl slot tile : Nat) (s : State) : Result :=
  .next <| s.portRun [0x0E] cl slot tile fun q s =>
    let k := s.cluster cl
    let p := k.portOf q
    match p.lanes with
    | none =>
      match k.next? q.ci with
      | some (.ctl m) =>
        (s.mapCl cl fun k => (k.pop q.ci).updPort q fun p =>
          { p with lanes := if m == 0 then none else some m, words := [] }, true)
      | _ => (s, false)
    | some m =>
      if 16 ≤ p.heldRec.length then (s, false)
      else
        match k.next? q.sb with
        | some t =>
          if t.isEos then (s, false)
          else
            let ws := p.words ++ [t]
            let s1 := s.mapCl cl (·.pop q.sb)
            if ws.length % 16 != 0 then (s1.updPort q fun p => { p with words := ws }, true)
            else
              let done := ws.length == 16 * (maskLanes m).length
              let upd (p : Port) : Port :=
                { p with words := if done then [] else ws, lanes := if done then none else some m }
              match recordOf (ws.drop (ws.length - 16)) with
              | .inl r =>
                (s1.mapCl cl fun k => (k.recordComes r).updPort q fun p => { upd p with heldRec := p.heldRec ++ [r] }, true)
              | .inr _ => ((s1.portSink q).updPort q upd, true)
        | none => (s, false)

/-! ### Moves (R249) -/

/-- MOVE reads its elements, all before the first is written, and owes their writes and its completion word (R105, R249); its
slot's requester has the turn at the tile's array port (R241). -/
def State.tileMove (s : State) (q : PortAt) (base : Nat) (pairs : List (Nat × Nat)) (t : Token) : Option State :=
  match s.engineTurn q.cl (3 + q.slot) (pairs.map fun e => (winBase + base + e.1, 4)) [] with
  | none => none
  | some (s1, _) =>
    let due := pairs.map fun e => (tileKey q.cl (base + e.2), s1.rawRead (tileKey q.cl (base + e.1)) 4)
    some (s1.updPort q fun p => { p with words := [], moving := some (due, t) })

/-- The next write of a MOVE enters the tile's queue; the completion word follows the last (R241, R249). -/
def State.moveOn (s : State) (q : PortAt) (due : List (Nat × List Byte)) (t : Token) : State × Bool :=
  match due with
  | [] => (s.updPort q fun p => { p with moving := none, outQ := p.outQ ++ [t] }, true)
  | (key, bs) :: r =>
    match s.toTile q.cl (3 + q.slot) (s.portReq q (.write bs) key 0 0 0 .nowhere none) with
    | some s1 => (s1.updPort q fun p => { p with moving := some (r, t) }, true)
    | none => (s, false)

/-- The indices a generator of MOVE has for n pairs, as offsets of 4-byte elements: an AFFINE pattern's own, or those of an
INDEX pattern from the tokens that follow the trigger, of which it takes one in each `step` beginning with number `first`. -/
def genOffsets (g n : Nat) (toks : List Nat) (first step : Nat) : List Int :=
  (List.range n).map fun i =>
    4 * if agPat g == 2 then agWrapped g (agStart g + (toks.getD (first + step * i) 0 : Int) * agStride g 0) else affineIndex g i

/-- The pairs MOVE can make: as many as both patterns give, an INDEX pattern one for each token it takes. -/
def movePairs (g h : Nat) (toks : List Nat) : List (Int × Int) :=
  let step := (if agPat g == 2 then 1 else 0) + if agPat h == 2 then 1 else 0
  let some_ (x : Nat) : Nat := if agPat x == 2 then toks.length / step else agTotal x
  let n := Nat.min (some_ g) (some_ h)
  (genOffsets g n toks 0 step).zip (genOffsets h n toks (if agPat g == 2 then 1 else 0) step)

/-- The pairs end with an AFFINE pattern that has given all its indices; INDEX patterns end at EOS alone (R251, R252). -/
def moveFull (g h : Nat) (toks : List Nat) : Bool :=
  let step := (if agPat g == 2 then 1 else 0) + if agPat h == 2 then 1 else 0
  step == 0 || (agPat g != 2 && agTotal g * step ≤ toks.length) || (agPat h != 2 && agTotal h * step ≤ toks.length)

/-- The numbers among tokens, and the first error. -/
def numbersOf (ws : List Token) : List Nat := ws.filterMap fun t => match t with | .word w => some w.toNat | _ => none
def errorOf (ws : List Token) : Option Nat := ws.findSome? fun t => match t with | .serr e => some e | _ => none

/-- A move request of the words stands complete, but for its performance. -/
def Cluster.moveReady (k : Cluster) (q : PortAt) : Bool :=
  let ws := (k.portOf q).words
  if mtAgr q.f == 0 then ws.length == 3
  else
    match k.genFrame q (mtAgr q.f), k.genFrame q (mtAgw q.f) with
    | some g, some h => !ws.isEmpty && ((k.portOf q).genEnd[0] || moveFull g h (numbersOf (ws.drop 1)))
    | _, _ => !ws.isEmpty

/-- A request of INDEX patterns is being collected, which EOS completes. -/
def Cluster.moveOpen (k : Cluster) (q : PortAt) : Bool := mtAgr q.f != 0 && !(k.portOf q).words.isEmpty

/-- PORT_MOVE (R249). The pairs end with the first generator that ends, so a later trigger moves nothing. -/
def execPortMove (cl slot tile : Nat) (s : State) : Result :=
  .next <| s.portRun [0x10] cl slot tile fun q s =>
    let k := s.cluster cl
    let p := k.portOf q
    let base := 65536 * tile + 64 * mtBase q.f + p.buf * q.bufLen
    let give (s : State) (t : Token) : State × Bool :=
      (s.updPort q fun p => { p with words := [], outQ := p.outQ ++ [t] }, true)
    let atEos := (k.next? q.sa).map (·.isEos) == some true
    let moved (r : Option State) : State × Bool := match r with | some s1 => (s1, true) | none => (s, false)
    if let some (due, t) := p.moving then s.moveOn q due t
    else if !(k.moveReady q || (k.moveOpen q && atEos)) then
      match k.next? q.sa with
      | some t =>
        if t.isEos || p.ended || (p.words.isEmpty && s.portKeeps q) then (s, false)
        else (s.mapCl cl fun k => (k.pop q.sa).updPort q fun p => { p with words := p.words ++ [t] }, true)
      | none => (s, false)
    else if !p.outQ.isEmpty || s.tilePending (tileKey cl (65536 * tile)) (union (k.portView q) p.own) then (s, false)
    else
      match errorOf p.words, mtAgr q.f == 0, numbersOf p.words with
      | some e, _, _ => give s (.serr e)
      | none, true, [a, b, l] =>
        if l == 0 then give s (.word 0)
        else if q.bufLen < a + l || q.bufLen < b + l || a % 4 != 0 || b % 4 != 0 || l % 4 != 0 then give s (.serr 0x101)
        else moved (s.tileMove q base ((List.range (l / 4)).map fun i => (a + 4 * i, b + 4 * i)) (.word (BitVec.ofNat 32 l)))
      | none, false, _ :: toks =>
        match k.genFrame q (mtAgr q.f), k.genFrame q (mtAgw q.f) with
        | some g, some h =>
          let ok (x : Int) : Bool := 0 ≤ x && x + 4 ≤ q.bufLen
          let all := if p.genEnd[0] || p.genEnd[1] then [] else movePairs g h toks
          let s1 := s.updPort q fun p => { p with genEnd := #v[true, true] }
          if all.all fun e => ok e.1 && ok e.2 then
            moved (s1.tileMove q base (all.map fun e => (e.1.toNat, e.2.toNat)) (.word (BitVec.ofNat 32 (4 * all.length))))
          else give s1 (.serr 0x101)
        | _, _ => give s (.word 0)
      | _, _, _ => give s (.word 0)

/-! ### FIFOs and line buffers (R246) -/

/-- The FIFO's head goes out against a REQ. -/
def State.fifoOut (s : State) (q : PortAt) (may : Bool) : State × Bool :=
  let k := s.cluster q.cl
  match (k.portOf q).fifo with
  | t :: r =>
    let out (k : Cluster) : Cluster := (k.push q.out t).updPort q fun p => { p with fifo := r }
    if may && k.ready q.out then (s.mapCl q.cl fun k => if t.isEos then (out k).portEvent q else out k, true) else (s, false)
  | [] => (s, false)

/-- The next token of an input enters the FIFO while it has room. -/
def State.fifoIn (s : State) (q : PortAt) (key cap : Nat) : State × Bool :=
  let k := s.cluster q.cl
  let p := k.portOf q
  match k.next? key with
  | some t =>
    if t.isEos || p.ended || cap ≤ p.fifo.length then (s, false)
    else (s.mapCl q.cl fun k => (k.pop key).updPort q fun p => { p with fifo := p.fifo ++ [t] }, true)
  | none => (s, false)

/-- The values MXC.DRAIN.D emits: 16 columns each, row by row (R290). -/
def MatRun.valueCount (r : MatRun) : Nat :=
  match r.cmd.shape with
  | some (m, n, _) => m * ((n + 15) / 16)
  | none => 0

/-- Values a row of a drain into the fabric emits. -/
def MatRun.perRow (r : MatRun) : Nat :=
  match r.cmd.shape with
  | some (_, n, _) => (n + 15) / 16
  | none => 1

/-- A drain into the fabric has begun a row and not ended it (R362). -/
def MatRun.midRow (r : MatRun) : Bool := r.fetched < r.valueCount && (r.planes != 0 || r.fetched % r.perRow != 0)

/-- MROWP counts the rows a drain has done (R280, R362). -/
def Matrix.showRows (m : Matrix) (r : MatRun) : Matrix :=
  { m with mrowp := m.mrowp &&& ~~~(w64 (2 ^ 28 - 1)) ||| w64 (r.fetched / r.perRow % 2 ^ 28) }

/-- Beats of value i of a drain into the fabric: lane j is column 16c + j by R237 from the exact accumulator value
(R290). -/
def Cluster.drainValue (k : Cluster) (r : MatRun) (ndm1 : Nat) (acci : Bool) (i : Nat) : List Token :=
  match r.cmd.shape with
  | some (_, n, _) =>
    let per := (n + 15) / 16
    let lane (j : Nat) : LaneOut :=
      let col := 16 * (i % per) + j
      let w := k.mat.acc.get (256 * (i / per) + col) 0
      if n ≤ col then .null
      else
        match toDigits (if acci then .ofInt w.toInt else fmt32.decode w.toNat) (ndm1 + 1) with
        | some (e, d) => .real e d
        | none => .err 0x102
    valueBeats (ndm1 + 1) ((List.range 16).map lane)
  | none => []

/-- The next beat of the drain that feeds a FIFO, or its EOS (R290); one that is stopped goes on to the end of its row
(R362). -/
def Cluster.drainBeat (k : Cluster) (q : PortAt) : Option (Cluster × Token) :=
  match k.mat.cur with
  | some r =>
    match r.cmd.op with
    | .drainD tile slot ndm1 acci =>
      if tile != q.tile || slot != q.slot || (k.mat.stopped && !r.midRow) || r.valueCount < r.fetched then none
      else if r.fetched == r.valueCount then
        some ({ k with mat := { k.mat with cur := some { r with fetched := r.fetched + 1 } } }, .eos)
      else
        let v := k.drainValue r ndm1 acci r.fetched
        let r1 := if r.planes + 1 < v.length then { r with planes := r.planes + 1 } else { r with fetched := r.fetched + 1, planes := 0 }
        let nonfin (t : Token) : Bool := match t with | .err _ _ => true | _ => false
        let k1 : Cluster := { k with mat := { k.mat.showRows r1 with cur := some r1 } }
        some (if r.planes == 0 && v.any nonfin then k1.raise fNV else k1, v.getD r.planes .nul)
    | _ => none
  | none => none

/-- A KILL has passed the FIFO: the drain stops its current value and goes on with the next (R290). -/
def Cluster.drainSkip (k : Cluster) : Cluster :=
  match k.mat.cur with
  | some r =>
    if r.fetched < r.valueCount then
      let r1 := { r with fetched := r.fetched + 1, planes := 0 }
      { k with mat := { k.mat.showRows r1 with cur := some r1 } }
    else k
  | none => k

/-- PORT_FIFOV; VA takes nothing while a drain runs, which feeds the FIFO in its place (R246, R290). -/
def execPortFifov (cl slot tile : Nat) (s : State) : Result :=
  .next <| s.portRun [0x11] cl slot tile fun q s =>
    let (s1, a) := s.fifoOut q true
    let k := s1.cluster cl
    if (k.portOf q).drainOn then
      if 2 * mtLen q.f ≤ (k.portOf q).fifo.length then (s1, a)
      else
        match k.drainBeat q with
        | some (k1, t) => (s1.setCl cl (k1.updPort q fun p => { p with fifo := p.fifo ++ [t] }), true)
        | none => (s1, a)
    else
      let (s2, b) := s1.fifoIn q q.va (2 * mtLen q.f)
      (s2, a || b)

/-- PORT_FIFOS (R246). -/
def execPortFifos (cl slot tile : Nat) (s : State) : Result :=
  .next <| s.portRun [0x12] cl slot tile fun q s =>
    let (s1, a) := s.fifoOut q true
    let (s2, b) := s1.fifoIn q q.sb (8 * mtLen q.f)
    (s2, a || b)

/-- PORT_LBUF: the token with ordinal i − W when token i arrives; at EOS those still held (R246). -/
def execPortLbuf (cl slot tile : Nat) (s : State) : Result :=
  .next <| s.portRun [0x13] cl slot tile fun q s =>
    let p := (s.cluster cl).portOf q
    let (s1, a) := s.fifoOut q (p.ended || 16 * mtLen q.f < p.fifo.length)
    let (s2, b) := s1.fifoIn q q.sb (16 * mtLen q.f + 1)
    (s2, a || b)

/-! ### End of stream (R247, R248) -/

/-- The operation ends, owing its output an EOS or not; on the governing input the event is set and the buffer moves
on (R231, R247). -/
def Cluster.portEnd (k : Cluster) (q : PortAt) (due governing : Bool) : Cluster :=
  let k1 := k.updPort q fun p => { p with ended := true, eosDue := due }
  if governing then (k1.portEvent q).nextBuf q else k1

/-- BENQ's group at EOS: the lanes whose words are complete are enqueued already; the others are ERR EOSMIX. -/
def State.benqEnd (s : State) (q : PortAt) : State :=
  match ((s.cluster q.cl).portOf q).lanes with
  | some _ => (s.portSink q).updPort q fun p => { p with lanes := none, words := [] }
  | none => s

/-- PORT_EOS: EOS on the input that governs the operation, or on the index input, ends it (R239, R248). An operand or move
request that stands complete is performed first; the event waits for the port's reads to return and its writes to perform
(R91, R247). The words of an incomplete MOVE request are dropped without ET; half a 64-bit operand at EOS on SB is discarded
with ET, as R248 says of EOS on SA (log entry 128). -/
def execPortEos (cl slot tile : Nat) (s : State) : Result :=
  .next <| s.portRun [1, 2, 3, 4, 5, 6, 7, 8, 9, 0x0A, 0x0B, 0x0C, 0x0D, 0x0E, 0x10, 0x11, 0x12, 0x13] cl slot tile fun q s =>
    let k := s.cluster cl
    let p := k.portOf q
    let eosAt (key : Nat) : Bool := (k.next? key).map (·.isEos) == some true
    let returned := !mtEosev q.f || p.readQ.all (·.data.isSome)
    let fin (s : State) (key : Nat) (due gov : Bool) : State × Bool :=
      (s.mapCl cl fun k => (k.pop key).portEnd q due gov, true)
    let dataEnd (key : Nat) (due : Bool) (pending : Bool) : State × Bool :=
      if mtEosev q.f && p.reqs != 0 then (s, false)
      else if p.ended then (s.mapCl cl fun k => ((k.pop key).portEvent q).nextBuf q, true)
      else
        let s1 := if pending then s.portSink q else s
        fin (s1.updPort q fun p => { p with words := [] }) key due true
    let saEnd (due : Bool) (pending : Bool) (data : Nat) : State × Bool :=
      if p.ended then (s.mapCl cl (·.pop q.sa), true)
      else
        let s1 := if pending then s.portSink q else s
        let s2 := s1.updPort q fun p => { p with words := [], inVal := .reset }
        let waiting := match k.next? data with | some t => !t.isEos && t != .nul | none => false
        fin (if waiting && !pending then s2.portSink q else s2) q.sa due false
    match q.opr with
    | 1 => if k.fromSa q (mtAgr q.f) && eosAt q.sa && !p.ended && returned then fin s q.sa true (mtAgr q.f == 0) else (s, false)
    | 3 => if k.fromSa q (mtAgr q.f) && eosAt q.sa && !p.ended && returned then fin s q.sa true (mtAgr q.f == 0) else (s, false)
    | 2 =>
      if eosAt q.sb then dataEnd q.sb false false
      else if k.fromSa q (mtAgw q.f) && eosAt q.sa then saEnd false false q.sb else (s, false)
    | 4 =>
      if eosAt q.va && !p.inVal.active then dataEnd q.va false false
      else if k.fromSa q (mtAgw q.f) && eosAt q.sa then saEnd false (p.inVal.active && !p.inVal.nul) q.va else (s, false)
    | 5 =>
      if eosAt q.sb && p.words.length < (if mtW64 q.f then 2 else 1) then dataEnd q.sb true (!p.words.isEmpty && p.words.length < (if mtW64 q.f then 2 else 1))
      else if k.fromSa q (mtAgw q.f) && eosAt q.sa then saEnd true (!p.words.isEmpty) q.sb else (s, false)
    | 6 =>
      if eosAt q.sb && p.words.length < (if mtW64 q.f then 2 else 1) then dataEnd q.sb false (!p.words.isEmpty && p.words.length < (if mtW64 q.f then 2 else 1))
      else if k.fromSa q (mtAgw q.f) && eosAt q.sa then saEnd false (!p.words.isEmpty) q.sb else (s, false)
    | 0x0C =>
      if eosAt q.sb && !p.ended then
        let s1 := match p.lanes with | some m => s.cvdFinish q m p.words | none => s
        fin s1 q.sb true true
      else (s, false)
    | 0x0D => if eosAt q.va && !p.inVal.active && !p.ended then fin s q.va true true else (s, false)
    | 0x0E => if eosAt q.sb && !p.ended then fin (s.benqEnd q) q.sb false true else (s, false)
    | 0x10 => if eosAt q.sa && !p.ended && !k.moveReady q && !k.moveOpen q && p.moving.isNone then fin (s.updPort q fun p => { p with words := [] }) q.sa true true else (s, false)
    | 0x11 =>
      if eosAt q.va && !p.ended && !p.drainOn then fin (s.updPort q fun p => { p with fifo := p.fifo ++ [.eos] }) q.va false true
      else (s, false)
    | 0x12 => if eosAt q.sb && !p.ended then fin (s.updPort q fun p => { p with fifo := p.fifo ++ [.eos] }) q.sb false true else (s, false)
    | _ => if eosAt q.sb && !p.ended then fin s q.sb true true else (s, false)

/-! ### RING generators (R253) -/

/-- The generator of a port, when it is a RING. -/
def Cluster.ringGen (k : Cluster) (q : PortAt) (gen : Nat) : Option Nat :=
  match k.genFrame q (gen + 1) with
  | some g => if agPat g == 3 then some g else none
  | none => none

/-- RING_GENERATOR_SLOT: the check at a slot's start, then a full or free slot with its acquire; the pattern's end
after SCNT slots or on a ring found empty and ended (R253, R272). -/
def execRingGeneratorSlot (cl slot tile gen : Nat) (s : State) : Result :=
  .next <|
    let k := s.cluster cl
    match k.portAt cl slot tile with
    | none => s
    | some q =>
      match k.ringGen q gen with
      | none => s
      | some g =>
        if h : gen < 2 then
          let p := k.portOf q
          let r := k.ring (agHnd g)
          let reading := q.opr == 1 || q.opr == 3
          let stop (k : Cluster) (err : Bool) : Cluster := k.updPort q fun p =>
            { p with genEnd := p.genEnd.set gen true, ended := p.ended || reading, eosDue := p.eosDue || reading,
                     outQ := p.outQ ++ if err && reading then q.failure 0x103 else [] }
          if !k.runs slot || (k.slot slot).keep || k.saving || p.slotIn[gen] || p.genEnd[gen] || p.ended then s
          else if agScnt g != 0 && agScnt g ≤ p.slotsDone[gen] then s.setCl cl (stop k false)
          else if !r.defined || r.tmask != 2 ^ tile then s.setCl cl (stop k true)
          else if (if agRdir g then r.free else r.full) == 0 then
            if !agRdir g && agScnt g == 0 && r.ended && r.p == r.c then s.setCl cl (stop k false) else s
          else
            let rs := if agRdir g then r.relC else r.relP
            s.setCl cl (k.updPort q fun p =>
              { p with seen := union p.seen (learned rs cl .cl), slotIn := p.slotIn.set gen true, genPos := p.genPos.set gen 0 })
        else s

/-- RING_GENERATOR_ADVANCE: after the slot's accesses, or when a writer's data has ended within it (R253). -/
def execRingGeneratorAdvance (cl slot tile gen : Nat) (s : State) : Result :=
  .next <|
    let k := s.cluster cl
    match k.portAt cl slot tile with
    | none => s
    | some q =>
      match k.ringGen q gen with
      | none => s
      | some g =>
        if h : gen < 2 then
          let p := k.portOf q
          let r := k.ring (agHnd g)
          let all := q.perSlot r ≤ p.genPos[gen]
          let part := agRdir g && p.ended && 0 < p.genPos[gen]
          if !p.slotIn[gen] || !(all || part) || !p.readQ.isEmpty then s
          else
            s.setCl cl ((k.advance (agHnd g) (agRdir g) 1 (k.portRel q) (3 + slot)).updPort q fun p =>
              { p with slotIn := p.slotIn.set gen false, genPos := p.genPos.set gen 0,
                       slotsDone := p.slotsDone.set gen (p.slotsDone[gen] + 1) })
        else s

/-! ### KILLs (R194, R236, R246) -/

/-- A KILL has reached a port's VX or SX while the value stood. -/
def Cluster.portKilled (k : Cluster) (q : PortAt) : Cluster :=
  let p := k.portOf q
  if q.opr == 0x11 || q.opr == 0x12 then
    let (rest, whole) := dropValue p.fifo
    let k1 := k.updPort q fun p => { p with fifo := rest }
    if whole then k1 else if p.drainOn then k1.drainSkip else k1.killValue (if q.opr == 0x11 then q.va else q.sb)
  else if !p.outQ.isEmpty then k.updPort q fun p => { p with outQ := (dropValue p.outQ).1 }
  else
    match p.readQ.findIdx? fun r => !r.killed with
    | some i => k.updPort q fun p => { p with readQ := modNth p.readQ i fun r => { r with killed := true } }
    | none => k.updPort q fun p => { p with skips := p.skips + 1 }

end Sys2Proof.Machine
end

