-- ==== Sys2Proof/Machine/Kills.lean ====
section
/-! DEFINITION. KILLs on the reverse paths (R194 to R196). -/

namespace Sys2Proof.Machine

/-- What produces the beats of a channel. -/
inductive Producer where
  | leg (l : LegAt) (port : Nat)
  | elem (n which : Nat)
  | port (q : PortAt)
  | nothing
  deriving DecidableEq, Repr

/-- The leg of a box that drives an outgoing port (R223). -/
def Cluster.legTo (k : Cluster) (slot net pos port : Nat) : Producer :=
  match ((List.range 6).filterMap (k.legAt slot net pos)).find? fun l => l.c.ports.contains port with
  | some l => .leg l port
  | none => .nothing

/-- The producer of a channel (R222, R223). -/
def Cluster.producer (k : Cluster) (cl key : Nat) : Producer :=
  let a := chanAt key
  if a.local_ then k.legTo a.slot a.net a.pos a.port
  else if a.port < 4 then
    let n := neighbour a.pos a.port
    k.legTo a.slot a.net n.1 n.2
  else if digitTile a.pos then
    if a.net == 1 then .elem ((a.port - 4) / 2) ((a.port - 4) % 2) else .elem (a.port - 4) 2
  else
    match k.portAt cl a.slot (posTile a.pos) with
    | some q => .port q
    | none => .nothing

/-- The element's output still stands at the end of the value before, so the KILL's value has not begun. -/
def Cluster.outputDone (k : Cluster) (slot pos n which : Nat) : Bool :=
  let x := k.elem slot pos n
  match which with
  | 0 => x.x.done
  | 1 => x.y.done
  | _ => x.co

/-- The producer has ended the channel's stream, so that the KILL names no value (R190, R194). -/
def Cluster.streamOver (k : Cluster) (slot pos : Nat) : Producer → Bool
  | .leg l p => k.legOver l p
  | .elem n which => if which == 0 then (k.elem slot pos n).x.eos else which == 1 && (k.elem slot pos n).y.eos
  | .port q => (k.portOf q).ended && !(k.portOf q).eosDue && (k.portOf q).outQ.isEmpty && (k.portOf q).fifo.all (·.isEos)
  | .nothing => false

/-- KILL_ARRIVAL: a producer that has emitted the value's end, or whose stream has ended, drops the KILL; otherwise it
stops the value and begins the next on the next REQ (R194 items 3 and 4, R195, R196). KILLs of one channel arrive in
order. -/
def execKillArrival (cl k : Nat) (s : State) : Result :=
  .next <|
    let u := s.cluster cl
    match u.fab.kills[k]? with
    | none => s
    | some d =>
      if (u.fab.kills.take k).any (·.chan == d.chan) || u.saving then s
      else
        let c := u.chan d.chan
        let gone : Cluster := { u with fab := { u.fab with kills := dropNth u.fab.kills k } }
        let a := chanAt d.chan
        if c.produced != d.ordinal || u.streamOver a.slot a.pos (u.producer cl d.chan) then s.setCl cl gone
        else
          let stop : Cluster := gone.setChan d.chan { c with produced := c.produced + 1, req := 0 }
          match u.producer cl d.chan with
          | .leg l p => s.setCl cl (stop.legKilled l p)
          | .elem n which =>
            if u.outputDone a.slot a.pos n which then s else s.setCl cl (stop.elemKilled a.slot a.pos n which)
          | .port q => s.setCl cl (stop.portKilled q)
          | .nothing => s.setCl cl stop

end Sys2Proof.Machine
end

