-- ==== Sys2Proof/Machine/Regions.lean ====
section
/-! DEFINITION. Configuration slots and bins: periods, quiescence, enqueues, candidates, and the record reads of an
issuing sequencer (R8 to R29, R212 to R221, R401, R422). -/

namespace Sys2Proof.Machine

/-! ### Record reads at issue (R125, R158, R170, R351) -/

/-- An operation of a sequencer on the lines of va … va + n − 1 that has not performed: a record read of the sequencer comes after
it (R85 item 1, R88, R126). -/
def State.blocksRecord (s : State) (c : Nat) (q : SeqId) (va n : Nat) (o : LongOp) : Bool :=
  !o.isDone && o.kind != .alu && s.meetLines c q o.ea.toNat o.kind.size va n

/-- A record read of an agent is on its way. -/
def State.asks (s : State) (a : Agent) : Bool :=
  let mine (r : RetTo) : Bool := match r with | .line w _ => w == a | _ => false
  s.links.yWait.any (mine ·.2.ret) || s.links.hostReqs.any (mine ·.ret)

/-- The agent that the issuing sequencer is. -/
def State.myAgent (s : State) : Agent := ⟨s.cur.1, 0, seqNo s.cur.2⟩

/-- The issuing instruction waits for a record read that has been sent (R351). -/
def State.awaitRecord (s : State) (i : Instr) (va : Nat) : State :=
  if s.asks s.myAgent then s.mapMe fun x => x.setWait (.reading i (w64 va) x.stalled) else s

/-- n bytes read by the issuing instruction i itself, with the releases their reading observes, then what it does with them; a
fault is its precise trap, a miss holds it. -/
def State.withRead (s : State) (i : Instr) (va n : Nat) (act : State → List Byte × List RelInfo → State) : State :=
  if s.me.outstanding.any (s.blocksRecord s.cur.1 s.cur.2 va n) then s
  else
    match s.vreadRel (s.seqWho s.cur.1 s.cur.2) va n with
    | .ok s1 x => act ((s1.dropLines s.myAgent).mapMe (·.access)) x
    | .fail s1 cause detail a => s1.trap cause detail (w64 a)
    | .wait s1 => s1.awaitRecord i va

/-- A 64-byte record at s[a], checked under R158 with an access size of 64, with the releases observed. -/
def State.withRecordRel (s : State) (i : Instr) (va : Word) (act : State → List Byte × List RelInfo → State) : State :=
  match checkEa va 64 64 with
  | some (c, d) => s.trap c d va
  | none => s.withRead i va.toNat 64 act

/-- Such a record, read without an acquire. -/
def State.withRecord64 (s : State) (i : Instr) (va : Word) (act : State → List Byte → State) : State :=
  s.withRecordRel i va fun s x => act s x.1

/-! ### Slots -/

/-- The slot is in the task's scheduler mask (R25). -/
def Cluster.sched (k : Cluster) (i : Nat) : Bool := bit k.task.smask i

/-- STATE of CFG.STAT (R216). -/
def SlotState.code : SlotState → Nat
  | .empty => 0
  | .loading => 1
  | .ready => 2
  | .running => 3
  | .draining => 4
  | .idle => 5

/-- The CFG.STAT word (R216). -/
def Cluster.cfgStat (k : Cluster) (i : Nat) : Word :=
  let x := k.slot i
  let held := x.st != .empty
  w64 (x.st.code + (if k.sched i then 0 else 8) + (if held then x.blk else 0) * 2 ^ 16
    + (if held then x.ver else 0) * 2 ^ 32 + x.lasterr * 2 ^ 48)

/-- The slot is EMPTY. -/
def Slot.cleared (x : Slot) : Slot := { x with st := .empty, blk := 0, ver := 0, img := 0, frames := [], keep := false }

/-- The slot is LOADING, READY, RUNNING or DRAINING. -/
def Slot.busy (x : Slot) : Bool :=
  match x.st with
  | .empty => false
  | .idle => false
  | _ => true

/-- A FAB.QUIET that waits for the slot completes (R220). -/
def Cluster.quietDone (k : Cluster) (i : Nat) : Cluster :=
  let hit (w : WaitKind) : WaitKind := match w with | .loading n => if n == i then .released else w | _ => w
  k.hitAll hit

/-- A port begins a period: program order is that of one period (R84). -/
def Port.anew (p : Port) : Port := { Port.reset with before := union p.before p.own }

/-- Everything of a slot's fabric begins anew (R212); ports keep their positions when the slot says so (R362, R402). -/
def Fabric.restart (f : Fabric) (i : Nat) (keep : Bool) : Fabric :=
  { f with
    chans := f.chans.filter (fun e => e.1 / 6144 != i), elems := f.elems.filter (fun e => e.1 / 256 != i),
    legs := f.legs.filter (fun e => e.1 / 1536 != i),
    ports := f.ports.map (fun e => if keep || e.1 / 32 != i then e else (e.1, e.2.anew)),
    kills := f.kills.filter fun d => d.chan / 6144 != i }

/-- The slot enters RUNNING: its configuration period begins (R17, R19, R212). -/
def Cluster.startSlot (k : Cluster) (i : Nat) : Cluster :=
  let keep := (k.slot i).keep
  let k1 := k.mapSlot i fun x =>
    { x with st := SlotState.running, groups := 0, dispatching := k.sched i, startClk := k.clk, wdCount := 0, fired := [],
             sums := Vector.replicate 8 0, keep := false }
  { k1 with fab := k1.fab.restart i keep }

/-! ### Quiescence (R19, R212, R220, R422) -/

/-- No value is in progress on an output; EOS alone leaves none (R201, R211). -/
def OutVal.quiet (o : OutVal) : Bool := !o.head && (!o.done || o.eos)

def Elem.quiet (x : Elem) : Bool :=
  !x.a.active && !x.b.active && x.ctl.isNone && x.x.quiet && x.y.quiet && !x.co

def Leg.quiet (x : Leg) : Bool := !x.inVal && x.nulTo.isEmpty && x.hold.isEmpty

def Port.quiet (p : Port) : Bool :=
  p.readQ.isEmpty && p.outQ.isEmpty && p.coQ.isEmpty && !p.inVal.active && p.words.isEmpty && p.lanes.isNone
    && p.fifo.isEmpty && p.reqs == 0 && p.heldRec.isEmpty && p.moving.isNone

/-- A request of the slot's ports has not been answered. -/
def State.portOut (s : State) (cl i : Nat) : Bool :=
  let mine (a : Agent) : Bool := a.cluster == cl && a.cls == 1 && a.sub / 32 == i
  s.links.yWait.any (fun e => mine e.2.agent) || s.reqs.any (fun r => mine r.agent)
    || s.links.hostReqs.any fun h => match h.ret.asker with
        | some (c, n) => c == cl && 4 + 32 * i ≤ n && n < 36 + 32 * i
        | none => false

/-- A REQ of the slot's elements, legs or ports has still to be sent on its way (R19, R212). -/
def Cluster.reqPending (k : Cluster) (cl i : Nat) : Bool :=
  (k.slot i).frames.any fun f =>
    let a := fAddr f
    match fKind f with
    | 1 => (k.elemAsks i (a % 64) (a / 64) f).any k.lacksReq
    | 2 => (k.portAsks ⟨cl, i, posTile (a % 64), f⟩).any k.lacksReq
    | 3 => (List.range 6).any fun n =>
      match k.legAt i (a / 64) (a % 64) n with
      | some l => (k.legAsks l).any k.lacksReq
      | none => false
    | _ => false

/-- The conditions of R19: no token, no value in progress, no KILL, no REQ on its way, no memory operation, no group. A
write accepted into a tile's queue is no operation outstanding: it has performed (R93). -/
def State.regionQuiet (s : State) (cl i : Nat) : Bool :=
  let k := s.cluster cl
  let f := k.fab
  f.chans.all (fun e => e.1 / 6144 != i || e.2.buf.isEmpty) && f.kills.all (fun d => d.chan / 6144 != i)
    && f.elems.all (fun e => e.1 / 256 != i || e.2.quiet) && f.legs.all (fun e => e.1 / 1536 != i || e.2.quiet)
    && f.ports.all (fun e => e.1 / 32 != i || e.2.quiet)
    && !s.portOut cl i && !k.reqPending cl i

/-- The ports the slot configures: tile and frame. -/
def Cluster.portFrames (k : Cluster) (i : Nat) : List (Nat × Nat) :=
  ((k.slot i).frames.filter fun f => fKind f == 2).map fun f => (posTile (fAddr f % 64), f)

/-- The port reads by a generator that needs no token. -/
def Cluster.genRead (k : Cluster) (cl i : Nat) (e : Nat × Nat) : Bool :=
  (mtOpr e.2 == 1 || mtOpr e.2 == 3) && k.driven ⟨cl, i, e.1, e.2⟩ (mtAgr e.2)

/-- Generator n of a port has supplied every index of its pattern, or the operation it drives has ended (R251 to R253),
whether or not its EOS has been asked for. -/
def Cluster.patternOver (k : Cluster) (cl i : Nat) (e : Nat × Nat) (n : Nat) : Bool :=
  let p := k.port i e.1
  p.ended || p.genEnd.toList.getD (n - 1) false || match k.genFrame ⟨cl, i, e.1, e.2⟩ n with
    | some g =>
      (agPat g == 1 && agTotal g ≤ p.genPos.toList.getD (n - 1) 0)
        || (agPat g == 3 && agScnt g != 0 && agScnt g ≤ p.slotsDone.toList.getD (n - 1) 0)
    | none => true

/-- R220: each address-generator pattern of the region's ports has run to its end. -/
def Cluster.patternsDone (k : Cluster) (cl i : Nat) : Bool :=
  (k.portFrames i).all fun e =>
    [mtAgr e.2, mtAgw e.2].all fun n => n == 0 || k.patternOver cl i e n

/-- R422: every port whose operation ends has ended it, and each read driven by a generator has emitted its EOS. -/
def Cluster.portsDone (k : Cluster) (cl i : Nat) : Bool :=
  (k.portFrames i).all fun e =>
    let p := k.port i e.1
    mtOpr e.2 == 0 || mtOpr e.2 == 0x11 || mtOpr e.2 == 0x12 || mtOpr e.2 == 0x0F
      || (p.ended && (!k.genRead cl i e || !p.eosDue))

/-! ### Bins (R13, R24 to R28, R243 to R245) -/

/-- The slot that holds a block, and its state is not EMPTY (R14). -/
def Cluster.holder (k : Cluster) (b : Nat) : Option Nat :=
  (List.range 4).find? fun i => (k.slot i).st != .empty && (k.slot i).blk == b

/-- The tile and frame of the slot's bin (R243). -/
def Cluster.binTile (k : Cluster) (i : Nat) : Option (Nat × Nat) := (k.portFrames i).find? fun e => mtMode e.2 == 4

/-- The block's image stands complete in a slot (R245). -/
def Cluster.resident (k : Cluster) (b : Nat) : Option Nat :=
  (k.holder b).bind fun i => if (k.slot i).st == .loading then none else some i

/-- Records the block's bin holds: its spill area, and its tile's region while it is resident (R243, R245). -/
def Cluster.binCap (k : Cluster) (b : Nat) : Nat :=
  (k.bin b).spillCap + (((k.resident b).bind k.binTile).map fun e => mtLen e.2).getD 0

/-- HOPS counted up to 255 (R10). -/
def Record.hop (r : Record) : Record :=
  let h := nbits r.hdr.toNat 56 8
  { r with hdr := BitVec.ofNat 64 (r.hdr.toNat % 2 ^ 56 + Nat.min 255 (h + 1) * 2 ^ 56) }

/-- An enqueue of a record that has come: written to its bin, discarded, or none while there is no room (R9, R10,
R24). -/
def Cluster.enqueue (k : Cluster) (r : Record) : Option Cluster :=
  match k.blockOf r with
  | .inr _ => some (k.raise fET)
  | .inl b =>
    if b == 0xFFF then some (if r.hdr.getLsbD 48 then k.raise fET else k)
    else if (k.bin b).recs.length < k.binCap b then
      some (k.mapBin b fun x => { x with recs := x.recs ++ [r.hop], newest := k.clk })
    else none

/-- A record from its 64 bytes (R8). -/
def recordFrom (bs : List Byte) : Record :=
  ⟨ofBytes (bs.take 8), (List.range 14).map fun i => BitVec.ofNat 32 (field bs (8 + 4 * i) 4)⟩

/-- Blocks of the task with records, other than those held in a busy slot: the candidates of R26. A staged task's
slots count as EMPTY (R29). -/
def Cluster.candidates (k : Cluster) : List Nat :=
  (k.task.dir.map (·.1)).filter fun b =>
    0 < k.binCount b && match k.holder b with | some i => !(k.slot i).busy | none => true

/-- The age of a bin (R26). -/
def Cluster.binAge (k : Cluster) (b : Nat) : Nat := k.clk - (k.bin b).since

/-- The better of two candidates: an aged one before, the greater age, otherwise the greater count; the lower number
on a tie (R26). -/
def Cluster.better (k : Cluster) (a b : Nat) : Bool :=
  let x := k.bin a
  let y := k.bin b
  if x.aged != y.aged then x.aged
  else
    let m := if x.aged then k.binAge a else k.binCount a
    let n := if y.aged then k.binAge b else k.binCount b
    n < m || (m == n && a < b)

/-- The choice of R26 among the candidates. -/
def Cluster.choose (k : Cluster) : Option Nat :=
  k.candidates.foldl (fun best b => match best with | none => some b | some a => if k.better b a then some b else some a) none

/-- R28: the bin stops dispatching and the slot enters DRAINING. -/
def Cluster.stopDispatch (k : Cluster) (i : Nat) : Cluster :=
  k.mapSlot i fun x => { x with dispatching := false, st := SlotState.draining }

/-- R28: the quota is met while another bin is a candidate. -/
def Cluster.quotaMet (k : Cluster) (i : Nat) : Bool :=
  k.task.quota ≤ (k.slot i).groups && k.candidates.any (· != (k.slot i).blk)

/-- A group of the n oldest records leaves the bin through the slot's BDEQ (R13, R243). -/
def Cluster.dispatch (k : Cluster) (i n : Nat) : Cluster :=
  match k.binTile i with
  | none => k
  | some e =>
    let b := (k.slot i).blk
    let rs := (k.bin b).recs.take n
    let words (r : Record) : List Token :=
      (Token.word (r.hdr.truncate 32)) :: (Token.word ((r.hdr >>> 32).truncate 32)) :: r.vals.map .word
    let k1 := k.mapBin b fun x => { x with recs := x.recs.drop n, since := k.clk, aged := false }
    let k2 := k1.mapPort i e.1 fun p =>
      { p with coQ := [.ctl (BitVec.ofNat 16 (2 ^ rs.length - 1))], outQ := (rs.map words).flatten }
    (k2.mapSlot i fun x => { x with groups := x.groups + 1 }).count 9 1

/-- BDEQ has room for a group: the one before has gone out. -/
def Cluster.binIdle (k : Cluster) (i : Nat) : Bool :=
  match k.binTile i with
  | none => false
  | some e => (k.port i e.1).outQ.isEmpty && (k.port i e.1).coQ.isEmpty

/-- PDLY of the slot's bin (R13). -/
def Cluster.binDelay (k : Cluster) (i : Nat) : Nat := ((k.binTile i).map fun e => mtPdly e.2).getD 0

/-- R24: some port of the slot holds a record whose bin has a spill area and is full, and the region waits on nothing
else: no access of its ports is outstanding or held, and no generator waits on its ring. -/
def Cluster.portBlocked (k : Cluster) (i : Nat) : Bool :=
  (k.fab.ports.all fun e => e.1 / 32 != i || (e.2.readQ.isEmpty && e.2.reqs == 0))
  && (!(k.portFrames i).any (fun e => mtGlob e.2) || k.misses.all (·.cls != 1))
  && ((k.portFrames i).all fun e => (List.range 2).all fun n =>
      match k.ringGen ⟨0, i, e.1, e.2⟩ n with
      | some _ => (k.port i e.1).ended || (k.port i e.1).genEnd.toList.getD n false || (k.port i e.1).slotIn.toList.getD n false
      | none => true)
  && k.fab.ports.any fun e => e.1 / 32 == i &&
    match e.2.heldRec with
    | r :: _ =>
      match k.blockOf r with
      | .inl b => 0 < (k.bin b).spillCap && (k.enqueue r).isNone
      | .inr _ => false
    | [] => false

/-- A port of a slot that runs may set the event (R247). -/
def Cluster.fabricSets (k : Cluster) (e : Nat) : Bool :=
  (List.range 4).any fun i => k.runs i && (k.portFrames i).any fun f => mtEosev f.2 && mtEvt f.2 == e

/-- A port of a slot that runs may advance the ring (R253). -/
def Cluster.fabricMoves (k : Cluster) (h : Nat) : Bool :=
  (List.range 4).any fun i => k.runs i && (k.portFrames i).any fun f =>
    (List.range 2).any fun n => match k.ringGen ⟨0, i, f.1, f.2⟩ n with | some g => agHnd g == h | none => false

/-- R24: the sequencer is idle or waits on the fabric: the control sequencer at its EXIT too, and any at an event or a ring that
a region moves. -/
def Cluster.restsOnFabric (k : Cluster) (q : SeqId) : Bool :=
  let x := k.seq q
  x.idle || (q == .control && x.exited) || match x.waitAt with
    | some (.loading _) => true
    | some (.event e none) => k.fabricSets e
    | some (.ring h _ _ none) => k.fabricMoves h
    | _ => false

/-- R24: in this clk every RUNNING and DRAINING region is blocked only on bins whose spill areas are full. -/
def Cluster.binsBlock (k : Cluster) : Bool :=
  let act := (List.range 4).filter k.inPeriod
  !act.isEmpty && act.all (fun i => (k.slot i).fired.isEmpty && k.portBlocked i)
    && k.restsOnFabric .control && k.restsOnFabric .copy && k.restsOnFabric .matrix

/-- R403: the count of R24 holds while a part of the task is halted or about to be. -/
def Cluster.anyHalt (k : Cluster) : Bool :=
  (List.range 4).any (fun i => (k.slot i).halted || (k.slot i).haltPending)
    || [k.seqC, k.seqY, k.seqM].any fun x => x.halted || x.haltWant

/-- R221: a failed load of the block scheduler: the task fails with CFGERR; its other regions drain, and its other loads end. -/
def Cluster.cfgFail (k : Cluster) (blk detail : Nat) : Cluster :=
  let k0 := k.discardBins.abandonFabric
  let k1 : Cluster := { k0 with
    slots := k0.slots.map (fun e => if e.2.st == SlotState.loading then (e.1, e.2.cleared) else e), loads := [] }
  { k1 with
    task := { k1.task with st := .failing, code := 8, detail := detail, errBlk := blk },
    seqC := k1.seqC.stop, seqY := k1.seqY.stop, seqM := k1.seqM.stop,
    copy := { k1.copy with queue := [], begun := [] },
    mat := { k1.mat with queue := [], cur := none, arms := [], pending := Vector.replicate 4 0, fired := [],
                         armWait := none } }

/-- R405: the PERIOD record of a region whose period ends. -/
def State.periodRecord (s : State) (cl i : Nat) : State :=
  let k := s.cluster cl
  let x := k.slot i
  let n := x.frames.countP fun f => fKind f == 1 || fKind f == 2
  s.trace 1 k.task.ctx (4 * cl + i) x.blk x.ver
    (leBytes 6 (k.clk - x.startClk) ++ ((x.sums.toList.map fun v => leBytes 5 (Nat.min v (2 ^ 40 - 1))).flatten) ++ leBytes 2 n)

/-- The region's period ends and the slot goes IDLE, halted when a halt was pending (R19, R401, R405). -/
def State.endPeriod (s : State) (cl i : Nat) : State :=
  let s1 := s.periodRecord cl i
  let k := s1.cluster cl
  let x := k.slot i
  let k1 := k.mapSlot i fun x =>
    { x with st := SlotState.idle, dispatching := false, halted := x.halted || x.haltPending, haltPending := false }
  let s2 := s1.setCl cl (if x.keep then k1 else k1.quietDone i)
  if x.haltPending then s2.trace 2 k.task.ctx (4 * cl + i) x.blk x.ver [] else s2

end Sys2Proof.Machine
end

