-- ==== Sys2Proof/Machine/FabricControl.lean ====
section
/-! DEFINITION. The fabric-control instructions and the events of bins, the block scheduler, the configuration bus and
the regions (R10, R13, R17 to R28, R213 to R221, R422). -/

namespace Sys2Proof.Machine

/-! ### Instructions (R213 to R220) -/

/-- CODE and DETAIL of CFG.LOAD at issue (R214). -/
def Cluster.cfgCheck (k : Cluster) (img sel : Word) : Nat × Nat :=
  let i := bits sel 1 0
  let b := bits sel 27 16
  let x := k.slot i
  if bits sel 15 2 != 0 || bits sel 63 28 != 0 then (2, 0x0A)
  else if b == 0xFFF then (2, 4)
  else if img.toNat % 64 != 0 then (2, 0x0A)
  else if k.sched i then (2, 8)
  else if x.halted then (1, 0)
  else
    match x.st with
    | .loading => (1, 0)
    | .running => (1, 0)
    | .draining => (1, 0)
    | _ =>
      match k.holder b with
      | some j => if j != i && (k.slot j).st != .idle then (3, 0) else (0, 0)
      | none => (0, 0)

/-- Loads are served in the order in which they began; of two that began in one clk the lower slot's comes first (R18). -/
def addLoad (l : Load) : List Load → List Load
  | [] => [l]
  | x :: r => if x.clk == l.clk && l.slot < x.slot && x.next == 0 then l :: x :: r else x :: addLoad l r

/-- A load of a block begins: a slot that holds it IDLE becomes EMPTY, and a staged block in the slot is overwritten (R18,
R26, R29, R214). -/
def Cluster.beginLoad (k : Cluster) (i b : Nat) (img : Word) (sched : Bool) (asid : Nat) : Cluster :=
  let k1 := match k.holder b with | some j => k.mapSlot j (·.cleared) | none => k
  { k1.mapSlot i (fun x => { x.cleared with st := SlotState.loading, blk := b, img := img }) with
    loads := addLoad ⟨i, b, img, sched, asid, union (k.seqC.seenBy 0) k.seqC.own, k.clk, 0, 0, 0xFFFFFFFF#32⟩ k1.loads,
    staged := k1.staged.map fun x => { x with preps := x.preps.filter (·.slot != i) } }

/-- CFG.LOAD (R214). -/
def execCfgLoad (g : Guard) (d a b : Reg) (s : State) : Result :=
  guarded g 4 s fun s => s.onControl fun s =>
    let img := s.me.reg a
    let sel := s.me.reg b
    let r := s.here.cfgCheck img sel
    let asid := s.asidOf s.cur.1 s.cur.2
    let s1 := if r.1 == 0 then
      (s.mapHere fun k => k.beginLoad (bits sel 1 0) (bits sel 27 16) img false asid).mapMe (·.access) else s
    s1.put d (w64 (r.1 + 256 * r.2))

/-- CFG.STAT (R216). -/
def execCfgStat (g : Guard) (d a : Reg) (s : State) : Result :=
  guarded g 4 s fun s => s.onControl fun s => s.put d (s.here.cfgStat (bits (s.me.reg a) 1 0))

/-- R178: the class-F accesses of what the control sequencer starts come after the writes its acquires for F have found. -/
def Cluster.passF (k : Cluster) : Cluster := { k with fSeen := union k.fSeen (k.seqC.seenBy 1) }

/-- FAB.GO: starts a READY pinned slot, waits for a LOADING or halted one, and takes FABSTATE on any other (R217,
R401). -/
def execFabGo (g : Guard) (a : Reg) (s : State) : Result :=
  guarded g 4 s fun s => s.onControl fun s =>
    let i := bits (s.me.reg a) 1 0
    let k := s.here
    let x := k.slot i
    let wait := s.mapMe (·.setWait (.loading 4))
    if k.sched i then s.trap cFABSTATE 0 (k.cfgStat i)
    else if x.halted then wait
    else
      match x.st with
      | .ready => (s.mapHere fun k => (k.startSlot i).passF).complete 4
      | .loading => wait
      | _ => (s.mapMe (·.endWait)).trap cFABSTATE 0 (k.cfgStat i)

/-- BIN.PUSH: into the bin, or the push slot when the block is not resident and has no spill area; otherwise it waits
(R218, R245). -/
def execBinPush (g : Guard) (a : Reg) (s : State) : Result :=
  guarded g 4 s fun s => s.onControl fun s =>
    let wait (s : State) : State := s.mapMe (·.setWait (.loading 4))
    match checkEa (s.me.reg a) 64 64 with
    | some (c, d) => s.trap c d (s.me.reg a)
    | none =>
      if s.here.pushSlot.isSome then wait s
      else
        s.withRead (.binPush g a) (s.me.reg a).toNat 64 fun s x =>
          let r := recordFrom x.1
          let k := s.here.recordComes r
          match k.enqueue r with
          | some k1 => (s.mapHere fun _ => k1.passF).complete 4
          | none =>
            match k.blockOf r with
            | .inl b =>
              if (k.resident b).isNone && (k.bin b).spillCap == 0 then
                (s.mapHere fun _ => { k.passF with pushSlot := some r }).complete 4
              else wait s
            | .inr _ => wait s

/-- BIN.CNT (R219). -/
def execBinCnt (g : Guard) (d a : Reg) (s : State) : Result :=
  guarded g 4 s fun s => s.onControl fun s =>
    let b := bits (s.me.reg a) 11 0
    s.put d (if b == 0xFFF then 0 else w64 (s.here.binCount b))

/-- The class-F writes of a slot's regions (R220). -/
def Cluster.regionWrites (k : Cluster) (i : Nat) : List Nat :=
  k.fab.ports.foldl (fun acc e => if e.1 / 32 == i then union acc (union e.2.before e.2.own) else acc) []

/-- FAB.QUIET: the slot drains; when it is IDLE the sequencer has observed its class-F accesses (R91, R220). -/
def execFabQuiet (g : Guard) (a : Reg) (s : State) : Result :=
  guarded g 4 s fun s => s.onControl fun s =>
    let i := bits (s.me.reg a) 1 0
    let done (s : State) : State := (s.mapMe (·.observe maskF [(1, s.here.regionWrites i)])).complete 4
    match s.me.waitAt with
    | some .released => done s
    | some (.loading _) => if (s.here.slot i).busy && (s.here.slot i).st != .ready then s else done s
    | _ =>
      let wait (s : State) : State := s.mapMe (·.setWait (.loading i))
      match (s.here.slot i).st with
      | .running => wait (s.mapHere (·.stopDispatch i))
      | .draining => wait (s.mapHere (·.mapSlot i fun x => { x with wasRunning := false }))
      | .loading => wait s
      | _ => done s

/-! ### The configuration bus (R18, R132, R215, R221) -/

/-- A load fails: the slot is EMPTY with its detail; a scheduler's load ends the task. -/
def Cluster.loadFail (k : Cluster) (l : Load) (detail : Nat) : Cluster :=
  let k1 := ({ k.mapSlot l.slot (fun x => { x.cleared with lasterr := detail }) with loads := k.loads.drop 1 } : Cluster).quietDone l.slot
  if l.sched && k1.task.st != .failing then k1.cfgFail l.blk detail else k1

/-- A frame that passes its checks is written; after the last one the image is checked whole. -/
def Cluster.loadFrame (k : Cluster) (l : Load) (f : Nat) (bs : List Byte) : Cluster :=
  if l.next == 0 then
    let e := headerError f l.blk
    if e != 0 then k.loadFail l e
    else
      { k.mapSlot l.slot (fun x => { x with ver := hVer f }) with
        loads := { l with header := f, next := 1, crc := crcBytes l.crc (crcHeader f) } :: k.loads.drop 1 }
  else
    let fs := (k.slot l.slot).frames
    let e := frameError f (fs.map unslotted)
    let crc := crcBytes l.crc bs
    let all := fs ++ [withSlot f l.slot]
    if e != 0 then k.loadFail l e
    else if l.next < hNfr l.header then
      { k.mapSlot l.slot (fun x => { x with frames := all }) with loads := { l with next := l.next + 1, crc := crc } :: k.loads.drop 1 }
    else
      let e := lastError all l.sched
      if e != 0 then k.loadFail l e
      else if (~~~crc).toNat != hCrc l.header then k.loadFail l 6
      else
        ({ k.mapSlot l.slot (fun x => { x with frames := all, st := SlotState.ready, readyClk := k.clk }) with
           loads := k.loads.drop 1 } : Cluster).quietDone l.slot

/-- Who reads the frames of a load: class C, after the earlier accesses of its control sequencer (R126). -/
def Load.who (l : Load) (k : Cluster) (cl : Nat) : Who := ⟨cl, l.asid, 0, false, l.view, k.seqC.floor, 16⟩

/-- A load of the block scheduler that has ended the task ends its rank's part in the collectives (R187, R221). -/
def State.loadEnded (s t : State) (cl : Nat) : State :=
  let k := s.cluster cl
  if k.task.st != .failing && (t.cluster cl).task.st == .failing then t.rankEnds k.task.job k.task.gi k.task.rank else t

/-- The next frame of the first load of the resident task; its read waits on a miss and fails with PROT (R126, R214,
R221). -/
def State.frameWrite (s : State) (cl : Nat) : State :=
    let k := s.cluster cl
    match k.loads with
    | [] => s
    | l :: _ =>
      let va := l.img.toNat + 32 * l.next
      if k.saving || (k.seqC.outstanding ++ k.seqC.frame.replay).any (s.blocksRecord cl .control va 32) then s
      else
        match s.vread (l.who k cl) va 32 with
        | .wait s1 => s1
        | .fail s1 _ _ _ => s.loadEnded (s1.mapCl cl (·.loadFail l 9)) cl
        | .ok s1 bs => s.loadEnded ((s1.dropLines (l.who k cl).agent).mapCl cl (·.loadFrame l (leNat bs) bs)) cl

/-! ### Bins (R10, R13, R24 to R28) -/

/-- A record leaves a port's write queue: into its bin, or discarded with the bins of a task that has abandoned them or
failed (R11, R36, R221). -/
def Cluster.endsBin (k : Cluster) (r : Record) : Option Cluster :=
  match k.task.st with
  | .abandoning => if k.counts r then some (k.discardRecs [r]) else k.enqueue r
  | .failing => if k.counts r then some (k.discardRecs [r]) else k.enqueue r
  | _ => k.enqueue r

/-- BIN_ENQUEUE: the next record a port's write queue (src = 32 × slot + tile), the push slot (128) or the start queue
(129) holds enters its bin (R10, R22 to R24, R245, R331). -/
def execBinEnqueue (cl src : Nat) (s : State) : Result :=
  .next <|
    let k := s.cluster cl
    if k.saving || !k.task.resident then s
    else if src < 128 then
      let p := k.port (src / 32) (src % 32)
      match p.heldRec with
      | [] => s
      | r :: rest =>
        match k.endsBin r with
        | some k1 => s.setCl cl ((k1.mapPort (src / 32) (src % 32) fun p => { p with heldRec := rest }).fires (src / 32) (unitKey 2 (tilePos (src % 32))))
        | none => s
    else if src == 128 then
      match k.pushSlot.bind fun r => k.enqueue r with
      | some k1 => s.setCl cl { k1 with pushSlot := none }
      | none => s
    else
      match k.startQ.findIdx? fun r => (k.enqueue r).isSome with
      | some i =>
        match k.startQ[i]?.bind fun r => k.enqueue r with
        | some k1 => s.setCl cl { k1 with startQ := dropNth k.startQ i }
        | none => s
      | none => s

/-- BINDEADLOCK: the task ends after 65,536 blocked clk (R24). -/
def execBindeadlock (cl : Nat) (s : State) : Result :=
  .next (if (s.cluster cl).blocked < 65536 then s else s.terminate cl 9 0 0)

/-- The slot's bin dispatches to its region (R28). -/
def Cluster.dispatches (k : Cluster) (i : Nat) : Bool :=
  (k.slot i).st == .running && (k.slot i).dispatching && !k.saving

/-- The slot's bin may dispatch now: BDEQ has room (log entry 91). -/
def Cluster.mayDispatch (k : Cluster) (i : Nat) : Bool := k.dispatches i && k.binIdle i

/-- BIN_DISPATCH: a full group once BDEQ has room, unless the quota is met and another bin is a candidate (R13, R28). -/
def execBinDispatch (cl slot : Nat) (s : State) : Result :=
  .next <|
    let k := s.cluster cl
    if !k.dispatches slot then s
    else if k.quotaMet slot then s.setCl cl (k.stopDispatch slot)
    else if k.mayDispatch slot && 16 ≤ (k.bin (k.slot slot).blk).recs.length then s.setCl cl (k.dispatch slot 16)
    else s

/-- PARTIAL_DISPATCH: after the delay a partial group leaves; an empty bin stops dispatching (R13, R28). -/
def execPartialDispatch (cl slot : Nat) (s : State) : Result :=
  .next <|
    let k := s.cluster cl
    let x := k.slot slot
    let b := k.bin x.blk
    if !k.dispatches slot then s
    else if k.quotaMet slot then s.setCl cl (k.stopDispatch slot)
    else if b.recs.isEmpty then
      if k.binDelay slot ≤ k.clk - Nat.max b.since x.startClk then s.setCl cl (k.stopDispatch slot) else s
    else if k.mayDispatch slot && b.recs.length < 16 && k.binDelay slot ≤ k.clk - b.newest then
      s.setCl cl (k.dispatch slot b.recs.length)
    else s

/-- BIN_AGED (R26). -/
def execBinAged (cl blk : Nat) (s : State) : Result :=
  .next <|
    let k := s.cluster cl
    if 0 < k.binCount blk && 4096 ≤ k.binAge blk && !(k.bin blk).aged then
      s.setCl cl (k.mapBin blk fun b => { b with aged := true })
    else s

/-! ### The block scheduler (R25 to R29) -/

/-- The block scheduler works for the task: it runs, or waits to retire after EXIT (R35). -/
def Cluster.schedules (k : Cluster) : Bool :=
  k.task.resident && !k.saving && match k.task.st with | .running => true | .exiting => true | _ => false

/-- A scheduler slot open to a choice (R26, R401). -/
def Cluster.openSlot (k : Cluster) (i : Nat) : Bool :=
  k.sched i && !(k.slot i).halted && !(k.slot i).busy

/-- SCHEDULER_CHOOSE: the first free scheduler slot takes the chosen block: an image it still holds IDLE returns to
READY, any other is loaded (R26, R27). -/
def execSchedulerChoose (cl : Nat) (s : State) : Result :=
  .next <|
    let k := s.cluster cl
    if !k.schedules then s
    else
      match (List.range 4).find? k.openSlot, k.choose with
      | some i, some b =>
        if (k.slot i).st == .idle && (k.slot i).blk == b then
          s.setCl cl (k.mapSlot i fun x => { x with st := SlotState.ready, readyClk := k.clk })
        else
          match k.task.dir.find? (·.1 == b) with
          | some e => s.setCl cl (k.beginLoad i b (k.task.image + w64 e.2.2) true k.task.ctx)
          | none => s
      | _, _ => s

/-- SLOT_START: a READY scheduler slot starts in a clk after it became READY (R27). -/
def execSlotStart (cl slot : Nat) (s : State) : Result :=
  .next <|
    let k := s.cluster cl
    let x := k.slot slot
    if slot < 4 && k.sched slot && x.st == .ready && !x.halted && k.schedules then s.setCl cl (k.startSlot slot) else s

/-! ### Ends of periods (R19, R220, R422) -/

/-- REGION_DRAINED: a DRAINING region is quiet (R19, R220). -/
def execRegionDrained (cl slot : Nat) (s : State) : Result :=
  .next <|
    let k := s.cluster cl
    if (k.slot slot).st == .draining && (k.sched slot || (k.slot slot).keep || k.patternsDone cl slot) && s.regionQuiet cl slot then
      s.endPeriod cl slot
    else s

/-- PINNED_REGION_END: a RUNNING pinned region has ended its work (R422). -/
def execPinnedRegionEnd (cl slot : Nat) (s : State) : Result :=
  .next <|
    let k := s.cluster cl
    if (k.slot slot).st == .running && !k.sched slot && k.portsDone cl slot && s.regionQuiet cl slot then
      s.endPeriod cl slot
    else s

end Sys2Proof.Machine
end

