-- ==== Sys2Proof/Machine/Convert.lean ====
section
/-! DEFINITION. Element types and conversions of the engines: R50 to R61, R259, R264, R268. -/

namespace Sys2Proof.Machine

/-! ### Element types (R259) -/

/-- A word type (0x00 to 0x0B), and its size in bytes. -/
def isWordTy (ty : Nat) : Bool := ty < 12

def wordSize (ty : Nat) : Nat :=
  match ty with
  | 0 => 1 | 1 => 2 | 2 => 4 | 3 => 8 | 4 => 1 | 5 => 2 | 6 => 4 | 7 => 8 | 8 => 2 | 9 => 4 | _ => 1

/-- An integer type, and whether it is signed. -/
def isIntTy (ty : Nat) : Bool := ty < 8
def isSigned (ty : Nat) : Bool := ty < 4

/-- An MX type; bits of an element and bytes of a block (R57, R58). -/
def isMxTy (ty : Nat) : Bool := 12 ≤ ty && ty ≤ 16
def mxBits (ty : Nat) : Nat := if ty ≤ 13 then 8 else if ty ≤ 15 then 6 else 4
def mxBlock (ty : Nat) : Nat := 4 * mxBits ty
def piTy : Nat := 17

/-- The format of a floating-point type, or of an MX type's elements. -/
def fmtOf (ty : Nat) : Fmt :=
  match ty with
  | 8 => fmtBf16
  | 9 => fmt32
  | 0xA => fmtE4m3
  | 0xB => fmtE5m2
  | 0xC => fmtE4m3
  | 0xD => fmtE5m2
  | 0xE => fmtE2m3
  | 0xF => fmtE3m2
  | _ => fmtE2m1

/-- emax of an MX element (R57). -/
def mxEmax (ty : Nat) : Int :=
  match ty with
  | 0xC => 8
  | 0xD => 15
  | 0xE => 2
  | 0xF => 4
  | _ => 2

/-- The exact value of a word type's code. -/
def decodeTy (ty c : Nat) : Fp :=
  if isIntTy ty then Fp.ofInt (if isSigned ty then sext (8 * wordSize ty) c else (c : Int)) else (fmtOf ty).decode c

/-- An integer as the code of a type. -/
def intCode (ty : Nat) (v : Int) : Nat := (v % (2 ^ (8 * wordSize ty) : Nat)).toNat

/-! ### Error feedback (R56) -/

/-- A finite zero. -/
def Fp.isZero : Fp → Bool
  | .fin _ m _ => m == 0
  | _ => false

/-- |t| ≤ 2 × |y| for finite values. -/
def leTwice (t y : Fp) : Bool :=
  match t, y with
  | .fin _ m e, .fin _ m' e' => !ltFin false m' (e' + 1) false m e
  | _, _ => false

def Fp.neg : Fp → Fp
  | .fin n m e => .fin (!n) m e
  | .inf n => .inf (!n)
  | x => x

/-- One element under RNE-EF: its code, its flags and the error carried on. -/
def efStep (f : Fmt) (satf : Bool) (x e : Fp) : Nat × Nat × Fp :=
  if !x.isFin then
    let (c, fl) := rneTarget f satf x
    (c, fl, .fin false 0 0)
  else
    let (tc, fl0) := fl32 (if e.isZero then x else (addFp x e).1)
    let t := fmt32.decode tc
    let (c, fl) := rneTarget f satf t
    let y := f.decode c
    let e1 := if t.isFin && y.isFin && (y.isZero || leTwice t y) then (addFp t y.neg).1 else .fin false 0 0
    (c, fl0 ||| fl, e1)

/-- A run of elements converted to a format: blocks of 32 from the first under RNE-EF (R56). -/
def convertFrom (f : Fmt) (ef satf : Bool) : Nat → Fp → List Fp → List (Nat × Nat)
  | _, _, [] => []
  | i, e, x :: r =>
    if ef then
      let (c, fl, e1) := efStep f satf x (if i % 32 == 0 then .fin false 0 0 else e)
      (c, fl) :: convertFrom f ef satf (i + 1) e1 r
    else rneTarget f satf x :: convertFrom f ef satf (i + 1) e r

def convertRun (f : Fmt) (ef satf : Bool) (xs : List Fp) : List (Nat × Nat) := convertFrom f ef satf 0 (.fin false 0 0) xs

/-- The flags of a run. -/
def runFlags (l : List (Nat × Nat)) : Nat := l.foldl (fun acc e => acc ||| e.2) 0

/-- A row of exact values as codes of a word type, with their flags (R51, R55, R264). -/
def encodeRow (ty : Nat) (ef satf : Bool) (xs : List Fp) : List (Nat × Nat) :=
  if isIntTy ty then
    xs.map fun x =>
      let (v, fl) := satInt (8 * wordSize ty) (isSigned ty) x
      (intCode ty v, fl)
  else convertRun (fmtOf ty) ef satf xs

/-! ### MX blocks (R57 to R60) -/

/-- Element j of a block's bytes (R58). -/
def mxElem (ty : Nat) (bs : List Byte) (j : Nat) : Nat := nbits (leNat bs) (mxBits ty * j) (mxBits ty)

/-- The value of an element under its scale code (R59). -/
def mxValue (ty c : Nat) (code : Nat) : Fp :=
  if c == 0xFF then .nan false else ((fmtOf ty).decode code).scale ((c : Int) - 127)

/-- The bytes of a block's element codes. -/
def mxPack (ty : Nat) (codes : List Nat) : List Byte :=
  leBytes (mxBlock ty) (codes.foldr (fun c acc => c + acc * 2 ^ mxBits ty) 0)

/-- The exponent of the leading bit of a block's greatest magnitude; none when all are zero. -/
def maxTop (xs : List Fp) : Option Int :=
  xs.foldl (fun best x =>
    match x with
    | .fin _ m e => if m == 0 then best else match best with | none => some (topExp m e) | some b => some (max b (topExp m e))
    | _ => best) none

/-- MX encoding of a block: scale code, element codes, flags (R60). -/
def mxEncode (ty : Nat) (ef : Bool) (xs : List Fp) : Nat × List Nat × Nat :=
  let f := fmtOf ty
  if xs.any fun x => !x.isFin then (0xFF, xs.map fun _ => 0, 0)
  else
    match maxTop xs with
    | none =>
      let l := convertRun f ef true xs
      (0, l.map (·.1), 0)
    | some top =>
      let x0 := top - mxEmax ty
      let x := max x0 (-127)
      let scaled := xs.map fun v => fl32 (v.scale (-x))
      let l := convertRun f ef true (scaled.map fun e => fmt32.decode e.1)
      let fl := (runFlags l ||| runFlags scaled)
      ((x + 127).toNat, l.map (·.1), (fl - (fl &&& fOF)) ||| if x0 < -127 then fSF else 0)

/-! ### Combining (R268) -/

/-- The lesser or greater of two FP values, −0 below +0; a NaN gives the canonical NaN. -/
def minMaxFp (f : Fmt) (isMax : Bool) (x y : Nat) : Nat × Nat :=
  let a := f.decode x
  let b := f.decode y
  let sig (v : Fp) : Bool := match v with | .nan s => s | _ => false
  if a.isNan || b.isNan then (f.nanCode, if sig a || sig b then fNV else 0)
  else
    let lt := ltFp a b || (!ltFp b a && bit x (f.fb + f.eb) && !bit y (f.fb + f.eb))
    (if lt == isMax then y else x, 0)

/-- CPY.R on an element: y the destination's code, x the converted source's (R268). -/
def combineElem (ty rop : Nat) (satf : Bool) (y x : Nat) : Nat × Nat :=
  if ty == 2 then
    let a := sext 32 y
    let b := sext 32 x
    (match rop with | 0 => (y + x) % 2 ^ 32 | 1 => if a ≤ b then y else x | _ => if a ≤ b then x else y, 0)
  else if rop == 0 then
    let (v, fl) := addFp ((fmtOf ty).decode y) ((fmtOf ty).decode x)
    if ty == 9 then
      let (c, g) := fl32 v
      (c, fl ||| g)
    else
      let (c, g) := rneTarget fmtBf16 satf v
      (c, fl ||| g)
  else minMaxFp (fmtOf ty) (rop == 2) y x

end Sys2Proof.Machine
end

