-- ==== Sys2Proof/Machine/CopyParts.lean ====
section
/-! DEFINITION. Stream-pattern records, ring slots as addresses, and what each copy command moves (R58 to R62, R105,
R181, R258 to R261, R264 to R271). -/

namespace Sys2Proof.Machine

/-! ### Records (R258 to R261) -/

def Pattern.zero : Pattern :=
  ⟨0, 0, 0, false, false, 0, Vector.replicate 4 1, Vector.replicate 4 0, 0⟩

/-- The record of 64 bytes read at an address. -/
def patternOf (va : Word) (bs : List Byte) : Pattern :=
  let nd := field bs 9 1
  let cv := field bs 10 2
  let cnt (d : Nat) : Nat := if d < nd then field bs (16 + 12 * d) 4 else 1
  { base := w64 (field bs 0 8), ty := field bs 8 1, ndim := nd, ef := bit cv 0, satf := bit cv 1, conv := cv,
    counts := #v[cnt 0, cnt 1, cnt 2, cnt 3],
    strides := #v[w64 (field bs 20 8), w64 (field bs 32 8), w64 (field bs 44 8), w64 (field bs 56 8)], addr := va }

/-- The product of the counts. -/
def Pattern.total (p : Pattern) : Nat := p.counts[0] * p.counts[1] * p.counts[2] * p.counts[3]

/-- Some dimension has count 0 (R276). -/
def Pattern.empty (p : Pattern) : Bool := p.total == 0

/-- Bytes of an element, or of an MX block. -/
def Pattern.unit (p : Pattern) : Nat := if isMxTy p.ty then mxBlock p.ty else wordSize p.ty

/-- R260 holds of the record. -/
def Pattern.placed (p : Pattern) : Bool :=
  let mult (w : Word) : Bool := w.toInt % (p.unit : Int) == 0
  if isWordTy p.ty then mult p.base && mult p.strides[0] && mult p.strides[1] && mult p.strides[2] && mult p.strides[3]
  else if isMxTy p.ty then
    p.strides[0] == 0 && p.counts[0] % 32 == 0 && p.base.toNat % p.unit == 0 && (p.counts[1] ≤ 1 || mult p.strides[1])
      && (p.counts[2] ≤ 1 || mult p.strides[2]) && (p.counts[3] ≤ 1 || mult p.strides[3])
  else p.ndim == 2 && p.strides.toList.all (· == 0) && p.base.toNat % 1024 == 0

/-- R261: the record breaks no rule of records. -/
def patternLegal (bs : List Byte) (p : Pattern) : Bool :=
  p.ty ≤ 17 && 1 ≤ p.ndim && p.ndim ≤ 4 && p.conv < 4 && field bs 12 4 == 0 && bits p.base 63 55 == 0
    && (List.range 4).all (fun d => d < p.ndim || (field bs (16 + 12 * d) 4 == 0 && field bs (20 + 12 * d) 8 == 0))
    && p.total ≤ 2 ^ 40 && p.placed

/-- The first address of row r = i1 + COUNT1 × (i2 + COUNT2 × i3). -/
def Pattern.rowBase (p : Pattern) (r : Nat) : Word :=
  p.base + w64 (r % p.counts[1]) * p.strides[1] + w64 (r / p.counts[1] % p.counts[2]) * p.strides[2]
    + w64 (r / (p.counts[1] * p.counts[2])) * p.strides[3]

/-- Rows of dimension 0. -/
def Pattern.nrows (p : Pattern) : Nat := p.counts[1] * p.counts[2] * p.counts[3]

/-! ### Rings as places (R181, R266) -/

/-- The tiles of a mask in ascending order. -/
def tilesOf (m : Nat) : List Nat := (List.range 32).filter (bit m)

/-- The address of slot i, counted modulo NSLOT (R181). -/
def Ring.slotVa (r : Ring) (i : Nat) : Nat :=
  let ts := tilesOf r.tmask
  let j := i % r.nslot
  winBase + 65536 * (ts.getD (j % ts.length) 0) + 64 * (r.base + r.slotu * (j / ts.length))

/-- Byte off of consecutive slots beginning with slot i. -/
def Ring.byteVa (r : Ring) (i off : Nat) : Nat :=
  let n := 64 * r.slotu
  r.slotVa (i + off / n) + off % n

/-- NS of a ring side (R266). -/
def slotsFor (p : Pattern) (r : Ring) : Nat := (p.total * wordSize p.ty + 64 * r.slotu - 1) / (64 * r.slotu)

/-! ### Elements of a record -/

/-- Where the elements of a side lie: addresses of the record, or consecutive ring slots. -/
inductive Side where
  | pat (p : Pattern)
  | ring (p : Pattern) (r : Ring) (slot : Nat)

def Side.p : Side → Pattern
  | .pat p => p
  | .ring p _ _ => p

/-- The address of element i0 of row r of a word type. -/
def Side.elemVa (d : Side) (r i0 : Nat) : Nat :=
  match d with
  | .pat p => (p.rowBase r + w64 i0 * p.strides[0]).toNat
  | .ring p g slot => g.byteVa slot ((r * p.counts[0] + i0) * wordSize p.ty)

/-- The addresses of a row. -/
def Side.row (d : Side) (r : Nat) : List Nat := (List.range d.p.counts[0]).map (d.elemVa r)

/-- Byte j of the first block of a row, and the row's blocks and scale codes, of an MX record. -/
def Pattern.blockAt (p : Pattern) (r j : Nat) : Nat × Nat := ((p.rowBase r + w64 (j * mxBlock p.ty)).toNat, mxBlock p.ty)

def Pattern.scaleAt (p : Pattern) (scale : Word) (r j : Nat) : Nat × Nat := ((scale + w64 (r * (p.counts[0] / 32) + j)).toNat, 1)

/-- What a row takes in memory: address and length of each part. -/
def Side.pieces (d : Side) (scale : Word) (r : Nat) : List (Nat × Nat) :=
  if isMxTy d.p.ty then
    (List.range (d.p.counts[0] / 32)).map (d.p.blockAt r) ++ (List.range (d.p.counts[0] / 32)).map (d.p.scaleAt scale r)
  else (d.row r).map fun a => (a, wordSize d.p.ty)

/-- The lowest and the highest address of a record's bytes. -/
def Pattern.span (p : Pattern) : Int × Int :=
  let reach (d : Fin 4) : Int := ((p.counts[d] : Int) - 1) * p.strides[d].toInt
  let low := (List.finRange 4).foldl (fun acc d => acc + min 0 (reach d)) (p.base.toNat : Int)
  let high := (List.finRange 4).foldl (fun acc d => acc + max 0 (reach d)) (p.base.toNat : Int)
  let last : Nat := if p.ty == piTy then 1024 * ((p.counts[0] + 31) / 32) * ((p.counts[1] + 31) / 32)
    else if isMxTy p.ty then p.counts[0] / 32 * mxBlock p.ty else p.unit
  (low, high + last - 1)

/-- The tile that all of a side lies in (R105). -/
def Side.oneTile (d : Side) : Option Nat :=
  match d with
  | .pat p =>
    let lo := p.span.1 - winBase
    let hi := p.span.2 - winBase
    if 0 ≤ lo && hi < 32 * 65536 && lo / 65536 == hi / 65536 then some (lo / 65536).toNat else none
  | .ring p g slot =>
    match ((List.range (slotsFor p g)).map fun i => (g.slotVa (slot + i) - winBase) / 65536).eraseDups with
    | [t] => some t
    | _ => none

/-- Pieces read one after another. -/
def State.gather (s : State) (w : Who) : List (Nat × Nat) → Got (List (List Byte))
  | [] => .ok s []
  | (va, n) :: r =>
    match s.vread w va n with
    | .ok s1 bs =>
      match s1.gather w r with
      | .ok s2 l => .ok s2 (bs :: l)
      | .fail s2 c d a => .fail s2 c d a
      | .wait s2 => .wait s2
    | .fail s1 c d a => .fail s1 c d a
    | .wait s1 => .wait s1

/-- Elements of a row as codes and exact values. -/
abbrev Row := List (Nat × Fp)

/-- One row of a word type. -/
def State.wordRow (s : State) (w : Who) (ty : Nat) (vas : List Nat) : Got Row :=
  match s.gather w (vas.map fun a => (a, wordSize ty)) with
  | .ok s1 l => .ok s1 (l.map fun b => (leNat b, decodeTy ty (leNat b)))
  | .fail s1 c d a => .fail s1 c d a
  | .wait s1 => .wait s1

/-- One row of an MX type: its blocks and their scale codes (R58 to R60). -/
def State.mxRow (s : State) (w : Who) (p : Pattern) (scale : Word) (r : Nat) : Got Row :=
  let nb := p.counts[0] / 32
  match s.gather w ((Side.pat p).pieces scale r) with
  | .ok s1 l =>
    let one (j : Nat) : Row :=
      let bs := l.getD j []
      let c := leNat (l.getD (nb + j) [])
      (List.range 32).map fun i => (0, mxValue p.ty c (mxElem p.ty bs i))
    .ok s1 ((List.range nb).map one).flatten
  | .fail s1 c d a => .fail s1 c d a
  | .wait s1 => .wait s1

/-- The rows of a side numbered in a list, read one after another. -/
def State.rowsIn (s : State) (w : Who) (d : Side) (scale : Word) : List Nat → Got (List Row)
  | [] => .ok s []
  | r :: rest =>
    match (if isMxTy d.p.ty then s.mxRow w d.p scale r else s.wordRow w d.p.ty (d.row r)) with
    | .ok s1 x =>
      match s1.rowsIn w d scale rest with
      | .ok s2 l => .ok s2 (x :: l)
      | .fail s2 c e a => .fail s2 c e a
      | .wait s2 => .wait s2
    | .fail s1 c e a => .fail s1 c e a
    | .wait s1 => .wait s1

/-- R264: a row converted to the destination's type: codes with flags. -/
def convertTo (sty : Nat) (d : Pattern) (x : Row) : List (Nat × Nat) :=
  if sty == d.ty then x.map fun e => (e.1, 0) else encodeRow d.ty d.ef d.satf (x.map (·.2))

/-! ### What a command writes -/

/-- What runs of a copy read and, in traversal order, write, the flags they raise, and the first row whose index was out
of range. -/
structure Plan where
  reads : List (Nat × Nat)
  writes : List DueWrite
  flags : Nat
  bad : Option Nat

def Plan.none : Plan := ⟨[], [], 0, .none⟩

/-- The writes of a run, one after another. -/
def dueOf (run : Nat) (ws : List (Nat × List Byte)) : List DueWrite := ws.map fun e => ⟨run, e.1, e.2⟩

def Plan.add (p : Plan) (run : Nat) (ws : List (Nat × List Byte)) (f : Nat) : Plan :=
  { p with writes := p.writes ++ dueOf run ws, flags := p.flags ||| f }

/-- The writes of converted codes to a row. -/
def rowWrites (d : Side) (r : Nat) (l : List (Nat × Nat)) : List (Nat × List Byte) :=
  (d.row r).zip (l.map fun e => leBytes (wordSize d.p.ty) e.1)

/-- CPY and CPY.F (R264, R265): row by row. -/
def planCopy (sty : Nat) (d : Side) (rows : List (Nat × Row)) : Plan :=
  rows.foldl (fun acc e =>
    let l := convertTo sty d.p e.2
    acc.add e.1 (rowWrites d e.1 l) (runFlags l)) .none

/-- CPY.R: each element with the destination as the combinations before it left it (R268). -/
def planCombine (sty rop : Nat) (d : Side) (rows : List (Nat × Row)) (old : Memory) : Plan :=
  let n := wordSize d.p.ty
  let one (run : Nat) (acc : Plan × Memory) (e : Nat × Nat × Nat) : Plan × Memory :=
    let (va, code, fl) := e
    let (v, f) := combineElem d.p.ty rop d.p.satf (leNat (acc.2.read va n)) code
    (acc.1.add run [(va, leBytes n v)] (fl ||| f), acc.2.write va (leBytes n v))
  let row (acc : Plan × Memory) (e : Nat × Row) : Plan × Memory :=
    ((d.row e.1).zip (convertTo sty d.p e.2)).foldl (one e.1) acc
  (rows.foldl row (.none, old)).1

/-- CPY.MX: blocks and their scale bytes (R60, R269). -/
def planMx (d : Pattern) (scale : Word) (rows : List (Nat × Row)) : Plan :=
  let nb := d.counts[0] / 32
  let blk (acc : Plan) (r j : Nat) (xs : List Fp) : Plan :=
    let full := xs ++ List.replicate (32 - xs.length) (.fin false 0 0)
    let (c, codes, f) := mxEncode d.ty d.ef full
    acc.add r [((d.blockAt r j).1, mxPack d.ty codes), ((d.scaleAt scale r j).1, leBytes 1 c)] f
  rows.foldl (fun acc e =>
    (List.range nb).foldl (fun a j => blk a e.1 j (((e.2.drop (32 * j)).take 32).map (·.2))) acc) .none

/-- CPY.PL: the groups of a group row of the PI tensor, from that row's up to 32 rows, 0 outside the tensor (R62,
R270). -/
def planPi (d : Pattern) (gr : Nat) (rows : List Row) : Plan :=
  let nc := d.counts[0]
  let gc := (nc + 31) / 32
  let code (r c : Nat) : Nat := if c < nc then ((rows.getD r []).getD c (0, .fin false 0 0)).1 else 0
  let word (g sl r : Nat) : Nat :=
    (List.range 32).foldl (fun acc c => acc + if bit (code r (32 * g + c)) (7 - sl) then 2 ^ c else 0) 0
  let group (g : Nat) : List Byte :=
    ((List.range 8).map fun sl => ((List.range 32).map fun r => leBytes 4 (word g sl r)).flatten).flatten
  ⟨[], dueOf gr ((List.range gc).map fun g => ((d.base + w64 (1024 * (gr * gc + g))).toNat, group g)), 0, .none⟩

/-- CPY.FILL (R271). -/
def planFill (v : Word) (d : Side) (ns : List Nat) : Plan :=
  let bs := toBytes (wordSize d.p.ty) v
  ⟨[], (ns.map fun r => dueOf r ((d.row r).map fun a => (a, bs))).flatten, 0, .none⟩

/-- CPY.S: source rows to table rows in ascending order (R267). -/
def planScatter (sty : Nat) (t : Side) (rows : List (Nat × Int × Row)) : Plan :=
  rows.foldl (fun acc e =>
    let (i, k, x) := e
    if 0 ≤ k && k < t.p.counts[1] then
      let l := convertTo sty t.p x
      acc.add i (rowWrites t k.toNat l) (runFlags l)
    else { acc with bad := some (acc.bad.getD i) }) .none

/-- The indices of an index record's row values. -/
def indexOf (ty code : Nat) : Int := if ty == 2 then sext 32 code else (code : Int)

/-- DETAIL of ENGFAULT for an access failure (R277). -/
def engDetail (cause detail : Nat) : Nat :=
  if cause == cPROT && detail == 3 then 1 else if cause == cBADPA then 2 else 3

/-- A write split at the lines it lies in (R81, R241). -/
def DueWrite.split (d : DueWrite) : List DueWrite :=
  (linesOf d.va d.bytes.length).map fun e => ⟨d.run, e.1, (d.bytes.drop (e.1 - d.va)).take e.2⟩

/-- Two writes have a byte in common. -/
def DueWrite.meets (a b : DueWrite) : Bool := a.va < b.va + b.bytes.length && b.va < a.va + a.bytes.length

/-- Which of the writes due is made next: one of the first run's, as chosen, but none before another of the same bytes (R81,
R274). -/
def dueIndex (due : List DueWrite) (choice : Nat) : Nat :=
  let l := due.takeWhile fun d => (due.head?.map (·.run)) == some d.run
  let j := choice % Nat.max 1 l.length
  match l[j]? with
  | some d => if (l.take j).any d.meets then 0 else j
  | none => 0

/-- The first run of the writes still due is no other than before: it is in progress (R362). -/
def midRun (before after : List DueWrite) : Bool := !after.isEmpty && before.head?.map (·.run) == after.head?.map (·.run)

/-- The next of an engine's writes: what is still due, the identifiers of the writes made, and DETAIL and address where it fails
(R277, R291). -/
def State.makeDue (s : State) (w : Who) (due : List DueWrite) (choice : Nat) :
    Got (List DueWrite × List Nat × Option (Nat × Nat)) :=
  let j := dueIndex due choice
  match due[j]? with
  | none => .ok s ([], [], none)
  | some d =>
    match s.vwrite w d.va d.bytes with
    | .ok s1 ids => .ok s1 (dropNth due j, ids, none)
    | .fail s1 c e a => .ok s1 ([], [], some (engDetail c e, a))
    | .wait s1 => .wait s1

/-- A write of an engine's command to another module has not been acknowledged by its home (R275). -/
def State.unacked (s : State) (cl cls id : Nat) : Bool :=
  s.links.yWait.any fun e => e.2.agent == ⟨cl, cls, id⟩ && match e.2.ret with | .nowhere => true | _ => false

/-- What an engine's command that is held leaves: its misses and requests, with the TLB's order of use as it was. -/
def State.held (s s1 : State) (cl : Nat) : State :=
  let k := s.cluster cl
  s1.mapCl cl fun k1 => { k1 with tlb := k.tlb, copy := k.copy, mat := k.mat }

end Sys2Proof.Machine
end

