-- ==== Sys2Proof/Machine/Copy.lean ====
section
/-! DEFINITION. The copy commands, their checks at placement, and the copy engine (R256, R257, R261 to R277). -/

namespace Sys2Proof.Machine

/-! ### Placement (R256, R261 to R271) -/

/-- An engine command on its own sequencer at PL 0; elsewhere it is an illegal encoding, whatever its guard (R123,
R124, R306). -/
def State.engine (s : State) (q : SeqId) (g : Guard) (i : Instr) (act : State → State) : Result :=
  if s.cur.2 != q || s.me.pl then .next (s.ill (encodeNat i)) else guarded g 8 s act

/-- The records a command names are read one after another, each as a 64-byte load (R158, R256). -/
def State.withReads (s : State) (i : Instr) (act : State → List (List Byte) → State) : List Word → List (List Byte) → State
  | [], acc => act (s.dropLines s.myAgent) acc
  | va :: r, acc =>
    match checkEa va 64 64 with
    | some (c, d) => s.trap c d va
    | none =>
      if s.me.outstanding.any (s.blocksRecord s.cur.1 s.cur.2 va.toNat 64) then s
      else
        match s.vread (s.seqWho s.cur.1 s.cur.2) va.toNat 64 with
        | .ok s1 bs => (s1.mapMe (·.access)).withReads i act r (acc ++ [bs])
        | .fail s1 cause detail a => s1.trap cause detail (w64 a)
        | .wait s1 => s1.awaitRecord i va.toNat

/-- A command's records as they stand beside it: whether they make its word an illegal encoding, and whether the CONV of the
first must be 0 (R262, R264). -/
structure RecordRule where
  illegal : Pattern → Option Nat
  conv0 : Bool

/-- The records a command names, all read before the first is checked (R256, R258, R261). -/
def State.withPatterns (s : State) (i : Instr) (rule : RecordRule) (vas : List Word) (act : State → List Pattern → State) : State :=
  s.withReads i (fun s bs =>
    let ps := (vas.zip bs).map fun e => patternOf e.1 e.2
    let bad (n : Nat) (e : List Byte × Pattern) : Bool := !patternLegal e.1 e.2 || (rule.conv0 && n == 0 && e.2.conv != 0)
    match rule.illegal (ps.getD 0 .zero) with
    | some word => s.ill word
    | none =>
      match ((List.range ps.length).zip (bs.zip ps)).find? fun e => bad e.1 e.2 with
      | some e => s.trap cCOPY 1 e.2.2.addr
      | none => act s ps) vas []

/-- The ring side of a command (R262, R266). -/
def CopyCmd.ringSide (c : CopyCmd) : Option (Nat × Bool × Pattern) :=
  match c.opts.rside with
  | .none => none
  | .dst h => some (h.val, true, c.dst)
  | .src h => some (h.val, false, c.src)

/-- The checks of a command's records together: the DETAIL of COPY, or 0 (R264, R267 to R271). Of a command that breaks both a rule
of SHAPE and one of PAIR the spec does not say which comes first, nor which DETAIL a breach of CPY.PL's record rules takes: CPY,
CPY.F, CPY.G and CPY.S check SHAPE first, the others PAIR, and CPY.PL takes PAIR for the types and SHAPE for NDIM and the counts
(log entry 124). -/
def CopyCmd.check (c : CopyCmd) : Nat :=
  let s := c.src
  let d := c.dst
  let counts := s.counts == d.counts
  match c.op with
  | .cpyR => if !(isWordTy s.ty && (d.ty == 2 || d.ty == 8 || d.ty == 9)) then 3 else if counts then 0 else 2
  | .cpyG =>
    if !((c.aux.ty == 2 || c.aux.ty == 6) && s.ndim == 2 && d.ndim == 2 && d.counts[0] == s.counts[0]
        && d.counts[1] == c.aux.total) then 2
    else if isWordTy s.ty && isWordTy d.ty then 0 else 3
  | .cpyS =>
    if !((c.aux.ty == 2 || c.aux.ty == 6) && s.ndim == 2 && d.ndim == 2 && d.counts[0] == s.counts[0]
        && s.counts[1] == c.aux.total) then 2
    else if isWordTy s.ty && isWordTy d.ty then 0 else 3
  | .cpyMx =>
    if !((s.ty == 8 || s.ty == 9) && isMxTy d.ty) then 3
    else if d.counts[0] == 32 * ((s.counts[0] + 31) / 32) && d.counts[1] == s.counts[1] && d.counts[2] == s.counts[2]
        && d.counts[3] == s.counts[3] then 0 else 2
  | .cpyPl =>
    if !(s.ty == 0 && d.ty == piTy) then 3
    else if s.ndim == 2 && s.counts[0] == d.counts[0] && s.counts[1] == d.counts[1] then 0 else 2
  | .cpyFill => if isWordTy d.ty then 0 else 3
  | _ =>
    if !counts then 2
    else if isWordTy d.ty && (isWordTy s.ty || (isMxTy s.ty && 8 ≤ d.ty)) then 0 else 3

/-- The command takes its place in the queue of 16, after the checks of its ring side and of its records; while the
queue is full it stalls (R256, R266). -/
def State.enqueueCopy (s : State) (c : CopyCmd) : State :=
  let k := s.here
  let push (c : CopyCmd) : State :=
    let e := c.check
    if e != 0 then s.trap cCOPY e c.dst.addr
    else if 16 ≤ k.copy.queue.length then s
    else
      (s.mapHere fun k => { k with copy := { k.copy with queue := k.copy.queue ++ [{ c with id := s.counter }] } }).fresh.complete 8
  match c.ringSide with
  | none => push c
  | some (h, _, p) =>
    let r := k.ring h
    if p.base != 0 || p.strides.toList.any (· != 0) || !isWordTy p.ty then s.trap cCOPY 4 p.addr
    else if !r.defined then s.fresh.trap cRING 4 (Config.freeWord s.counter)
    else
      let ns := slotsFor p r
      if r.nslot < ns then s.trap cRING 3 (w64 ns) else push { c with ns := ns }

/-- A command of the copy sequencer, without its records. -/
def State.blankCopy (s : State) (op : CopyOp) (scale value : Word) (o : CopyOpts) (arm rop : Nat) : CopyCmd :=
  { id := 0, op := op, src := .zero, dst := .zero, aux := .zero, scale := scale, value := value, opts := o, arm := arm,
    rop := rop, ns := 0, view := s.me.seenBy 2, asid := s.here.task.ctx, claimed := false, pos := 0, due := [], going := false, bad := none, ids := [],
    fault := none }

/-- An engine command begins its steps: a stall in them is no instruction boundary (R256). -/
def State.placing (s : State) (act : State → State) : State := act (s.mapMe (·.setWait .placing))

/-- A command with a source and a destination record. -/
def State.place2 (s : State) (i : Instr) (a b : Reg) (rule : RecordRule) (c : CopyCmd) : State :=
  let vas := [s.me.reg a, s.me.reg b]
  s.placing fun s => s.withPatterns i rule vas fun s ps =>
    s.enqueueCopy { c with src := ps.getD 0 .zero, dst := ps.getD 1 .zero }

/-- A command with an index record as well, checked last (R261, R267). -/
def State.place3 (s : State) (i : Instr) (d a b : Reg) (rule : RecordRule) (c : CopyCmd) : State :=
  let vas := [s.me.reg a, s.me.reg b, s.me.reg d]
  s.placing fun s => s.withPatterns i rule vas fun s ps =>
    s.enqueueCopy { c with src := ps.getD 0 .zero, dst := ps.getD 1 .zero, aux := ps.getD 2 .zero }

/-- No rule beside R261. -/
def RecordRule.any : RecordRule := ⟨fun _ => none, false⟩

/-- The source is converted under R264. -/
def RecordRule.converted : RecordRule := ⟨fun _ => none, true⟩

/-- The same of CPY and CPY.F, whose d field is 0 when the source is of no MX type (R262). -/
def RecordRule.scaled (d : Reg) (word : Nat) : RecordRule :=
  ⟨fun p => if d != 0 && !isMxTy p.ty then some word else none, true⟩

/-- CPY (R264). -/
def execCpy (g : Guard) (d a b : Reg) (o : CopyOpts) (s : State) : Result :=
  s.engine .copy g (.cpy g d a b o) fun s =>
    s.place2 (.cpy g d a b o) a b (.scaled d (encodeNat (.cpy g d a b o))) (s.blankCopy .cpy (s.me.reg d) 0 o 0 0)

/-- CPY.F (R265). -/
def execCpyF (g : Guard) (d a b : Reg) (o : CopyOpts) (arm : Fin 4) (s : State) : Result :=
  s.engine .copy g (.cpyF g d a b o arm) fun s =>
    s.place2 (.cpyF g d a b o arm) a b (.scaled d (encodeNat (.cpyF g d a b o arm))) (s.blankCopy .cpyF (s.me.reg d) 0 o arm.val 0)

/-- CPY.R (R268). -/
def execCpyR (g : Guard) (a b : Reg) (o : CopyOpts) (rop : Fin 3) (s : State) : Result :=
  s.engine .copy g (.cpyR g a b o rop) fun s => s.place2 (.cpyR g a b o rop) a b .converted (s.blankCopy .cpyR 0 0 o 0 rop.val)

/-- CPY.G (R267). -/
def execCpyG (g : Guard) (d a b : Reg) (o : CopyOpts) (s : State) : Result :=
  s.engine .copy g (.cpyG g d a b o) fun s => s.place3 (.cpyG g d a b o) d a b .converted (s.blankCopy .cpyG 0 0 o 0 0)

/-- CPY.S (R267). -/
def execCpyS (g : Guard) (d a b : Reg) (o : CopyOpts) (s : State) : Result :=
  s.engine .copy g (.cpyS g d a b o) fun s => s.place3 (.cpyS g d a b o) d a b .converted (s.blankCopy .cpyS 0 0 o 0 0)

/-- CPY.MX (R269). -/
def execCpyMx (g : Guard) (d a b : Reg) (o : CopyOpts) (s : State) : Result :=
  s.engine .copy g (.cpyMx g d a b o) fun s => s.place2 (.cpyMx g d a b o) a b .any (s.blankCopy .cpyMx (s.me.reg d) 0 o 0 0)

/-- CPY.PL (R270). -/
def execCpyPl (g : Guard) (a b : Reg) (o : CopyOpts) (s : State) : Result :=
  s.engine .copy g (.cpyPl g a b o) fun s => s.place2 (.cpyPl g a b o) a b .any (s.blankCopy .cpyPl 0 0 o 0 0)

/-- CPY.FILL (R271). -/
def execCpyFill (g : Guard) (a b : Reg) (o : CopyOpts) (s : State) : Result :=
  s.engine .copy g (.cpyFill g a b o) fun s =>
    let vas := [s.me.reg b]
    let c := s.blankCopy .cpyFill 0 (s.me.reg a) o 0 0
    s.placing fun s => s.withPatterns (.cpyFill g a b o) .any vas fun s ps => s.enqueueCopy { c with dst := ps.getD 0 .zero }

/-- CPY.WAIT (R273). -/
def execCpyWait (g : Guard) (a : Reg) (imm : BitVec 16) (s : State) : Result :=
  s.engine .copy g (.cpyWait g a imm) fun s =>
    let n := (ringCount s.me a imm).toNat
    if (s.here.openCmds .copy).length ≤ n then s.skip 8 else s

/-! ### The engine (R266 to R277) -/

/-- COPY_COMMAND_BEGIN: in queue order, with at most four begun (R274). -/
def execCopyCommandBegin (cl : Nat) (s : State) : Result :=
  .next <|
    let k := s.cluster cl
    match k.copy.queue with
    | [] => s
    | c :: rest =>
      if k.copy.stopped || k.saving || 4 ≤ k.copy.begun.length then s
      else
        s.setCl cl { k with copy := { k.copy with queue := rest, begun := k.copy.begun ++ [{ c with claimed := c.ringSide.isNone }] } }

/-- COPY_RING_CLAIM: in the order in which the commands on the handle began, once enough slots are free or full; a
claim of full slots acquires class Y (R266). -/
def execCopyRingClaim (cl n : Nat) (s : State) : Result :=
  .next <|
    let k := s.cluster cl
    match k.copy.begun[n]? with
    | none => s
    | some c =>
      match c.ringSide with
      | none => s
      | some (h, produce, _) =>
        let r := k.ring h
        let waits (x : CopyCmd) : Bool := !x.claimed && match x.ringSide with | some (g, _, _) => g == h | none => false
        if c.claimed || k.copy.stopped || (k.copy.begun.take n).any waits || (if produce then r.free else r.full) < c.ns then s
        else
          let rs := if produce then r.relC else r.relP
          let c1 := { c with claimed := true, view := union c.view (learned rs cl .cl) }
          let k1 := { k with copy := { k.copy with begun := modNth k.copy.begun n fun _ => c1 } }
          s.setCl cl (k1.setRing h { r with claims := r.claims ++ [⟨c.id, produce, c.ns, false, false⟩] })

/-- The first slot of a command's claim (R266). -/
def Ring.claimStart (r : Ring) (id : Nat) (produce : Bool) : Nat :=
  (r.claims.takeWhile (·.cmd != id)).foldl (fun n c => if c.produce == produce then n + c.n else n)
    (if produce then r.p else r.c)

/-- Where a side of a command lies. -/
def Cluster.side (k : Cluster) (c : CopyCmd) (dst : Bool) : Side :=
  let p := if dst then c.dst else c.src
  match c.opts.rside, dst with
  | .dst h, true => .ring p (k.ring h.val) ((k.ring h.val).claimStart c.id true)
  | .src h, false => .ring p (k.ring h.val) ((k.ring h.val).claimStart c.id false)
  | _, _ => .pat p

/-- Who makes the copy engine's accesses: they come after those of the commands before the latest release that stands
between (R84). -/
def Cluster.copyWho (k : Cluster) (cl : Nat) (c : CopyCmd) : Who :=
  let after := k.copy.mark ≤ c.id
  { cl := cl, asid := c.asid, cls := 2, seq := false, view := if after then union c.view k.copy.before else c.view,
    floor := if after then k.copy.floor else [], sub := c.id }

/-- The old destination of CPY.R by address. -/
def overlay (d : Side) (rows : List (Nat × Row)) : Memory :=
  rows.foldl (fun m e => ((d.row e.1).zip e.2).foldl (fun m x => m.write x.1 (leBytes (wordSize d.p.ty) x.2.1)) m) []

/-- Rows with their numbers. -/
def numbered (ns : List Nat) (rows : List Row) : List (Nat × Row) := ns.zip rows

/-- The innermost-dimension runs of a command, in traversal order: rows of elements; for CPY.PL the group rows it writes
(R252, R270, R274). -/
def CopyCmd.runs (c : CopyCmd) : Nat :=
  match c.op with
  | .cpyFill => if c.dst.empty then 0 else c.dst.nrows
  | .cpyG => if c.src.empty || c.dst.empty then 0 else c.aux.total
  | .cpyS => if c.src.empty || c.dst.empty then 0 else c.aux.total
  | .cpyPl => if c.src.empty then 0 else (c.src.counts[1] + 31) / 32
  | _ => if c.src.empty then 0 else c.src.nrows

/-- Rows of a side read one after another, then what follows; `f` names the rows read. -/
def State.thenRows (s : State) (w : Who) (d : Side) (scale : Word) (l : List Nat)
    (f : State → List Row → Got Plan) : Got Plan :=
  match s.rowsIn w d scale l with
  | .ok s1 x =>
    match f s1 x with
    | .ok s2 p => .ok s2 { p with reads := (l.map (d.pieces scale)).flatten ++ p.reads }
    | .fail s2 e d a => .fail s2 e d a
    | .wait s2 => .wait s2
  | .fail s1 e d a => .fail s1 e d a
  | .wait s1 => .wait s1

/-- The indices of runs, in traversal order of the index record (R267). -/
def State.thenIndices (s : State) (w : Who) (aux : Pattern) (ns : List Nat) (f : State → List Int → Got Plan) : Got Plan :=
  let vas := ns.map fun i => (Side.pat aux).elemVa (i / aux.counts[0]) (i % aux.counts[0])
  match s.wordRow w aux.ty vas with
  | .ok s1 x => f s1 (x.map fun e => indexOf aux.ty e.1)
  | .fail s1 e d a => .fail s1 e d a
  | .wait s1 => .wait s1

/-- What the runs ns of a command read and write: every read is made before a write (R105). -/
def State.copyPlan (s : State) (cl : Nat) (c : CopyCmd) (ns : List Nat) : Got Plan :=
  let k := s.cluster cl
  let w := k.copyWho cl c
  let src := k.side c false
  let dst := k.side c true
  match c.op with
  | .cpyFill => .ok s (planFill c.value dst ns)
  | .cpyG =>
    s.thenIndices w c.aux ns fun s l =>
      let all := ns.zip l
      let ok (e : Nat × Int) : Bool := 0 ≤ e.2 && e.2 < (c.src.counts[1] : Int)
      let good := all.filter ok
      s.thenRows w src c.scale (good.map fun (e : Nat × Int) => e.2.toNat) fun s x =>
        let p := planCopy c.src.ty dst (numbered (good.map fun (e : Nat × Int) => e.1) x)
        .ok s { p with bad := (all.find? fun e => !ok e).map fun (e : Nat × Int) => e.1 }
  | .cpyS =>
    s.thenIndices w c.aux ns fun s l => s.thenRows w src c.scale ns fun s x =>
      .ok s (planScatter c.src.ty dst (ns.zip (l.zip x)))
  | .cpyR =>
    s.thenRows w src c.scale ns fun s x => s.thenRows { w with view := union w.view c.ids } dst c.scale ns fun s y =>
      .ok s (planCombine c.src.ty c.rop dst (numbered ns x) (overlay dst (numbered ns y)))
  | .cpyMx => s.thenRows w src c.scale ns fun s x => .ok s (planMx c.dst c.scale (numbered ns x))
  | .cpyPl =>
    ns.foldl (fun acc gr =>
      match acc with
      | .ok s p =>
        match s.thenRows w src c.scale ((List.range 32).filterMap fun r =>
            if 32 * gr + r < c.src.counts[1] then some (32 * gr + r) else none) fun s x => .ok s (planPi c.dst gr x) with
        | .ok s1 q => .ok s1 ⟨p.reads ++ q.reads, p.writes ++ q.writes, 0, none⟩
        | .fail s1 e d a => .fail s1 e d a
        | .wait s1 => .wait s1
      | g => g) (.ok s .none)
  | _ => s.thenRows w src c.scale ns fun s x => .ok s (planCopy c.src.ty dst (numbered ns x))

/-- The runs a command makes next: one, or all that are left where source and destination lie in one tile (R105,
R274). -/
def Cluster.nextRuns (k : Cluster) (c : CopyCmd) : List Nat :=
  let one := match c.op with
    | .cpyFill => false
    | _ => match (k.side c false).oneTile with | some t => (k.side c true).oneTile == some t | none => false
  if one then (List.range (c.runs - c.pos)).map (c.pos + ·) else [c.pos]

def Cluster.mapCopy (k : Cluster) (c : CopyCmd) : Cluster :=
  { k with copy := { k.copy with begun := k.copy.begun.map fun x => if x.id == c.id then c else x } }

/-- The next move of a command: the reads of its next runs, made together before a write of theirs, or one of the writes then due,
which come after the command's earlier ones at the same bytes (R105, R267, R268, R274). The command as it then stands. -/
def State.copyStep (s : State) (cl : Nat) (c : CopyCmd) (choice : Nat) : Got CopyCmd :=
  let k := s.cluster cl
  let w := k.copyWho cl c
  let put (t : State) (c1 : CopyCmd) : Got CopyCmd := .ok (t.mapCl cl (·.mapCopy c1)) c1
  if c.due.isEmpty then
    let ns := k.nextRuns c
    match s.copyPlan cl c ns with
    | .ok s1 p =>
      match s1.engineTurn cl 1 p.reads [] with
      | none => .wait s
      | some (s2, _) =>
        let due := (p.writes.map (·.split)).flatten
        put ((s2.dropLines w.agent).raise cl p.flags)
          { c with pos := c.pos + ns.length, bad := c.bad.orElse fun _ => p.bad, due := due, going := !due.isEmpty }
    | .fail s1 e d a => put (s1.dropLines w.agent) { c with fault := some (engDetail e d, a), going := false }
    | .wait s1 => .wait s1
  else
    match s.makeDue { w with view := union w.view c.ids } c.due choice with
    | .ok s1 (due, ids, failed) =>
      put s1 { c with due := due, ids := union c.ids ids, fault := failed, going := midRun c.due due }
    | .fail s1 e d a => .fail s1 e d a
    | .wait s1 => .wait s1

/-- A begun command may make accesses: its claim is granted, no command that a release sets before it is incomplete, and the
engine is not to stop, unless a run of it is in progress (R84, R266, R343, R362). -/
def Cluster.copyMay (k : Cluster) (c : CopyCmd) : Bool :=
  c.claimed && (!k.copy.stopped || c.going) && !k.saving
    && (c.id < k.copy.mark || (k.copy.queue ++ k.copy.begun).all fun x => k.copy.mark ≤ x.id)

/-- All runs of a command are made. -/
def CopyCmd.made (c : CopyCmd) : Bool := c.runs ≤ c.pos && c.due.isEmpty

/-- What a command that is held leaves: a run of it is in progress (R343). -/
def State.copyHeld (s s1 : State) (cl : Nat) (c : CopyCmd) : State := (s.held s1 cl).mapCl cl (·.mapCopy { c with going := true })

/-- Its completion actions may take place: its writes have been acknowledged, and no earlier claim of its handle stands
(R266, R275). -/
def State.copyEnds (s : State) (cl : Nat) (c : CopyCmd) : Bool :=
  !s.unacked cl 2 c.id &&
    match c.ringSide with
    | none => true
    | some (h, _, _) => (((s.cluster cl).ring h).claims.head?.map (·.cmd)) == some c.id

/-- A fire that finds no armed command waits for one; false when 15 wait already (R288). -/
def Cluster.pendFire (k : Cluster) (slot : Nat) : Cluster × Bool :=
  if h : slot < 4 then
    if 15 ≤ k.mat.pending[slot] then (k, false)
    else ({ k with mat := { k.mat with pending := k.mat.pending.set slot (k.mat.pending[slot] + 1) } }, true)
  else (k, true)

/-- An armed slot is next in line: behind those fired before, of those of one clk in the order of their numbers (R278). -/
def Matrix.fires (m : Matrix) (slot clk : Nat) : Matrix :=
  let ahead := m.fired.takeWhile fun x => m.firedAt.get x 0 != clk || x < slot
  { m with fired := ahead ++ slot :: m.fired.drop ahead.length, firedAt := m.firedAt.set slot clk }

/-- A fire: the armed command is next in line, or the fire is pending; false when the count would pass 15 (R265,
R288). -/
def Cluster.fireArm (k : Cluster) (slot : Nat) (known : List Nat) : Cluster × Bool :=
  let m := k.mat
  match m.arms.find? fun (e : Nat × MatCmd) => e.1 == slot with
  | some e =>
    if m.fired.contains slot then k.pendFire slot
    else
      let armed : MatCmd := { e.2 with view := union e.2.view known }
      ({ k with mat := { m with arms := m.arms.set slot armed }.fires slot k.clk }, true)
  | none => k.pendFire slot

/-- The completion actions in their order: ring advance, end mark, event, fire (R275 to R277); a failed command
releases its claim when it is the last one, and neither marks nor fires. -/
def Cluster.copyFinish (k : Cluster) (cl : Nat) (c : CopyCmd) (failed : Bool) : Cluster × Bool :=
  let known := union c.view c.ids
  let info : RelInfo := ⟨known, .cl, cl, [(2, known)]⟩
  let e := { k.copy with begun := k.copy.begun.filter (·.id != c.id), writes := union k.copy.writes c.ids }
  let k0 := { k with copy := if c.id < k.copy.mark then { e with before := union e.before c.ids, floor := union e.floor e.reads } else e }
  let k1 := match c.ringSide with
    | none => k0
    | some (h, produce, _) =>
      let r := k0.ring h
      let rest := r.claims.filter fun (x : Claim) => x.cmd != c.id
      let r1 := { r with claims := rest }
      if failed && rest.isEmpty then k0.putRing h r1
      else
        let k2 := (k0.setRing h r1).advance h produce c.ns info 1
        if c.opts.endr && !failed then k2.setRing h { k2.ring h with ended := true } else k2
  let k3 := match c.opts.evt with | some e => k1.setEvent e.val info 3 | none => k1
  let (k4, ok) := match c.op with | .cpyF => if failed then (k3, true) else k3.fireArm c.arm known | _ => (k3, true)
  ((k4.setSeq .copy (k4.seqY.creditCmd c.id 2 known)).settleIdle, ok)

/-- A command all of whose runs are made completes (R257, R265, R275, R276, R288): an index out of range or a fire beyond
15 gives ENGFAULT (R267). -/
def State.copyEnd (s : State) (cl : Nat) (c : CopyCmd) : State :=
  if !s.copyEnds cl c then s
  else
    let (k1, ok) := (s.cluster cl).copyFinish cl c false
    let s1 := s.setCl cl k1
    let s2 := match c.bad with | some i => s1.raiseEng cl .copy 4 (w64 i) | none => s1
    if ok then s2 else s2.fresh.raiseEng cl .copy 5 (Config.freeWord s2.counter)

/-- COPY_COMMAND_COMPLETE: the begun command k mod 4 makes its next move, k / 4 saying which of the writes due comes first,
and after the last one completes, its completion actions in their order (R257, R264 to R276; log entry 21). -/
def execCopyCommandComplete (cl n : Nat) (s : State) : Result :=
  .next <|
    let k := s.cluster cl
    match k.copy.begun[n % 4]? with
    | none => s
    | some c =>
      if !k.copyMay c || c.fault.isSome then s
      else if c.made then s.copyEnd cl c
      else
        match s.copyStep cl c (n / 4) with
        | .ok s1 c1 => if c1.fault.isSome then s else if c1.made then s1.copyEnd cl c1 else s1
        | .fail _ _ _ _ => s
        | .wait s1 => s.copyHeld s1 cl c

/-- A failed command completes in its restricted way once its writes are acknowledged (R277). -/
def State.copyFail (s : State) (cl : Nat) (c : CopyCmd) : State :=
  match c.fault with
  | none => s
  | some (detail, va) =>
    if !s.copyEnds cl c then s
    else (s.setCl cl ((s.cluster cl).copyFinish cl c true).1).raiseEng cl .copy detail (w64 va)

/-- COPY_ACCESS_FAILURE: the command stops where an access fails, or where another module has refused a write of it, and
completes in its restricted way (R277). -/
def execCopyAccessFailure (cl n : Nat) (s : State) : Result :=
  .next <|
    let k := s.cluster cl
    match k.copy.begun[n]? with
    | none => s
    | some c =>
      if !k.copyMay c then s
      else if c.fault.isSome then s.copyFail cl c
      else if c.made then s
      else
        match s.copyStep cl c 0 with
        | .ok s1 c1 => if c1.fault.isSome then s1.copyFail cl c1 else s
        | .fail _ _ _ _ => s
        | .wait s1 => s.copyHeld s1 cl c

end Sys2Proof.Machine
end

