-- ==== Sys2Proof/Machine/Matrix.lean ====
section
/-! DEFINITION. The matrix commands, their checks at placement, and the matrix array (R62 to R65, R70, R71, R256, R257,
R278 to R291). -/

namespace Sys2Proof.Machine

/-! ### Placement (R256, R278, R281 to R290) -/

/-- The command takes its place in the queue of 8, and the shadow follows it; while the queue is full it stalls. -/
def State.enqueueMat (s : State) (op : MatOp) (evt : Option (Fin 64)) : State :=
  let k := s.here
  if 8 ≤ k.mat.queue.length then s.mapMe (·.setWait .placing)
  else
    let c : MatCmd :=
      { id := s.counter, op := op, evt := evt.map (·.val), view := s.me.seenBy 3, asid := k.task.ctx, shape := none,
        a := none, b := none, armed := none }
    let m := { k.mat with queue := k.mat.queue ++ [c] }
    let m1 : Matrix := match op with
      | .shape x y z => { m with shShape := some (x, y, z) }
      | .opa o => { m with shA := some o }
      | .opb o => { m with shB := some o }
      | _ => m
    (s.mapHere fun k => { k with mat := m1 }).fresh.complete 8

/-- MATRIX with its DETAIL and the offending value (R281). -/
def State.trapMat (s : State) (detail : Nat) (v : Word) : State := s.trap cMATRIX detail v

/-- MATRIX where no one value offends: TRAPARG is not stated. -/
def State.trapMatFree (s : State) (detail : Nat) : State := s.fresh.trap cMATRIX detail (Config.freeWord s.counter)

/-- MXC.SHAPE (R282). -/
def execMxcShape (g : Guard) (d a b : Reg) (s : State) : Result :=
  s.engine .matrix g (.mxcShape g d a b) fun s =>
    let m := s.me.reg d
    let n := s.me.reg a
    let k := s.me.reg b
    let dim (v : Word) : Bool := 1 ≤ v.toNat && v.toNat ≤ 256
    if !dim m then s.trapMat 1 m
    else if !dim n then s.trapMat 1 n
    else if 2 ^ 32 ≤ k.toNat then s.trapMat 1 k
    else s.enqueueMat (.shape m.toNat n.toNat k.toNat) none

/-- The operand types of R283. -/
def matType (ty : Nat) : Bool := ty == 0 || ty == 8 || (0xA ≤ ty && ty ≤ 0x11)

/-- The types a ring carries (R283). -/
def ringType (ty : Nat) : Bool := ty == 0 || ty == 8 || ty == 0xA || ty == 0xB

/-- Rows of A or columns of B that fit a ring's slot (R283). -/
def Ring.tooSmall (r : Ring) (stride dim : Nat) : Bool := 64 * r.slotu < stride * dim

/-- MXC.OPA and MXC.OPB: the checks of R283 in its table's order. -/
def State.placeOperand (s : State) (isB : Bool) (d a b : Reg) (ty : Nat) (ring : Option (Fin 16)) : State :=
  let base := s.me.reg a
  let stride := s.me.reg b
  let al := if ty == piTy then 1024 else 64
  let dim := match s.here.mat.shShape with | some (m, n, _) => if isB then n else m | none => 0
  let o : Operand := ⟨ty, base, stride, s.me.reg d, ring.map (·.val)⟩
  let place : State := s.enqueueMat (if isB then .opb o else .opa o) none
  if !matType ty || (isB && ty == piTy) then s.trapMat 2 (w64 ty)
  else if base.toNat % al != 0 then s.trapMat 3 base
  else if stride.toNat % al != 0 then s.trapMat 3 stride
  else
    match ring with
    | none => place
    | some h =>
      if !ringType ty then s.trapMat 4 (w64 ty)
      else if !(s.here.ring h.val).defined then s.trapMat 4 (w64 h.val)
      else if (s.here.ring h.val).tooSmall stride.toNat dim then s.trapMat 4 stride
      else place

/-- MXC.OPA (R283). -/
def execMxcOpa (g : Guard) (d a b : Reg) (ty : BitVec 8) (ring : Option (Fin 16)) (s : State) : Result :=
  s.engine .matrix g (.mxcOpa g d a b ty ring) fun s => s.placeOperand false d a b ty.toNat ring

/-- MXC.OPB (R283). -/
def execMxcOpb (g : Guard) (d a b : Reg) (ty : BitVec 8) (ring : Option (Fin 16)) (s : State) : Result :=
  s.engine .matrix g (.mxcOpb g d a b ty ring) fun s => s.placeOperand true d a b ty.toNat ring

/-- The pairs of R284. -/
def matPair (a b : Nat) : Bool :=
  let fp8 (t : Nat) : Bool := t == 0xA || t == 0xB
  (fp8 a && fp8 b) || (a == 8 && b == 8) || (a == 0 && b == 0) || (isMxTy a && isMxTy b) || (a == piTy && b == 0)

/-- The checks of a compute command against the shadow (R283, R284): STATE, PAIR, RINGOP, then what follows. -/
def State.checkCompute (s : State) (mmp : Bool) (act : State) : State :=
  match s.here.mat.shShape, s.here.mat.shA, s.here.mat.shB with
  | some (m, n, _), some a, some b =>
    let small (o : Operand) (dim : Nat) : Bool := match o.ring with
      | some h => !(s.here.ring h).defined || (s.here.ring h).tooSmall o.stride.toNat dim
      | none => false
    if mmp != (a.ty == piTy) then s.trapMatFree 6
    else if !matPair a.ty b.ty then s.trapMatFree 5
    else if a.ring.isSome && a.ring == b.ring then s.trapMat 4 (w64 (a.ring.getD 0))
    else if small a m then s.trapMat 4 a.stride
    else if small b n then s.trapMat 4 b.stride
    else act
  | _, _, _ => s.trapMatFree 6

/-- MMP's own operands (R286). -/
def State.withPlanes (s : State) (a b : Reg) (scaled : Bool) (act : W32 → Nat → State) : State :=
  let th := BitVec.ofNat 32 (s.me.reg a).toNat
  let p := bits (s.me.reg b) 3 0
  if scaled && (fmt32.decode th.toNat).isNan then s.trapMat 7 (w64 th.toNat)
  else if p < 1 || 8 < p then s.trapMat 7 (w64 p)
  else act th p

/-- MMA (R285). -/
def execMma (g : Guard) (evt : Option (Fin 64)) (s : State) : Result :=
  s.engine .matrix g (.mma g evt) fun s => s.checkCompute false (s.enqueueMat .mma evt)

/-- MMZ (R285). -/
def execMmz (g : Guard) (evt : Option (Fin 64)) (s : State) : Result :=
  s.engine .matrix g (.mmz g evt) fun s => s.checkCompute false (s.enqueueMat .mmz evt)

/-- MMP (R286). -/
def execMmp (g : Guard) (a b : Reg) (o : MmpOpts) (s : State) : Result :=
  s.engine .matrix g (.mmp g a b o) fun s =>
    s.checkCompute true (s.withPlanes a b o.scaled fun th p => s.enqueueMat (.mmp th p o) o.evt)

/-- MXC.ARM: the registers and checks of the armed command (R288). -/
def execMxcArm (g : Guard) (a b : Reg) (slot : Fin 4) (opc : Fin 3) (o : MmpOpts) (s : State) : Result :=
  s.engine .matrix g (.mxcArm g a b slot opc o) fun s =>
    s.checkCompute (opc == 2)
      (if opc == 2 then s.withPlanes a b o.scaled fun th p => s.enqueueMat (.arm slot.val opc.val th p o) o.evt
       else s.enqueueMat (.arm slot.val opc.val 0 0 o) o.evt)

/-- The types of a drain (R289). -/
def drainType (ty : Nat) : Bool := ty == 9 || ty == 8 || ty == 0xA || ty == 0xB || ty == 2 || ty == 1 || ty == 0

/-- MXC.DRAIN (R289). -/
def execMxcDrain (g : Guard) (a b : Reg) (ty : BitVec 8) (acci ef satf : Bool) (evt : Option (Fin 64)) (s : State) : Result :=
  s.engine .matrix g (.mxcDrain g a b ty acci ef satf evt) fun s =>
    let base := s.me.reg a
    let stride := s.me.reg b
    let n := wordSize ty.toNat
    if s.here.mat.shShape.isNone then s.trapMatFree 6
    else if !drainType ty.toNat then s.trapMat 2 (w64 ty.toNat)
    else if base.toNat % n != 0 then s.trapMat 3 base
    else if stride.toNat % n != 0 then s.trapMat 3 stride
    else s.enqueueMat (.drain base stride ty.toNat acci ef satf) evt

/-- MXC.DRAIN.D (R290). -/
def execMxcDrainD (g : Guard) (a : Reg) (ndm1 : Fin 16) (acci : Bool) (evt : Option (Fin 64)) (s : State) : Result :=
  s.engine .matrix g (.mxcDrainD g a ndm1 acci evt) fun s =>
    let v := s.me.reg a
    if s.here.mat.shShape.isNone then s.trapMatFree 6
    else if 128 ≤ v.toNat then s.trapMat 8 v
    else s.enqueueMat (.drainD (bits v 4 0) (bits v 6 5) ndm1.val acci) evt

/-! ### What a command computes from -/

/-- The minor of a command (R281). -/
def MatOp.minor : MatOp → Nat
  | .shape _ _ _ => 0
  | .opa _ => 1
  | .opb _ => 2
  | .arm _ _ _ _ _ => 3
  | .mma => 4
  | .mmz => 5
  | .mmp _ _ _ => 6
  | .drain _ _ _ _ _ _ => 7
  | .drainD _ _ _ _ => 8

/-- MROWP (R280). -/
def mrowpWord (c : MatCmd) (kb pl : Nat) (busy : Bool) : Word :=
  w64 (kb % 2 ^ 28 + pl * 2 ^ 28 + c.op.minor * 2 ^ 32 + busy.toNat * 2 ^ 36 + c.armed.isSome.toNat * 2 ^ 37
    + c.armed.getD 0 * 2 ^ 38)

/-- Who makes the array's accesses: they come after those of the commands before the latest release that stands between
(R84, R279). -/
def Cluster.matWho (k : Cluster) (cl : Nat) (c : MatCmd) : Who :=
  let after := k.mat.mark ≤ c.id
  { cl := cl, asid := c.asid, cls := 3, seq := false, view := if after then union c.view k.mat.before else c.view,
    floor := if after then k.mat.floor else [], sub := c.id }

/-- The first byte of an operand: its base, or its ring slot (R283). -/
def Cluster.opBase (k : Cluster) (o : Operand) (slot : Option Nat) : Word :=
  match o.ring with
  | some h => w64 ((k.ring h).slotVa (slot.getD 0))
  | none => o.base

/-- One row's elements of a k-block: their codes and the scale code. -/
abbrev KRow := List Nat × Nat

/-- k-block b of n elements of row r: the bytes that hold them, and the scale of an MX type (R58, R279, R283). -/
def blockPieces (o : Operand) (base : Word) (b n r : Nat) : List (Nat × Nat) :=
  let row := base + w64 r * o.stride
  if isMxTy o.ty then
    [((row + w64 (b * mxBlock o.ty)).toNat, (n * mxBits o.ty + 7) / 8),
     ((o.scale + w64 (r * (o.stride.toNat / mxBlock o.ty) + b)).toNat, 1)]
  else [((row + w64 (32 * b * wordSize o.ty)).toNat, n * wordSize o.ty)]

/-- The elements in those bytes. -/
def blockCodes (ty n : Nat) (bs sc : List Byte) : KRow :=
  if isMxTy ty then ((List.range n).map (mxElem ty bs), leNat sc)
  else ((List.range n).map fun i => field bs (i * wordSize ty) (wordSize ty), 127)

/-- k-block b of a number of rows. -/
def State.blockRows (s : State) (w : Who) (o : Operand) (base : Word) (b n : Nat) : List Nat → Got (List KRow)
  | [] => .ok s []
  | r :: rest =>
    match s.gather w (blockPieces o base b n r) with
    | .ok s1 l =>
      match s1.blockRows w o base b n rest with
      | .ok s2 x => .ok s2 (blockCodes o.ty n (l.getD 0 []) (l.getD 1 []) :: x)
      | .fail s2 c d a => .fail s2 c d a
      | .wait s2 => .wait s2
    | .fail s1 c d a => .fail s1 c d a
    | .wait s1 => .wait s1

/-! ### Dense products (R70, R71, R285) -/

/-- A product of FP elements as an FP32 leaf (R70). -/
def fpLeaf (ta tb sa sb x y : Nat) : Nat × Nat :=
  if sa == 0xFF || sb == 0xFF then (fmt32.nanCode, 0)
  else
    let (p, f) := mulFp ((fmtOf ta).decode x) ((fmtOf tb).decode y)
    let (c, g) := fl32 (p.scale ((sa : Int) + sb - 254))
    (c, f ||| g)

/-- One k-block of a dot product: leaves, tree and accumulate (R71). -/
def dotFp (ta tb : Nat) (x y : KRow) (acc : Nat) : Nat × Nat :=
  let ls := (x.1.zip y.1).map fun e => fpLeaf ta tb x.2 y.2 e.1 e.2
  let fl := runFlags ls
  let (t, f) := tree 5 (ls.map (·.1) ++ List.replicate (32 - ls.length) 0)
  let (c, g) := fadd32 acc t
  (c, fl ||| f ||| g)

def dotInt (x y : KRow) (acc : Nat) : Nat × Nat :=
  let t := (x.1.zip y.1).foldl (fun n e => n + sext 8 e.1 * sext 8 e.2) (0 : Int)
  let (v, f) := satAcc (sext 32 acc + t)
  ((v % 2 ^ 32).toNat, f)

/-- The cells of a region. -/
def region (m n : Nat) : List (Nat × Nat) := ((List.range m).map fun i => (List.range n).map fun j => (i, j)).flatten

/-- One k-block of a dense product over the region: accumulators and flags. -/
def denseBlock (acc : Table W32) (ta tb m n : Nat) (xs ys : List KRow) : Table W32 × Nat :=
  let one (o : Table W32 × Nat) (e : Nat × Nat) : Table W32 × Nat :=
    let at_ := 256 * e.1 + e.2
    let x := xs.getD e.1 ([], 0)
    let y := ys.getD e.2 ([], 0)
    let old := (o.1.get at_ 0).toNat
    let (v, f) := if ta == 0 then dotInt x y old else dotFp ta tb x y old
    (o.1.set at_ (BitVec.ofNat 32 v), o.2 ||| f)
  (region m n).foldl one (acc, 0)

/-- The region's accumulators set to one value. -/
def fillAcc (acc : Table W32) (m n : Nat) (v : W32) : Table W32 :=
  (region m n).foldl (fun t e => t.set (256 * e.1 + e.2) v) acc

/-! ### Plane mode (R62 to R65, R286, R287) -/

/-- The rows of group row gr below M. -/
def groupRows (m gr : Nat) : Nat := Nat.min 32 (m - 32 * gr)

/-- Slab sl of k-group g of a group row: the words of its rows below M. -/
def slabPiece (o : Operand) (m gr g sl : Nat) : Nat × Nat :=
  ((o.base + w64 gr * o.stride + w64 (1024 * g + 128 * sl)).toNat, 4 * groupRows m gr)

/-- A group row as known so far: for each row and k-block, floor(a / w) × w of its elements (R62, R65). -/
abbrev PlaneRows := List (List (List Int))

/-- Nothing is known yet. -/
def blankRows (m k gr : Nat) : PlaneRows :=
  List.replicate (groupRows m gr) ((List.range ((k + 31) / 32)).map fun g => List.replicate (Nat.min 32 (k - 32 * g)) 0)

/-- What a plane bit of slab sl stands for. -/
def planeWeight (sl : Nat) : Int := if sl == 0 then -128 else ((2 ^ (7 - sl) : Nat) : Int)

/-- Slab sl of k-group g adds its plane. -/
def addSlab (rows : PlaneRows) (g sl : Nat) (bs : List Byte) : PlaneRows :=
  let word (r : Nat) : Nat := field bs (4 * r) 4
  let elem (r : Nat) (e : Nat × Int) : Int := if bit (word r) e.1 then e.2 + planeWeight sl else e.2
  ((List.range rows.length).zip rows).map fun e =>
    modNth e.2 g fun xs => ((List.range xs.length).zip xs).map (elem e.1)

/-- The scale codes of a row's k-blocks (R64). -/
def State.planeScales (s : State) (w : Who) (o : Operand) (k r : Nat) : Got (List Nat) :=
  let nb := (k + 31) / 32
  match s.gather w ((List.range nb).map fun g => ((o.scale + w64 (r * (o.stride.toNat / 1024) + g)).toNat, 1)) with
  | .ok s1 l => .ok s1 (l.map leNat)
  | .fail s1 c d a => .fail s1 c d a
  | .wait s1 => .wait s1

/-- Columns of B, INT8. -/
def State.planeCols (s : State) (w : Who) (o : Operand) (base : Word) (k : Nat) : List Nat → Got (List (List Int))
  | [] => .ok s []
  | n :: rest =>
    match s.gather w (if k == 0 then [] else [((base + w64 n * o.stride).toNat, k)]) with
    | .ok s1 l =>
      match s1.planeCols w o base k rest with
      | .ok s2 x => .ok s2 ((l.flatten.map fun b => sext 8 b.toNat) :: x)
      | .fail s2 c d a => .fail s2 c d a
      | .wait s2 => .wait s2
    | .fail s1 c d a => .fail s1 c d a
    | .wait s1 => .wait s1

/-- The exact interval of R65 over one k-block. -/
def planeBounds (a b : List Int) (p : Nat) : Int × Int :=
  let w : Int := (2 ^ (8 - p) : Nat)
  (a.zip b).foldl (fun (acc : Int × Int) e =>
    let known := e.1 * e.2
    (acc.1 + known + if e.2 < 0 then e.2 * (w - 1) else 0, acc.2 + known + if 0 < e.2 then e.2 * (w - 1) else 0)) (0, 0)

/-- The bounds of an output in units of 2^−127, each k-block at its scale, or at 1 without scales; none when a segment's scale is
NaN. -/
def outBounds (row : List (List Int)) (sc : List Nat) (col : List Int) (p : Nat) : Option (Int × Int) :=
  if sc.any (· == 0xFF) then none
  else
    some ((List.range row.length).foldl (fun (acc : Int × Int) g =>
      let (lo, hi) := planeBounds (row.getD g []) (col.drop (32 * g)) p
      let f : Int := (2 ^ (sc.getD g 127) : Nat)
      (acc.1 + lo * f, acc.2 + hi * f)) (0, 0))

/-- θ as a value. -/
def thetaOf (th : W32) (scaled : Bool) : Fp := if scaled then fmt32.decode th.toNat else .ofInt th.toInt

/-- The reading of R63 from p planes. -/
def planeReading (mid : Bool) (p : Nat) (v : Int) : Int := if mid && p < 8 then v + (2 ^ (8 - p) / 2 : Nat) else v

/-- One k-block's value, exactly. -/
def planeBlock (a b : List Int) (mid : Bool) (p : Nat) : Int :=
  (a.zip b).foldl (fun n e => n + planeReading mid p e.1 * e.2) 0

/-- v with SCALED 1: each k-block's value times its scale, exactly, and the accumulate (R71, R286). -/
def planeSum (row : List (List Int)) (sc : List Nat) (col : List Int) (mid : Bool) (p : Nat) : Nat × Nat :=
  (List.range row.length).foldl (fun (acc : Nat × Nat) g =>
    let c := sc.getD g 0
    let v : Fp := if c == 0xFF then .nan false else (Fp.ofInt (planeBlock (row.getD g []) (col.drop (32 * g)) mid p)).scale ((c : Int) - 127)
    let (x, f) := addFp (fmt32.decode acc.1) v
    let (y, h) := fl32 x
    (y, acc.2 ||| f ||| h)) (0, 0)

/-- v with SCALED 0: the exact sum of each k-block, and the accumulate, which saturates (R71, R286). -/
def planeExact (row : List (List Int)) (col : List Int) (mid : Bool) (p : Nat) : Int × Nat :=
  (List.range row.length).foldl (fun (acc : Int × Nat) g =>
    let (v, f) := satAcc (acc.1 + planeBlock (row.getD g []) (col.drop (32 * g)) mid p)
    (v, acc.2 ||| f)) (0, 0)

/-- The result of an output and its flags (R286). -/
def planeResult (o : MmpOpts) (th : W32) (low settled : Bool) (row : List (List Int)) (sc : List Nat) (col : List Int)
    (p : Nat) : Nat × Nat :=
  let lowWord : Nat := if o.mode == 1 then (if o.scaled then fmt32.infCode true else 2 ^ 31 + 1) else 0
  if o.scaled then
    let (v, f) := planeSum row sc col o.mid p
    let x := fmt32.decode v
    if x.isNan then (fmt32.nanCode, fNV ||| if settled then 0 else f)
    else
      (if low || ltFp x (thetaOf th true) then lowWord else if o.mode == 2 then 0x3F800000 else v, if settled then 0 else f)
  else
    let (v, f) := planeExact row col o.mid p
    (if low || v < th.toInt then lowWord else if o.mode == 2 then 1 else (v % 2 ^ 32).toNat, if settled then 0 else f)

/-! ### The array at its command boundaries (R278, R288, R290) -/

def MatRun.begin (c : MatCmd) (open_ : List Nat) : MatRun :=
  { cmd := c, slotA := none, slotB := none, planes := 0, open_ := open_, low := [], rows := [], known := [], scales := [],
    cols := [], kb := 0, due := [], going := false, ids := [], fault := none, fetched := 0 }

/-- A command begins: MROWP shows it, and every output of an MMP is open. -/
def Matrix.start (m : Matrix) (c : MatCmd) : Matrix :=
  let outs := match c.op, c.shape with
    | .mmp _ _ _, some (x, y, _) => (region x y).map fun e => 256 * e.1 + e.2
    | _, _ => []
  { m with cur := some (.begin c outs), mrowp := mrowpWord c 0 0 true }

/-- The completion actions that follow the operand rings: the event, and the sequencer that may become idle (R285). -/
def Cluster.matDone (k : Cluster) (cl : Nat) (c : MatCmd) (ids : List Nat) : Cluster :=
  let known := union c.view ids
  let info : RelInfo := ⟨known, .cl, cl, [(3, known)]⟩
  let k1 := match c.evt with | some e => k.setEvent e info 3 | none => k
  let m := { k1.mat with cur := none, writes := union k1.mat.writes ids, mrowp := k1.mat.mrowp &&& ~~~(w64 (2 ^ 36)) }
  ({ k1.setSeq .matrix (k1.seqM.creditCmd c.id 3 known) with
     mat := if c.id < m.mark then { m with before := union m.before ids, floor := union m.floor m.reads } else m
   } : Cluster).settleIdle

/-- A queued command at the head: SHAPE, OPA and OPB take effect, ARM waits for its slot, a drain into the fabric finds
its FIFO, and every other begins under the shape and descriptors in force. -/
def State.matHead (s : State) (cl : Nat) (c : MatCmd) (rest : List MatCmd) : State :=
  let k := s.cluster cl
  let m := { k.mat with queue := rest }
  let c1 := { c with shape := m.shape, a := m.a, b := m.b }
  match c.op with
  | .shape x y z => s.setCl cl ({ k with mat := { m with shape := some (x, y, z) } } : Cluster).settleIdle
  | .opa o => s.setCl cl ({ k with mat := { m with a := some o } } : Cluster).settleIdle
  | .opb o => s.setCl cl ({ k with mat := { m with b := some o } } : Cluster).settleIdle
  | .arm _ _ _ _ _ => s.setCl cl { k with mat := { m with armWait := some c } }
  | .drainD tile slot _ _ =>
    let k1 := { k with mat := m.start c1 }
    match k.portAt cl slot tile with
    | some q =>
      if q.opr == 0x11 && (k.slot slot).st == .running then s.setCl cl (k1.updPort q fun p => { p with drainOn := true })
      else (s.setCl cl (k1.matDone cl c [])).fresh.raiseEng cl .matrix 6 (Config.freeWord s.counter)
    | none => (s.setCl cl (k1.matDone cl c [])).fresh.raiseEng cl .matrix 6 (Config.freeWord s.counter)
  | _ => s.setCl cl { k with mat := m.start c1 }

/-- MATRIX_NEXT_COMMAND: a fired arm slot first, then the queue (R278). -/
def execMatrixNextCommand (cl : Nat) (s : State) : Result :=
  .next <|
    let k := s.cluster cl
    let m := k.mat
    if m.cur.isSome || m.stopped || k.saving then s
    else
      match m.fired with
      | slot :: rest =>
        match m.arms.find? fun (e : Nat × MatCmd) => e.1 == slot with
        | some e =>
          let m1 := { m with fired := rest, arms := m.arms.drop slot }
          s.setCl cl { k with mat := m1.start { e.2 with armed := some slot } }
        | none => s.setCl cl { k with mat := { m with fired := rest } }
      | [] =>
        if m.armWait.isSome then s
        else
          match m.queue with
          | c :: rest => s.matHead cl c rest
          | [] => s

/-- The compute command an MXC.ARM arms. -/
def armedOp (opc : Nat) (th : W32) (p : Nat) (o : MmpOpts) : MatOp :=
  match opc with
  | 0 => .mma
  | 1 => .mmz
  | _ => .mmp th p o

/-- ARM_SLOT_STORE: the slot is empty; shape and descriptors are captured, and a pending fire fires it at once, an
acquire of the copies completed (R95, R288). -/
def execArmSlotStore (cl : Nat) (s : State) : Result :=
  .next <|
    let k := s.cluster cl
    let m := k.mat
    match m.armWait with
    | some c =>
      match c.op with
      | .arm slot opc th p o =>
        if m.stopped || k.saving || m.arms.any (fun e => e.1 == slot) then s
        else if h : slot < 4 then
          let fires := m.pending[slot] != 0
          let stored : MatCmd :=
            { c with op := armedOp opc th p o, shape := m.shape, a := m.a, b := m.b,
                     view := if fires then union c.view k.copy.writes else c.view }
          let m1 : Matrix := { m with armWait := none, arms := m.arms.set slot stored, pending := m.pending.set slot (m.pending[slot] - 1) }
          s.setCl cl ({ k with mat := if fires then m1.fires slot k.clk else m1 } : Cluster).settleIdle
        else s
      | _ => s
    | none => s

/-- An operand's ring that the command still waits for. -/
def Operand.waits (o : Option Operand) (got : Option Nat) : Option Nat := if got.isSome then none else o.bind (·.ring)

/-- The command computes with operands: it is MMA, MMZ or MMP. -/
def MatOp.computes : MatOp → Bool
  | .mma => true
  | .mmz => true
  | .mmp _ _ _ => true
  | _ => false

/-- MATRIX_RING_SLOT: a full slot of an operand ring, at HEADI, an acquire of class M (R95, R283). -/
def execMatrixRingSlot (cl : Nat) (s : State) : Result :=
  .next <|
    let k := s.cluster cl
    match k.mat.cur with
    | none => s
    | some r =>
      let get (h : Nat) (f : MatRun → MatRun) : State :=
        let r1 := f r
        let c : MatCmd := { r1.cmd with view := union r1.cmd.view (learned (k.ring h).relP cl .cl) }
        let r2 : MatRun := { r1 with cmd := c }
        s.setCl cl { k with mat := { k.mat with cur := some r2 } }
      let full (o : Option Operand) (got : Option Nat) : Option Nat :=
        match Operand.waits o got with
        | some h => if (k.ring h).defined && 1 ≤ (k.ring h).full then some h else none
        | none => none
      if !r.cmd.op.computes || k.mat.stopped || k.saving then s
      else
        match full r.cmd.a r.slotA, full r.cmd.b r.slotB with
        | some h, _ => get h fun r => { r with slotA := some (k.ring h).c }
        | none, some h => get h fun r => { r with slotB := some (k.ring h).c }
        | none, none => s

/-- Every operand ring of the command has given its slot. -/
def MatRun.ready (r : MatRun) : Bool :=
  !r.cmd.op.computes || ((Operand.waits r.cmd.a r.slotA).isNone && (Operand.waits r.cmd.b r.slotB).isNone)

/-- The operand rings advance by the slot read (R283, R291). -/
def Cluster.advanceOperands (k : Cluster) (cl : Nat) (r : MatRun) : Cluster :=
  let info : RelInfo := ⟨r.cmd.view, .cl, cl, [(3, r.cmd.view)]⟩
  let one (k : Cluster) (o : Option Operand) (got : Option Nat) : Cluster :=
    match got, o.bind (·.ring) with
    | some _, some h => k.advance h false 1 info 2
    | _, _ => k
  one (one k r.cmd.a r.slotA) r.cmd.b r.slotB

/-! ### MMP evaluations (R286, R287) -/

/-- Group rows that hold an open output. -/
def MatRun.openRows (r : MatRun) : List Nat := (r.open_.map fun i => i / 256 / 32).eraseDups

/-- More planes are to be fetched. -/
def MatRun.mmpGoes (r : MatRun) (p : Nat) : Bool := r.planes < p && !r.open_.isEmpty

/-- The outputs of a group row settled at p planes: those low, and those that stay open. -/
def settleRow (o : MmpOpts) (th : W32) (outs : List Nat) (gr : Nat) (rows : PlaneRows) (scs : List (List Nat))
    (cols : List (List Int)) (p : Nat) : List Nat × List Nat :=
  let t := thetaOf th o.scaled
  outs.foldl (fun (acc : List Nat × List Nat) i =>
    let r := i / 256 - 32 * gr
    match outBounds (rows.getD r []) (scs.getD r []) (cols.getD (i % 256) []) p with
    | none => (acc.1, acc.2 ++ [i])
    | some (lo, hi) =>
      let v (x : Int) : Fp := .fin (x < 0) x.natAbs (-127)
      if ltFp (v hi) t then (acc.1 ++ [i], acc.2)
      else if o.mode == 2 && !ltFp (v lo) t then acc
      else (acc.1, acc.2 ++ [i])) ([], [])

/-- Scale codes of the rows of a group row. -/
def State.groupScales (s : State) (w : Who) (o : Operand) (k : Nat) : List Nat → Got (List (List Nat))
  | [] => .ok s []
  | r :: rest =>
    match s.planeScales w o k r with
    | .ok s1 x =>
      match s1.groupScales w o k rest with
      | .ok s2 l => .ok s2 (x :: l)
      | .fail s2 c d a => .fail s2 c d a
      | .wait s2 => .wait s2
    | .fail s1 c d a => .fail s1 c d a
    | .wait s1 => .wait s1

/-- An MMP's operands: shape, A, B and B's first byte. -/
def Cluster.mmpOperands (k : Cluster) (r : MatRun) : Option (Nat × Nat × Nat × Operand × Operand × Word) :=
  match r.cmd.shape, r.cmd.a, r.cmd.b with
  | some (m, n, x), some a, some b => some (m, n, x, a, b, k.opBase b r.slotB)
  | _, _, _ => none

/-- The array's reads at its turn at the array ports of their tiles (R241). -/
def State.matTurn (s : State) (cl : Nat) (ps : List (Nat × Nat)) : Option State := (s.engineTurn cl 2 ps []).map (·.1)

/-- The command in progress as it now stands, with the accumulators and MROWP. -/
def State.putRun (s : State) (cl : Nat) (r : MatRun) (acc : Table W32) (kb pl : Nat) : State :=
  (s.dropLines ((s.cluster cl).matWho cl r.cmd).agent).mapCl cl fun k =>
    { k with mat := { k.mat with cur := some r, acc := acc, mrowp := mrowpWord r.cmd kb pl true } }

/-- The decision unit at p planes: every open output of the group rows fetched (R286). -/
def MatRun.settle (r : MatRun) (o : MmpOpts) (th : W32) (p : Nat) : MatRun :=
  let grs := r.openRows
  let done := grs.map fun g =>
    settleRow o th (r.open_.filter fun i => i / 256 / 32 == g) g (r.known.get g []) (r.scales.get g []) r.cols p
  { r with planes := p, open_ := (done.map (·.2)).flatten, low := r.low ++ (done.map (·.1)).flatten,
           rows := grs.foldl (fun t g => t.set g p) r.rows, kb := 0 }

/-- One plane of one k-group of every group row that holds an open output (R286, R287). -/
def State.slabs (s : State) (w : Who) (o : Operand) (m k g sl : Nat) : List Nat → Table PlaneRows → Got (Table PlaneRows)
  | [], t => .ok s t
  | gr :: rest, t =>
    match s.gather w [slabPiece o m gr g sl] with
    | .ok s1 l => s1.slabs w o m k g sl rest (t.set gr (addSlab (t.get gr (blankRows m k gr)) g sl (l.getD 0 [])))
    | .fail s1 c d a => .fail s1 c d a
    | .wait s1 => .wait s1

/-- The scale codes of group rows. -/
def State.allScales (s : State) (w : Who) (o : Operand) (m k : Nat) : List Nat → Table (List (List Nat)) →
    Got (Table (List (List Nat)))
  | [], t => .ok s t
  | gr :: rest, t =>
    match s.groupScales w o k ((List.range (groupRows m gr)).map (· + 32 * gr)) with
    | .ok s1 l => s1.allScales w o m k rest (t.set gr l)
    | .fail s1 c d a => .fail s1 c d a
    | .wait s1 => .wait s1

/-- A command that fails keeps what stands: an MMP leaves +0 in its region (R291). -/
def State.matFault (s : State) (cl : Nat) (r : MatRun) (detail va : Nat) : State × MatRun :=
  let k := s.cluster cl
  let r1 := { r with fault := some (detail, va), due := [], going := false }
  let acc := match r.cmd.op, r.cmd.shape with
    | .mmp _ _ _, some (m, n, _) => fillAcc k.mat.acc m n 0
    | .mmz, some (m, n, _) => if r.kb == 0 then fillAcc k.mat.acc m n 0 else k.mat.acc
    | _, _ => k.mat.acc
  ((s.dropLines (k.matWho cl r.cmd).agent).mapCl cl fun k => { k with mat := { k.mat with cur := some r1, acc := acc } }, r1)

/-- An MMP's next fetch: B, the scale codes of A, or one plane of one k-group; the last plane of a group of planes is followed
by the evaluation (R286, R287); counter event 4 counts slabs (R408). -/
def State.mmpStep (s : State) (cl : Nat) (r : MatRun) : Got MatRun :=
  let k := s.cluster cl
  let r := { r with going := false }
  match r.cmd.op, k.mmpOperands r with
  | .mmp th pmax o, some (m, n, kk, a, b, bb) =>
    let w := k.matWho cl r.cmd
    let nb := (kk + 31) / 32
    let g := Nat.min (2 ^ o.g.val) (pmax - r.planes)
    let failed (t : State) (c d v : Nat) : Got MatRun := let (u, r1) := t.matFault cl r (engDetail c d) v; .ok u r1
    let take (t : State) (ps : List (Nat × Nat)) (r1 : MatRun) (kb pl slabs : Nat) : Got MatRun :=
      match t.matTurn cl ps with
      | none => .wait s
      | some u => .ok ((u.putRun cl r1 k.mat.acc kb pl).mapCl cl (·.count 4 slabs)) r1
    if r.cols.isEmpty && kk != 0 then
      match s.planeCols w b bb kk (List.range n) with
      | .ok s1 cols =>
        take s1 ((List.range n).map fun j => ((bb + w64 j * b.stride).toNat, kk)) { r with cols := cols } 0 0 0
      | .fail s1 c d v => failed s1 c d v
      | .wait s1 => .wait s1
    else if o.scaled && r.scales.isEmpty && kk != 0 then
      match s.allScales w a m kk (List.range ((m + 31) / 32)) [] with
      | .ok s1 t =>
        take s1 (((List.range m).map fun i => (List.range nb).map fun j =>
          ((a.scale + w64 (i * (a.stride.toNat / 1024) + j)).toNat, 1)).flatten) { r with scales := t } 0 0 0
      | .fail s1 c d v => failed s1 c d v
      | .wait s1 => .wait s1
    else if r.kb < nb * g then
      let grs := r.openRows
      let sl := r.planes + r.kb % g
      match s.slabs w a m kk (r.kb / g) sl grs r.known with
      | .ok s1 t =>
        let r1 := { r with known := t, kb := r.kb + 1 }
        let r2 := if r1.kb == nb * g then r1.settle o th (r.planes + g) else r1
        take s1 (grs.map fun gr => slabPiece a m gr (r.kb / g) sl) r2 (r1.kb / g) r2.planes grs.length
      | .fail s1 c d v => failed s1 c d v
      | .wait s1 => .wait s1
    else
      let r1 := r.settle o th (r.planes + g)
      .ok (s.putRun cl r1 k.mat.acc nb r1.planes) r1
  | _, _ => .wait s

/-- The outputs of an MMP as they are written, with their flags (R286). -/
def State.mmpResults (s : State) (cl : Nat) (r : MatRun) (o : MmpOpts) (th : W32) (m n : Nat) : Table W32 × Nat :=
  let one (acc : Table W32 × Nat) (e : Nat × Nat) : Table W32 × Nat :=
    let i := 256 * e.1 + e.2
    let g := e.1 / 32
    let (v, f) := planeResult o th (r.low.contains i) (!r.open_.contains i) ((r.known.get g []).getD (e.1 % 32) [])
      ((r.scales.get g []).getD (e.1 % 32) []) (r.cols.getD e.2 []) (r.rows.get g 0)
    (acc.1.set i (BitVec.ofNat 32 v), acc.2 ||| f)
  (region m n).foldl one ((s.cluster cl).mat.acc, 0)

/-- The array is to stop, and no k-block, plane or row is in progress (R343, R362). -/
def Cluster.matStill (k : Cluster) (r : MatRun) : Bool := k.mat.stopped && !r.going

/-- What a command that is held leaves: a step of it is in progress (R343). -/
def State.matHeld (s s1 : State) (cl : Nat) (r : MatRun) : State :=
  (s.held s1 cl).mapCl cl fun k => { k with mat := { k.mat with cur := some { r with going := true } } }

/-- MMP_EVALUATION: planes of G are fetched for the group rows that hold an open output, one plane of one k-group after
another, and the decision unit settles outputs once they are known (R286, R287). -/
def execMmpEvaluation (cl : Nat) (s : State) : Result :=
  .next <|
    let k := s.cluster cl
    match k.mat.cur with
    | none => s
    | some r =>
      match r.cmd.op with
      | .mmp _ pmax _ =>
        if !r.ready || !r.mmpGoes pmax || r.fault.isSome || k.matStill r || k.saving then s
        else
          match s.mmpStep cl r with
          | .ok s1 r1 => if r1.fault.isSome then s else s1
          | .fail _ _ _ _ => s
          | .wait s1 => s.matHeld s1 cl r
      | _ => s

/-! ### Completion and failure (R285 to R291) -/

/-- The elements a drain writes of row i, in order, and its flags (R289). -/
def Cluster.drainWrites (k : Cluster) (i n : Nat) (base stride : Word) (ty : Nat) (acci ef satf : Bool) :
    List (Nat × List Byte) × Nat :=
  let sz := wordSize ty
  let ws := (List.range n).map fun j => k.mat.acc.get (256 * i + j) 0
  let row := if ty == 9 && !acci then ws.map fun w => (w.toNat, 0)
    else encodeRow ty ef satf (ws.map fun w => if acci then .ofInt w.toInt else fmt32.decode w.toNat)
  let at_ (j : Nat) : Nat := (base + w64 i * stride + w64 (j * sz)).toNat
  (((List.range n).zip row).map fun x => (at_ x.1, leBytes sz x.2.1), runFlags row)

/-- The steps of a command: the k-blocks of a dense product, the rows of a drain (R280, R362). -/
def MatRun.steps (r : MatRun) : Nat :=
  match r.cmd.op, r.cmd.shape with
  | .mma, some (_, _, kk) => (kk + 31) / 32
  | .mmz, some (_, _, kk) => (kk + 31) / 32
  | .drain _ _ _ _ _ _, some (m, _, _) => m
  | _, _ => 0

/-- The next move of a command: a k-block with its reads and its arithmetic and flags, or one of the writes of a drain's row (R81,
R289, R291). -/
def State.matStep (s : State) (cl : Nat) (r : MatRun) (choice : Nat) : Got MatRun :=
  let k := s.cluster cl
  let w := k.matWho cl r.cmd
  match r.cmd.op, r.cmd.shape, r.cmd.a, r.cmd.b with
  | .drain base stride ty acci ef satf, some (_, n, _), _, _ =>
    let (ws, f) := if r.due.isEmpty then k.drainWrites r.kb n base stride ty acci ef satf else ([], 0)
    let due := if r.due.isEmpty then ((dueOf r.kb ws).map (·.split)).flatten else r.due
    match s.makeDue { w with view := union w.view r.ids } due choice with
    | .ok s1 (left, ids, none) =>
      let r1 := { r with kb := if left.isEmpty then r.kb + 1 else r.kb, due := left, going := !left.isEmpty, ids := union r.ids ids }
      .ok ((s1.raise cl f).putRun cl r1 k.mat.acc r1.kb 0) r1
    | .ok s1 (_, ids, some e) =>
      let (s2, r1) := (s1.raise cl f).matFault cl { r with ids := union r.ids ids } e.1 e.2
      .ok s2 r1
    | .fail s1 c d v => .fail s1 c d v
    | .wait s1 => .wait s1
  | op, some (m, n, kk), some a, some b =>
    let cnt := Nat.min 32 (kk - 32 * r.kb)
    let ba := k.opBase a r.slotA
    let bb := k.opBase b r.slotB
    let failed (t : State) (c d v : Nat) : Got MatRun := let (u, r1) := t.matFault cl r (engDetail c d) v; .ok u r1
    match s.blockRows w a ba r.kb cnt (List.range m) with
    | .ok s1 xs =>
      match s1.blockRows w b bb r.kb cnt (List.range n) with
      | .ok s2 ys =>
        match s2.matTurn cl (((List.range m).map (blockPieces a ba r.kb cnt)).flatten
            ++ ((List.range n).map (blockPieces b bb r.kb cnt)).flatten) with
        | none => .wait s
        | some s3 =>
          let acc0 := match op with | .mmz => if r.kb == 0 then fillAcc k.mat.acc m n 0 else k.mat.acc | _ => k.mat.acc
          let (acc, f) := denseBlock acc0 a.ty b.ty m n xs ys
          let r1 := { r with kb := r.kb + 1, going := false }
          .ok ((s3.raise cl f).putRun cl r1 acc r1.kb 0) r1
      | .fail s2 c d v => failed s2 c d v
      | .wait s2 => .wait s2
    | .fail s1 c d v => failed s1 c d v
    | .wait s1 => .wait s1
  | _, _, _, _ => .wait s

/-- Planes an MMP did not fetch, for counter event 5 (R408). -/
def MatRun.unfetched (r : MatRun) : Nat :=
  match r.cmd.op, r.cmd.shape with
  | .mmp _ p _, some (m, _, kk) =>
    ((List.range ((m + 31) / 32)).map fun g => p - r.rows.get g 0).sum * ((kk + 31) / 32)
  | _, _ => 0

/-- The drain into the fabric has emitted its EOS, or its region is gone (R290). -/
def Cluster.drainOver (k : Cluster) (cl : Nat) (r : MatRun) (tile slot : Nat) : Bool :=
  r.valueCount < r.fetched || !k.inPeriod slot ||
    match k.portAt cl slot tile with
    | some q => !(k.portOf q).drainOn
    | none => true

/-- The port takes beats from VA again. -/
def Cluster.drainOff (k : Cluster) (cl tile slot : Nat) : Cluster :=
  match k.portAt cl slot tile with
  | some q => k.updPort q fun p => { p with drainOn := false }
  | none => k

/-- A command all of whose steps are made completes, its writes acknowledged: the results stand, the operand rings advance
and the event is set (R285, R286, R289). -/
def State.matEnd (s : State) (cl : Nat) (r : MatRun) : State :=
  if s.unacked cl 3 r.cmd.id then s
  else
    let k := s.cluster cl
    let (acc, f, kb) := match r.cmd.op, r.cmd.shape with
      | .mmp th _ o, some (m, n, kk) => let (t, f) := s.mmpResults cl r o th m n; (t, f, (kk + 31) / 32)
      | .mmz, some (m, n, _) => (if r.kb == 0 then fillAcc k.mat.acc m n 0 else k.mat.acc, 0, r.kb)
      | _, _ => (k.mat.acc, 0, r.kb)
    let s1 := (s.putRun cl r acc kb r.planes).raise cl f
    s1.mapCl cl fun k => ((k.count 5 r.unfetched).advanceOperands cl r).matDone cl r.cmd r.ids

/-- The steps of a command are all made. -/
def MatRun.stepsDone (r : MatRun) : Bool :=
  match r.cmd.op with
  | .mmp _ p _ => !r.mmpGoes p
  | _ => r.steps ≤ r.kb

/-- MATRIX_COMMAND_COMPLETE: the next k-block or row of the command in progress, and after the last the command completes
(R285 to R290). -/
def execMatrixCommandComplete (cl : Nat) (s : State) : Result :=
  .next <|
    let k := s.cluster cl
    match k.mat.cur with
    | none => s
    | some r =>
      if !r.ready || r.fault.isSome || k.matStill r || k.saving then s
      else
        match r.cmd.op with
        | .drainD tile slot _ _ => if k.drainOver cl r tile slot then s.setCl cl ((k.drainOff cl tile slot).matDone cl r.cmd []) else s
        | .mmp _ _ _ => if r.stepsDone then s.matEnd cl r else s
        | _ =>
          if r.stepsDone then s.matEnd cl r
          else
            match s.matStep cl r 0 with
            | .ok s1 r1 => if r1.fault.isSome then s else if r1.stepsDone then s1.matEnd cl r1 else s1
            | .fail _ _ _ _ => s
            | .wait s1 => s.matHeld s1 cl r

/-- A failed command ends once its writes are acknowledged: its rings advance, its event is set and the sequencer takes
ENGFAULT (R291). -/
def State.matFail (s : State) (cl : Nat) (r : MatRun) : State :=
  match r.fault with
  | none => s
  | some (detail, va) =>
    if s.unacked cl 3 r.cmd.id then s
    else (s.mapCl cl fun k => (k.advanceOperands cl r).matDone cl r.cmd r.ids).raiseEng cl .matrix detail (w64 va)

/-- MATRIX_ACCESS_FAILURE: the command stops where an access fails, or where another module has refused a write of it
(R291). -/
def execMatrixAccessFailure (cl : Nat) (s : State) : Result :=
  .next <|
    let k := s.cluster cl
    match k.mat.cur with
    | none => s
    | some r =>
      if !r.ready || k.matStill r || k.saving then s
      else if r.fault.isSome then s.matFail cl r
      else if r.stepsDone then s
      else
        match (match r.cmd.op with | .mmp _ _ _ => s.mmpStep cl r | _ => s.matStep cl r 0) with
        | .ok s1 r1 => if r1.fault.isSome then s1.matFail cl r1 else s
        | .fail _ _ _ _ => s
        | .wait s1 => s.matHeld s1 cl r

end Sys2Proof.Machine
end

