-- ==== Sys2Proof/Machine/Rings.lean ====
section
/-! DEFINITION. RING.DEF (R181, R182). -/

namespace Sys2Proof.Machine

/-- The ring of a descriptor's 64 bytes. -/
def ringOf (bs : List Byte) : Ring :=
  { defined := true, ended := false, tmask := field bs 0 4, nslot := field bs 4 2, slotu := field bs 6 2,
    base := field bs 8 2, init := field bs 10 2, p := field bs 10 2, c := 0, claims := [], relP := [], relC := [], byP := none, byC := none }

/-- R181 holds of the descriptor. -/
def ringLegal (bs : List Byte) : Bool :=
  let r := ringOf bs
  let n := (tilesOf r.tmask).length
  r.tmask != 0 && 1 ≤ r.nslot && r.nslot ≤ 4096 && 1 ≤ r.slotu && r.slotu ≤ 1024 && r.base ≤ 1023 && r.init ≤ r.nslot
    && field bs 12 52 == 0 && r.base + r.slotu * ((r.nslot + n - 1) / n) ≤ 1024

/-- An operand lies in ring h. -/
def onRing (h : Nat) (o : Option Operand) : Bool := o.bind (·.ring) == some h

/-- The queued commands name ring h, each under the descriptors in force when it will run. -/
def queueNames (h : Nat) : Option Operand → Option Operand → List MatCmd → Bool
  | _, _, [] => false
  | a, b, c :: r =>
    match c.op with
    | .opa o => onRing h (some o) || queueNames h (some o) b r
    | .opb o => onRing h (some o) || queueNames h a (some o) r
    | .shape _ _ _ => queueNames h a b r
    | .drain _ _ _ _ _ _ => queueNames h a b r
    | .drainD _ _ _ _ => queueNames h a b r
    | _ => onRing h a || onRing h b || queueNames h a b r

/-- A matrix command queued, parked or in progress names ring h. -/
def Matrix.names (m : Matrix) (h : Nat) : Bool :=
  let held (c : MatCmd) : Bool := c.op.computes && (onRing h c.a || onRing h c.b)
  queueNames h m.a m.b (m.armWait.toList ++ m.queue) || m.arms.any (fun e => held e.2)
    || m.cur.toList.any fun r => held r.cmd

/-- A wait on ring h is pending on the sequencer (R182). -/
def Sequencer.waitsOn (x : Sequencer) (h : Nat) : Bool :=
  x.waits.any fun w =>
    match w.kind with
    | .ring g _ _ none => g == h
    | .release _ (.advanceP g _) => g == h
    | .release _ (.advanceC g _) => g == h
    | _ => false

/-- A region that runs holds a RING generator naming h (R253). -/
def Cluster.regionNames (k : Cluster) (h : Nat) : Bool :=
  (List.range 4).any fun i => k.inPeriod i && (k.slot i).frames.any fun f => fKind f == 4 && agPat f == 3 && agHnd f == h

/-- BUSY: an engine command or a wait names h, or a running region does. -/
def Cluster.ringBusy (k : Cluster) (h : Nat) : Bool :=
  let copy (c : CopyCmd) : Bool := match c.ringSide with | some (g, _, _) => g == h | none => false
  ((k.ring h).defined && (k.seqC.waitsOn h || k.seqY.waitsOn h || k.seqM.waitsOn h || k.copy.queue.any copy
    || k.copy.begun.any copy || k.mat.names h)) || k.regionNames h

/-- RING.DEF; of a bad descriptor for a busy handle BADDESC comes first, which the spec leaves open (R182; log entry 123). -/
def execRingDef (g : Guard) (a : Reg) (h : Fin 16) (s : State) : Result :=
  guarded g 8 s fun s => s.onControl fun s => s.withRecord64 (.ringDef g a h) (s.me.reg a) fun s bs =>
    if !ringLegal bs then s.trap cRING 1 0
    else if s.here.ringBusy h.val then s.trap cRING 2 0
    else (s.mapHere fun k => k.setRing h.val (ringOf bs)).complete 8

end Sys2Proof.Machine
end

