-- ==== Sys2Proof/Machine/Walks.lean ====
section
/-! DEFINITION. Page walks, the fault queue and TLBI (R169, R337 to R346). -/

namespace Sys2Proof.Machine

/-- The clusters of a die. -/
def dieClusters (d : Nat) : List Nat := (List.range 64).map (· + 64 * d)

/-- The walks in progress on a die, each once (R341). -/
def State.walksOn (s : State) (d : Nat) : List (Nat × Nat) :=
  (((dieClusters d).map fun c => ((s.cluster c).misses.filter (·.walking)).map fun m => (m.asid, m.page)).flatten).eraseDups

/-- The misses of a cluster that wait for a walker, none of its die's walks being theirs. -/
def Cluster.unwalked (k : Cluster) (on : List (Nat × Nat)) : List (Nat × Nat) :=
  (k.misses.filter fun m => !m.walking && m.failed.isNone && !on.contains (m.asid, m.page)).map fun m => (m.asid, m.page)

/-- More misses of a die wait than it has walkers free, and another cluster's comes before cluster c's by the rotating
pointer (R341). -/
def State.walkTurn (s : State) (d c : Nat) (on : List (Nat × Nat)) : Bool :=
  let waits (i : Nat) : List (Nat × Nat) := (s.cluster (64 * d + i)).unwalked on
  let order := (List.range 64).map fun i => ((s.die d).walkPtr + i) % 64
  64 < on.length + ((order.map waits).flatten.eraseDups).length
    && (order.takeWhile (· != c % 64)).any fun i => !(waits i).isEmpty

/-- PAGE_WALK_START: one of the die's 64 walkers begins the walk of a miss, or the miss joins the walk of its page
already in progress (R341). -/
def execPageWalkStart (cl k : Nat) (s : State) : Result :=
  .next <| match (s.cluster cl).misses[k]? with
  | none => s
  | some m =>
    let on := s.walksOn (cl / 64)
    let joins := on.contains (m.asid, m.page)
    if m.walking || m.failed.isSome || (!joins && (64 ≤ on.length || s.walkTurn (cl / 64) cl on)) then s
    else
      (s.mapCl cl fun x => { x with misses := modNth x.misses k fun m => { m with walking := true } }).mapDie (cl / 64)
        fun d => if joins then d else { d with walkPtr := (cl + 1) % 64 }

/-- The place of the fault queue's bytes (R344). -/
def State.fqKey (s : State) (p : Partition) (off : Nat) : Option Nat :=
  match s.placeOf p (p.ctxtbl.toNat + 0x100000 + off) with
  | .mem k => some k
  | _ => none

/-- R344: a record of a held miss, while the queue has room: it performs at MO before PIDX is advanced. The answer says whether
it was written. -/
def State.faultRecord (s : State) (p : Partition) (c : Nat) (m : Miss) (level kind : Nat) : State × Bool :=
  match s.fqKey p 0 with
  | none => (s, false)
  | some k0 =>
    let pidx := leNat (s.mem.read k0 4)
    let cidx := leNat (s.mem.read (k0 + 4) 4)
    if (pidx + 2 ^ 32 - cidx) % 2 ^ 32 < 1023 then
      match s.fqKey p (64 * (1 + pidx % 1023)) with
      | none => (s, false)
      | some k =>
        let bs := leBytes 8 m.va ++ leBytes 2 (m.asid % 2 ^ 14) ++ leBytes 1 m.cls ++ leBytes 1 m.acc
          ++ leBytes 1 level ++ leBytes 1 kind ++ leBytes 2 c ++ List.replicate 48 0
        let s1 := (s.store k bs [] [] 0).knownFar .mo [s.counter]
        ((s1.store k0 (leBytes 4 ((pidx + 1) % 2 ^ 32)) [s.counter] [] 0).knownFar .mo [s1.counter], true)
    else
      let ovf := leNat (s.mem.read (k0 + 8) 4)
      ((s.store (k0 + 8) (leBytes 4 ((ovf + 1) % 2 ^ 32)) [] [] 0).knownFar .mo [s.counter], false)

/-- The supervisor cause ENGPAGE becomes pending at a task's control sequencer (R344). -/
def Cluster.pendEngPage (k : Cluster) : Cluster := { k with seqC := { k.seqC with engPage := true, sleeping := false } }

/-- A miss ends without a leaf: a sequencer will report it; an engine's access is held. -/
def Miss.ended (m : Miss) (level kind : Nat) (recorded : Bool) : List Miss :=
  (if m.seqWants then [{ m with cls := 0, walking := false, failed := some (level, kind) }] else [])
    ++ if m.cls != 0 then
        [{ m with seqWants := false, walking := false, failed := some (level, kind), recorded := recorded }] else []

/-- The misses of a cluster that joined the walk of a page. -/
def Miss.joined (m : Miss) (asid page : Nat) : Bool := m.asid == asid && m.page == page && m.walking

/-- PAGE_WALK_COMPLETE: the walk's leaf goes into every TLB whose miss joined it, or each joined miss ends: engines'
accesses are held with one record in the fault queue, sequencers' accesses report it (R337, R341, R343, R344). -/
def execPageWalkComplete (cl k : Nat) (s : State) : Result :=
  .next <| match (s.cluster cl).misses[k]? with
  | none => s
  | some m =>
    if !m.walking then s
    else
      let p := s.part cl
      let joins (c : Nat) : Bool := (s.cluster c).misses.any (·.joined m.asid m.page)
      let cs := (dieClusters (cl / 64)).filter joins
      let reads := s.walkPath p (s.die (cl / 64)) m.asid m.va
      let s0 := (s.tableFills reads).cacheDesc p m.asid
      match s.walk p (cl / 64) m.asid m.va with
      | .leaf e =>
        let put (t : State) (c : Nat) : State := t.mapCl c fun x =>
          { x.install e with misses := x.misses.filter fun n => !n.joined m.asid m.page }
        cs.foldl put (s0.mapDie (cl / 64) fun d => { d with walkCache := (cacheable p m.asid reads ++ d.walkCache).eraseDups.take 512 })
      | .miss level kind =>
        let isEng (n : Miss) : Bool := n.joined m.asid m.page && n.cls != 0
        let eng := cs.filter fun c => (s.cluster c).misses.any isEng
        let (s1, rec_) := match eng with
          | [] => (s0, false)
          | c :: _ =>
            match (s.cluster c).misses.find? isEng with
            | some n => s0.faultRecord p c n level kind
            | none => (s0, false)
        let endIt (n : Miss) : List Miss := if n.joined m.asid m.page then n.ended level kind rec_ else [n]
        let fin (t : State) (c : Nat) : State := t.mapCl c fun x => { x with misses := (x.misses.map endIt).flatten }
        let pend (t : State) (c : Nat) : State := t.mapCl c (·.pendEngPage)
        let s2 := cs.foldl fin s1
        if rec_ then eng.foldl pend s2 else s2

/-! ### TLBI (R346) -/

/-- What a TLBI removes: everything, an ASID's entries, or the entries of a page in an ASID. -/
inductive TlbiKind where
  | all
  | asid (n : Nat)
  | page (va asid : Nat)
  deriving DecidableEq, Repr

def TlbiKind.takes (t : TlbiKind) (e : TlbEntry) : Bool :=
  match t with
  | .all => true
  | .asid n => !e.global && e.asid == n
  | .page va a => (e.global || e.asid == a) && e.covers va

/-- The held accesses a TLBI covers (R345). -/
def TlbiKind.wakes (t : TlbiKind) (m : Miss) : Bool :=
  match t with
  | .all => true
  | .asid n => m.asid == n
  | .page va a => m.asid == a && m.page == pageOf va

/-- The level-1 and level-2 entries on the walk path of a page, by a walk cache and as memory stands. -/
def State.onPath (s : State) (p : Partition) (d : Die) (asid va : Nat) : List Nat :=
  let a1 := nbits (field (s.descOf p asid) 0 8) 16 42 * 65536 + 8 * nbits va 42 13
  let e1s := (match s.placeOf p a1 with | .mem k => [leNat (s.mem.read k 8)] | _ => []) ++ (d.cached asid 1 a1).toList
  a1 :: e1s.map fun e => nbits e 16 42 * 65536 + 8 * nbits va 29 13

/-- Entries gone from every TLB and walk cache of the partition; a walk of a covered page begins anew. -/
def State.tlbiRemove (s : State) (p : Partition) (t : TlbiKind) : State :=
  let s1 := s.mapPartCls p fun x =>
    { x with tlb := x.tlb.filter (fun e => !t.takes e),
             misses := x.misses.map fun m => if t.wakes m then { m with walking := false } else m }
  let keep (d : Die) (e : Nat × Nat × Nat) : Bool :=
    match t with
    | .all => false
    | .asid n => e.1 != n
    | .page va a => !(e.1 == a && (s.onPath p d a va).contains e.2.1)
  let mine (d : Nat) : Bool := p.first ≤ d && d < p.first + 2 ^ p.logsz
  { s1 with dies := s1.dies.map fun e =>
      if mine e.1 then (e.1, { e.2 with walkCache := e.2.walkCache.filter (keep e.2) }) else e }

/-- R345: the held accesses that retry when the TLBI completes. -/
def State.tlbiWake (s : State) (p : Partition) (t : TlbiKind) : State :=
  let woken (m : Miss) : Bool := m.failed.isSome && m.cls != 0 && (t.wakes m || !m.recorded)
  let s1 := s.mapPartCls p fun x => { x with misses := x.misses.filter fun m => !woken m }
  if p.held.any woken then s1.mapPart (64 * p.first) fun x => { x with held := x.held.filter fun m => !woken m } else s1

/-- The accesses of a partition on their way: their identifiers, their clusters and the entries that translated them. -/
def State.inFlight (s : State) : List (Nat × Nat × Option TlbEntry) :=
  let of (r : MemReq) : Nat × Nat × Option TlbEntry := (r.id, r.agent.cluster, r.leaf)
  s.reqs.map of ++ (s.sheaves.map fun h => [of h.first, of h.second]).flatten ++ s.links.yWait.map (of ·.2)
    ++ s.links.hostReqs.map fun h => (h.id, h.agent.cluster, h.leaf)

/-- The accesses in flight that entries which a TLBI removes have translated (R346). -/
def State.translatedBy (s : State) (p : Partition) (t : TlbiKind) : List Nat :=
  (s.inFlight.filter fun x => p.holds x.2.1 && x.2.2.any t.takes).map (·.1)

/-- One of them has neither performed nor returned. -/
def State.anyInFlight (s : State) (ids : List Nat) : Bool := s.inFlight.any fun x => ids.contains x.1

/-- A TLBI: a waiting instruction that completes when every access that a removed entry has translated has performed (R346). -/
def State.tlbi (s : State) (t : TlbiKind) : State :=
  let p := s.part s.cur.1
  match s.me.waitAt with
  | some (.drain ids) => if s.anyInFlight ids then s else (s.tlbiWake p t).complete 4
  | _ =>
    let ids := s.translatedBy p t
    let s1 := s.tlbiRemove p t
    if ids.isEmpty then (s1.tlbiWake p t).complete 4 else s1.mapMe (·.setWait (.drain ids))

/-- TLBI.ALL: privileged (R169, R306, R346). -/
def execTlbiAll (g : Guard) (s : State) : Result :=
  guarded g 4 s fun s => if !s.me.pl then s.trap cPRIV 0 0 else s.tlbi .all

/-- TLBI.ASID: bits 63:14 of the operand must be zero (R169, R346). -/
def execTlbiAsid (g : Guard) (a : Reg) (s : State) : Result :=
  guarded g 4 s fun s =>
    let v := s.me.reg a
    if !s.me.pl then s.trap cPRIV 0 0
    else if bits v 63 14 != 0 then s.ill (encodeNat (.tlbiAsid g a))
    else s.tlbi (.asid (bits v 13 0))

/-- TLBI.VA: the page of s[a] in the address space SVASID names (R169, R346). -/
def execTlbiVa (g : Guard) (a : Reg) (s : State) : Result :=
  guarded g 4 s fun s =>
    if !s.me.pl then s.trap cPRIV 0 0
    else s.tlbi (.page (bits (s.me.reg a) 54 16 * 65536) (s.part s.cur.1).svasid)

/-- TLBI.VA.ASID: page and ASID of s[a]; bits 15:14 and 63:55 must be zero (R169, R346). -/
def execTlbiVaAsid (g : Guard) (a : Reg) (s : State) : Result :=
  guarded g 4 s fun s =>
    let v := s.me.reg a
    if !s.me.pl then s.trap cPRIV 0 0
    else if bits v 15 14 != 0 || bits v 63 55 != 0 then s.ill (encodeNat (.tlbiVaAsid g a))
    else s.tlbi (.page (bits v 54 16 * 65536) (bits v 13 0))

end Sys2Proof.Machine
end

