-- ==== Sys2Proof/Machine/Delivery.lean ====
section
/-! DEFINITION. The delivery of pending causes (R44, R344, R351 to R354, R357). -/

namespace Sys2Proof.Machine

/-- The task's sequencers move: it is resident, and neither starting, stopped for pre-emption, saved nor ended. -/
def Task.moves (t : Task) : Bool :=
  t.resident && match t.st with
    | .running => true
    | .exiting => true
    | .abandoning => true
    | _ => false

/-- A pending cause with its DETAIL and argument, and the sequencer that has taken it. -/
structure Pending where
  cause : Nat
  detail : Nat
  arg : Word
  after : Sequencer

/-- PIDX of the partition's fault queue (R344). -/
def State.pidx (s : State) (c : Nat) : Word :=
  match s.fqKey (s.part c) 0 with
  | some k => ofBytes (s.mem.read k 4)
  | none => Config.freeWord s.counter

/-- The cause a sequencer takes at an instruction boundary, by the precedence of R352; in a handler the asynchronous
causes but MCHK are held, and DLRISK under AMASK too (R353). -/
def State.pendingAt (s : State) (c : Nat) (q : SeqId) : Option Pending :=
  let x := s.seq c q
  let free := !x.inProg && !x.inSup
  let left := x.exited || (q == .control && (s.cluster c).task.left)
  match x.mchk, x.outstanding.find? (·.isFaulted) with
  | some (d, a), _ => some ⟨cMCHK, d, a, { x with mchk := none }⟩
  | none, some o =>
    match o.phase with
    | .faulted cause d a => some ⟨cause, d, a, x⟩
    | _ => none
  | none, none =>
    if free && x.engPage then some ⟨cENGPAGE, 0, s.pidx c, { x with engPage := false }⟩
    else if free && !left then
      match x.engFaults, x.dlrisk with
      | (d, a) :: r, _ => some ⟨cENGFAULT, d, a, { x with engFaults := r }⟩
      | [], some a => if x.amask then none else some ⟨cDLRISK, 0, a, { x with dlrisk := none }⟩
      | [], none => none
    else none

/-- The sequencer stands at an instruction boundary at which a cause can be delivered: an engine command that waits
for its place is none (R256) unless a long operation before it has faulted (R171), and a control sequencer that waits at EXIT is
one (R35). -/
def State.atBoundary (s : State) (c : Nat) (q : SeqId) : Bool :=
  let x := s.seq c q
  (s.cluster c).task.moves && !x.halted && !x.haltWant && !x.idle && (!x.exited || q == .control)
    && (!x.stalled || x.outstanding.any (·.isFaulted)) && !x.outstanding.any (·.isSent)

/-- An engine cause pending at a sequencer that has since ended goes where R357 sends it; one stopped by EXIT.A takes no trap
any more (R36). -/
def State.redirect (s : State) (c : Nat) (q : SeqId) : State :=
  let s := s.mapCl c (·.settleIdle)
  let x := s.seq c q
  match x.engFaults with
  | (d, a) :: r =>
    if x.idle || x.exited || (q == .control && (s.cluster c).task.left) then (s.mapSeq c q fun z => { z with engFaults := r }).raiseEng c q d a else s
  | [] => s

/-- Where a trap at a boundary leaves the sequencer's instruction: TRAPPC and the entries behind the long operations. One whose
record read has been sent is replayed as a whole (R351, R368). -/
def State.boundary (s : State) (c : Nat) (q : SeqId) : Word × List LongOp :=
  let x := s.seq c q
  match x.waitAt with
  | some (.reading i ea _) =>
    let next := match x.resume with | some (a, b) => if a == x.pc then b else x.pc + w64 i.len | none => x.pc + w64 i.len
    let dst := match i with | .spawn _ d _ => d.val | .spawnC _ d _ => d.val | _ => 0
    if s.asks ⟨c, 0, seqNo q⟩ then (next, [⟨i, x.pc, .command, ea, 0, 0, dst, none, none, .unsent, x.serial, [], none⟩])
    else (x.pc, [])
  | _ => (x.pc, [])

/-- TRAP_DELIVERY: the sequencer writes its frame and goes to its handler; one that waited at EXIT issues it again
at RETR (R35, R344, R351). -/
def execTrapDelivery (cl : Nat) (q : SeqId) (s : State) : Result :=
  .next <|
    if !s.atBoundary cl q then s.redirect cl q
    else
      match s.pendingAt cl q with
      | none => s.redirect cl q
      | some p =>
        let s1 := s.mapSeq cl q fun _ => { p.after.settle with exited := false }
        let b := s.boundary cl q
        s1.fresh.deliver cl q p.cause p.detail p.arg b.1 false ((s1.seq cl q).outstanding ++ b.2)

end Sys2Proof.Machine
end

