-- ==== Sys2Proof/Machine/Spaces.lean ====
section
/-! DEFINITION. Accesses the device's own blocks make in a context's address space (R322, R331, R334, R392), and the
partition of a function (R309). -/

namespace Sys2Proof.Machine

/-! ### Functions, contexts and partitions -/

/-- Partition number i; one of eight dies when the table is empty (log entry 5). -/
def State.partAt (s : State) (i : Nat) : Option Partition :=
  if s.parts.isEmpty && i == 0 then some .whole else s.parts[i]?

/-- A change to the partition that begins at the same die. -/
def State.updPartition (s : State) (p : Partition) (f : Partition → Partition) : State := s.mapPart (64 * p.first) f

/-! ### Counters of a context (R408, R410) -/

/-- The event counter i counts: EVi (R408). -/
def Ctx.eventOf (x : Ctx) (i : Nat) : Nat := bits x.cntev (8 * i + 7) (8 * i)

/-- Counter i after n events of code e, and whether it wrapped (R408, R410). -/
def Ctx.bump (x : Ctx) (i e n : Nat) : Ctx × Bool :=
  if h : i < 8 then
    if x.cntctl.getLsbD i && x.eventOf i == e && 0 < n then
      let v := x.cnt[i] + n
      let wraps := 2 ^ 48 ≤ v
      ({ x with cnt := x.cnt.set i (v % 2 ^ 48), cntctl := if wraps then x.cntctl ||| w64 (2 ^ (8 + i)) else x.cntctl }, wraps)
    else (x, false)
  else (x, false)

/-- n events of code e seen for a context: every counter that counts them, and MSI-X vector k of its function for a
wrap under OIRQ (R409, R410). -/
def State.countCtx (s : State) (ctx e n : Nat) : State :=
  (List.range 8).foldl (fun t i =>
    let (x, wrapped) := (t.ctx ctx).bump i e n
    let t1 := t.mapCtx ctx fun _ => x
    if (t.ctx ctx).cntctl.getLsbD 16 && wrapped then t1.msix (fnOf ctx) (ctx % 64) else t1) s

/-! ### Accesses -/

/-- The partition's own scheduler, which makes class-C accesses in a context's address space (R331, R334). -/
def Partition.who (p : Partition) (ctx : Nat) : Who := ⟨64 * p.first, ctx, 0, false, [], [], schedulerSub⟩

/-- Who makes an inbound access: class H, one agent per requester; it comes after what an acquire naming H has observed, and
returns no write older than one that has performed at SY (R82, R91, R93, R392). -/
def State.inbound (s : State) (p : Partition) (ctx requester : Nat) : Who :=
  let view := s.clusters.foldl (fun acc e => union acc (e.2.seqC.seenBy 5 ++ e.2.seqY.seenBy 5 ++ e.2.seqM.seenBy 5)) s.links.hView
  ⟨64 * p.first, ctx, 5, false, view, s.links.syDone, requester⟩

/-- Where an address of a context leads, by PD0's walkers, which have no walk cache; the local window is no cluster's here (R341,
R342, R392). -/
def State.ctxTarget (s : State) (p : Partition) (ctx va n : Nat) (need : Need) : Got Target :=
  if 2 ^ 55 ≤ va + n - 1 then .fail s cPROT 1 va
  else if inWindow va || touchesHole va n then .fail s cPROT 2 va
  else
    let s1 := (s.tableFills (s.walkPath p .reset ctx va)).cacheDesc p ctx
    match s.walkBy p .reset ctx va with
    | .miss _ _ => .fail s1 cPAGE 0 va
    | .leaf e =>
      let pa := e.pbase + (va - e.vbase)
      if !e.allows need then .fail s1 cPROT 3 va
      else
        match s.placeOf p pa with
        | .mem key => if need.r && s.poisoned key then .fail s1 cBADPA 0 va else .ok s1 (.mem key pa e.cls)
        | .host off => .ok s1 (.host off)
        | .remote _ => .ok s1 (.remote pa)
        | .unbacked => .fail s1 cBADPA 0 va

/-- An access of the scheduler that misses in L2 counts for its context (R408, R409). -/
def State.ctxMiss (s : State) (w : Who) (key : Nat) : State := s.countCtx w.asid 6 (if w.cls == 5 || s.hitsL2 key then 0 else 1)

/-- One piece of at most a line. -/
def State.ctxPiece (s : State) (p : Partition) (w : Who) (va n : Nat) : Got (List Byte) :=
  let give (g : Got (List Byte × List RelInfo)) : Got (List Byte) :=
    match g with
    | .ok s1 x => .ok s1 x.1
    | .fail s1 c d a => .fail s1 c d a
    | .wait s1 => .wait s1
  match s.ctxTarget p w.asid va n needR with
  | .ok s1 (.tile _) => .fail s1 cPROT 2 va
  | .ok s1 (.mem key pa rcls) => give ((s1.ctxMiss w key).readAt w (.mem key pa rcls) va n)
  | .ok s1 t => give (s1.readAt w t va n)
  | .fail s1 c d a => .fail s1 c d a
  | .wait s1 => .wait s1

def State.ctxPieces (s : State) (p : Partition) (w : Who) : List (Nat × Nat) → List Byte → Got (List Byte)
  | [], acc => .ok s acc
  | (va, n) :: r, acc =>
    match s.ctxPiece p w va n with
    | .ok s1 bs => s1.ctxPieces p w r (acc ++ bs)
    | .fail s1 c d a => .fail s1 c d a
    | .wait s1 => .wait s1

/-- n bytes of a context's address space. -/
def State.ctxRead (s : State) (p : Partition) (w : Who) (va n : Nat) : Got (List Byte) :=
  s.ctxPieces p w (linesOf va n) []

/-- One piece written, in the sequence of the releases rels (R92); the identifier of its write. -/
def State.ctxPut (s : State) (p : Partition) (w : Who) (rels : List RelInfo) (va : Nat) (bs : List Byte) : Got (List Nat) :=
  match s.ctxTarget p w.asid va bs.length needW with
  | .ok s1 (.mem key pa rcls) =>
    let s2 := (s1.ctxMiss w key).meetsL2 (w.homeReq (.write bs) key pa rcls) false false
    let s3 := (s2.store key bs (union w.view (s2.ownOf w.agent).1) rels (p.wpol rcls)).note w.agent [s2.counter] []
    .ok (s3.knownFar .mo [s2.counter]) [s2.counter]
  | .ok s1 (.host off) => .ok (s1.toHost w.agent w.asid off (.write bs) .nowhere rels.head? none) []
  | .ok s1 (.remote pa) => .ok (s1.sendRemote { w.posted pa va bs none with rel := rels.head? }) []
  | .ok s1 (.tile _) => .fail s1 cPROT 2 va
  | .fail s1 c d a => .fail s1 c d a
  | .wait s1 => .wait s1

def State.ctxPuts (s : State) (p : Partition) (w : Who) (rels : List RelInfo) : List (Nat × Nat) → List Byte → Got Unit
  | [], _ => .ok s ()
  | (va, n) :: r, bs =>
    match s.ctxPut p w rels va (bs.take n) with
    | .ok s1 _ => s1.ctxPuts p w rels r (bs.drop n)
    | .fail s1 c d a => .fail s1 c d a
    | .wait s1 => .wait s1

/-- Bytes written in a context's address space, piece by piece up to one that fails. -/
def State.ctxWrite (s : State) (p : Partition) (w : Who) (rels : List RelInfo) (va : Nat) (bs : List Byte) : Got Unit :=
  s.ctxPuts p w rels (linesOf va bs.length) bs

/-- A miss of the device's own for a context is held, and served as a miss of class F: it counts for the context, and has its
record in the fault queue and its ENGPAGE, at the first cluster of the partition that holds a task (R331, R334, R343, R344, R409;
log entry 125). -/
def State.holdFor (s : State) (p : Partition) (ctx va : Nat) (write : Bool) : State :=
  match s.walkBy p .reset ctx va with
  | .leaf _ => s
  | .miss level kind =>
    let m : Miss := ⟨ctx, pageOf va, va, 1, if write then 2 else 1, false, [(va, 1, schedulerSub)], false, some (level, kind), false⟩
    let (s1, rec_) := s.faultRecord p (64 * p.first) m level kind
    let s2 := (s1.countCtx ctx 8 1).updPartition p fun q => { q with held := q.held ++ [{ m with recorded := rec_ }] }
    match p.clusters.find? fun c => (s2.cluster c).task.resident with
    | some c => if rec_ then s2.mapCl c (·.pendEngPage) else s2
    | none => s2

/-- An access of the device's own for a context is held (R340, R345). -/
def State.ctxHeld (s : State) (p : Partition) (ctx va n : Nat) : Bool :=
  (linesOf va n).any fun l => (s.part (64 * p.first)).held.any (·.isHeld ctx l.1 1 schedulerSub)

/-- A physical read of the partition: context descriptors, the world table, the Silo. -/
def State.physRead (s : State) (p : Partition) (pa n : Nat) : Option (List Byte) :=
  match s.placeOf p pa with
  | .mem k => some (s.mem.read k n)
  | _ => none

/-- A posted write to the host for a context, under the requester ID of its function and without a prefix; lost while the link
is down (R313, R393). -/
def State.postHost (s : State) (ctx a : Nat) (bs : List Byte) : State :=
  if s.links.hostUp then
    let s1 := s.hostWrite a bs
    { s1 with links := { s1.links with hostSent := s1.links.hostSent ++ [⟨fnOf ctx, a, true, none⟩] } }
  else s

/-- The descriptor of a context is in the device's cache from its first use on (R311). -/
def State.useCtx (s : State) (n : Nat) : State := s.cacheDesc (s.partOfCtx n) n

/-- A field of a context's descriptor. -/
def State.ctxField (s : State) (n a len : Nat) : Nat := field (s.descOf (s.partOfCtx n) n) a len

/-- The status page of a context (R313). -/
def State.statusPage (s : State) (n : Nat) : Nat := s.ctxField n 16 8

end Sys2Proof.Machine
end

