-- ==== Sys2Proof/Machine/Counters.lean ====
section
/-! DEFINITION. The contexts' event counters (R408 to R410). -/

namespace Sys2Proof.Machine

/-- A cluster forwards what it has counted to its task's context (R409). -/
def State.forwardCounts (s : State) (c : Nat) : State :=
  let k := s.cluster c
  let one (t : State) (e : Nat) : State := if h : e < 11 then t.countCtx k.task.ctx e k.events10[e] else t
  ((List.range 11).foldl one s).mapCl c fun k => { k with events10 := Vector.replicate 11 0 }

/-- COUNTER_FORWARD (R409, R410). -/
def execCounterForward (cl : Nat) (s : State) : Result := .next (s.forwardCounts cl)

end Sys2Proof.Machine
end

