-- ==== Sys2Proof/Machine/Power.lean ====
section
/-! DEFINITION. Rails, current reports, the limiter, the governor, margins and the power block's counters (R44, R371 to R387,
R417). -/

namespace Sys2Proof.Machine

def State.mapPower (s : State) (c : Nat) (f : Power → Power) : State := s.mapCl c fun k => { k with power := f k.power }

/-! ### The Almanac (R376, R377) -/

/-- The entry of point n. -/
def Power.entry (p : Power) (n : Nat) : Nat := p.almanac.getD (n - 16) 0

def almVq (e : Nat) : Nat := nbits e 0 8
def almVf (e : Nat) : Nat := nbits e 8 8
def almEpc (e : Nat) : Nat := nbits e 16 16
def almEn (e : Nat) : Bool := bit e 32

/-- An enabled entry obeys the ranges of R376. -/
def almEntryLegal (e : Nat) : Bool :=
  90 ≤ almVq e && almVq e ≤ 170 && 90 ≤ almVf e && almVf e ≤ almVq e && 1 ≤ almEpc e

/-- VQ never falls. -/
def rising : List Nat → Bool
  | [] => true
  | [_] => true
  | x :: y :: r => x ≤ y && rising (y :: r)

/-- R377: the Almanac is valid. -/
def almanacValid (a : List Nat) : Bool :=
  a.length == 33 && a.all (fun e => nbits e 33 31 == 0 && e < 2 ^ 64 && (!almEn e || almEntryLegal e))
    && almEn (a.getD 0 0) && rising ((a.filter almEn).map almVq)

/-- The enabled points up to a limit, ascending. -/
def Power.points (p : Power) (limit : Nat) : List Nat :=
  ((List.range 33).map (· + 16)).filter fun n => n ≤ limit && almEn (p.entry n)

/-- The top point (R377). -/
def Power.top (p : Power) : Nat := ((p.points 48).getLast?).getD 16

/-- The point of a cluster without a deadline: the highest enabled one that is at most DEFN (R378). -/
def Power.defPoint (p : Power) (defn : Nat) : Nat := ((p.points defn).getLast?).getD 16

/-! ### Rails (R371, R372, R380, R383) -/

/-- The voltage code of point n under the margin offset (R383). -/
def Power.volt (p : Power) (n : Nat) : Nat := Nat.max (almVq (p.entry n) - p.moff) (almVf (p.entry n))

/-- The rail's voltage in mV: it slews at 2 mV per ns towards the voltage it is set to (R372). -/
def Power.mv (p : Power) (now : Nat) : Nat :=
  let d := 2 * (now - p.slewAt)
  if p.railMv ≤ 5 * p.vset then Nat.min (p.railMv + d) (5 * p.vset) else Nat.max (p.railMv - d) (5 * p.vset)

/-- The regulator is set to a code from the rail's present voltage; the rail is not set below the floor of the point the clock
runs at, nor outside its range (R371, R372, R380). -/
def Power.setTo (p : Power) (now v : Nat) : Power :=
  { p with vset := Nat.min 170 (Nat.max 90 (Nat.max v (almVf (p.entry p.n)))), railMv := p.mv now, slewAt := now }

/-- The regulator is set for the point that the clock runs at or moves up to (R372, R383). -/
def Power.set (p : Power) (now : Nat) : Power := p.setTo now (p.volt (Nat.max p.n p.target))

/-- The margin controls set it, during a change of point for the higher of the two points (R383). -/
def Power.raise (p : Power) (now : Nat) : Power := p.setTo now (p.volt (Nat.max p.left (Nat.max p.n p.target)))

/-- The change of point is over. -/
def Power.settled (p : Power) (now : Nat) : Power := ({ p with n := p.target, left := p.target } : Power).set now

/-- A new target: a lower frequency is switched to at once, a higher one when the rail has risen (R372). -/
def Power.move (p : Power) (now tgt : Nat) : Power :=
  let p1 := ({ p with target := tgt, left := p.n, n := Nat.min p.n tgt } : Power).set now
  if p1.mv now == 5 * p1.vset then p1.settled now else p1

/-- The rail has reached its voltage: the clock switches (R372). -/
def Power.arrive (p : Power) (now : Nat) : Power := if p.mv now == 5 * p.vset then p.settled now else p

/-- RAIL_SLEW_DONE (R372). -/
def execRailSlewDone (cl : Nat) (s : State) : Result := .next (s.mapPower cl (·.arrive s.now))

/-! ### GOVCTL (R387) -/

def State.defn (s : State) : Nat := bits s.govctl 5 0
def State.uven (s : State) : Bool := s.govctl.getLsbD 6
def State.mmax (s : State) : Nat := bits s.govctl 11 7

/-! ### Current reports, energy and the limiter (R373 to R375) -/

/-- R375: the limiter's step at a report. -/
def limiter (t limit code prev : Nat) : Nat :=
  if 15 * limit ≤ 16 * code then Nat.max (t - 1) 1
  else if 4 * code < 3 * limit && 4 * prev < 3 * limit then Nat.min (t + 1) 8
  else t

/-- One report of code I: energy in units of 2^−36 J, each term truncated (R373, R374), the limiter (R375) and the
control interval (R379). -/
def Power.report (p : Power) (now limit i : Nat) : Power :=
  let sum := p.energy + p.vset * i * 2 ^ 36 / 25600000000
  { p with
    energy := sum % 2 ^ 80, wrap := p.wrap || 2 ^ 80 ≤ sum, thr := limiter p.thr limit i p.code, code := i,
    seq := (p.seq + 1) % 2 ^ 22, reported := some now, recent := (p.vset * i :: p.recent).take 8,
    errSeen := p.errSeen && p.interval != 9,
    interval := if p.interval == 9 then 0 else if p.interval == 8 then 1 else p.interval + 1 }

/-- CURRENT_REPORT: at each point of the cadence of 500 ns the regulator reports its rail's mean current (R373). -/
def execCurrentReport (cl code : Nat) (s : State) : Result :=
  .next <|
    let k := s.cluster cl
    let limit := if k.task.resident then Nat.min k.task.peak k.power.icap else k.power.icap
    if s.now % 500 != 0 || k.power.reported == some s.now then s
    else s.mapPower cl (·.report s.now limit (Nat.min code 1023))

/-- R375: the die's clusters used more in the interval that ends than its EDIE. -/
def State.dieOver (s : State) (d : Nat) : Bool :=
  let vi (acc : Nat) (e : Nat × Cluster) : Nat := if e.1 / 64 == d then acc + e.2.power.recent.sum else acc
  (s.die d).edie * 128 < 5 * s.clusters.foldl vi 0

/-! ### The governor (R378 to R381) -/

/-- A new control interval begins at the first report boundary from now on (R379); an error of the one cut off lowers nothing, since
m changes at an interval's end (R383). -/
def Power.restart (p : Power) (now : Nat) : Power :=
  { p with interval := if p.reported == some now then 0 else 9, errSeen := false }

/-- R378, R380: a target above the point the clock runs at waits while the limiter or the die's budget holds it. -/
def Power.hold (p : Power) (tight : Bool) (want : Nat) : Nat := if (p.thr < 8 || tight) && p.n < want then p.n else want

/-- R378: the work left as a fraction, by the latest report of the step or the clk of the one before. -/
def Cluster.work (k : Cluster) : Option (Nat × Nat) :=
  let done := k.clk - k.task.stepClk
  if 0 < k.task.prog then some (done * (65536 - k.task.prog), k.task.prog)
  else if 0 < k.task.prevClk then some (k.task.prevClk - done, 1)
  else none

/-- tleft less the time of the work at point n, truncated towards zero; f(n) is n × 21.875 MHz, which is 7 n / 320 clk
per ns. -/
def slackAt (tleft : Int) (work : Option (Nat × Nat)) (n : Nat) : Int :=
  match work with
  | none => tleft
  | some (a, b) => (tleft * (7 * n * b : Nat) - (320 * a : Nat)).tdiv (7 * n * b : Nat)

/-- R378: 1.03 × work / tleft is at most f(n). -/
def fast (tleft : Int) (a b n : Nat) : Bool := (103 * 320 * a : Nat) ≤ tleft * (700 * n * b : Nat)

/-- The point with the least energy, the lower of two that tie. -/
def Power.cheapest (p : Power) (l : List Nat) : Option Nat :=
  l.foldl (fun best n => match best with
    | none => some n
    | some m => if almEpc (p.entry n) < almEpc (p.entry m) then some n else best) none

/-- R378: the target with a step deadline, and the slack when the cluster is short. -/
def Cluster.choosePoint (k : Cluster) (tleft : Int) : Nat × Option Int :=
  let top := k.power.top
  let work := k.work
  if tleft ≤ 0 then (top, some (slackAt tleft work top))
  else
    match work with
    | none => (top, none)
    | some (a, b) =>
      if fast tleft a b top then
        ((k.power.cheapest ((k.power.points top).filter (fast tleft a b ·))).getD top, none)
      else (top, some (slackAt tleft work top))

/-- R383: the margin offset at an interval's end. -/
def Power.margin (p : Power) (uven : Bool) (mmax : Nat) : Power :=
  let m := Nat.min mmax (if !uven then 0 else if p.errSeen then p.moff - 2 else if 250 ≤ p.quiet + 1 then p.moff + 1 else p.moff)
  { p with moff := m, errSeen := false, quiet := if m != p.moff || p.errSeen then 0 else p.quiet + 1 }

/-- The ns to the open step's deadline; time from a pre-emption request to the resumption does not count (R363, R379). -/
def Gang.tleft (g : Gang) (now : Nat) : Option Int :=
  g.deadline.map fun d => (d : Int) - (if g.st == .preempting || g.resumed then g.preAt else now : Nat)

/-- The Almanac of a new plan comes into use (R385). -/
def Power.replan (p : Power) : Power := { p with almanac := p.planned.getD p.almanac, planned := none }

/-- One cluster's evaluation: its target, and its slack when it is short (R378, R380, R381). -/
def State.evaluate (s : State) (c : Nat) : State × Option Int :=
  let k := s.cluster c
  let g := s.gang k.task.job k.task.gi
  let k1 : Cluster := { k with power := k.power.replan.margin s.uven s.mmax }
  let (want, slack) :=
    if !k.task.resident then (16, none)
    else
      match g.bind (·.tleft s.now) with
      | none => (k1.power.defPoint s.defn, none)
      | some t => k1.choosePoint t
  let short := k.power.short || slack.isSome
  let want1 := if k.task.resident && short then k1.power.top else want
  let tgt := k1.power.hold (s.dieOver (c / 64)) want1
  (s.setCl c { k1 with power := { k1.power.move s.now tgt with short := short, interval := 0 } }, slack)

/-- The lesser of two slacks. -/
def lesser (a b : Option Int) : Option Int :=
  match a, b with
  | some x, some y => some (if x ≤ y then x else y)
  | none, b => b
  | a, none => a

/-- The cluster of a gang's rank 0, in its place or saved. -/
def State.rank0 (s : State) (job : Nat) (g : Gang) : Option Cluster :=
  g.clusters.head?.bind fun c =>
    if s.sits job g.gi c then some (s.cluster c)
    else (s.savedCl.find? fun e => e.1 == 16 * c + g.world && e.2.task.job == job && e.2.task.gi == g.gi).map (·.2)

/-- The control sequencer of a gang's rank 0 changed. -/
def State.mapRank0 (s : State) (job : Nat) (g : Gang) (f : Sequencer → Sequencer) : State :=
  match g.clusters.head? with
  | none => s
  | some c =>
    if s.sits job g.gi c then s.mapSeq c .control f
    else { s with savedCl := s.savedCl.map fun e =>
             if e.1 == 16 * c + g.world && e.2.task.job == job && e.2.task.gi == g.gi then (e.1, { e.2 with seqC := f e.2.seqC }) else e }

/-- R44, R381: DLRISK is raised at the first evaluation of a step that finds a cluster short, with the least slack; a
sleeping control sequencer of rank 0 wakes. -/
def State.raiseDlrisk (s : State) (job gi : Nat) (slack : Int) : State :=
  match s.gang job gi with
  | none => s
  | some g =>
    if g.dlRaised then s
    else if g.retired.contains 0 then
      s.mapGang job gi fun g => { g with dlRaised := true, dlAt := s.now, dlPend := some (ofInt64 slack) }
    else
      (s.mapGang job gi fun g => { g with dlRaised := true, dlAt := s.now }).mapRank0 job g fun x =>
        { x with dlrisk := some (ofInt64 slack), sleeping := false }

/-- The clusters evaluated in one instant: those of a gang together (R379). -/
def State.evaluated (s : State) (c : Nat) : List Nat :=
  let t := (s.cluster c).task
  match s.gang t.job t.gi with
  | some g => if (s.seats t.job g).contains c then s.seats t.job g else [c]
  | none => [c]

/-- GOVERNOR_EVALUATION: at the eighth report of the interval, after that report has acted on the limiter (R378 to
R381, R383). -/
def execGovernorEvaluation (cl : Nat) (s : State) : Result :=
  .next <|
    let group := s.evaluated cl
    if group.any fun c => (s.cluster c).power.interval != 8 then s
    else
      let one (a : State × Option Int) (c : Nat) : State × Option Int :=
        let (t, slack) := a.1.evaluate c
        (t, lesser a.2 slack)
      let t := (s.cluster cl).task
      match group.foldl one (s, none) with
      | (s1, none) => s1
      | (s1, some slack) => s1.raiseDlrisk t.job t.gi slack

/-! ### Margins and ageing (R383 to R385, R417) -/

/-- CANARY_TRIP: m becomes 0 and the rail rises at once (R383). -/
def execCanaryTrip (cl : Nat) (s : State) : Result :=
  .next (s.mapPower cl fun p => ({ p with moff := 0, quiet := if p.moff == 0 then p.quiet else 0 } : Power).raise s.now)

/-- CORRECTABLE_ERROR: counted, and m falls at the interval's end (R383, R387). -/
def execCorrectableError (cl : Nat) (s : State) : Result :=
  .next (s.mapPower cl fun p => { p with errSeen := true, cec := Nat.min (p.cec + 1) (2 ^ 32 - 1) })

/-- AGEING_READ: every 1 ms the drift since the last plan is read (R385). -/
def execAgeingRead (cl driftPpm : Nat) (s : State) : Result :=
  .next (if s.now % 1000000 != 0 then s else s.mapPower cl fun p => { p with drift := driftPpm })

/-- R385: a new plan is due after 1,000 powered hours, a drift above 1%, or four margin events. -/
def State.planDue (s : State) (p : Power) : Bool :=
  3600000000000000 ≤ s.boot.powered + s.now - p.planAt || 10000 < p.drift || 4 ≤ p.mevt

/-- The cluster holds a resident or a staged task. -/
def Cluster.holdsTask (k : Cluster) : Bool := k.task.resident || k.staged.isSome

/-- R417: the cluster leaves service for good and NCL falls. -/
def State.withdraw (s : State) (c : Nat) : State :=
  if (s.cluster c).power.withdrawn then s
  else { s.mapPower c (fun p => { p with insvc := false, withdrawn := true }) with
         boot := { s.boot with ncl := s.boot.ncl - 1 } }

/-- CLUSTER_WITHDRAW: once it holds no task (R417). -/
def execClusterWithdraw (cl : Nat) (s : State) : Result :=
  .next (if (s.cluster cl).holdsTask then s else s.withdraw cl)

/-- The cluster returns to service under a plan: the margins' counts begin again, and its Almanac is used from the next evaluation
(R385). -/
def Power.underPlan (p : Power) (powered : Nat) (a : List Nat) : Power :=
  { p with planned := some a, insvc := true, moff := 0, mevt := 0, cec := 0, drift := 0, quiet := 0, planAt := powered }

/-- REPLAN: while the cluster holds a task it is out of service for admission; without one its proposed Almanac is
checked by the root monitor, which keeps the previous one when the new is invalid. A proposal without an enabled point
is a cluster that fails qualification (R377, R385, R411, R417). -/
def execReplan (cl : Nat) (almanac : List Nat) (s : State) : Result :=
  .next <|
    let k := s.cluster cl
    let p := k.power
    if p.withdrawn || (p.insvc && !s.planDue p) then s
    else if k.holdsTask then s.mapPower cl fun p => { p with insvc := false }
    else if !almanac.any almEn then s.withdraw cl
    else
      let powered := s.boot.powered + s.now
      if almanacValid almanac then
        { s.mapPower cl (·.underPlan powered almanac) with
          boot := { s.boot with almanacs := s.boot.almanacs.set cl almanac } }
      else s.mapPower cl (·.underPlan powered (p.planned.getD p.almanac))

/-- The visible energy count (R374). -/
def Power.count (p : Power) : Nat := p.energy / 2 ^ 16 % 2 ^ 64

/-- ENLO_READ: the high half is latched for the requester (R386). -/
def execEnloRead (cl requester : Nat) (s : State) : Result :=
  .next (s.mapPower cl fun p => { p with enhi := p.enhi.set requester (p.count / 2 ^ 32) })

/-- R384: a margin event of the point n that the clock runs at (log entry 108): the rail returns to VQ(n), the floors rise and
MEVT counts. -/
def Power.marginEvent (p : Power) (now : Nat) : Power :=
  let n := p.n
  let floor := Nat.min (almVq (p.entry n)) ((p.mv now + 10 + 4) / 5)
  let raised (e : Nat) (v : Nat) : Nat := e - almVf e * 2 ^ 8 + v * 2 ^ 8
  let one (i e : Nat) : Nat :=
    if i + 16 == n then raised e floor else if n < i + 16 then raised e (Nat.max (almVf e) floor) else e
  ({ p with moff := 0, quiet := 0, mevt := Nat.min (p.mevt + 1) 65535, almanac := p.almanac.mapIdx one,
            planned := p.planned.map (·.mapIdx one) } : Power).set now

/-- An error found now is a margin event: the rail stands below VQ of its point (R359, R384). -/
def Power.belowMargin (p : Power) (now : Nat) : Bool := p.mv now < 5 * almVq (p.entry p.n)

end Sys2Proof.Machine
end

