-- ==== Sys2Proof/Machine/Jobs.lean ====
section
/-! DEFINITION. Launch records, jobs, their acceptance and placement, SPAWN, the retirement of tasks, and the completion
of gangs and jobs (R35 to R38, R41, R44 to R48, R185, R321 to R324, R327, R332 to R334, R390, R423). -/

namespace Sys2Proof.Machine

/-! ### Launch records (R321) -/

/-- A launch record's fields. -/
structure Launch where
  gtab : Nat
  crec : Nat
  dep0 : Nat
  dep1 : Nat
  dlhint : Nat
  prio : Nat
  ngm1 : Nat
  jflags : Nat
  rest : Nat
  deriving DecidableEq, Repr

def launchOf (b : List Byte) : Launch :=
  { gtab := field b 0 8, crec := field b 8 8, dep0 := field b 16 6, dep1 := field b 22 6, dlhint := field b 28 4,
    prio := field b 32 1, ngm1 := field b 33 1, jflags := field b 34 1, rest := field b 35 29 }

/-- The number of records an origin of a context has had accepted (R323). -/
def Ctx.seqOf (x : Ctx) (spawned : Bool) : Nat := if spawned then x.seqSpawn else x.seqHost

/-- R324: a dependence that names another context's job, or a number its origin has not reached. -/
def State.badDep (s : State) (ctx d : Nat) : Bool :=
  let ahead := ((s.ctx ctx).seqOf (bit d 33) + 2 ^ 33 - d % 2 ^ 33) % 2 ^ 33
  d != 0 && (d / 2 ^ 34 != ctx || 2 ^ 32 < ahead)

/-- An address of a record: a multiple of 64 with bits 63:55 zero. -/
def recAddr (a : Nat) : Bool := a % 64 == 0 && a < 2 ^ 55

/-- The record fails its checks (R324). -/
def State.badLaunch (s : State) (ctx : Nat) (l : Launch) (spawned : Bool) : Bool :=
  8 ≤ l.prio || 64 ≤ l.ngm1 || 2 ≤ l.jflags || l.rest != 0 || !recAddr l.gtab || !recAddr l.crec
    || s.badDep ctx l.dep0 || s.badDep ctx l.dep1 || (l.jflags == 1 && !spawned)

/-! ### The pool and the Silos (R47) -/

/-- Free entries of the module's pool of 4,096. -/
def State.poolFree (s : State) : Nat := 4096 - s.jobs.countP (·.inPool)

/-- The records of a context's Silo. -/
def State.silo (s : State) (ctx : Nat) : List (Nat × Nat) := s.silos.get ctx []

/-- The first place of a Silo that holds no record. -/
def freePlace (l : List (Nat × Nat)) : Nat := ((List.range (l.length + 1)).find? fun i => !l.any (·.2 == i)).getD 0

/-- Where the record at a place of a context's Silo lies: 64 bytes each from the Silo's base (R47, R310). -/
def State.siloPlace (s : State) (ctx i : Nat) : Place := s.placeOf (s.partOfCtx ctx) (s.ctxField ctx 24 8 + 64 * i)

/-- The job as the record that comes back from the Silo describes it. NGM1 is not taken from the bytes read back: the gangs
are those of the record's acceptance, a point the spec leaves open (log entry 27). -/
def Job.reread (j : Job) (l : Launch) : Job :=
  { j with gtab := w64 l.gtab, crec := w64 l.crec, dep0 := l.dep0, dep1 := l.dep1, dlhint := l.dlhint }

/-- Where a record can be placed: the pool, the Silo, or nowhere. -/
def State.room (s : State) (ctx : Nat) (cont : Bool) : Option Bool :=
  if (if cont then 0 else 256) < s.poolFree then some true
  else if (s.silo ctx).length < s.ctxField ctx 32 4 then some false
  else none

/-- One record of a Silo moves to the pool when it may. -/
def State.siloMove (s : State) (ctx num : Nat) : State :=
  let s := s.useCtx ctx
  let rest := (s.silo ctx).filter (·.1 != num)
  match s.job num with
  | none => { s with silos := s.silos.set ctx rest }
  | some j =>
    if (if j.cont then 0 else 256) < s.poolFree then
      let back (j : Job) : Job :=
        match (((s.silo ctx).find? (·.1 == num)).map fun e => s.siloPlace ctx e.2) with
        | some (.mem key) => j.reread (launchOf (s.rawRead key 64))
        | _ => j
      { s.mapJob num (fun j => { back j with inPool := true }) with silos := s.silos.set ctx rest }
    else s

/-- R47: records move back from the Silos in FIFO order, a continuation passing those that may not yet move; the Silo of the
context that first used one goes first (log entry 27). -/
def State.siloToPool (s : State) : State :=
  s.silos.foldl (fun t e => e.2.foldl (fun t n => t.siloMove e.1 n.1) t) s

/-- A record appended to its context's Silo, in HBM (R47). -/
def State.siloPut (s : State) (ctx num : Nat) (rec_ : List Byte) : State :=
  let s := s.useCtx ctx
  let i := freePlace (s.silo ctx)
  let s1 := match s.siloPlace ctx i with
    | .mem key => s.store key rec_ [] [] 0
    | _ => s
  { s1 with silos := s1.silos.set ctx (s1.silo ctx ++ [(num, i)]) }

/-! ### Acceptance (R323, R324) -/

def Gang.fresh (gi : Nat) : Gang :=
  { gi := gi, st := .waiting, image := 0, argp := 0, thrp := 0, depg := 0, ptvec := 0, thrn := 0, size := 0, hdr := [], dir := [], readyAt := 0,
    bonus := 0, clusters := [], world := 0, step := 0, stepStart := 0, deadline := none, deadlineSet := false, dlRaised := false,
    dlPosted := false, dlAt := 0, dlPend := none, colls := [], code := 0, detail := 0, cause := 0, errBlk := 0, rankFail := 0xFFFF,
    abandoned := false, flags := 0, retired := [], dead := [], knew := [], disc := 0, preAt := 0, resumed := false }

/-- The effective level of a gang (R326). -/
def State.levelOf (s : State) (j : Job) (g : Gang) : Nat :=
  let waited := if g.st == .candidate || g.st == .saved then (s.now - g.readyAt) / 1000000 else 0
  Nat.min 7 (j.base + Nat.max g.bonus waited)

/-- Who spawns: the job, and the effective level of its gang. -/
structure Spawner where
  job : Nat
  level : Nat
  cont : Bool

/-- The record takes the next number of its origin and becomes a job: with a failure code it has no gangs left. -/
def State.newJob (s : State) (ctx : Nat) (l : Launch) (sp : Option Spawner) (code : Nat) (pool : Bool) : State × Nat :=
  let x := s.ctx ctx
  let seq := (x.seqOf sp.isSome + 1) % 2 ^ 33
  let num := ctx * 2 ^ 34 + sp.isSome.toNat * 2 ^ 33 + seq
  let cont := match sp with | some p => p.cont | none => false
  let base := Nat.min l.prio (Nat.min (s.ctxField ctx 9 1) ((sp.map (·.level)).getD 7))
  let parent := match sp with | some p => if p.cont || l.jflags == 1 then p.job else 0 | none => 0
  let j : Job :=
    { num := num, ctx := ctx, gtab := w64 l.gtab, crec := w64 l.crec, dep0 := l.dep0, dep1 := l.dep1, parent := parent,
      dlhint := l.dlhint, base := base, accepted := s.now, cont := cont, inPool := pool, live := true,
      recLeft := none, recIds := [], recHost := false, recZero := none,
      gangs := if code == 0 then (List.range (l.ngm1 + 1)).map .fresh else [], code := code, detail := 0, cause := 0,
      errBlk := 0, failGang := 0xFF, failRank := 0xFFFF, abandoned := false, flags := 0, disc := 0 }
  let s1 := s.mapCtx ctx fun x => if sp.isSome then { x with seqSpawn := seq } else { x with seqHost := seq }
  ({ s1 with jobs := s1.jobs ++ [j] }, num)

/-- A record that has passed its checks becomes a job, in the pool or in the Silo. -/
def State.placeJob (s : State) (ctx : Nat) (b : List Byte) (sp : Option Spawner) (pool : Bool) : State × Nat :=
  let (s1, num) := s.newJob ctx (launchOf b) sp 0 pool
  (if pool then s1 else s1.siloPut ctx num b, num)

/-- A host record that has been accepted (R324): one that fails or finds no room completes at once. -/
def State.acceptHost (s : State) (ctx : Nat) (b : List Byte) : State :=
  let s0 := s.cacheDesc (s.partOfCtx ctx) ctx
  let l := launchOf b
  if s0.badLaunch ctx l false then (s0.newJob ctx l none 1 false).1
  else
    match s0.room ctx false with
    | none => (s0.newJob ctx l none 6 false).1
    | some p => (s0.placeJob ctx b none p).1

/-- A spawned record: the word of R185. -/
def State.acceptSpawn (s : State) (ctx : Nat) (b : List Byte) (sp : Spawner) : State × Word :=
  let s0 := s.cacheDesc (s.partOfCtx ctx) ctx
  let l := launchOf b
  if bit (s0.ctxField ctx 8 1) 1 || s0.badLaunch ctx l true then (s0, w64 (2 * 2 ^ 48))
  else
    match s0.room ctx sp.cont with
    | none => (s0, w64 (2 ^ 48))
    | some p =>
      let (s1, num) := s0.placeJob ctx b (some sp) p
      (s1, w64 num)

/-! ### SPAWN and SPAWN.C (R46, R185) -/

/-- The record at s[a] submitted as a child of the task's job, its read an acquire for class C (R46, R95); the step can no
longer be replayed (R360). -/
def State.spawn (s : State) (i : Instr) (d a : Reg) (cont : Bool) : State :=
  s.onControl fun s =>
    s.withRecordRel i (s.me.reg a) fun s b =>
      let t := s.here.task
      let level := match s.job t.job, s.gangOf s.cur.1 with
        | some j, some g => s.levelOf j g
        | _, _ => 0
      let s0 := s.mapMe (·.acquire maskC (s.learned b.2 s.cur.1 .sy) (doneOf b.2 s.cur.1) s.counter)
      let (s1, w) := s0.acceptSpawn t.ctx b.1 ⟨t.job, level, cont⟩
      ((s1.mapTask s.cur.1 fun t => { t with noReplay := true }).mapMe (·.endWait)).put d w

/-- SPAWN (R46 to R48, R185). -/
def execSpawn (g : Guard) (d a : Reg) (s : State) : Result := guarded g 4 s fun s => s.spawn (.spawn g d a) d a false

/-- SPAWN.C (R46 to R48, R185). -/
def execSpawnC (g : Guard) (d a : Reg) (s : State) : Result := guarded g 4 s fun s => s.spawn (.spawnC g d a) d a true

/-! ### Launch writes (R312, R313, R390, R423) -/

/-- REJ counts a rejected launch write, with its reason (R313). -/
def State.reject (s : State) (ctx reason : Nat) : State :=
  let s := s.useCtx ctx
  let n := ((s.ctx ctx).rej + 1) % 2 ^ 56
  (s.mapCtx ctx fun x => { x with rej := n, rejReason := reason }).postHost ctx (s.statusPage ctx + 0x10)
    (leBytes 8 (n + reason * 2 ^ 56))

/-- An earlier posted write of a requester has not performed (R391). -/
def State.inboundOut (s : State) (requester : Nat) : Bool :=
  s.links.yWait.any fun e => e.2.agent.cls == 5 && e.2.agent.sub == requester

/-- LAUNCH_WRITE: the checks of R390 in their order, the first that fails deciding; any 64-byte-aligned offset of the
window launches its context (R423). It waits for the requester's earlier posted writes (R391), and is discarded until
READY (R414). -/
def execLaunchWrite (fn off : Nat) (bytes : List Byte) (at_ : InboundAttr) (s : State) : Result :=
  .next <|
    let ctx := 64 * fn + off / 4096
    let p := s.partOfFn fn
    if !at_.rootPort || 256 ≤ fn || 0x40000 ≤ off || s.boot.st != 5 || s.inboundOut at_.requester then s
    else
      let s1 := s.cacheDesc p ctx
      if !descValid (s.descOf p ctx) then
        s1.updPartition p fun p => { p with dropcnt := Nat.min (p.dropcnt + 1) (2 ^ 32 - 1) }
      else if !at_.oneTlp || bytes.length != 64 || off % 64 != 0 || at_.poisoned then s1.reject ctx 1
      else if at_.relaxed || at_.idOrdered then s1.reject ctx 2
      else s1.acceptHost ctx bytes

/-! ### Retirement (R35 to R38, R332, R356) -/

/-- A request of any agent of the cluster's task is on its way (R35, R93). -/
def State.requestsOut (s : State) (c : Nat) : Bool :=
  s.reqs.any (·.agent.isOf c) || s.links.yWait.any (·.2.agent.isOf c)
    || s.sheaves.any (fun h => h.first.agent.isOf c || h.second.agent.isOf c)
    || (s.cluster c).tileQ.any (fun e => !e.2.isEmpty) || s.postedOut c true

/-- Every engine command of the cluster is complete. -/
def Cluster.enginesDone (k : Cluster) : Bool := (k.openCmds .copy).isEmpty && (k.openCmds .matrix).isEmpty

/-- No slot is loading, running or draining. -/
def Cluster.regionsIdle (k : Cluster) : Bool :=
  k.loads.isEmpty && (List.range 4).all fun i =>
    match (k.slot i).st with
    | .loading => false
    | .running => false
    | .draining => false
    | _ => true

/-- The task of a cluster may retire: the conditions of R35 after EXIT, of R36 after EXIT.A, and of R356 for a task
that has failed. -/
def State.mayRetire (s : State) (c : Nat) : Bool :=
  let k := s.cluster c
  k.task.resident && !s.requestsOut c &&
    match k.task.st with
    | .exiting => k.seqC.exited && k.seqC.outstanding.isEmpty && !k.seqC.engPage && k.seqC.engFaults.isEmpty && k.seqY.idle
        && k.seqM.idle && k.enginesDone && k.regionsIdle && k.binRecords.isEmpty && k.heldRecords.isEmpty
    | .abandoning => k.seqC.exited && k.seqC.outstanding.isEmpty && !k.seqC.engPage && k.seqC.engFaults.isEmpty && k.seqY.idle
        && k.seqM.idle && k.enginesDone && k.regionsIdle
    | .failing => k.seqC.outstanding.isEmpty && k.seqY.outstanding.isEmpty && k.seqM.outstanding.isEmpty && k.enginesDone
        && k.regionsIdle
    | _ => false

/-- R332: what a retiring task adds to its gang: the code of the failing task of lowest rank, and the OR of the rest. -/
def Gang.absorb (g : Gang) (t : Task) : Gang :=
  let g1 := { g with retired := t.rank :: g.retired, flags := g.flags ||| t.flags, disc := g.disc + t.disc,
                     abandoned := g.abandoned || t.abandoned }
  if t.code != 0 && (g.code == 0 || t.rank < g.rankFail) then
    { g1 with code := t.code, detail := t.detail, cause := t.cause, errBlk := t.errBlk, rankFail := t.rank }
  else g1

/-- R327: the gang's status goes into its job's; the first gang that fails gives the job's status, ABANDONED with it, and
discards the gangs not admitted. -/
def Job.absorb (j : Job) (g : Gang) : Job :=
  let j1 := { j with flags := j.flags ||| g.flags, disc := j.disc + g.disc,
                     abandoned := if j.code != 0 then j.abandoned else if g.code != 0 then g.abandoned else j.abandoned || g.abandoned }
  let stop (x : Gang) : Gang :=
    match x.st with
    | .waiting => { x with st := .discarded }
    | .entered => { x with st := .discarded }
    | .checking => { x with st := .discarded }
    | .candidate => { x with st := .discarded }
    | _ => x
  if g.code != 0 && j.code == 0 then
    { j1 with code := g.code, detail := g.detail, cause := g.cause, errBlk := g.errBlk, failGang := g.gi,
              failRank := g.rankFail, gangs := j1.gangs.map stop }
  else j1

/-- Every write the sequencers and engines of a cluster know of. -/
def Cluster.knows (k : Cluster) : List Nat :=
  [SeqId.control, SeqId.copy, SeqId.matrix].foldl (fun acc q =>
    let x := k.seq q
    union acc (union x.own (union x.past (x.seen.foldl (fun a e => union a e.2) [])))) (union k.fWrites (union k.copy.writes k.mat.writes))

/-- A task of the gang retires from its cluster: its status and the writes it knew go to the gang, and a DLRISK that
rank 0 has not taken is left to be posted (R41, R44, R332). -/
def Gang.retire (g : Gang) (k : Cluster) : Gang :=
  { g.absorb k.task with knew := union g.knew k.knows, dlPend := if k.task.rank == 0 then k.seqC.dlrisk else g.dlPend }

/-- A cluster whose task has left it; SHORT belongs to its last step (R387). -/
def Cluster.freed (k : Cluster) : Cluster := { k with task := .reset, misses := [], power := { k.power with short := false } }

/-- A gang completes and its clusters are free (R332). -/
def State.gangDone (s : State) (job gi : Nat) : State :=
  match s.gang job gi with
  | none => s
  | some g =>
    let free (t : State) (c : Nat) : State := t.mapCl c (·.freed)
    ((s.seats job g).foldl free (s.mapGang job gi fun g => { g with st := .done })).mapJob job fun j => j.absorb g

/-- A gang that never starts completes with a code (R325, R329, R331). -/
def State.gangFails (s : State) (job gi code rank : Nat) : State :=
  (s.mapGang job gi fun g => { g with code := code, rankFail := rank }).gangDone job gi

/-- Every task of a gang being pre-empted is saved or has retired: the gang may be resumed (R332, R361). -/
def State.gangSaved (s : State) (job gi : Nat) : State :=
  match s.gang job gi with
  | none => s
  | some g =>
    if g.st != .preempting || !(s.seats job g).isEmpty then s else s.mapGang job gi fun g => { g with st := .saved }

/-- The markers of the release at a step's end or at retirement go out (R95, R97). -/
def State.sendFlush (s : State) (sc : Scope) (c : Nat) : State :=
  let (s1, ms) := s.sendMarkers c sc
  s1.mapTask c fun t => { t with flush := t.flush ++ ms }

/-- The zero-length read of the host at a step's end or at retirement leaves once the task's writes of the host window have
(R93, R95, R106). -/
def State.taskZero (s : State) (c : Nat) : State := if (s.cluster c).usedHost && !s.postedOut c true then s.askZero c else s

/-- The host's part of such a release is still to come. -/
def State.owesHost (s : State) (c : Nat) : Bool := (s.cluster c).usedHost || s.zeroOut c

/-- TASK_RETIRE: the retirement is a release at SY, whose markers and zero-length read come back first; the task's flags are merged,
its status written and its cluster free; the last of the gang completes it (R35 to R39, R93, R95, R187, R332). -/
def execTaskRetire (cl : Nat) (s : State) : Result :=
  .next <|
    if !s.mayRetire cl then s
    else
      let s := (s.sendFlush .sy cl).taskZero cl
      if !(s.cluster cl).task.flush.isEmpty || s.owesHost cl then s
      else
      let s1 := (s.mapCl cl fun k => if k.task.st == TaskState.exiting then k else k.discardBins).forwardCounts cl
      let k := s1.cluster cl
      let t := k.task
      let s2 := (((s1.mapGang t.job t.gi (·.retire k)).mapCl cl (·.freed)).settleColls t.job t.gi).knownFar .sy k.knows
      match s2.gang t.job t.gi with
      | some g => if g.size ≤ g.retired.length then s2.gangDone t.job t.gi else s2.gangSaved t.job t.gi
      | none => s2

/-! ### Completion of a job (R313, R333, R334, R410) -/

/-- The completion status of 16 bits (R333). -/
def Job.status (j : Job) : Nat := j.code + j.abandoned.toNat * 64 + (j.flags.toNat % 256) * 256

/-- The completion record (R333). -/
def Job.record (j : Job) (now : Nat) : List Byte :=
  leBytes 2 j.status ++ leBytes 2 j.failRank ++ leBytes 1 j.failGang ++ leBytes 1 j.detail ++ leBytes 1 j.cause
    ++ leBytes 1 0 ++ leBytes 2 (j.errBlk % 4096) ++ leBytes 6 0 ++ leBytes 8 j.num ++ leBytes 8 j.disc
    ++ leBytes 8 (now - j.accepted) ++ List.replicate 24 0

/-- The status page takes LASTJOB and then DONE, and MSI-X vector k follows (R313, R389). -/
def State.postDone (s : State) (j : Job) : State :=
  let s := s.useCtx j.ctx
  let n := ((s.ctx j.ctx).done + 1) % 2 ^ 64
  let last := j.num + j.status * 2 ^ 48
  let s1 := s.mapCtx j.ctx fun x => { x with done := n, lastjob := last }
  (((s1.postHost j.ctx (s1.statusPage j.ctx + 8) (leBytes 8 last)).postHost j.ctx (s1.statusPage j.ctx) (leBytes 8 n)).msix
    (fnOf j.ctx) (j.ctx % 64))

/-- The job leaves the pool and stops being live; records move from the Silos (R47, R334). -/
def State.jobGone (s : State) (num : Nat) : State :=
  { s with jobs := s.jobs.filter (·.num != num) }.siloToPool

/-- Every gang of the job has completed or is discarded. -/
def Job.over (j : Job) : Bool :=
  j.gangs.all fun g => match g.st with
    | .done => true
    | .discarded => true
    | _ => false

/-- A write of the job's completion record is not yet acknowledged by its home module, or by the host (R93). -/
def State.recordOut (s : State) (p : Partition) (ctx : Nat) : Bool :=
  let mine (a : Agent) (r : RetTo) : Bool := a == (p.who ctx).agent && r == .nowhere
  s.links.yWait.any (fun e => mine e.2.agent e.2.ret && e.2.asid == ctx) || s.links.hostReqs.any fun h => mine h.agent h.ret && h.ctx == ctx

/-- The writes that the tasks of a job's gangs have made or known. -/
def Job.knew (j : Job) : List Nat := j.gangs.foldl (fun acc g => union acc g.knew) []

/-- The pieces of the job's completion record still to be written; none when CREC is 0 (R333). -/
def Job.pieces (j : Job) (now : Nat) : List (Nat × List Byte) :=
  let cut (b : List Byte) (e : Nat × Nat) : Nat × List Byte := (e.1, (b.drop (e.1 - j.crec.toNat)).take e.2)
  if j.crec == 0 then [] else j.recLeft.getD ((linesOf j.crec.toNat 64).map (cut (j.record now)))

/-- A piece of the record has been written. -/
def Job.wrotePiece (j : Job) (left : List (Nat × List Byte)) (ids : List Nat) (host : Bool) : Job :=
  { j with recLeft := some left, recIds := union j.recIds ids, recHost := j.recHost || host }

/-- With its record written the job completes: behind the zero-length read of the host when a piece lies there, and once every
write has performed at SY, the status page is written and the job is gone (R93, R334). -/
def State.jobFinish (s : State) (p : Partition) (j : Job) : State :=
  if s.recordOut p j.ctx then s
  else if j.recHost then
    (s.mapJob j.num fun j => { j with recHost := false, recZero := some s.counter }).toHost (p.who j.ctx).agent j.ctx 0 (.read 0)
      .nowhere none none
  else ((s.knownFar .sy j.recIds).postDone j).jobGone j.num

/-- A write to a piece of a context's memory goes to the host. -/
def State.ctxToHost (s : State) (p : Partition) (ctx va n : Nat) : Bool :=
  match s.ctxTarget p ctx va n needW with | .ok _ (.host _) => true | _ => false

/-- JOB_COMPLETE: the completion record piece by piece, up to one that cannot be written, and then the status page; the record's
writes carry the job's release at SY and are waited for (R92, R333, R334). A miss of the record's page holds it, with a record in
the fault queue (R343). -/
def execJobComplete (job : Nat) (s : State) : Result :=
  .next <|
    match s.job job with
    | none => s
    | some j =>
      if !j.live || !j.over then s
      else
        let p := s.partOfCtx j.ctx
        match j.pieces s.now with
        | [] => s.jobFinish p j
        | (va, bs) :: rest =>
          if s.ctxHeld p j.ctx va bs.length then s
          else
            let w : Who := { p.who j.ctx with view := union j.knew j.recIds }
            let host := s.ctxToHost p j.ctx va bs.length
            match s.ctxPut p w [⟨j.knew, .sy, 64 * p.first, []⟩] va bs with
            | .ok s1 ids => (s1.knownFar .sy j.knew).mapJob job (·.wrotePiece rest ids host)
            | .wait s1 => s1
            | .fail s1 cause _ va =>
              if cause == cPAGE then s1.holdFor p j.ctx va true
              else s1.mapJob job (·.wrotePiece [] [] false)

/-! ### The end of a superstep (R41, R44, R360) -/

/-- Every long operation of a sequencer that may still perform: those outstanding, and those in the replay queues of its
trap frame and of its shadow frame. -/
def Sequencer.unperformed (x : Sequencer) : List LongOp :=
  x.outstanding ++ x.frame.replay ++ match x.shadow with | some f => f.replay | none => []

/-- A command that its engine has begun has writes to make. -/
def Cluster.drains (k : Cluster) : Bool :=
  !k.copy.begun.isEmpty || match k.mat.cur with
    | some r => match r.cmd.op with | .drain _ _ _ _ _ _ => true | _ => false
    | none => false

/-- A write issued by the cluster has not performed (R41, R106): a trapped write waits in a replay queue until RETR, and a
command begun is issued with all its writes (R257); one that a tile's queue has accepted has performed (R93). A port's write that
a translation miss holds in its input has not been issued: the spec says so of R362 only (log entry 35). -/
def State.writesOut (s : State) (c : Nat) : Bool :=
  let k := s.cluster c
  let mine (r : MemReq) : Bool := r.agent.isOf c && r.kind.writes
  k.seqC.unperformed.any (·.writesStill) || k.seqY.unperformed.any (·.writesStill)
    || k.seqM.unperformed.any (·.writesStill) || k.drains
    || s.reqs.any mine || s.links.yWait.any (fun e => mine e.2)
    || s.sheaves.any (fun h => mine h.first || mine h.second) || s.postedOut c true

/-- The step has ended: every task has arrived or retired, and every write issued in it has performed. -/
def State.stepOver (s : State) (job : Nat) (g : Gang) : Bool :=
  g.st == .resident && (s.seats job g).all fun c => (s.cluster c).task.arrived && !s.writesOut c

/-- The checkpoint of a step that begins at a pc (R360). -/
def Cluster.checkpoint (k : Cluster) (pc : Word) : Option Checkpoint :=
  if k.task.reexec then some ⟨k.seqC.regs, k.seqC.preds, k.task.flags, pc⟩ else none

/-- The pc after the STEP.END the control sequencer waits at. -/
def Sequencer.afterStep (x : Sequencer) : Word :=
  match x.waits.find? fun w => match w.kind with | .stepEnd _ => true | _ => false with
  | some w => w.pc + 4
  | none => x.pc + 4

/-- The accesses of a cluster's engines come after the writes of the steps before, those of commands already placed too (R106). -/
def Cluster.engAcquire (k : Cluster) (ids : List Nat) : Cluster :=
  let cpy (c : CopyCmd) : CopyCmd := { c with view := union c.view ids }
  let mat (c : MatCmd) : MatCmd := { c with view := union c.view ids }
  { k with
    fSeen := union k.fSeen ids, copy := { k.copy with queue := k.copy.queue.map cpy, begun := k.copy.begun.map cpy },
    loads := k.loads.map fun l => { l with view := union l.view ids },
    mat := { k.mat with queue := k.mat.queue.map mat, cur := k.mat.cur.map fun r => { r with cmd := mat r.cmd },
                        arms := k.mat.arms.map fun e => (e.1, mat e.2), armWait := k.mat.armWait.map mat } }

/-- An acquire of all classes by a sequencer of a cluster whose engines have made their accesses (R91, R95). -/
def Sequencer.acquireAll (x : Sequencer) (k : Cluster) (ids : List Nat) (count : Nat) : Sequencer :=
  x.acquire maskAll ids ([1, 2, 3].map fun i => (i, k.engWrites i)) count

/-- The next step begins in a cluster: an acquire of all classes, IDLE wakes, a pending DLRISK is gone, and the step's
checkpoint is recorded, and the control interval begins afresh (R41, R106, R360, R379, R387). -/
def Cluster.nextStep (k : Cluster) (ids : List Nat) (count now : Nat) : Cluster :=
  let acq (x : Sequencer) : Sequencer := x.acquireAll k ids count
  let k0 := ({ k.engAcquire ids with seqC := { acq k.seqC with dlrisk := none }, seqY := acq k.seqY, seqM := acq k.seqM } : Cluster).wakeAll
  { k0 with power := { k0.power.restart now with short := false }, task := { k0.task with
      arrived := false, prog := 0, prevClk := k0.clk - k0.task.stepClk, stepClk := k0.clk, noReplay := false,
      ckpt := k0.checkpoint k0.seqC.afterStep } }

/-- SUPERSTEP_END: step k ends, once the markers of its release and a zero-length read of the host have come back, and step k
+ 1 begins in the same clk: a release and an acquire of all classes (R41, R95, R97, R106, R360). -/
def execSuperstepEnd (job gi : Nat) (s : State) : Result :=
  .next <|
    match s.gang job gi with
    | none => s
    | some g =>
      let live := s.seats job g
      let s1 := live.foldl (fun t c => (t.sendFlush .mo c).taskZero c) s
      if !s.stepOver job g || live.isEmpty then s
      else if live.any fun c => !(s1.cluster c).task.flush.isEmpty || s1.owesHost c then s1
      else
        let ids := live.foldl (fun acc c => union acc (s.cluster c).knows) g.knew
        let one (t : State) (c : Nat) : State := t.mapCl c (·.nextStep ids s.counter s.now)
        ((live.foldl one s1).knownFar .mo ids).mapGang job gi fun g =>
          { g with step := g.step + 1, stepStart := s.now, deadline := none, deadlineSet := false, dlRaised := false,
                   dlPosted := false, dlPend := none }

/-! ### DLRISK on the status page (R44, R313) -/

/-- DLRISK_POST: not taken within 10 µs, or rank 0's control sequencer has ended: DLRP and then DLRC (R44, R313). -/
def execDlriskPost (job gi : Nat) (s : State) : Result :=
  .next <|
    match s.gang job gi, s.job job with
    | some g, some j =>
      let gone := g.retired.contains 0
      let k := s.rank0 job g
      let ended := gone || k.any fun k => k.seqC.exited || k.task.left
      match if gone then g.dlPend else k.bind (·.seqC.dlrisk) with
      | none => s
      | some slack =>
        if !g.dlRaised || g.dlPosted || !(ended || g.dlAt + 10000 ≤ s.now) then s
        else
          let s := s.useCtx j.ctx
          let w := w64 (g.step % 2 ^ 32 + slack.toNat % 2 ^ 32 * 2 ^ 32)
          let n := ((s.ctx j.ctx).dlrc + 1) % 2 ^ 64
          let s1 := (s.mapCtx j.ctx fun y => { y with dlrp := w, dlrc := n }).mapGang job gi fun g =>
            { g with dlPosted := true, dlPend := none }
          let s2 := (s1.postHost j.ctx (s1.statusPage j.ctx + 0x18) (toBytes 8 w)).postHost j.ctx (s1.statusPage j.ctx + 0x20) (leBytes 8 n)
          if !gone && ended then s2.mapRank0 job g fun x => { x with dlrisk := none } else s2
    | _, _ => s

end Sys2Proof.Machine
end

