-- ==== Sys2Proof/Machine/Worlds.lean ====
section
/-! DEFINITION. Worlds: the world table, WSCTL and WTBL, quanta and switches (R316 to R319). -/

namespace Sys2Proof.Machine

/-! ### The world table (R316, R318) -/

/-- The bits of a partition's clusters in a CMASK. -/
def Partition.clusterBits (p : Partition) : Nat := (2 ^ (64 * 2 ^ p.logsz) - 1) * 2 ^ (64 * p.first)

/-- The number of clusters a CMASK names. -/
def maskSize (m : Nat) : Nat := (List.range 512).countP (bit m ·)

/-- The worlds' records as a read of the table gives them. -/
def worldOfRecord (b : List Byte) : World :=
  ⟨field b 0 32, field b 32 64, (List.range 8).map fun i => w64 (field b (96 + 8 * i) 8)⟩

/-- The bytes of every world's record, unless one cannot be read. -/
def State.worldRecords (s : State) (p : Partition) : Option (List (List Byte)) :=
  let l := (List.range (p.wsNw + 1)).map fun w => s.physRead p (p.wtbl.toNat + 256 * w) 256
  if l.any (·.isNone) then none else some (l.filterMap id)

/-- Two masks of the list share a bit. -/
def overlap : List Nat → Bool
  | [] => false
  | m :: r => r.any (fun n => m &&& n != 0) || overlap r

/-- R318: the table passes its check. -/
def Partition.worldsLegal (p : Partition) (rs : List (List Byte)) : Bool :=
  let ws := rs.map worldOfRecord
  (List.range 256).all (fun f => ws.countP (fun w => bit w.fmask f) == if bit p.fns f then 1 else 0)
    && ws.all (fun w => w.cmask &&& p.clusterBits == w.cmask && w.rct.all (sregLegal 0x410))
    && (p.wsMode || !overlap (ws.map (·.cmask)))
    && rs.all fun b => field b 160 96 == 0

/-- R317, R318: the table is read afresh: at once in spatial mode, at the next switch in time mode. -/
def State.readWorlds (s : State) (c : Nat) : State :=
  let p := s.part c
  match s.worldRecords p with
  | none => s.mapPart c fun p => { p with wsBad := true }
  | some rs =>
    if !p.worldsLegal rs then s.mapPart c fun p => { p with wsBad := true }
    else
      let ws := rs.map worldOfRecord
      s.mapPart c fun p =>
        if p.wsMode then { p with wsBad := false, nextWorlds := some ws }
        else { p with wsBad := false, worlds := ws, nextWorlds := none }

/-- The world of a list that a function belongs to; without a table there is one world (R317). -/
def worldOf (ws : List World) (f : Nat) : Option Nat := if ws.isEmpty then some 0 else ws.findIdx? fun w => bit w.fmask f

/-- The clusters a world may run on. -/
def Partition.cmask (p : Partition) (w : Nat) : Nat := if p.worlds.isEmpty then p.clusterBits else ((p.worlds[w]?).map (·.cmask)).getD 0

/-! ### Switches (R319) -/

/-- The partition's jobs. -/
def State.jobsOf (s : State) (p : Partition) : List Job := s.jobs.filter fun j => (s.partOfCtx j.ctx).first == p.first

/-- The gang waits to be admitted, as a candidate or saved. -/
def Gang.ready (g : Gang) : Bool := g.st == .candidate || g.st == .saved

/-- The gang holds clusters, or is about to. -/
def Gang.placed (g : Gang) : Bool := g.st == .admitted || g.st == .resident || g.st == .preempting

/-- Some gang of world w of the list is ready. -/
def State.worldReady (s : State) (p : Partition) (ws : List World) (w : Nat) : Bool :=
  (s.jobsOf p).any fun j => worldOf ws (fnOf j.ctx) == some w && j.gangs.any (·.ready)

/-- The quantum ends: it restarts, or a switch begins: staged tasks are discarded and the world's gangs pre-empted
(R319, R361). -/
def State.endQuantum (s : State) (c : Nat) : State :=
  let p := s.part c
  if !p.wsMode || p.switching.isSome then s
  else
    let ws := p.nextWorlds.getD p.worlds
    let order := (List.range ws.length).map fun i => (p.wsCur + 1 + i) % ws.length
    match order.find? fun w => w != p.wsCur && s.worldReady p ws w with
    | none => s.mapPart c fun p => { p with quantStart := s.now }
    | some w =>
      let s1 := (s.mapPart c fun p => { p with switching := some w }).mapPartCls p fun k => { k with staged := none }
      let stop (t : State) (j : Job) : State := j.gangs.foldl (fun t g => t.preemptGang j.num g.gi) t
      (s1.jobsOf p).foldl stop s1

/-- QUANTUM_EXPIRY (R319). -/
def execQuantumExpiry (part : Nat) (s : State) : Result :=
  .next <| match s.partAt part with
  | none => s
  | some p => if p.wsMode && p.wsQuant * 1000 ≤ s.now - p.quantStart then s.endQuantum (64 * p.first) else s

/-- The live RCT in the outgoing world's record. -/
def State.saveRct (s : State) (p : Partition) : State :=
  match s.placeOf p (p.wtbl.toNat + 256 * p.wsCur + 96) with
  | .mem key => s.store key ((p.rct.toList.map (toBytes 8)).flatten) [] [] 0
  | _ => s

/-- The RCT of a world. -/
def World.table (w : World) : Vector Word 8 := Vector.ofFn fun i => w.rct.getD i.val 0

/-- Steps 3 to 5 of a switch: a write of RCTn made meanwhile applies to the incoming world. -/
def Partition.switchTo (p : Partition) (w now : Nat) : Partition :=
  let ws := modNth (p.nextWorlds.getD p.worlds) p.wsCur fun x => { x with rct := p.rct.toList }
  let t := match ws[w]? with | some x => x.table | none => p.rct
  let put (v : Vector Word 8) (e : Nat × Word) : Vector Word 8 := if h : e.1 < 8 then v.set e.1 e.2 else v
  { p with worlds := ws, nextWorlds := none, switching := none, wsCur := w, rct := p.pendingRct.foldl put t, pendingRct := [],
           quantStart := now }

/-- WORLD_SWITCH_COMPLETE: no gang of the outgoing world is left on a cluster (R319). -/
def execWorldSwitchComplete (part : Nat) (s : State) : Result :=
  .next <| match s.partAt part with
  | none => s
  | some p =>
    match p.switching with
    | none => s
    | some w =>
      if (s.jobsOf p).any fun j => j.gangs.any (·.placed) then s
      else (s.saveRct p).mapPart (64 * p.first) fun p => p.switchTo w s.now

/-! ### MTS to WSCTL and WTBL -/

/-- R317: no RZ bit is set, and the quantum is in its range. -/
def wsctlLegal (v : Word) : Bool :=
  bits v 15 11 == 0 && bits v 63 32 == 0 && (10 ≤ bits v 31 16 || (bits v 31 16 == 0 && !v.getLsbD 0))

/-- WSCTL written: the mode, the number of worlds and the quantum, and the table is read afresh. -/
def State.setWsctl (s : State) (c : Nat) (v : Word) : State :=
  (s.mapPart c fun p =>
    { p with wsMode := v.getLsbD 0, wsNw := bits v 4 1, wsQuant := bits v 31 16, wsCur := if v.getLsbD 0 then p.wsCur else 0,
             quantStart := if v.getLsbD 0 && !p.wsMode then s.now else p.quantStart }).readWorlds c

/-- MTS WSCTL, whose SWREQ ends the quantum. -/
def State.mtsWsctlValue (s : State) (v : Word) : State :=
  let s1 := s.setWsctl s.cur.1 v
  if v.getLsbD 9 then s1.endQuantum s.cur.1 else s1

/-- MTS WSCTL (R146, R317). -/
def execMtsWsctl (g : Guard) (a : Reg) (s : State) : Result :=
  guarded g 4 s fun s => s.privReg 0x419 fun s =>
    let v := s.me.reg a
    if !wsctlLegal v then s.ill (encodeNat (.mtsWsctl g a)) else (s.mtsWsctlValue v).skip 4

/-- MTS WSCTL with SWREQ set: the quantum ends now (R317, R319, R361). -/
def execMtsWsctlSwreq (g : Guard) (a : Reg) (s : State) : Result :=
  guarded g 4 s fun s => s.privReg 0x419 fun s =>
    let v := s.me.reg a
    if !wsctlLegal v then s.ill (encodeNat (.mtsWsctlSwreq g a)) else (s.mtsWsctlValue v).skip 4

/-- MTS WTBL: the base, and the table is read afresh (R316, R317). -/
def execMtsWtbl (g : Guard) (a : Reg) (s : State) : Result :=
  guarded g 4 s fun s => s.privReg 0x41A fun s =>
    let v := s.me.reg a
    if !sregLegal 0x41A v then s.ill (encodeNat (.mtsWtbl g a))
    else ((s.mapPart s.cur.1 fun p => { p with wtbl := v }).readWorlds s.cur.1).skip 4

end Sys2Proof.Machine
end

