-- ==== Sys2Proof/Machine/Schedule.lean ====
section
/-! DEFINITION. The gang scheduler: gang entries, readiness, the check of task images, choice, placement, staging and
admission (R39, R40, R133 to R136, R321 to R330, R366). -/

namespace Sys2Proof.Machine

/-! ### Gang entries (R322) -/

/-- The entry obeys R322. -/
def entryLegal (b : List Byte) (gi : Nat) : Bool :=
  field b 0 8 % 64 == 0 && field b 8 8 % 64 == 0 && (field b 36 2 == 0 || field b 16 8 % 64 == 0)
    && field b 24 8 < 2 ^ gi && field b 32 4 % 4 == 0 && field b 36 2 < 4096 && field b 38 2 < 512 && field b 40 24 == 0

/-- The gang as its entry describes it. -/
def Gang.fromEntry (g : Gang) (b : List Byte) : Gang :=
  { g with st := .entered, image := w64 (field b 0 8), argp := w64 (field b 8 8), thrp := w64 (field b 16 8),
           depg := field b 24 8, ptvec := field b 32 4, thrn := field b 36 2, size := field b 38 2 + 1 }

/-! ### Task images (R133 to R136) -/

/-- R134, R136: the header obeys its rules, and its parts lie within the image. -/
def headerLegal (h : List Byte) : Bool :=
  let size := field h 38 4
  field h 0 4 == 0x5439444F && field h 4 2 == 1 && field h 6 2 ≤ 4095 && field h 8 4 % 64 == 0 && field h 12 4 % 4 == 0
    && field h 16 4 % 64 == 0 && field h 24 4 % 4 == 0 && field h 8 4 ≤ field h 24 4
    && field h 24 4 < field h 8 4 + field h 12 4 && 1 ≤ field h 28 4 && 1 ≤ field h 32 2 && field h 32 2 ≤ 1023
    && field h 34 1 < 2 && field h 35 1 < 16 && field h 36 2 ≤ 1024 && field h 42 22 == 0
    && 0x40 + 8 * field h 6 2 ≤ size && field h 8 4 + field h 12 4 ≤ size && field h 16 4 + field h 20 4 ≤ size

/-- A directory word: block, spill units and image offset (R135). -/
def dirEntry (w : Nat) : Nat × Nat × Nat := (nbits w 0 12, nbits w 16 16, nbits w 32 32)

/-- R135, R136: the entries are in ascending order of block, and legal. -/
def dirLegal : List Nat → Bool
  | [] => true
  | w :: r =>
    nbits w 12 4 == 0 && (dirEntry w).1 ≤ 0xFFE && (dirEntry w).2.2 % 64 == 0
      && (match r with | [] => true | v :: _ => (dirEntry w).1 < (dirEntry v).1) && dirLegal r

/-- R136: the block's image names the block and lies within the task image. -/
def blockLegal (size : Nat) (e : Nat × Nat × Nat) (hdr : Nat) : Bool :=
  e.2.2 + 32 * (1 + hNfr hdr) ≤ size && hImg hdr == e.1

/-- The header frames of the blocks. -/
def State.blockHeaders (s : State) (p : Partition) (ctx base : Nat) : List (Nat × Nat × Nat) → List Nat → Got (List Nat)
  | [], acc => .ok s acc
  | e :: r, acc =>
    match s.ctxRead p (p.who ctx) (base + e.2.2) 32 with
    | .ok s1 b => s1.blockHeaders p ctx base r (acc ++ [leNat b])
    | .fail s1 c d a => .fail s1 c d a
    | .wait s1 => .wait s1

/-- R136: the header and the directory of an image that passes its check. An image that cannot be read fails it. -/
def State.checkImage (s : State) (p : Partition) (ctx image : Nat) :
    Got (Option (List Byte × List (Nat × Nat × Nat))) :=
  match s.ctxRead p (p.who ctx) image 64 with
  | .wait s1 => .wait s1
  | .fail s1 _ _ _ => .ok s1 none
  | .ok s1 h =>
    if !headerLegal h then .ok s1 none
    else
      match s1.ctxRead p (p.who ctx) (image + 0x40) (8 * field h 6 2) with
      | .wait s2 => .wait s2
      | .fail s2 _ _ _ => .ok s2 none
      | .ok s2 d =>
        let ws := (List.range (field h 6 2)).map fun i => field d (8 * i) 8
        let dir := ws.map dirEntry
        if !dirLegal ws || dir.any (fun e => field h 38 4 < e.2.2 + 32) then .ok s2 none
        else
          match s2.blockHeaders p ctx image dir [] with
          | .wait s3 => .wait s3
          | .fail s3 _ _ _ => .ok s3 none
          | .ok s3 hs =>
            if (dir.zip hs).all fun e => blockLegal (field h 38 4) e.1 e.2 then .ok s3 (some (h, dir)) else .ok s3 none

/-! ### Placement (R329, R366) -/

/-- ENERGY and PEAK of a task header. -/
def hdrEnergy (h : List Byte) : Nat := field h 28 4
def hdrPeak (h : List Byte) : Nat := field h 32 2

/-- The clusters eligible for a gang of world w. -/
def State.eligible (s : State) (p : Partition) (w : Nat) (h : List Byte) : List Nat :=
  p.clusters.filter fun c =>
    let x := (s.cluster c).power
    x.insvc && bit (p.cmask w) c && hdrEnergy h ≤ x.ecap && hdrPeak h ≤ x.icap

/-- The cluster holds no resident task, and no saved one of the world (R329, R366). -/
def State.freeFor (s : State) (w c : Nat) : Bool :=
  !(s.cluster c).task.resident && !s.savedCl.any (·.1 == 16 * c + w)

/-- The placement of a gang of n tasks: the clusters in ascending number, free ones first (R329). -/
def State.placement (s : State) (p : Partition) (w n : Nat) (h : List Byte) : List Nat :=
  let e := s.eligible p w h
  sortBy (· < ·) ((e.filter (s.freeFor w) ++ e.filter fun c => !s.freeFor w c).take n)

/-- R329: the sums of ENERGY stay within every die's EDIE, with or without the tasks resident now. -/
def State.diesHold (s : State) (p : Partition) (l : List Nat) (energy : Nat) (empty : Bool) : Bool :=
  let resident (d : Nat) : Nat := s.clusters.foldl (fun acc e =>
    if e.1 / 64 == d && e.2.task.resident then acc + e.2.task.energy else acc) 0
  (List.range (2 ^ p.logsz)).all fun i =>
    let d := p.first + i
    let mine := l.countP (· / 64 == d)
    (if empty then 0 else resident d) + energy * mine ≤ (s.die d).edie

/-- A gang would fit if the partition held no resident task; otherwise it completes with NOFIT. -/
def State.couldFit (s : State) (p : Partition) (w n : Nat) (h : List Byte) : Bool :=
  let l := (s.eligible p w h).take n
  l.length == n && s.diesHold p l (hdrEnergy h) true

/-- The clusters a candidate takes: those it left, or its placement. -/
def State.clustersFor (s : State) (p : Partition) (g : Gang) : List Nat :=
  if g.st == .saved then g.held else s.placement p g.world g.size g.hdr

/-- The candidate fits (R329). -/
def State.fits (s : State) (p : Partition) (g : Gang) : Bool :=
  let l := s.clustersFor p g
  (g.st == .saved || l.length == g.size) && s.diesHold p l (hdrEnergy g.hdr) false
    && l.all fun c => if g.st == .saved then !(s.cluster c).task.resident else s.freeFor g.world c

/-! ### Readiness (R325) -/

/-- The job is complete, or no longer live. -/
def State.depDone (s : State) (d : Nat) : Bool := d == 0 || match s.job d with | none => true | some j => !j.live

/-- The gang's entry is read; a read that faults and an entry that breaks R322 end it with BADGANG. -/
def State.readEntry (s : State) (p : Partition) (j : Job) (gi : Nat) : State :=
  match s.ctxRead p (p.who j.ctx) (j.gtab.toNat + 64 * gi) 64 with
  | .wait s1 => s1
  | .fail s1 _ _ _ => s1.gangFails j.num gi 2 0xFFFF
  | .ok s1 b => if entryLegal b gi then s1.mapGang j.num gi (·.fromEntry b) else s1.gangFails j.num gi 2 0xFFFF

/-- Every gang named by DEPG has completed. -/
def Job.depgDone (j : Job) (g : Gang) : Bool :=
  j.gangs.all fun x => !bit g.depg x.gi || x.st == GangState.done

/-- A gang becomes ready: its image, its world's size and its fit are checked, and it joins the candidates (R318,
R325, R329). -/
def State.makeReady (s : State) (p : Partition) (j : Job) (g : Gang) : State :=
  match s.checkImage p j.ctx g.image.toNat with
  | .wait s1 => s1
  | .fail s1 _ _ _ => s1
  | .ok s1 none => s1.gangFails j.num g.gi 3 0xFFFF
  | .ok s1 (some (h, dir)) =>
    let w := (worldOf p.worlds (fnOf j.ctx)).getD 0
    if maskSize (p.cmask w) < g.size then s1.gangFails j.num g.gi 4 0xFFFF
    else if !s1.couldFit p w g.size h then s1.gangFails j.num g.gi 5 0xFFFF
    else s1.mapGang j.num g.gi fun x => { x with st := .candidate, hdr := h, dir := dir, world := w }

/-- One gang in a scheduler cycle: its entry in the first cycle, then DEPG, in the same cycle or a later one, which stamps
it; its checks end in that cycle or a later one (R325). -/
def State.advanceGang (s : State) (p : Partition) (num gi : Nat) : State :=
  let read (t : State) : State := match t.job num, t.gang num gi with
    | some j, some g => if g.st == .waiting then t.readEntry p j gi else t
    | _, _ => t
  let stamp (t : State) : State := match t.job num, t.gang num gi with
    | some j, some g =>
      if g.st == .entered && j.depgDone g then t.mapGang num gi fun x => { x with st := .checking, readyAt := t.now } else t
    | _, _ => t
  let ready (t : State) : State := match t.job num, t.gang num gi with
    | some j, some g => if g.st == .checking then t.makeReady p j g else t
    | _, _ => t
  ready (stamp (read s))

/-- R317, R318: a candidate that is not yet admitted belongs to its function's world as the worlds stand now; one
larger than that world completes with GANGSIZE. -/
def State.reworld (s : State) (p : Partition) (num gi : Nat) : State :=
  match s.job num, s.gang num gi with
  | some j, some g =>
    if g.st != .candidate then s
    else
      let w := (worldOf p.worlds (fnOf j.ctx)).getD 0
      if maskSize (p.cmask w) < g.size then s.gangFails num gi 4 0xFFFF
      else s.mapGang num gi fun x => { x with world := w }
  | _, _ => s

/-- Every candidate of the partition in its world. -/
def State.reworldAll (s : State) (p : Partition) : State :=
  (s.jobsOf p).foldl (fun t j => j.gangs.foldl (fun t g => t.reworld p j.num g.gi) t) s

/-- Every gang of the partition's jobs in the pool whose job dependences are met. -/
def State.advanceGangs (s : State) (p : Partition) : State :=
  let js := (s.jobsOf p).filter fun j => j.inPool && s.depDone j.dep0 && s.depDone j.dep1 && s.depDone j.parent
  js.foldl (fun t j => j.gangs.foldl (fun t g => t.advanceGang p j.num g.gi) t) s

/-! ### Choice (R328) -/

/-- The deadline R328 compares: a resumed gang's step, with the time it was saved not counted; a new gang's hint. -/
def State.deadlineKey (s : State) (j : Job) (g : Gang) : Nat :=
  if g.st == .saved then match g.deadline with | some d => d + (s.now - g.preAt) | none => 2 ^ 80
  else if j.dlhint == 0 then 2 ^ 80 else j.accepted + j.dlhint

/-- The pointer of a level. -/
def Partition.pointer (p : Partition) (l : Nat) : Nat := if h : l < 8 then p.ptr[l] else 0

/-- The keys of R328, least first. -/
def State.schedKey (s : State) (p : Partition) (j : Job) (g : Gang) : List Nat :=
  let l := s.levelOf j g
  [7 - l, if g.st == .saved then 0 else 1, s.deadlineKey j g, (j.ctx + 2 ^ 14 - p.pointer l) % 2 ^ 14, g.readyAt, j.num, g.gi]

/-- The first key that differs decides. -/
def keysLess : List Nat → List Nat → Bool
  | x :: r, y :: t => x < y || (x == y && keysLess r t)
  | _, _ => false

/-- The world's gangs may run now: every world in spatial mode, the current one in time mode (R319). -/
def Partition.current (p : Partition) (w : Nat) : Bool := !p.wsMode || w == p.wsCur

/-- The candidate of highest precedence. -/
def State.first (s : State) (p : Partition) : Option (Job × Gang) :=
  let all := ((s.jobsOf p).map fun j => (j.gangs.filter fun g => g.ready && p.current g.world).map fun g => (j, g)).flatten
  let better (best : Option (Job × Gang)) (e : Job × Gang) : Option (Job × Gang) :=
    match best with
    | none => some e
    | some b => if keysLess (s.schedKey p e.1 e.2) (s.schedKey p b.1 b.2) then some e else some b
  all.foldl better none

/-! ### Staging (R39, R330) -/

/-- A slot that a staged block may take: any when no task is resident, and else EMPTY, or a scheduler slot of the resident
task that is IDLE (R29, R330, log entry 29). -/
def Cluster.slotFree (k : Cluster) (i : Nat) : Bool :=
  !k.task.resident || match (k.slot i).st with
    | .empty => true
    | .idle => k.sched i
    | _ => false

/-- Staged blocks that stand in no slot take the free ones of their task's mask, in ascending order. -/
def Staged.place (x : Staged) (k : Cluster) (smask : Nat) (img : Nat → Option Word) : Staged :=
  let one (ps : List Prep) (b : Nat) : List Prep :=
    match (List.range 4).find? (fun i => bit smask i && k.slotFree i && !ps.any (·.slot == i)), img b with
    | some i, some a => if ps.any (·.blk == b) then ps else ps ++ [⟨i, b, a, 0, 0, 0xFFFFFFFF#32, [], false⟩]
    | _, _ => ps
  { x with preps := (x.blks.getD []).foldl one x.preps }

/-- The slots that staged blocks stand in are EMPTY for the resident task (R29). -/
def Cluster.emptyStaged (k : Cluster) : Cluster :=
  ((k.staged.map (·.preps)).getD []).foldl (fun k p => if (k.slot p.slot).st == .idle then k.mapSlot p.slot (·.cleared) else k) k

/-- The staged task of a cluster has its first blocks named, by its initial thread records in ascending order, and as many
of them as there are slots for take a slot to be loaded into (R39, R330). -/
def State.prepare (s : State) (p : Partition) (j : Job) (g : Gang) (r c : Nat) : State :=
  let img (b : Nat) : Option Word := (g.dir.find? (·.1 == b)).map fun e => g.image + w64 e.2.2
  let go (s : State) : State := s.mapCl c fun k =>
    ({ k with staged := k.staged.map fun x => x.place k (field g.hdr 35 1) img } : Cluster).emptyStaged
  let named (s : State) (l : List Nat) : State :=
    go (s.mapCl c fun k => { k with staged := k.staged.map fun x => { x with blks := some l } })
  match ((s.cluster c).staged).map fun x => (x.job == j.num && x.gi == g.gi, x.blks) with
  | some (true, none) =>
    match s.ctxRead p (p.who j.ctx) (g.thrp.toNat + 64 * (g.thrn * r)) (64 * g.thrn) with
    | .ok s1 b => named s1 (sortBy (· < ·) (((chunks 64 g.thrn b).map fun x => nbits (field x 0 8) 0 12).eraseDups))
    | .fail s1 _ _ _ => named s1 []
    | .wait s1 => s1
  | some (true, some _) => go s
  | _ => s

/-- What a cluster has staged while this candidate waits: a staged task is discarded when its cluster leaves P or another candidate
takes precedence, and not when the resident task retires (R330). A task that is about to start keeps what it has. -/
def stagedFor (j : Job) (g : Gang) (l : List Nat) (c : Nat) (k : Cluster) : Option Staged :=
  if k.task.st == .starting || k.task.st == .saved then k.staged
  else if !l.contains c then none
  else
    match k.staged with
    | some x => if x.job == j.num && x.gi == g.gi then some x else none
    | none => if k.task.resident then some ⟨j.num, g.gi, none, []⟩ else none

/-- The waiting candidate is staged on the clusters of its placement, and nothing else is. -/
def State.stage (s : State) (p : Partition) (j : Job) (g : Gang) : State :=
  let l := s.clustersFor p g
  let s1 : State := { s with clusters := s.clusters.map fun e => if p.holds e.1 then (e.1, { e.2 with staged := stagedFor j g l e.1 e.2 }) else e }
  l.zipIdx.foldl (fun t e => t.prepare p j g (if g.st == .saved then g.clusters.idxOf e.1 else e.2) e.1) s1

/-- A frame of a block that is read beside the configuration bus passes the checks of a load (R132, R215); none when it
fails. -/
def Prep.frame (x : Prep) (sched : Bool) (f : Nat) (bs : List Byte) : Option Prep :=
  if x.next == 0 then
    if headerError f x.blk != 0 then none else some { x with header := f, next := 1, crc := crcBytes x.crc (crcHeader f) }
  else
    let all := x.frames ++ [withSlot f x.slot]
    let y := { x with next := x.next + 1, crc := crcBytes x.crc bs, frames := all }
    if frameError f (x.frames.map unslotted) != 0 then none
    else if x.next < hNfr x.header then some y
    else if lastError all sched != 0 || (~~~y.crc).toNat != hCrc x.header then none
    else some { y with whole := true }

/-- The next frame of a staged block, read in its task's address space. A block that fails a check, or cannot be read, is
left to the load of its own task (R39, R221, log entry 29). -/
def State.prepFrame (s : State) (cl : Nat) : State :=
  match (s.cluster cl).staged with
  | none => s
  | some x =>
    match x.preps.find? fun y => !y.whole, s.job x.job with
    | some y, some j =>
      let next (n : Option Prep) : Staged :=
        { x with preps := (x.preps.map fun z => if z.slot == y.slot then n.toList else [z]).flatten,
                 blks := if n.isNone then x.blks.map fun l => l.filter (· != y.blk) else x.blks }
      let put (s : State) (n : Option Prep) : State := s.mapCl cl fun k => { k with staged := some (next n) }
      let p := s.partOfCtx j.ctx
      match s.ctxRead p (p.who j.ctx) (y.img.toNat + 32 * y.next) 32 with
      | .wait s1 => s1
      | .fail s1 _ _ _ => put s1 none
      | .ok s1 bs => put (s1.dropLines (p.who j.ctx).agent) (y.frame true (leNat bs) bs)
    | _, _ => s

/-- CONFIG_FRAME_WRITE: the configuration bus carries one frame: of the resident task's loads, or, while it has none, of a
staged block (R18, R39, R126). -/
def execConfigFrameWrite (cl : Nat) (s : State) : Result :=
  .next (if (s.cluster cl).loads.isEmpty then s.prepFrame cl else s.frameWrite cl)

/-! ### Admission (R328, R332) -/

/-- The tile task of rank r, from the gang's entry and its task header. -/
def Gang.task (g : Gang) (j : Job) (r : Nat) : Task :=
  { Task.reset with
    resident := true, st := .starting, ctx := j.ctx, world := g.world, job := j.num, gi := g.gi, rank := r, n := g.size,
    image := g.image, ptvec := g.ptvec, entry := field g.hdr 24 4, energy := hdrEnergy g.hdr, peak := hdrPeak g.hdr,
    reexec := bit (field g.hdr 34 1) 0, smask := field g.hdr 35 1,
    quota := if field g.hdr 36 2 == 0 then 64 else field g.hdr 36 2, dir := g.dir }

/-- Bytes of a context record. -/
def State.writeRecord (s : State) (p : Partition) (c w off : Nat) (bs : List Byte) : State :=
  match s.localPlace p (p.recordPa c w + off) with
  | .mem key => s.store key bs [] [] 0
  | _ => s

/-- A cluster takes the task of a new gang, or the saved one that returns to it: its record is RESTORING; what is
staged for it stands (R330, R366, R369). -/
def State.seat (s : State) (p : Partition) (j : Job) (g : Gang) (r c : Nat) : State :=
  let mine (x : Staged) : Bool := x.job == j.num && x.gi == g.gi
  if g.st == .saved then
    let key := 16 * c + g.world
    let t := (s.savedCl.get key .reset).task
    let s1 := s.mapCl c fun k => { k with task := { t with resident := true }, staged := k.staged.filter mine }
    if t.st == .saved then s1.writeRecord p c g.world 0 [3] else s1
  else s.mapCl c fun k => { k with task := g.task j r, staged := k.staged.filter mine }

/-- The candidate is admitted on its clusters, and its level's pointer moves (R328). -/
def State.admission (s : State) (p : Partition) (j : Job) (g : Gang) : State :=
  let l := s.clustersFor p g
  let level := s.levelOf j g
  let s1 := (List.range l.length).foldl (fun t r => t.seat p j g r (l.getD r 0)) s
  let s2 := s1.mapGang j.num g.gi fun x =>
    { x with st := .admitted, clusters := if g.st == .saved then x.clusters else l, resumed := g.st == .saved, bonus := level - j.base }
  s2.updPartition p fun p => { p with ptr := if h : level < 8 then p.ptr.set level ((j.ctx + 1) % 2 ^ 14) else p.ptr }

/-- Without a waiting candidate nothing is staged but for tasks that are about to start. -/
def State.unstage (s : State) (p : Partition) : State :=
  s.mapPartCls p fun k => { k with staged := k.staged.filter fun _ => k.task.st == .starting || k.task.st == .saved }

/-- SCHEDULER_CYCLE: entries, readiness, and one choice: the candidate of highest precedence is admitted if it fits, and
staged otherwise; none is admitted during a switch (R319, R325, R328, R330). -/
def execSchedulerCycle (part : Nat) (s : State) : Result :=
  .next <| match s.partAt part with
  | none => s
  | some p =>
    let s1 := (s.reworldAll p).advanceGangs p
    if p.switching.isSome then s1
    else
      match s1.first p with
      | none => s1.unstage p
      | some (j, g) => if s1.fits p g then (s1.admission p j g).unstage p else s1.stage p j g

/-- GANG_LEVEL_RAISE: a full millisecond of waiting raises a candidate's level, never above 7 (R326). -/
def execGangLevelRaise (job gi : Nat) (s : State) : Result :=
  .next <| match s.gang job gi with
  | some g =>
    if g.ready then s.mapGang job gi fun g => { g with bonus := Nat.max g.bonus ((s.now - g.readyAt) / 1000000) } else s
  | none => s

end Sys2Proof.Machine
end

