-- ==== Sys2Proof/Machine/Starts.lean ====
section
/-! DEFINITION. The start of a gang, the state of task start, and machine checks with the replay of a step (R30, R40, R95,
R331, R359, R360, R379, R384). -/

namespace Sys2Proof.Machine

/-! ### Task start (R30, R95, R144) -/

/-- A sequencer as at task start; what its earlier accesses were stays known, and SVSCR0 to 3 belong to no context (R308). -/
def Sequencer.anew (x : Sequencer) : Sequencer :=
  { Sequencer.reset with svscr := x.svscr, serial := x.serial, own := x.own, seen := x.seen,
                         past := x.past, obs := x.obs, acqAt := x.acqAt, floor := x.floor }

/-- The bins of a task: empty, with the spill areas of its directory (R24, R30, R135). -/
def binsOf (dir : List (Nat × Nat × Nat)) : Table Bin := dir.map fun e => (e.1, { Bin.reset with spillCap := 64 * e.2.1 })

/-- The cluster's state at task start; accumulators and memory tiles stand (R30, R360). -/
def Cluster.atStart (k : Cluster) : Cluster :=
  { k with
    seqC := k.seqC.anew, seqY := k.seqY.anew, seqM := k.seqM.anew, events := 0, evRel := [], evAt := [], rings := [], slots := [],
    fab := .reset, bins := binsOf k.task.dir, pushSlot := none, startQ := [], loads := [], blocked := 0, saving := false,
    copy := { CopyEngine.reset with writes := k.copy.writes, reads := k.copy.reads },
    mat := { Matrix.reset with acc := k.mat.acc, writes := k.mat.writes, reads := k.mat.reads } }

/-- The staged blocks that stand whole in scheduler slots are the slots' IDLE images; the others are discarded (R39, R330). -/
def Cluster.useStaged (k : Cluster) : Cluster :=
  let use (k : Cluster) (x : Prep) : Cluster :=
    if x.whole && k.sched x.slot && (k.slot x.slot).st == .empty && (k.holder x.blk).isNone then
      k.mapSlot x.slot fun y => { y with st := SlotState.idle, blk := x.blk, ver := hVer x.header, img := x.img, frames := x.frames }
    else k
  { ((k.staged.map (·.preps)).getD []).foldl use k with staged := none }

/-- An acquire of all classes by every sequencer and port of the cluster (R95). -/
def Cluster.acquireAll (k : Cluster) (ids : List Nat) (count : Nat) : Cluster :=
  { k.engAcquire ids with seqC := k.seqC.acquireAll k ids count, seqY := k.seqY.acquireAll k ids count,
                          seqM := k.seqM.acquireAll k ids count }

/-- An initial thread record: into its bin, or the start queue while there is no room (R331). -/
def Cluster.pushStart (k : Cluster) (r : Record) : Cluster :=
  let k1 := k.recordComes r
  match k1.enqueue r with
  | some k2 => k2
  | none => { k1 with startQ := k1.startQ ++ [r] }

/-- The general registers at task start: the arguments in s1 to s7 (R144, R331). -/
def startRegs (args : List Word) : Vector Word 32 :=
  Vector.ofFn fun i => if 1 ≤ i.val ∧ i.val ≤ 7 then args.getD (i.val - 1) 0 else 0

/-- The task of a cluster starts: its staged blocks are used, its accumulators are zero, its records in their bins, its
control sequencer at ENTRY, t is 8 and the point that of a task without a deadline (R30, R288, R331, R360, R375, R379). -/
def Cluster.start (k : Cluster) (args : List Word) (rs : List Record) (ids : List Nat) (count now n : Nat) : Cluster :=
  let pc := k.task.image + w64 k.task.entry
  let k1 := k.atStart.useStaged.acquireAll ids count
  let k2 : Cluster :=
    { k1 with
      seqC := { k1.seqC with regs := startRegs args, pc := pc, idle := false },
      mat := { k1.mat with acc := [] },
      task := { k1.task with st := .running, init := rs, stepClk := k1.clk, prevClk := 0 },
      power := ({ k1.power.move now n with thr := 8, short := false } : Power).restart now }
  let k3 := rs.foldl Cluster.pushStart k2
  { k3 with task := { k3.task with ckpt := k3.checkpoint pc } }

/-! ### GANG_START (R331) -/

/-- The initial thread records of ranks; a read that fails names its rank. -/
def State.startRecords (s : State) (p : Partition) (ctx thrp thrn : Nat) : List Nat → List (List Record) →
    Got (List (List Record))
  | [], acc => .ok s acc
  | r :: rest, acc =>
    if s.ctxHeld p ctx (thrp + 64 * (thrn * r)) (64 * thrn) then .wait s
    else
    match s.ctxRead p (p.who ctx) (thrp + 64 * (thrn * r)) (64 * thrn) with
    | .ok s1 b => s1.startRecords p ctx thrp thrn rest (acc ++ [(chunks 64 thrn b).map recordFrom])
    | .fail s1 c _ a => .fail s1 c r a
    | .wait s1 => .wait s1

/-- The arguments of a gang: s1 to s7. -/
def State.startArgs (s : State) (p : Partition) (ctx argp : Nat) : Got (List Word) :=
  if argp == 0 then .ok s []
  else if s.ctxHeld p ctx argp 56 then .wait s
  else
    match s.ctxRead p (p.who ctx) argp 56 with
    | .ok s1 b => .ok s1 ((List.range 7).map fun i => w64 (field b (8 * i) 8))
    | .fail s1 c _ a => .fail s1 c 0 a
    | .wait s1 => .wait s1

/-- A read of the start that fails: a miss is held, anything else ends the gang with BADARGS. -/
def State.startFails (s : State) (p : Partition) (j : Job) (gi cause rank va : Nat) : State :=
  if cause == cPAGE then s.holdFor p j.ctx va false else s.gangFails j.num gi 7 rank

/-- The point at task start: that of a task without a deadline, with t at 8, unless the die's budget holds it (R379, R380). -/
def State.startPoint (s : State) (c : Nat) : Nat :=
  let p := (s.cluster c).power
  ({ p with thr := 8 } : Power).hold (s.dieOver (c / 64)) (p.defPoint s.defn)

/-- All tasks of the gang start in one cycle. -/
def State.startGang (s : State) (j : Job) (g : Gang) (args : List Word) (recs : List (List Record)) : State :=
  let ids := s.links.moDone
  let one (t : State) (e : Nat × List Record) : State :=
    t.mapCl e.1 fun k => if k.task.st == .starting then k.start args e.2 ids s.counter s.now (s.startPoint e.1) else k
  ((g.clusters.zip recs).foldl one s).mapGang j.num g.gi fun x => { x with st := .resident, step := 0, stepStart := s.now }

/-- A gang that came onto its clusters during a switch is pre-empted with the others (R319). -/
def State.stopIfSwitching (s : State) (p : Partition) (job gi : Nat) : State :=
  if (s.part (64 * p.first)).switching.isSome then s.preemptGang job gi else s

/-- GANG_START (R331, R332). -/
def execGangStart (job gi : Nat) (s : State) : Result :=
  .next <| match s.job job, s.gang job gi with
  | some j, some g =>
    if g.st != .admitted || g.resumed then s
    else
      let p := s.partOfCtx j.ctx
      match s.startArgs p j.ctx g.argp.toNat with
      | .wait s1 => s1
      | .fail s1 c r a => s1.startFails p j gi c r a
      | .ok s1 args =>
        match s1.startRecords p j.ctx g.thrp.toNat g.thrn (List.range g.size) [] with
        | .wait s2 => s2
        | .fail s2 c r a => s2.startFails p j gi c r a
        | .ok s2 recs => (s2.startGang j g args recs).stopIfSwitching p job gi
  | _, _ => s

/-! ### Machine checks (R359, R360, R384) -/

/-- The step of a task begins again from its checkpoint, step 0 with its initial thread records: MCHK MARGIN is pending at
its pc (R360). -/
def Cluster.replay (k : Cluster) (x : Checkpoint) (step : Nat) (init : List Record) : Cluster :=
  let k1 := k.discardBins.atStart
  let k2 : Cluster :=
    { k1 with
      seqC := { k1.seqC with regs := x.regs, preds := x.preds, pc := x.pc, idle := false, mchk := some (1, w64 step) },
      task := { k1.task with flags := x.flags, arrived := false, abandoned := false, left := false, acks := [], preReq := [],
                             st := if k1.task.st == .preempting then .preempting else .running } }
  if step == 0 then init.foldl Cluster.pushStart k2 else k2

/-- A request whose answer no longer has a port to go to. -/
def MemReq.orphan (r : MemReq) (c : Nat) : MemReq :=
  if r.agent.cluster != c then r
  else
    match r.ret with
    | .port _ _ _ => { r with ret := .nowhere }
    | .portDone _ _ _ => { r with ret := .nowhere }
    | .portRead _ _ _ _ => { r with ret := .nowhere }
    | _ => r

/-- The same of a host-window request. -/
def HostReq.orphan (h : HostReq) (c : Nat) : HostReq :=
  match h.ret.asker with
  | some (cl, n) => if cl == c && 4 ≤ n then { h with ret := .nowhere } else h
  | none => h

/-- Issued accesses of a cluster's ports complete without them (R356). -/
def State.orphans (s : State) (c : Nat) : State :=
  let s1 : State := { s with
    reqs := s.reqs.map (·.orphan c), sheaves := s.sheaves.map fun h => { h with first := h.first.orphan c, second := h.second.orphan c },
    links := { s.links with yWait := s.links.yWait.map fun e => (e.1, e.2.orphan c), hostReqs := s.links.hostReqs.map (·.orphan c) } }
  s1.mapCl c fun k => { k with tileQ := k.tileQ.map fun e => (e.1, e.2.map (·.orphan c)) }

/-- The task's step can be replayed (R360). -/
def Task.replayable (t : Task) : Bool := !t.noReplay && (t.moves || t.st == .preempting)

/-- The floors a margin event has raised go to the root monitor (R384). -/
def State.marginEvent (s : State) (c : Nat) : State :=
  let s1 := s.mapPower c (·.marginEvent s.now)
  { s1 with boot := { s1.boot with almanacs := s1.boot.almanacs.set c ((s1.cluster c).power.planned.getD (s1.cluster c).power.almanac) } }

/-- The initial thread records of a cluster's task, read again; while they cannot be, as they were first read (R331, R360, log
entry 106). -/
def State.initAgain (s : State) (c : Nat) : State × List Record :=
  let t := (s.cluster c).task
  match s.gang t.job t.gi with
  | none => (s, t.init)
  | some g =>
    match s.startRecords (s.partOfCtx t.ctx) t.ctx g.thrp.toNat g.thrn [t.rank] [] with
    | .ok s1 [rs] => (s1, rs)
    | _ => (s, t.init)

/-- MACHINE_CHECK: an uncorrectable error: a margin event is replayed where the step has a checkpoint and no mark;
any other ends the task with MCHK and no trap (R359, R360, R384). -/
def execMachineCheck (cl : Nat) (residue : Bool) (s : State) : Result :=
  .next <|
    let k := s.cluster cl
    let margin := k.power.belowMargin s.now
    let s1 := if margin then s.marginEvent cl else s
    match k.task.ckpt with
    | some x =>
      if margin && k.task.resident && k.task.replayable then
        let step := ((s.gang k.task.job k.task.gi).map (·.step)).getD 0
        let (s2, init) := s1.initAgain cl
        (s2.orphans cl).mapCl cl (·.replay x step init)
      else s1.terminate cl 0xB cMCHK (if margin then 1 else if residue then 3 else 2)
    | none => s1.terminate cl 0xB cMCHK (if margin then 1 else if residue then 3 else 2)

end Sys2Proof.Machine
end

