-- ==== Sys2Proof/Machine/Clocks.lean ====
section
/-! DEFINITION. What passing clks count in a cluster: events, the deadlock count, watchdogs and clk classes (R24, R403,
R405, R406, R408). -/

namespace Sys2Proof.Machine

/-- R375: the clk is one in which the limiter lets no engine of the cluster begin work: at level t, all but the first t of
every 8 (log entry 107). -/
def Cluster.throttled (k : Cluster) : Bool := k.power.thr ≤ k.clk % 8

/-! ### Clk classes (R405; log entry 24) -/

/-- Digit elements and ports the slot configures. -/
def Slot.units (x : Slot) : List Nat := x.frames.filter fun f => fKind f == 1 || fKind f == 2

/-- A halt of the slot stands or is pending (R403). -/
def Cluster.slotHalts (k : Cluster) (i : Nat) : Bool := (k.slot i).halted || (k.slot i).haltPending

/-- A sequencer is halted, or will be at its next boundary. -/
def Sequencer.halts (x : Sequencer) : Bool := x.halted || x.haltWant

/-- The block of the record that a port holds is halted in its slot (R403). -/
def Cluster.binHalted (k : Cluster) (p : Port) : Bool :=
  match p.heldRec with
  | [] => false
  | r :: _ =>
    match k.blockOf r with
    | .inl b => ((k.holder b).map k.slotHalts).getD false
    | .inr _ => false

/-- The side of a ring that a port waits for is halted: who moved that side last, or another region's generator of that side
(R403; log entry 24). -/
def Cluster.ringFarHalts (k : Cluster) (q : PortAt) (g : Nat) : Bool :=
  let r := k.ring (agHnd g)
  let by_ := match if agRdir g then r.byC else r.byP with
    | some i => match seqOfNo i with | some x => (k.seq x).halts | none => k.slotHalts (i - 3)
    | none => false
  by_ || (List.range 4).any fun i => i != q.slot && k.slotHalts i && (k.slot i).frames.any fun f =>
    fKind f == 4 && agPat f == 3 && agHnd f == agHnd g && agRdir f != agRdir g

/-- The port waits only on a halted far end: a halted block's full bin, a ring whose other side is halted, or the FIFO of a
halted matrix sequencer (R403). -/
def Cluster.portHaltFar (k : Cluster) (q : PortAt) : Bool :=
  let p := k.port q.slot q.tile
  let ringWaits (g : Fin 2) : Bool := match k.ringGen q g.val with
    | some f => !p.slotIn[g] && !p.genEnd[g] && k.ringFarHalts q f
    | none => false
  k.binHalted p || ringWaits 0 || ringWaits 1 || (k.seqM.halts && p.drainOn)

/-- The operations of a port that emit on SX or VX. -/
def PortAt.emits (q : PortAt) : Bool := [1, 3, 7, 8, 9, 0x0A, 0x0B, 0x0C, 0x0D, 0x11, 0x12].contains q.opr

/-- The class of a configured element or port that has not fired, but for HALTFAR within its own region. -/
def Cluster.idleBase (k : Cluster) (cl i f : Nat) : Nat :=
  let pos := fAddr f % 64
  if fKind f == 1 then
    let n := fAddr f / 64
    let lacks := (deEnX f && !k.ready (elX i pos n)) || (deEnY f && !k.ready (elY i pos n)) || (deEnCo f && !k.ready (elCo i pos n))
    if k.canFire i pos n then (if k.runningSlot pos n != i then 7 else if k.throttled then 2 else 6)
    else if lacks then 5 else 6
  else
    let q : PortAt := ⟨cl, i, posTile pos, f⟩
    let p := k.port i q.tile
    if k.portHaltFar q then 3
    else if !p.readQ.isEmpty || 0 < p.reqs || (mtGlob f && k.misses.any (·.cls == 1)) then 4
    else if !p.outQ.isEmpty || !p.coQ.isEmpty || !p.heldRec.isEmpty || (q.emits && !k.ready q.out) then 5
    else 6

/-- The class: where the halt of its region is pending, the far ends of its channels are halted (R403, R405). -/
def Cluster.idleClass (k : Cluster) (cl i f : Nat) : Nat :=
  let c := k.idleBase cl i f
  if (c == 5 || c == 6) && k.slotHalts i then 3 else c

/-- n clks of one class. -/
def addClass (v : Vector Nat 8) (c n : Nat) : Vector Nat 8 := if h : c < 8 then v.set c (v[c] + n) else v

/-- A unit's n clks: those in which it fired or switched, and the rest of its class as it stands (R405). -/
def Slot.unitClks (x : Slot) (n idle f : Nat) (v : Vector Nat 8) : Vector Nat 8 :=
  let unit := unitKey (fKind f) (fAddr f)
  let fire := Nat.min n (x.fired.countP (· == (unit, 0)))
  let sw := Nat.min (n - fire) (x.fired.countP (· == (unit, 1)))
  addClass (addClass (addClass v 0 fire) 1 sw) idle (n - fire - sw)

/-- n clks of a slot in its period: every unit's clk has one class, and the watchdog restarts with a firing, holds in HALTFAR and
advances otherwise (R405, R406). -/
def Cluster.slotClks (k : Cluster) (cl i n : Nat) (x : Slot) : Slot :=
  if !k.inPeriod i then { x with fired := [] }
  else
    let fired := x.fired.any (·.2 == 0)
    let halt := x.units.any fun f => k.idleClass cl i f == 3
    { x with
      sums := x.units.foldl (fun v f => x.unitClks n (k.idleClass cl i f) f v) x.sums, fired := [],
      wdCount := if fired then (if halt then 0 else n - 1) else if halt then x.wdCount else x.wdCount + n }

/-! ### Clks of a cluster -/

/-- The count of R24: it holds under a halt, advances while every region is blocked on full bins, and restarts. -/
def Cluster.blockedAfter (k : Cluster) (n : Nat) : Nat :=
  if k.anyHalt then k.blocked else if k.task.resident && k.binsBlock then k.blocked + n else 0

/-- n clks pass in a cluster (R24, R403 to R408). -/
def Cluster.clocks (k : Cluster) (cl n : Nat) : Cluster :=
  let k1 := if k.task.resident then k.count 10 n else k
  { k1 with fab := k1.fab.crossings n, blocked := k.blockedAfter n, slots := k.slots.map (fun e => (e.1, k.slotClks cl e.1 n e.2)), clk := k.clk + n }

def State.clocks (s : State) (cl n : Nat) : State := s.mapCl cl (·.clocks cl n)

end Sys2Proof.Machine
end

