-- ==== Sys2Proof/Machine/Fetch.lean ====
section
/-! DEFINITION. What a sequencer does before an instruction acts: fetching its words and the registers that hold it
back (R107, R124, R125, R145, R157). -/

namespace Sys2Proof.Machine

/-! ### Fetch (R107, R157) -/

/-- The local window and the hole behind it hold no instructions, and the address space ends at bit 54 (R157). -/
def fetchProt (va : Nat) : Bool := 2 ^ 55 ≤ va || (winBase ≤ va && va < winEnd)

/-- n bytes of code within an aligned part of 8: one candidate, which no release or acquire orders; writes that have performed
at MO are seen (R93, R126). The failures are those of FETCH with their DETAIL, or BADPA where no memory backs the address
(R79, R157, R343). -/
def State.fetchPart (s : State) (c : Nat) (q : SeqId) (va n : Nat) : Got (List Byte) :=
  let w : Who := { s.seqWho c q with sub := 8 + seqNo q }
  let code (g : Got (List Byte × List RelInfo)) : Got (List Byte) :=
    match g with
    | .ok s1 x => .ok (s1.dropLines w.agent) x.1
    | .fail s1 cause d a => .fail s1 cause d a
    | .wait s1 => .wait s1
  if fetchProt va then .fail s cFETCH 3 va
  else
    match (s.cluster c).xlat w.asid va needX with
    | .ok pa e =>
      let s1 := s.mapCl c (·.touch e)
      match s.placeOf (s.part c) pa with
      | .mem key =>
        let x := s1.readAll s1.links.moDone [] (partsOf key n)
        .ok ((s1.countMiss c key).touchL2 key e.cls true) x.1
      | .host off => code (s1.readAt w (.host off) va n)
      | .remote _ => code (s1.readAt w (.remote pa) va n)
      | .unbacked => .fail s cBADPA 0 va
    | .perm => .fail s cFETCH 2 va
    | .miss =>
      if (s.cluster c).seqFailed w.asid va then .fail (s.mapCl c (·.takeFailed w.asid va)) cFETCH 1 va
      else .wait (s.mapCl c (·.seqMiss w.asid va))

/-- The bytes of the instruction at va: eight for F-X64, both words of one part where va is a multiple of 8; otherwise the second
word may fail by itself (R107, R125, R126). -/
def State.fetch (s : State) (c : Nat) (q : SeqId) (va : Nat) : Got (List Byte) :=
  let n := if va % 8 == 0 then 8 else 4
  match s.fetchPart c q va n with
  | .ok s1 bs =>
    if !isX64 (leNat (bs.take 4) / 2 ^ 26) then .ok s1 (bs.take 4)
    else if n == 8 then .ok s1 bs
    else
      match s1.fetchPart c q (va + 4) 4 with
      | .ok s2 b2 => .ok s2 (bs ++ b2)
      | .fail s2 cause d a => .fail s2 cause d a
      | .wait s2 => .wait s2
  | .fail s1 cause d a => .fail s1 cause d a
  | .wait s1 => .wait s1

/-! ### What holds an instruction back (R145) -/

/-- The general registers an instruction reads or writes. -/
def touched : Instr → List Reg
  | .add _ d a b | .sub _ d a b | .mul _ d a b | .mulh _ d a b | .mulhn _ d a b | .div _ d a b | .divn _ d a b |
    .rem _ d a b | .remn _ d a b | .and _ d a b | .or _ d a b | .xor _ d a b | .andn _ d a b | .shl _ d a b |
    .shr _ d a b | .sra _ d a b | .min _ d a b | .max _ d a b | .minn _ d a b | .maxn _ d a b | .amoAddW _ d a b _ |
    .amoAndW _ d a b _ | .amoOrW _ d a b _ | .amoXorW _ d a b _ | .amoMinW _ d a b _ | .amoMaxW _ d a b _ |
    .amoMinnW _ d a b _ | .amoMaxnW _ d a b _ | .amoSwapW _ d a b _ | .amoFaddRxW _ d a b _ | .amoAddD _ d a b _ |
    .amoAndD _ d a b _ | .amoOrD _ d a b _ | .amoXorD _ d a b _ | .amoMinD _ d a b _ | .amoMaxD _ d a b _ |
    .amoMinnD _ d a b _ | .amoMaxnD _ d a b _ | .amoSwapD _ d a b _ | .casW _ d a b _ | .casD _ d a b _ |
    .cfgLoad _ d a b | .cpy _ d a b _ | .cpyG _ d a b _ | .cpyS _ d a b _ | .cpyMx _ d a b _ | .cpyF _ d a b _ _ |
    .mxcShape _ d a b | .mxcOpa _ d a b _ _ | .mxcOpb _ d a b _ _ => [d, a, b]
  | .clz _ d a | .ctz _ d a | .popc _ d a | .addi _ d a _ | .andi _ d a _ | .ori _ d a _ | .xori _ d a _ |
    .shli _ d a _ | .shri _ d a _ | .srai _ d a _ | .bfx _ d a _ _ | .bfi _ d a _ _ | .jrl _ d a | .ldB _ d a _ |
    .ldH _ d a _ | .ldW _ d a _ | .ldBn _ d a _ | .ldHn _ d a _ | .ldWn _ d a _ | .ldD _ d a _ | .stB _ d a _ |
    .stH _ d a _ | .stW _ d a _ | .stD _ d a _ | .acqLd _ d a _ _ _ _ _ | .relSt _ d a _ _ _ _ | .spawn _ d a |
    .spawnC _ d a | .cfgStat _ d a | .binCnt _ d a => [d, a]
  | .movi _ d _ | .addpc _ d _ | .movs _ d _ | .loop _ d _ | .rstat _ d _ | .mfs _ d _ => [d]
  | .cmpEq _ _ a b | .cmpNe _ _ a b | .cmpLt _ _ a b | .cmpGe _ _ a b | .cmpLtn _ _ a b | .cmpGen _ _ a b |
    .cpyR _ a b _ _ | .cpyPl _ a b _ | .cpyFill _ a b _ | .mxcArm _ a b _ _ _ | .mmp _ a b _ |
    .mxcDrain _ a b _ _ _ _ _ => [a, b]
  | .cmpiEq _ _ a _ | .cmpiNe _ _ a _ | .cmpiLt _ _ a _ | .cmpiGe _ _ a _ | .cmpiLtn _ _ a _ | .cmpiGen _ _ a _ |
    .jr _ a | .pref _ _ a _ | .ringDef _ a _ | .rwaitF _ a _ _ _ | .rwaitE _ a _ _ _ | .radvP _ a _ _ _ |
    .radvC _ a _ _ _ | .stepBegin _ a | .stepProg _ a | .tlbiAsid _ a | .tlbiVa _ a | .tlbiVaAsid _ a | .cflush _ a |
    .cinv _ a | .fabGo _ a | .binPush _ a | .fabQuiet _ a | .mtsFlags _ a | .mtsReplaycnt _ a | .mtsCtxinv _ a |
    .mtsWsctl _ a | .mtsWsctlSwreq _ a | .mtsWtbl _ a | .fork _ a _ | .mts _ a _ | .cpyWait _ a _ |
    .mxcDrainD _ a _ _ _ => [a]
  | .brl _ _ => [31]
  | .ldp _ dh a _ | .stp _ dh a _ => [evenReg dh, oddReg dh, a]
  | .collRed _ dh a b _ _ _ _ _ | .collBcast _ dh a b _ _ _ _ => [evenReg dh, oddReg dh, a, b]
  | _ => []

/-- The long operations (R145). -/
def isLong : Instr → Bool
  | .div .. | .divn .. | .rem .. | .remn .. | .ldB .. | .ldH .. | .ldW .. | .ldBn .. | .ldHn .. | .ldWn .. | .ldD .. |
    .stB .. | .stH .. | .stW .. | .stD .. | .ldp .. | .stp .. | .amoAddW .. | .amoAndW .. | .amoOrW .. | .amoXorW .. |
    .amoMinW .. | .amoMaxW .. | .amoMinnW .. | .amoMaxnW .. | .amoSwapW .. | .amoFaddRxW .. | .amoAddD .. | .amoAndD .. |
    .amoOrD .. | .amoXorD .. | .amoMinD .. | .amoMaxD .. | .amoMinnD .. | .amoMaxnD .. | .amoSwapD .. | .casW .. |
    .casD .. | .acqLd .. | .relSt .. | .cflush .. | .cinv .. => true
  | _ => false

/-- Bytes of an instruction: eight in format F-X64 (R107, R111). -/
def instrBytes : Instr → Nat
  | .acqLd .. | .relSt .. | .ringDef .. | .rwaitF .. | .rwaitE .. | .radvP .. | .radvC .. | .rstat .. | .collRed .. |
    .collBcast .. | .cpy .. | .cpyF .. | .cpyR .. | .cpyG .. | .cpyS .. | .cpyMx .. | .cpyPl .. | .cpyFill .. |
    .cpyWait .. | .mxcShape .. | .mxcOpa .. | .mxcOpb .. | .mxcArm .. | .mma .. | .mmz .. | .mmp .. | .mxcDrain .. |
    .mxcDrainD .. => 8
  | _ => 4

/-- The sequencer an engine command belongs to (R123). -/
def ownSeq : Instr → Option SeqId
  | .cpy .. | .cpyF .. | .cpyR .. | .cpyG .. | .cpyS .. | .cpyMx .. | .cpyPl .. | .cpyFill .. | .cpyWait .. => some .copy
  | .mxcShape .. | .mxcOpa .. | .mxcOpb .. | .mxcArm .. | .mma .. | .mmz .. | .mmp .. | .mxcDrain .. | .mxcDrainD .. =>
    some .matrix
  | _ => none

/-- The instruction changes the pc by itself, to its own address perhaps. -/
def jumps : Instr → Bool
  | .br .. | .brl .. | .jr .. | .jrl .. | .loop .. => true
  | _ => false

/-- The destinations of an outstanding long operation. -/
def LongOp.dests (o : LongOp) : List Reg :=
  match o.kind with
  | .store _ | .storePair | .flush | .invalidate => []
  | .loadPair => [Fin.ofNat 32 o.dst, Fin.ofNat 32 (o.dst + 1)]
  | _ => [Fin.ofNat 32 o.dst]

/-- The classes in which an instruction, or an engine command or region it starts, accesses memory (R46, R126, R178, R182,
R218, R256). -/
def accessMask : Instr → Mask
  | .div .. | .divn .. | .rem .. | .remn .. | .cpyWait .. => 0
  | .ringDef .. | .spawn .. | .spawnC .. | .cfgLoad .. => maskC
  | .binPush .. => maskC ||| maskF
  | .fabGo .. => maskF
  | .collRed .. | .collBcast .. => 16
  | i =>
    (if isLong i then maskC else 0) |||
      match ownSeq i with
      | some .copy => maskC ||| maskY
      | some .matrix => maskM
      | _ => 0

/-- R178: an ACQ.LD that has not returned holds back the accesses its acquire covers. -/
def LongOp.holds (o : LongOp) (i : Instr) : Bool :=
  match o.acq with
  | some (m, _) => !o.isDone && m &&& accessMask i != 0
  | none => false

/-- R145, R108, R178: an instruction that executes waits for outstanding destinations it reads or writes, a long operation
for a place among eight, and an access for the acquires that cover it; one whose guard fails reads its guard alone. -/
def Sequencer.heldBack (x : Sequencer) (i : Instr) : Bool :=
  match i.guard with
  | some g =>
    (x.pred g.p != g.neg)
      && ((isLong i && 8 ≤ x.outstanding.length) || x.outstanding.any fun o => o.dests.any (touched i).contains || o.holds i)
  | none => false

end Sys2Proof.Machine
end

