-- ==== Sys2Proof/Machine/Arith.lean ====
section
/-! DEFINITION. The integer, bitfield, constant, compare and predicate instructions (R148 to R153). -/

namespace Sys2Proof.Machine

/-- MULH: bits 127:64 of the signed product (R148). -/
def mulHigh (x y : Word) : Word := ofInt64 (x.toInt * y.toInt / 2 ^ 64)

/-- MULHN: bits 127:64 of the unsigned product (R148). -/
def mulHighU (x y : Word) : Word := w64 (x.toNat * y.toNat / 2 ^ 64)

/-- DIV: signed, truncated towards zero; 0 for a zero divisor (R148). -/
def divS (x y : Word) : Word := if y = 0 then 0 else ofInt64 (x.toInt.tdiv y.toInt)

/-- DIVN: unsigned; 0 for a zero divisor (R148). -/
def divU (x y : Word) : Word := if y = 0 then 0 else w64 (x.toNat / y.toNat)

/-- REM: x − y × DIV(x, y) (R148). -/
def remS (x y : Word) : Word := x - y * divS x y

/-- REMN: x − y × DIVN(x, y) (R148). -/
def remU (x y : Word) : Word := x - y * divU x y

/-- CLZ: leading zero bits (R148). -/
def leadZeros (x : Word) : Word := w64 ((List.range 64).takeWhile fun i => !x.getLsbD (63 - i)).length

/-- CTZ: trailing zero bits (R148). -/
def trailZeros (x : Word) : Word := w64 ((List.range 64).takeWhile fun i => !x.getLsbD i).length

/-- POPC: one bits (R148). -/
def popCount (x : Word) : Word := w64 ((List.range 64).countP fun i => x.getLsbD i)

/-- BFX: width bits from pos, zero-extended (R150). -/
def bitExtract (x : Word) (pos width : Nat) : Word := w64 (x.toNat / 2 ^ pos % 2 ^ width)

/-- BFI: the low width bits of x in place of t's bits from pos (R150). -/
def bitInsert (t x : Word) (pos width : Nat) : Word :=
  w64 (t.toNat - t.toNat / 2 ^ pos % 2 ^ width * 2 ^ pos + x.toNat % 2 ^ width * 2 ^ pos)

/-- A division issued as a long operation: its result returns with LONG_OP_COMPLETE (R145, R148). -/
def State.issueAlu (s : State) (i : Instr) (d : Reg) (v : Word) : State :=
  s.mapMe fun x =>
    { x.skip 4 with serial := x.serial + 1,
                    outstanding := x.outstanding ++
                      [⟨i, x.pc, .alu, 0, 0, 0, d.val, none, none, .done v 0, x.serial, [], none⟩] }

/-- ADD (R148). -/
def execAdd (g : Guard) (d a b : Reg) (s : State) : Result :=
  guarded g 4 s fun s => s.put d ((s.me.reg a) + (s.me.reg b))

/-- SUB (R148). -/
def execSub (g : Guard) (d a b : Reg) (s : State) : Result :=
  guarded g 4 s fun s => s.put d ((s.me.reg a) - (s.me.reg b))

/-- MUL: the low 64 bits of the product (R148). -/
def execMul (g : Guard) (d a b : Reg) (s : State) : Result :=
  guarded g 4 s fun s => s.put d ((s.me.reg a) * (s.me.reg b))

/-- MULH (R148). -/
def execMulh (g : Guard) (d a b : Reg) (s : State) : Result :=
  guarded g 4 s fun s => s.put d (mulHigh (s.me.reg a) (s.me.reg b))

/-- MULHN (R148). -/
def execMulhn (g : Guard) (d a b : Reg) (s : State) : Result :=
  guarded g 4 s fun s => s.put d (mulHighU (s.me.reg a) (s.me.reg b))

/-- DIV: a long operation (R145, R148). -/
def execDiv (g : Guard) (d a b : Reg) (s : State) : Result :=
  guarded g 4 s fun s => s.issueAlu (.div g d a b) d (divS (s.me.reg a) (s.me.reg b))

/-- DIVN: a long operation (R145, R148). -/
def execDivn (g : Guard) (d a b : Reg) (s : State) : Result :=
  guarded g 4 s fun s => s.issueAlu (.divn g d a b) d (divU (s.me.reg a) (s.me.reg b))

/-- REM: a long operation (R145, R148). -/
def execRem (g : Guard) (d a b : Reg) (s : State) : Result :=
  guarded g 4 s fun s => s.issueAlu (.rem g d a b) d (remS (s.me.reg a) (s.me.reg b))

/-- REMN: a long operation (R145, R148). -/
def execRemn (g : Guard) (d a b : Reg) (s : State) : Result :=
  guarded g 4 s fun s => s.issueAlu (.remn g d a b) d (remU (s.me.reg a) (s.me.reg b))

/-- AND (R148). -/
def execAnd (g : Guard) (d a b : Reg) (s : State) : Result :=
  guarded g 4 s fun s => s.put d ((s.me.reg a) &&& (s.me.reg b))

/-- OR (R148). -/
def execOr (g : Guard) (d a b : Reg) (s : State) : Result :=
  guarded g 4 s fun s => s.put d ((s.me.reg a) ||| (s.me.reg b))

/-- XOR (R148). -/
def execXor (g : Guard) (d a b : Reg) (s : State) : Result :=
  guarded g 4 s fun s => s.put d ((s.me.reg a) ^^^ (s.me.reg b))

/-- ANDN (R148). -/
def execAndn (g : Guard) (d a b : Reg) (s : State) : Result :=
  guarded g 4 s fun s => s.put d ((s.me.reg a) &&& ~~~(s.me.reg b))

/-- SHL by y[5:0] (R148). -/
def execShl (g : Guard) (d a b : Reg) (s : State) : Result :=
  guarded g 4 s fun s => s.put d ((s.me.reg a) <<< ((s.me.reg b).toNat % 64))

/-- SHR by y[5:0] (R148). -/
def execShr (g : Guard) (d a b : Reg) (s : State) : Result :=
  guarded g 4 s fun s => s.put d ((s.me.reg a) >>> ((s.me.reg b).toNat % 64))

/-- SRA by y[5:0] (R148). -/
def execSra (g : Guard) (d a b : Reg) (s : State) : Result :=
  guarded g 4 s fun s => s.put d ((s.me.reg a).sshiftRight ((s.me.reg b).toNat % 64))

/-- MIN, signed (R148). -/
def execMin (g : Guard) (d a b : Reg) (s : State) : Result :=
  guarded g 4 s fun s => s.put d (if (s.me.reg a).sle (s.me.reg b) then (s.me.reg a) else (s.me.reg b))

/-- MAX, signed (R148). -/
def execMax (g : Guard) (d a b : Reg) (s : State) : Result :=
  guarded g 4 s fun s => s.put d (if (s.me.reg a).sle (s.me.reg b) then (s.me.reg b) else (s.me.reg a))

/-- MINN, unsigned (R148). -/
def execMinn (g : Guard) (d a b : Reg) (s : State) : Result :=
  guarded g 4 s fun s => s.put d (if (s.me.reg a).ule (s.me.reg b) then (s.me.reg a) else (s.me.reg b))

/-- MAXN, unsigned (R148). -/
def execMaxn (g : Guard) (d a b : Reg) (s : State) : Result :=
  guarded g 4 s fun s => s.put d (if (s.me.reg a).ule (s.me.reg b) then (s.me.reg b) else (s.me.reg a))

/-- CLZ (R148). -/
def execClz (g : Guard) (d a : Reg) (s : State) : Result :=
  guarded g 4 s fun s => s.put d (leadZeros (s.me.reg a))

/-- CTZ (R148). -/
def execCtz (g : Guard) (d a : Reg) (s : State) : Result :=
  guarded g 4 s fun s => s.put d (trailZeros (s.me.reg a))

/-- POPC (R148). -/
def execPopc (g : Guard) (d a : Reg) (s : State) : Result :=
  guarded g 4 s fun s => s.put d (popCount (s.me.reg a))

/-- ADDI (R149). -/
def execAddi (g : Guard) (d a : Reg) (imm : BitVec 12) (s : State) : Result :=
  guarded g 4 s fun s => s.put d (s.me.reg a + simm12 imm)

/-- ANDI (R149). -/
def execAndi (g : Guard) (d a : Reg) (imm : BitVec 12) (s : State) : Result :=
  guarded g 4 s fun s => s.put d (s.me.reg a &&& zimm12 imm)

/-- ORI (R149). -/
def execOri (g : Guard) (d a : Reg) (imm : BitVec 12) (s : State) : Result :=
  guarded g 4 s fun s => s.put d (s.me.reg a ||| zimm12 imm)

/-- XORI (R149). -/
def execXori (g : Guard) (d a : Reg) (imm : BitVec 12) (s : State) : Result :=
  guarded g 4 s fun s => s.put d (s.me.reg a ^^^ zimm12 imm)

/-- SHLI (R149). -/
def execShli (g : Guard) (d a : Reg) (n : Fin 64) (s : State) : Result :=
  guarded g 4 s fun s => s.put d (s.me.reg a <<< n.val)

/-- SHRI (R149). -/
def execShri (g : Guard) (d a : Reg) (n : Fin 64) (s : State) : Result :=
  guarded g 4 s fun s => s.put d (s.me.reg a >>> n.val)

/-- SRAI (R149). -/
def execSrai (g : Guard) (d a : Reg) (n : Fin 64) (s : State) : Result :=
  guarded g 4 s fun s => s.put d ((s.me.reg a).sshiftRight n.val)

/-- BFX (R150). -/
def execBfx (g : Guard) (d a : Reg) (pos wm1 : Fin 64) (s : State) : Result :=
  guarded g 4 s fun s => s.put d (bitExtract (s.me.reg a) pos.val (wm1.val + 1))

/-- BFI (R150). -/
def execBfi (g : Guard) (d a : Reg) (pos wm1 : Fin 64) (s : State) : Result :=
  guarded g 4 s fun s => s.put d (bitInsert (s.me.reg d) (s.me.reg a) pos.val (wm1.val + 1))

/-- MOVI (R151). -/
def execMovi (g : Guard) (d : Reg) (imm : BitVec 17) (s : State) : Result :=
  guarded g 4 s fun s => s.put d (simm17 imm)

/-- MOVS (R151). -/
def execMovs (g : Guard) (d : Reg) (imm : BitVec 16) (s : State) : Result :=
  guarded g 4 s fun s => s.put d (s.me.reg d <<< 16 ||| imm.zeroExtend 64)

/-- ADDPC (R151). -/
def execAddpc (g : Guard) (d : Reg) (imm : BitVec 17) (s : State) : Result :=
  guarded g 4 s fun s => s.put d (rel17 s.me.pc imm)

/-- CMP.EQ (R152). -/
def execCmpEq (g : Guard) (pd : PReg) (a b : Reg) (s : State) : Result :=
  guarded g 4 s fun s => s.putPred pd (ccEq (s.me.reg a) (s.me.reg b))

/-- CMP.NE (R152). -/
def execCmpNe (g : Guard) (pd : PReg) (a b : Reg) (s : State) : Result :=
  guarded g 4 s fun s => s.putPred pd (ccNe (s.me.reg a) (s.me.reg b))

/-- CMP.LT (R152). -/
def execCmpLt (g : Guard) (pd : PReg) (a b : Reg) (s : State) : Result :=
  guarded g 4 s fun s => s.putPred pd (ccLt (s.me.reg a) (s.me.reg b))

/-- CMP.GE (R152). -/
def execCmpGe (g : Guard) (pd : PReg) (a b : Reg) (s : State) : Result :=
  guarded g 4 s fun s => s.putPred pd (ccGe (s.me.reg a) (s.me.reg b))

/-- CMP.LTN (R152). -/
def execCmpLtn (g : Guard) (pd : PReg) (a b : Reg) (s : State) : Result :=
  guarded g 4 s fun s => s.putPred pd (ccLtn (s.me.reg a) (s.me.reg b))

/-- CMP.GEN (R152). -/
def execCmpGen (g : Guard) (pd : PReg) (a b : Reg) (s : State) : Result :=
  guarded g 4 s fun s => s.putPred pd (ccGen (s.me.reg a) (s.me.reg b))

/-- CMPI.EQ (R152). -/
def execCmpiEq (g : Guard) (pd : PReg) (a : Reg) (imm : BitVec 12) (s : State) : Result :=
  guarded g 4 s fun s => s.putPred pd (ccEq (s.me.reg a) (simm12 imm))

/-- CMPI.NE (R152). -/
def execCmpiNe (g : Guard) (pd : PReg) (a : Reg) (imm : BitVec 12) (s : State) : Result :=
  guarded g 4 s fun s => s.putPred pd (ccNe (s.me.reg a) (simm12 imm))

/-- CMPI.LT (R152). -/
def execCmpiLt (g : Guard) (pd : PReg) (a : Reg) (imm : BitVec 12) (s : State) : Result :=
  guarded g 4 s fun s => s.putPred pd (ccLt (s.me.reg a) (simm12 imm))

/-- CMPI.GE (R152). -/
def execCmpiGe (g : Guard) (pd : PReg) (a : Reg) (imm : BitVec 12) (s : State) : Result :=
  guarded g 4 s fun s => s.putPred pd (ccGe (s.me.reg a) (simm12 imm))

/-- CMPI.LTN (R152). -/
def execCmpiLtn (g : Guard) (pd : PReg) (a : Reg) (imm : BitVec 12) (s : State) : Result :=
  guarded g 4 s fun s => s.putPred pd (ccLtn (s.me.reg a) (zimm12 imm))

/-- CMPI.GEN (R152). -/
def execCmpiGen (g : Guard) (pd : PReg) (a : Reg) (imm : BitVec 12) (s : State) : Result :=
  guarded g 4 s fun s => s.putPred pd (ccGen (s.me.reg a) (zimm12 imm))

/-- PAND (R153). -/
def execPand (g : Guard) (pd pa pb : PReg) (s : State) : Result :=
  guarded g 4 s fun s => s.putPred pd (s.me.pred pa && s.me.pred pb)

/-- POR (R153). -/
def execPor (g : Guard) (pd pa pb : PReg) (s : State) : Result :=
  guarded g 4 s fun s => s.putPred pd (s.me.pred pa || s.me.pred pb)

/-- PXOR (R153). -/
def execPxor (g : Guard) (pd pa pb : PReg) (s : State) : Result :=
  guarded g 4 s fun s => s.putPred pd (s.me.pred pa != s.me.pred pb)

/-- PNOT (R153). -/
def execPnot (g : Guard) (pd pa : PReg) (s : State) : Result :=
  guarded g 4 s fun s => s.putPred pd (!s.me.pred pa)

/-- PMOV (R153). -/
def execPmov (g : Guard) (pd pa : PReg) (s : State) : Result :=
  guarded g 4 s fun s => s.putPred pd (s.me.pred pa)

end Sys2Proof.Machine
end

