-- ==== Sys2Proof/Machine/Control.lean ====
section
/-! DEFINITION. Branches, jumps, NOP and LOOP (R154 to R156). A target outside the address space or without
execute permission raises FETCH at the target, when it is fetched (R157). -/

namespace Sys2Proof.Machine

/-- BR (R154). -/
def execBr (g : Guard) (off : BitVec 22) (s : State) : Result :=
  guarded g 4 s fun s => s.mapMe fun x => { x with pc := rel22 x.pc off }

/-- BRL: s31 := pc + 4, then as BR (R154). -/
def execBrl (g : Guard) (off : BitVec 22) (s : State) : Result :=
  guarded g 4 s fun s => s.mapMe fun x => { x.setReg 31 (x.pc + 4) with pc := rel22 x.pc off }

/-- JR (R155). -/
def execJr (g : Guard) (a : Reg) (s : State) : Result :=
  guarded g 4 s fun s =>
    let t := s.me.reg a
    if misaligned4 t then s.trap cALIGN 0 t else s.mapMe fun x => { x with pc := t }

/-- JRL: the target is read before d is written (R155). -/
def execJrl (g : Guard) (d a : Reg) (s : State) : Result :=
  guarded g 4 s fun s =>
    let t := s.me.reg a
    if misaligned4 t then s.trap cALIGN 0 t else s.mapMe fun x => { x.setReg d (x.pc + 4) with pc := t }

/-- NOP (R155). -/
def execNop (g : Guard) (s : State) : Result :=
  guarded g 4 s fun s => s.skip 4

/-- LOOP (R156). -/
def execLoop (g : Guard) (d : Reg) (imm : BitVec 17) (s : State) : Result :=
  guarded g 4 s fun s => s.mapMe fun x =>
    let n := x.reg d - 1
    { x.setReg d n with pc := if n = 0 then x.pc + 4 else rel17 x.pc imm }

end Sys2Proof.Machine
end

