-- ==== Sys2Proof/Machine/Preempt.lean ====
section
/-! DEFINITION. Pre-emption: the engines' stops, the context record, the limit, and resumption (R188, R361 to R370, R403). -/

namespace Sys2Proof.Machine

/-! ### Stops (R362) -/

/-- Accesses of a class of the cluster's task have neither performed at MO nor returned: a write of the host window performs there
when it is issued (R93). -/
def State.classOut (s : State) (c cls : Nat) : Bool :=
  let by_ (a : Agent) : Bool := a.isOf c && a.cls == cls
  let mine (r : MemReq) : Bool := by_ r.agent
  s.reqs.any mine || s.links.yWait.any (fun e => mine e.2) || s.sheaves.any (fun h => mine h.first || mine h.second)
    || (s.cluster c).tileQ.any (fun e => e.2.any mine)
    || s.links.hostReqs.any fun h => by_ h.agent && (!h.kind.writes || h.needAts)

/-- The markers that a waiting instruction is owed (R97). -/
def WaitKind.markers : WaitKind → List (Nat × Nat)
  | .release r _ => r.markers
  | .owed ms => ms
  | .rdv _ _ r => r.markers
  | _ => []

/-- The sequencer's operations stand: none is with memory, and every flush marker has come back. -/
def Sequencer.stands (x : Sequencer) : Bool :=
  !x.outstanding.any (·.isSent) && x.waits.all (·.kind.markers.isEmpty)
    && x.unperformed.all fun o => match o.rel with | some r => r.markers.isEmpty | none => true

/-- A drain into the fabric has still to end its row. -/
def Cluster.inRow (k : Cluster) (c : Nat) : Bool :=
  match k.mat.cur with
  | some r =>
    match r.cmd.op with
    | .drainD tile slot _ _ => r.midRow && !k.drainOver c r tile slot
    | _ => false
  | none => false

/-- No slot is loading or running, and none drains that is not halted: a halted slot counts as drained (R362, R403). -/
def Cluster.fabricStands (k : Cluster) : Bool :=
  k.loads.isEmpty && (List.range 4).all fun i =>
    match (k.slot i).st with
    | .loading => false
    | .running => (k.slot i).halted
    | .draining => (k.slot i).halted
    | _ => true

/-- Engine e of the cluster has reached its stop: 0 to 2 the sequencers, 3 the copy engine, 4 the matrix array, 5 the
fabric, 6 the collective unit. The copy engine and the matrix array stop between two runs, k-blocks, planes or rows; an access that
is held keeps its run in progress (R343, R362). -/
def State.engineStops (s : State) (c e : Nat) : Bool :=
  let k := s.cluster c
  let seqAt (q : SeqId) : Bool := (k.seq q).stands && !s.classOut c 0
  match e with
  | 0 => seqAt .control && k.task.flush.isEmpty
  | 1 => seqAt .copy
  | 2 => seqAt .matrix
  | 3 => !s.classOut c 2 && k.copy.begun.all (!·.going)
  | 4 => !s.classOut c 3 && k.mat.cur.all (!·.going) && !k.inRow c
  | 5 => k.fabricStands && !s.classOut c 1
  | 6 => true
  | _ => false

/-- A sequencer stops: results that stand ready are written, and its replay queue is frozen, with the instruction whose record read
had been sent; a wait is made again but for what is never done twice (R188, R351, R362). -/
def State.freeze (s : State) (c : Nat) (q : SeqId) : State :=
  let b := s.boundary c q
  let still (x : Sequencer) : Sequencer :=
    let y := x.settle
    { y with waits := dropWaits y.waits, outstanding := y.outstanding ++ b.2, pc := b.1,
             resume := if b.2.isEmpty then y.resume else none }
  (s.dropAsks ⟨c, 0, seqNo q⟩).mapSeq c q still

/-- The engine begins nothing new from the request on. -/
def Cluster.stopEngine (k : Cluster) (e : Nat) : Cluster :=
  match e with
  | 3 => { k with copy := { k.copy with stopped := true } }
  | 4 => { k with mat := { k.mat with stopped := true } }
  | _ => k

/-- The acknowledgement of an engine that has stopped. -/
def State.ack (s : State) (c e : Nat) : State :=
  let s1 := s.mapTask c fun t => { t with acks := e :: t.acks }
  match seqOfNo e with
  | some q => s1.freeze c q
  | none => s1

/-- ENGINE_PREEMPT_STOP (R362). -/
def execEnginePreemptStop (cl engine : Nat) (s : State) : Result :=
  .next <|
    let k := s.cluster cl
    if k.task.st != .preempting || k.task.acks.contains engine then s
    else
      let s1 := s.setCl cl (k.stopEngine engine)
      if s1.engineStops cl engine then s1.ack cl engine else s1

/-! ### The context record (R365 to R368) -/

/-- Bytes of a structure placed at rising offsets, zero between and after, n in all. -/
def layout (n : Nat) (l : List (Nat × List Byte)) : List Byte :=
  let put (acc : List Byte) (e : Nat × List Byte) : List Byte := acc ++ List.replicate (e.1 - acc.length) 0 ++ e.2
  let all := l.foldl put []
  (all ++ List.replicate (n - all.length) 0).take n

/-- A replay entry of 64 bytes; the head names its fault (R368). -/
def LongOp.entry (o : LongOp) (head : Bool) : List Byte :=
  let (cause, detail) : Nat × Nat := match o.phase with | .faulted c d _ => if head then (c, d) else (0, 0) | _ => (0, 0)
  layout 64 [(0, leBytes 8 (encodeNat o.ins)), (8, toBytes 8 o.pc), (16, toBytes 8 o.ea), (24, toBytes 8 o.d1),
    (32, toBytes 8 o.d2), (40, leBytes 1 o.dst), (41, leBytes 1 cause), (42, leBytes 1 detail)]

/-- Up to nine replay entries. -/
def entriesOf (l : List LongOp) : List Byte := ((l.take 9).zipIdx.map fun e => e.1.entry (e.2 == 0)).flatten

/-- The replay entries of a sequencer: those frozen now, or its frame's while it is in a handler. -/
def Sequencer.entries (x : Sequencer) : List LongOp := if x.inProg || x.inSup then x.frame.replay else x.outstanding

/-- The four words of a frame. -/
def Frame.bytes (f : Frame) (n : Nat) : List Byte := toBytes 8 f.pc ++ toBytes 8 f.cause ++ toBytes 8 f.arg ++ leBytes 8 n

/-- The pending causes of R368. -/
def Sequencer.pendingBits (x : Sequencer) : Nat :=
  (if x.engFaults.isEmpty then 0 else 2 ^ 0x10) + (if x.dlrisk.isSome then 2 ^ 0x11 else 0) + (if x.engPage then 2 ^ 0x12 else 0)
    + (if x.mchk.isSome then 2 ^ 0x13 else 0)

/-- A sequencer area of 2 KiB (R368). -/
def Sequencer.area (x : Sequencer) : List Byte :=
  let sh := x.shadow.getD .reset
  layout 2048
    [(0, ((List.range 32).map fun i => toBytes 8 (x.reg (Fin.ofNat 32 i))).flatten),
     (0x100, leBytes 8 ((List.range 8).foldl (fun acc i => acc + if x.pred (Fin.ofNat 8 i) then 2 ^ i else 0) 0)),
     (0x108, toBytes 8 x.pc), (0x110, toBytes 8 x.pstate), (0x118, x.frame.bytes x.entries.length),
     (0x138, leBytes 8 (x.idle.toNat + 2 * x.inProg.toNat + 4 * x.inSup.toNat + 8 * x.shadow.isSome.toNat)),
     (0x140, leBytes 8 x.pendingBits), (0x180, sh.bytes sh.replay.length), (0x200, entriesOf x.entries),
     (0x440, entriesOf sh.replay)]

/-- A ring handle of 64 bytes (R367, R181). -/
def Ring.bytes (r : Ring) : List Byte :=
  layout 64 [(0, leBytes 4 (if r.defined then r.tmask else 0)), (4, leBytes 2 r.nslot), (6, leBytes 2 r.slotu),
    (8, leBytes 2 r.base), (10, leBytes 2 r.init), (16, leBytes 8 r.p), (24, leBytes 8 r.c),
    (32, leBytes 1 (r.defined.toNat + 2 * r.ended.toNat))]

/-- The header (R367). -/
def Task.header (t : Task) (state now : Nat) : List Byte :=
  layout 64 [(0, leBytes 1 state), (2, leBytes 2 t.ctx), (4, leBytes 1 t.world), (6, leBytes 6 t.job), (12, leBytes 1 t.gi),
    (14, leBytes 2 t.rank), (16, leBytes 2 t.n), (24, leBytes 8 (now - t.tReq))]

/-- Memory with len bytes from base up replaced by those of another, whose addresses count from 0. -/
def Memory.overlay (m : Memory) (base len : Nat) (src : Memory) : Memory :=
  m.filter (fun e => e.1 < base) ++ ((src.filter fun e => e.1 < len).map fun e => (base + e.1, e.2))
    ++ m.filter fun e => base + len ≤ e.1

/-- Every area of the record but the header, and the memory tiles (R363, R367); the internal area, of each implementation's
own form, is left as it is (log entry 39). -/
def Cluster.recordAreas (k : Cluster) (m : Memory) (base : Nat) : Memory :=
  let m0 := m.overlay (base + 0x10000) 0x40000 []
  let m1 := m0.write (base + 0x40) (toBytes 8 k.task.flags)
  let m2 := m1.write (base + 0x1000) (k.seqC.area ++ k.seqY.area ++ k.seqM.area)
  let m3 := m2.write (base + 0x3000) (toBytes 8 k.events)
  let m4 := m3.write (base + 0x3040) ((List.range 16).map fun h => (k.ring h).bytes).flatten
  let m5 := k.mat.acc.foldl (fun t e => t.write (base + 0x10000 + 4 * e.1) (leBytes 4 e.2.toNat)) m4
  m5.overlay (base + 0x100000) (2 ^ 21) k.tiles

/-- PREEMPT_SAVE: with every acknowledgement held, the record is written but for its header (R363). -/
def execPreemptSave (cl : Nat) (s : State) : Result :=
  .next <|
    let k := s.cluster cl
    if k.task.st != .preempting || k.saving || !(List.range 7).all k.task.acks.contains then s
    else
      let base := (s.part cl).recordKey cl k.task.world
      { s.setCl cl { k with saving := true } with
        mem := k.recordAreas s.mem base, hist := s.hist.filter (!·.overlaps base (2 ^ 22)) }

/-- The cluster without its task; SHORT goes with it (R381, R387). -/
def Cluster.vacate (k : Cluster) : Cluster :=
  { k.atStart with task := .reset, misses := [], power := { k.power with short := false }, usedHost := false }

/-- The task of a cluster is kept for its return, and the cluster is free. -/
def State.park (s : State) (c : Nat) : State :=
  let k := s.cluster c
  let kept : Cluster := { k with task := { k.task with st := .saved, resident := false }, saving := false }
  { s.setCl c k.vacate with savedCl := s.savedCl.set (16 * c + k.task.world) kept }

/-- PREEMPT_SAVE_DONE: the header is written SAVED and the cluster is free (R363); its counts have been forwarded
(R409). -/
def execPreemptSaveDone (cl : Nat) (s : State) : Result :=
  .next <|
    let k := s.cluster cl
    if !k.saving || k.task.st != .preempting then s
    else
      let s := s.forwardCounts cl
      let key := (s.part cl).recordKey cl k.task.world
      ((s.overwrite key (k.task.header 2 s.now)).park cl).gangSaved k.task.job k.task.gi

/-! ### The limit (R364) -/

/-- A task saved already is terminated with its gang: its record is free (R356, R364). -/
def State.dropSaved (s : State) (p : Partition) (job gi w c : Nat) : State :=
  let key := 16 * c + w
  if !s.savedCl.any (·.1 == key) then s
  else
    let k := s.savedCl.get key .reset
    if k.task.job != job || k.task.gi != gi then s
    else
      let t := (k.fail 0xA 0 0).task
      let s1 := ({ s with savedCl := s.savedCl.drop key } : State).overwrite (p.recordKey c w) [0]
      (s1.mapGang job gi (·.absorb t)).rankEnds job gi t.rank

/-- PREEMPT_LIMIT_EXPIRY: not every acknowledgement has come within PLIM µs, or 200: the gang is terminated (R364). -/
def execPreemptLimitExpiry (job gi : Nat) (s : State) : Result :=
  .next <| match s.job job, s.gang job gi with
  | some j, some g =>
    let p := s.partOfCtx j.ctx
    let plim := s.ctxField j.ctx 12 4
    let late := (s.seats job g).any fun c =>
      let t := (s.cluster c).task
      t.st == .preempting && !(List.range 7).all t.acks.contains
    if g.st != .preempting || !late || s.now - g.preAt < 1000 * (if plim == 0 then 200 else plim) then s
    else
      let s1 := g.clusters.foldl (fun t c => t.dropSaved p job gi g.world c) s
      let s2 := g.clusters.foldl (fun t c => t.mapCl c fun k => if k.task.job == job && k.task.gi == gi then { k with saving := false } else k) s1
      (s2.terminateGang job gi 0xA 0 0).mapGang job gi fun g => { g with st := .resident }
  | _, _ => s

/-! ### Resumption (R369, R370) -/

/-- A sequencer's replay entries, frozen by now, are injected again, as at RETR (R369, R402). -/
def Sequencer.thaw (x : Sequencer) : Sequencer :=
  let y := x.reinject x.outstanding x.pc
  { y with resume := y.resume.or x.resume }

/-- A slot as it comes back: scheduler slots EMPTY; a pinned region that ran or drained begins a new period with its
ports' positions (R369, R403). -/
def Cluster.thawSlot (k : Cluster) (i : Nat) : Cluster :=
  let x := k.slot i
  if k.sched i then k.mapSlot i fun x => { Slot.reset with lasterr := x.lasterr, halted := x.halted }
  else if !x.keep || x.halted then k
  else if x.wasRunning then (k.startSlot i).mapSlot i fun x => { x with wasRunning := false }
  else (k.startSlot i).mapSlot i fun x => { x with st := SlotState.draining }

/-- Times counted in clk of the cluster, moved by the clk run meanwhile. -/
def Cluster.shiftClk (k : Cluster) (d : Nat) : Cluster :=
  { k with task := { k.task with stepClk := k.task.stepClk + d },
           bins := k.bins.map fun e => (e.1, { e.2 with since := e.2.since + d, newest := e.2.newest + d }),
           slots := k.slots.map fun e => (e.1, { e.2 with startClk := e.2.startClk + d, readyClk := e.2.readyClk + d }) }

/-- The state of a task after EXIT, EXIT.A or neither. -/
def Cluster.runState (k : Cluster) : TaskState :=
  if k.task.left then (if k.task.abandoned then .abandoning else .exiting) else .running

/-- The saved task's state in its cluster, whose clock, rail, TLB and counters are its own. -/
def Cluster.restore (k x : Cluster) (ids : List Nat) (count now n : Nat) : Cluster :=
  let y := x.shiftClk (k.clk - x.clk)
  let k1 : Cluster :=
    { k with
      task := { y.task with resident := true, st := x.runState, acks := [] }, seqC := { y.seqC.thaw with svscr := k.seqC.svscr },
      seqY := { y.seqY.thaw with svscr := k.seqY.svscr }, seqM := { y.seqM.thaw with svscr := k.seqM.svscr }, events := y.events, evRel := y.evRel, evAt := [], rings := y.rings, tiles := y.tiles, slots := y.slots, fab := y.fab,
      bins := y.bins, pushSlot := y.pushSlot, startQ := y.startQ, copy := { y.copy with stopped := false },
      mat := { y.mat with stopped := false }, fWrites := y.fWrites, fSeen := y.fSeen, blocked := y.blocked, usedHost := y.usedHost,
      power := ({ k.power.move now n with short := x.power.short } : Power).restart now }
  (((List.range 4).foldl Cluster.thawSlot k1).useStaged).acquireAll ids count

/-- A block held in a pinned slot is read again from its image; while that cannot be read, or is no longer the image of the
block, its frames stand (R369, log entry 105). -/
def State.reloadSlot (s : State) (p : Partition) (ctx i : Nat) (x : Slot) : State × Slot :=
  if x.frames.isEmpty then (s, x)
  else
    let n := x.frames.length + 1
    let begin_ : Prep := ⟨i, x.blk, x.img, 0, 0, 0xFFFFFFFF#32, [], false⟩
    match s.ctxRead p (p.who ctx) x.img.toNat (32 * n) with
    | .ok s1 bs =>
      match (chunks 32 n bs).foldl (fun y b => y.bind fun z => z.frame false (leNat b) b) (some begin_) with
      | some y => (s1.dropLines (p.who ctx).agent, if y.whole then { x with ver := hVer y.header, frames := y.frames } else x)
      | none => (s1.dropLines (p.who ctx).agent, x)
    | .fail s1 _ _ _ => (s1, x)
    | .wait s1 => (s1, x)

/-- The pinned slots of a saved task with their blocks read again (R369). -/
def State.reloadPinned (s : State) (p : Partition) (x : Cluster) : State × Cluster :=
  (List.range 4).foldl (fun acc i =>
    if acc.2.sched i then acc
    else
      let (s1, y) := acc.1.reloadSlot p acc.2.task.ctx i (acc.2.slot i)
      (s1, acc.2.mapSlot i fun _ => y)) (s, x)

/-- One cluster of a gang that resumes; its record is free. What acquires of class H have found here stays found (R91), and
a STEP.END or collective that is over has its results (R188). -/
def State.restoreTask (s : State) (p : Partition) (g : Gang) (ids : List Nat) (c : Nat) : State :=
  let key := 16 * c + g.world
  let (s0, x) := s.reloadPinned p (s.savedCl.get key .reset)
  let s1 := { s0 with savedCl := s.savedCl.drop key }
  let k := s1.cluster c
  if k.task.st == .saved then
    let n := k.power.hold (s.dieOver (c / 64)) (if g.deadline.isSome then k.power.top else k.power.defPoint s.defn)
    let heard := k.seqC.seenBy 5 ++ k.seqY.seenBy 5 ++ k.seqM.seenBy 5
    let s2 : State := { s1.setCl c (k.restore x ids s.counter s.now n) with
      hist := s1.hist.filter (!·.overlaps (2 ^ 60 + 2 ^ 21 * c) (2 ^ 21)), links := { s1.links with hView := union s1.links.hView heard } }
    (((s2.overwrite (p.recordKey c g.world) [0]).landed c .control).landed c .copy).landed c .matrix
  else s1

/-- GANG_RESUME: every task of the gang is restored and resumes in one clk; the time since the request does not count
against the step's deadline (R363, R369, R370, R379). -/
def execGangResume (job gi : Nat) (s : State) : Result :=
  .next <| match s.job job, s.gang job gi with
  | some j, some g =>
    if g.st != .admitted || !g.resumed then s
    else
      let p := s.partOfCtx j.ctx
      let ids := s.links.moDone
      let d := s.now - g.preAt
      ((g.held.foldl (fun t c => t.restoreTask p g ids c) s).mapGang job gi fun x =>
        { x with st := .resident, resumed := false, deadline := x.deadline.map (· + d), stepStart := x.stepStart + d }).stopIfSwitching
          p job gi
  | _, _ => s

end Sys2Proof.Machine
end

