-- ==== Sys2Proof/Machine/Links.lean ====
section
/-! DEFINITION. The links: inbound accesses, the host window's translations, the Granary's ports and the packets of the
domain (R79, R93, R97, R388 to R398, R414). -/

namespace Sys2Proof.Machine

/-! ### The host link (R388, R391, R392, R414) -/

/-- The aperture of BAR 4. -/
def apertureSize : Nat := 2 ^ 46

def State.unsupported (s : State) : State := { s with links := { s.links with unsupported := s.links.unsupported + 1 } }

/-- INBOUND_WRITE: translated and performed, after the requester's earlier posted writes; one that fails is discarded (R389, R391,
R392). -/
def execInboundWrite (fn : Nat) (pasid : Option Nat) (off : Nat) (bytes : List Byte) (requester : Nat) (s : State) :
    Result :=
  .next <|
    let p := s.partOfFn fn
    let ctx := 64 * fn + pasid.getD 0
    if 256 ≤ fn || 64 ≤ pasid.getD 0 then s.unsupported
    else if apertureSize < off + bytes.length || s.boot.st != 5 || s.inboundOut requester then s
    else
      match s.ctxTarget p ctx off bytes.length needW with
      | .ok _ _ =>
        match s.ctxWrite p (s.inbound p ctx requester) [] off bytes with
        | .ok s1 _ => s1
        | .fail _ _ _ _ => s
        | .wait s1 => s1
      | _ => s

/-- A completion goes to its requester. -/
def State.toRequester (s : State) (requester : Nat) (bs : List Byte) : State :=
  { s with links := { s.links with hostTlps := s.links.hostTlps ++ [(requester, bs)] } }

def State.abort (s : State) : State := { s with links := { s.links with aborts := s.links.aborts + 1 } }

/-- INBOUND_READ: translated and completed; one that fails, and every one until READY, ends with Completer Abort
(R389, R392, R414). -/
def execInboundRead (fn : Nat) (pasid : Option Nat) (off len requester : Nat) (s : State) : Result :=
  .next <|
    let p := s.partOfFn fn
    let ctx := 64 * fn + pasid.getD 0
    if 256 ≤ fn || 64 ≤ pasid.getD 0 then s.unsupported
    else if s.boot.st != 5 then s.abort
    else if apertureSize < off + len then s.toRequester requester (List.replicate len 0)
    else
      match s.ctxRead p (s.inbound p ctx requester) off len with
      | .ok s1 bs => (s1.dropLines (s.inbound p ctx requester).agent).toRequester requester bs
      | .fail s1 _ _ _ => s1.abort
      | .wait s1 => s1

/-- ZERO_LENGTH_READ: it completes after the requester's earlier posted writes (R391). -/
def execZeroLengthRead (requester : Nat) (s : State) : Result :=
  .next <|
    if s.inboundOut requester then s
    else { s with links := { s.links with zeroReads := s.links.zeroReads ++ [requester] } }

/-- UNSUPPORTED_REQUEST (R388). -/
def execUnsupportedRequest (_requester : Nat) (s : State) : Result := .next s.unsupported

/-! ### Host-window accesses (R79, R393) -/

/-- An operation whose access has failed beyond this module faults with BADPA (R79, R171). -/
def Sequencer.opFails (x : Sequencer) (serial : Nat) : Sequencer :=
  match x.outstanding.find? (·.serial == serial) with
  | some o => if o.isFaulted then x else x.setPhase serial (.faulted cBADPA 0 o.ea)
  | none => x

/-- The command of an engine whose write has failed beyond this module: DETAIL BADPA at its address (R277, R291). -/
def Cluster.engineFails (k : Cluster) (a : Agent) (va : Nat) : Cluster :=
  let e : Option (Nat × Nat) := some (2, va)
  match a.cls with
  | 2 =>
    let one (c : CopyCmd) : CopyCmd := if c.id == a.sub && c.fault.isNone then { c with fault := e } else c
    { k with copy := { k.copy with begun := k.copy.begun.map one } }
  | 3 =>
    let one (r : MatRun) : MatRun := if r.cmd.id == a.sub && r.fault.isNone then { r with fault := e } else r
    { k with mat := { k.mat with cur := k.mat.cur.map one } }
  | _ => k

/-- An access beyond this module fails with BADPA where its answer would go (R79, R171, R233, R277, R291). -/
def State.retFails (s : State) (ret : RetTo) (a : Agent) (kind : ReqKind) (va : Nat) : State :=
  match ret with
  | .seqOp cl q serial => s.mapSeq cl q (·.opFails serial)
  | .seqHalf cl q serial hi => s.mapSeq cl q (·.halfFails serial hi)
  | .portRead cl slot tile i => s.mapCl cl (·.mapPort slot tile (·.returned i [] 9))
  | .port cl slot tile =>
    let n := match kind with | .amo _ true _ _ => 2 | _ => 1
    (s.raise cl fET).mapCl cl (·.mapPort slot tile fun p => { p with reqs := p.reqs - 1, outQ := p.outQ ++ List.replicate n (.serr 9) })
  | .portDone cl slot tile => (s.raise cl fET).mapCl cl (·.mapPort slot tile fun p => { p with reqs := p.reqs - 1 })
  | .line who line => { s with links := { s.links with yFailed := (who, line) :: s.links.yFailed } }
  | .nowhere => if a.isOf a.cluster && kind.writes then s.mapCl a.cluster (·.engineFails a va) else s
  | .remote _ => s
  | .sheaf _ => s

/-- A request fails; of a sheaf every member's, and of a packet of another partition here the access behind it. -/
def State.reqFails (s : State) : Nat → MemReq → State
  | 0, _ => s
  | fuel + 1, r =>
    match r.ret with
    | .sheaf n =>
      match s.sheaves.find? (·.id == n) with
      | some h =>
        let s1 := { s with sheaves := s.sheaves.filter fun g => g.id != n }
        (s1.reqFails fuel h.first).reqFails fuel h.second
      | none => s
    | .remote f =>
      match s.near f with
      | some q => ({ s with links := s.links.dropTag f.tag } : State).reqFails fuel q
      | none => s
    | ret => s.retFails ret r.agent r.kind r.key

def State.fails (s : State) (r : MemReq) : State := s.reqFails (s.sheaves.length + 2) r

/-- The virtual address of a host-window access, by the entry that translated it. -/
def HostReq.va (h : HostReq) : Nat :=
  match h.leaf with
  | some e => e.vbase + (hostBase + h.addr - paLocal e.pbase)
  | none => h.addr

/-- The access of a host-window request fails with BADPA. -/
def State.hostFails (s : State) (h : HostReq) : State := s.retFails h.ret h.agent h.kind h.va

/-- ATS_INVALIDATE: the entry goes; the request completes once every access translated by it has been sent (R393). -/
def execAtsInvalidate (fn page : Nat) (s : State) : Result :=
  .next <|
    let out := s.links.hostReqs.filter fun h => !h.needAts && fnOf h.ctx == fn && h.addr / 4096 == page
    let l := { s.links with ats := s.links.ats.filter (· != (fn, page)) }
    { s with links := if out.isEmpty then { l with atsDone := l.atsDone + 1 }
                      else { l with atsOpen := l.atsOpen ++ [out.map (·.id)] } }

/-- ATS_TRANSLATION_COMPLETION: the translation enters the cache of 1,024 entries and the access goes out. -/
def execAtsTranslationCompletion (id : Nat) (s : State) : Result :=
  .next <| match s.links.hostReqs.find? fun h => h.id == id && h.needAts with
  | none => s
  | some h =>
    let e := (fnOf h.ctx, h.addr / 4096)
    let held := s.links.ats.filter (· != e) ++ [e]
    ({ s with links := { s.links with
        ats := held.drop (held.length - 1024),
        hostReqs := s.links.hostReqs.map fun g => if g.id == id then { g with needAts := false, issued := s.now } else g } } : State).hostLeaves h

/-- HOST_READ_TIMEOUT: no completion within 50 ms (R393). -/
def execHostReadTimeout (id : Nat) (s : State) : Result :=
  .next <| match s.links.hostReqs.find? (·.id == id) with
  | none => s
  | some h =>
    match h.kind with
    | .read _ =>
      if s.now - h.issued < 50000000 then s
      else ({ s with links := s.links.keepHost (·.id != id) } : State).hostFails h
    | _ => s

/-- HOST_LINK_DOWN: host-window accesses fail with BADPA, those on their way among them (R79). -/
def execHostLinkDown (s : State) : Result :=
  .next <|
    let s1 : State := { s with links := { s.links.keepHost (fun _ => false) with hostUp := false } }
    s.links.hostReqs.foldl (fun t h => t.hostFails h) s1

/-- The request goes to the Granary behind a port, and L2 does not hold its line. -/
def State.viaGranary (s : State) (r : MemReq) (port : Nat) : Bool :=
  inGranary r.key && (r.key % 2 ^ 45 - granaryBase) / 65536 % 24 == port && !s.hitsL2 r.key

/-- GRANARY_LINK_FAILURE: the port's addresses are unbacked, and accesses on their way to it fail (R394). -/
def execGranaryLinkFailure (port : Nat) (s : State) : Result :=
  .next <|
    if 24 ≤ port || s.links.granaryBad.contains port then s
    else
      let s1 : State := { s with reqs := s.reqs.filter fun r => !s.viaGranary r port,
                                 links := { s.links with granaryBad := s.links.granaryBad ++ [port] } }
      (s.reqs.filter fun r => s.viaGranary r port).foldl (·.fails ·) s1

/-! ### Requests from other modules (R97, R396 to R398) -/

/-- The flit is one that is discarded (R397). -/
def flitBad (f : Flit) : Bool := 9 ≤ f.kind || 18 ≤ f.path

def State.linkError (s : State) : State := { s with links := { s.links with linkErrors := s.links.linkErrors + 1 } }

/-- A packet between partitions of this module reaches its destination behind those sent before it on its path (R396). -/
def State.takeTurned (s : State) (f : Flit) : Option State :=
  let l := s.links.turned
  let i := l.findIdx (· == f)
  if l.length ≤ i || (l.take i).any fun g => g.path == f.path && g.dmod == f.dmod then none
  else some { s with links := { s.links with turned := dropNth l i } }

/-- A packet of a kind arrives: discarded, taken, or, in transit, put into the output queue of its next hop; an answer to a sheaf
that this module's switch has made returns to the switch (R102, R103, R396 to R398). -/
def State.arrive (s : State) (g : Flit) (kind : Nat) (take : State → Partition → Flit → State) : State :=
  let f := flitNorm g
  if flitBad g then s.linkError
  else if f.kind != kind then s
  else
    match s.partNumbered f.dmod with
    | some p =>
      if (s.partNumbered f.smod).isSome then
        match s.takeTurned f with
        | some s1 => take s1 p f
        | none => s
      else take s p f
    | none =>
      let mine (h : Sheaf) : Bool := f.kind == 5 && h.old.isNone && h.pkt.any fun g => g.smod == f.dmod && g.dmod == f.smod && g.tag == f.tag
      if s.sheaves.any mine then
        { s with sheaves := s.sheaves.map fun h => if mine h then { h with old := some (w64 f.opnd) } else h }
      else { s with links := { s.links with yQ := s.links.yQ ++ [f] } }

/-- A class-C write at the scope of the domain is a REL.ST of another module: the releases it can carry are of its cluster's writes
flushed here and of what it knows by then (R92, R178; log entry 93). -/
def State.flitRel (s : State) (f : Flit) : Option RelInfo :=
  let c := flitCluster f
  let own := (s.links.rFlushed.get (c - 512) []).filter (s.links.rAgents.get (8 * (c - 512)) ([], [])).1.contains
  if f.kind == 1 && f.cls == 0 && 3 ≤ f.scope then some ⟨union own (s.farKnown (8 * c)), scopeOfCode f.scope, c, []⟩ else none

/-- The request of a packet at a key of memory: of another partition here as its agent has made it, of another module as far as the
packet tells (R79, R97; log entry 93). -/
def State.flitReq (s : State) (f : Flit) (kind : ReqKind) (key : Nat) (ret : RetTo) : MemReq :=
  let c := flitCluster f
  let far : MemReq :=
    { id := s.counter, agent := ⟨c, f.cls, 0⟩, kind := kind, key := key, pa := f.dmod * 2 ^ 45 + f.addr, asid := 0,
      scope := scopeOfCode f.scope, rel := s.flitRel f, view := s.farKnown (8 * c + f.cls), floor := [],
      wpol := (s.partOfKey key).wpol 0, rcls := 0, region := 0xFFFF, ret := ret, leaf := none }
  match s.near f with
  | some r => { far with agent := r.agent, asid := r.asid, rel := r.rel, view := r.view, floor := r.floor, region := r.region }
  | none => far

/-- A packet's access finds nothing behind its address: of another partition here it fails with BADPA; to another module R397 has no
answer that says so, and none is sent (log entry 40). -/
def State.flitFails (s : State) (f : Flit) : State := s.fails (s.flitReq f (.read 0) 0 (.remote f))

/-- A request joins those on their way to their homes. -/
def State.addReq (s : State) (r : MemReq) : State := { s with reqs := s.reqs ++ [r], counter := s.counter + 1 }

/-- The runs of a byte mask: first byte and length. -/
def runsOf : Nat → Nat → Nat → Option (Nat × Nat) → List (Nat × Nat)
  | 0, _, _, cur => cur.toList
  | fuel + 1, m, i, cur =>
    match bit m i, cur with
    | true, some (a, n) => runsOf fuel m (i + 1) (some (a, n + 1))
    | true, none => runsOf fuel m (i + 1) (some (i, 1))
    | false, some e => e :: runsOf fuel m (i + 1) none
    | false, none => runsOf fuel m (i + 1) none

/-- YILSIN_RD: the line is read at its home, or through the addressed module's host link; one that the Granary returns poisoned is
an access that fails (R79, R394, R397). -/
def execYilsinRd (f : Flit) (s : State) : Result :=
  .next <| s.arrive f 0 fun s p f =>
    match s.localPlace p (f.addr / 64 * 64) with
    | .mem key => if s.poisoned key then s.fresh.flitFails f else s.addReq (s.flitReq f (.read 64) key (.remote f))
    | .host off => s.answer (s.flitReq f (.read 64) 0 (.remote f)) ⟨s.host.read off 64, [], s.hostRelsAt off 64, none⟩
    | _ => s.flitFails f

/-- YILSIN_WR: the bytes of the mask are written, the last run answered (R397). -/
def execYilsinWr (f : Flit) (s : State) : Result :=
  .next <| s.arrive f 1 fun s p f =>
    let rs := runsOf 64 f.ben 0 none
    let piece (e : Nat × Nat) : List Byte := (f.data.drop e.1).take e.2
    match s.localPlace p (f.addr / 64 * 64) with
    | .mem key =>
      match rs.getLast? with
      | none => s.answer (s.flitReq f (.write []) key (.remote f)) ⟨[], [], [], none⟩
      | some z =>
        let one (t : State) (e : Nat × Nat) : State :=
          t.addReq (t.flitReq f (.write (piece e)) (key + e.1) (if e == z then .remote f else .nowhere))
        rs.foldl one s
    | .host off =>
      let r := s.flitReq f (.write []) 0 (.remote f)
      (rs.foldl (fun t e => t.hostStore (off + e.1) (piece e) r.rel) s).answer r ⟨[], [], [], none⟩
    | _ => s.flitFails f

/-- An atomic of a packet at its home; none is made in the host window (R175). -/
def State.flitAtomic (s : State) (p : Partition) (f : Flit) (kind : ReqKind) : State :=
  match s.localPlace p f.addr with
  | .mem key => if s.poisoned key then s.fresh.flitFails f else s.addReq (s.flitReq f kind key (.remote f))
  | _ => s.flitFails f

/-- YILSIN_AMO: executed at its home (R99, R397). -/
def execYilsinAmo (f : Flit) (s : State) : Result :=
  .next <| s.arrive f 2 fun s p f => s.flitAtomic p f (.amo f.op f.w64 (w64 f.opnd) (f.cls == 1))

/-- YILSIN_CAS: never combined, executed at its home (R99, R397). -/
def execYilsinCas (f : Flit) (s : State) : Result :=
  .next <| s.arrive f 8 fun s p f => s.flitAtomic p f (.cas f.w64 (w64 f.cmpnd) (w64 f.opnd))

/-! ### Answers from other modules -/

/-- The answer of another module goes where its request came from: with what a partition of this module has found for it, or, from
elsewhere, with what can be known in the domain (R79, R92; log entry 93). -/
def State.remoteAnswer (s : State) (f : Flit) (r : MemReq) (bs : List Byte) : State :=
  let a : Answer := match s.links.yGot.find? (·.1 == f.tag) with
    | some (_, x) => ⟨bs, x.from_, x.rels, x.wrote⟩
    | none => ⟨bs, [], [s.domainRel f.smod], none⟩
  let s1 : State := { s with links := s.links.dropTag f.tag, counter := s.counter + 1 }
  match r.ret with
  | .line who pa => { s1 with links := { s1.links with yLines := ⟨who, pa, bs, a.rels⟩ :: s1.links.yLines } }
  | _ => s1.answer r a

/-- The request that a packet answers. -/
def State.answered (s : State) (f : Flit) : Option MemReq := (s.links.yWait.find? (·.1 == f.tag)).map (·.2)

/-- YILSIN_RDRSP (R397). -/
def execYilsinRdrsp (f : Flit) (s : State) : Result :=
  .next <| s.arrive f 3 fun s _ f =>
    match s.answered f with
    | some r =>
      match r.kind with
      | .read n => s.remoteAnswer f r ((f.data.drop (r.pa % 64)).take n)
      | _ => s
    | none => s

/-- YILSIN_WRACK: the write has performed at its remote home (R93, R397). -/
def execYilsinWrack (f : Flit) (s : State) : Result :=
  .next <| s.arrive f 4 fun s _ f =>
    match s.answered f with
    | some r =>
      match r.kind with
      | .write _ => s.remoteAnswer f r []
      | .group _ => s.remoteAnswer f r []
      | _ => s
    | none => s

/-- The flags of an FADD that another module's home has served: those of old + operand, unless it has combined elsewhere, where they
are open: R397 carries none (R104, R174; log entry 93). -/
def State.farFlags (s : State) (op w old y : Nat) : Nat :=
  let z := Config.freeWord s.counter
  let open_ := (if z.getLsbD 0 then fNV else 0) ||| (if z.getLsbD 1 then fOF else 0) ||| (if z.getLsbD 2 then fUF else 0)
    ||| (if z.getLsbD 3 then fNX else 0)
  if op != 9 then 0 else if z.getLsbD 4 then open_ else (amoNew op w old y).2

/-- YILSIN_AMORSP: the old value of an AMO or CAS; the flags of an FP32 addition at a home here have been raised there (R104, R174,
R397). -/
def execYilsinAmorsp (f : Flit) (s : State) : Result :=
  .next <| s.arrive f 5 fun s _ f =>
    match s.answered f with
    | some r =>
      match r.kind with
      | .amo op d y _ =>
        let w := if d then 64 else 32
        let flags := if s.inside f then 0 else s.farFlags op w (f.opnd % 2 ^ w) (y.toNat % 2 ^ w)
        (s.remoteAnswer f r (leBytes (w / 8) f.opnd)).raiseAgent r.agent flags
      | .cas d _ _ => s.remoteAnswer f r (leBytes (if d then 8 else 4) f.opnd)
      | _ => s
    | none => s

/-! ### Flush markers (R97, R398) -/

/-- YILSIN_FLUSH: the marker is gathered, behind every packet sent before on its path; the module acknowledges with a marker
of every path of PMASK, once the requests before them have been served (R97, R398). -/
def execYilsinFlush (f : Flit) (s : State) : Result :=
  .next <| s.arrive f 6 fun s _ f =>
    let same (g : Gather) : Bool := g.dmod == f.dmod && g.smod == f.smod && g.scl == f.scl && g.epoch == f.epoch
    let got := (((s.links.gathers.find? same).map (·.got)).getD 0) ||| 2 ^ f.path
    let g : Gather := ⟨f.dmod, f.smod, f.scl, f.epoch, f.pmask, got, f.path, s.counter⟩
    ({ s with links := { s.links with gathers := s.links.gathers.filter (!same ·) ++ [g] } } : State).settleGathers

/-- A module has acknowledged the markers of a release. -/
def Release.acked (r : Release) (a : Nat × Nat) : Release := { r with markers := r.markers.filter (· != a) }

def WaitKind.acked (w : WaitKind) (a : Nat × Nat) : WaitKind :=
  match w with
  | .release r e => .release (r.acked a) e
  | .rdv mask id r => .rdv mask id (r.acked a)
  | .owed ms => .owed (ms.filter (· != a))
  | k => k

def Frame.acked (f : Frame) (a : Nat × Nat) : Frame :=
  { f with replay := f.replay.map fun o => { o with rel := o.rel.map (·.acked a) } }

def Sequencer.acked (x : Sequencer) (a : Nat × Nat) : Sequencer :=
  { x with waits := x.waits.map fun w => { w with kind := w.kind.acked a }, frame := x.frame.acked a,
           shadow := x.shadow.map (·.acked a),
           outstanding := x.outstanding.map fun o => { o with rel := o.rel.map (·.acked a) } }

/-- YILSIN_FLUSHACK (R97, R398). -/
def execYilsinFlushack (f : Flit) (s : State) : Result :=
  .next <| s.arrive f 7 fun s _ f =>
    let a := (f.smod, f.epoch)
    if 512 ≤ f.scl then s
    else s.mapCl f.scl fun k =>
      { k with seqC := k.seqC.acked a, seqY := k.seqY.acked a, seqM := k.seqM.acked a,
               task := { k.task with flush := k.task.flush.filter (· != a) } }

/-! ### Ports of the domain (R397) -/

/-- LINK_RETRAIN_TIMEOUT: the accesses outstanding on the port's paths, those whose packets have left or wait to leave by it, fail,
and the paths are excluded until it returns (R396, R397). -/
def execLinkRetrainTimeout (port : Nat) (s : State) : Result :=
  .next <|
    if 18 ≤ port || s.links.yDown.contains port then s
    else
      let lost (e : Nat × MemReq) : Bool :=
        let m := paModule e.2.pa
        (s.partNumbered m).isNone && (s.links.yPath.find? (·.1 == e.1)).any fun p => s.outPort m p.2 == some port
      let gone := s.links.yWait.filter lost
      let mine (f : Flit) : Bool := (s.partNumbered f.smod).isSome && (f.kind ≤ 2 || f.kind == 8) && gone.any (·.1 == f.tag)
      let s1 : State :=
        { s with counter := s.counter + 1,
                 links := { s.links with yDown := port :: s.links.yDown, yQ := s.links.yQ.filter (!mine ·),
                                         yWait := s.links.yWait.filter fun e => !lost e } }
      gone.foldl (fun t e => t.fails e.2) s1

/-- YILSIN_PORT_RETURN (R397). -/
def execYilsinPortReturn (port : Nat) (s : State) : Result :=
  .next { s with links := { s.links with yDown := s.links.yDown.filter (· != port) } }

/-- DISCARDED_FLIT (R397). -/
def execDiscardedFlit (f : Flit) (s : State) : Result := .next (if flitBad f then s.linkError else s)

end Sys2Proof.Machine
end

