-- ==== Sys2Proof/Machine/Debug.lean ====
section
/-! DEFINITION. The debug block, halts and resumes, watchdogs, and writes of the registers outside the clusters (R5,
R382, R386, R387, R389, R393, R400 to R408, R419). -/

namespace Sys2Proof.Machine

/-! ### Halts (R400 to R403) -/

/-- The context is armed for dbg. -/
def State.armed (s : State) (ctx : Nat) : Bool :=
  s.dbg.darm.toList.any fun e => bit e.toNat 15 && nbits e.toNat 0 14 == ctx

/-- A DHALT write that acts: its cluster holds a resident task whose context is armed (R401). -/
def State.dhaltActs (s : State) (v : Word) (res : Bool) : Bool :=
  let t := (s.cluster (bits v 8 0)).task
  bits v 63 17 == 0 && v.getLsbD 16 == res && t.resident && s.armed t.ctx

/-- The sequencers a DHALT write names. -/
def dhaltSeqs (v : Word) : List SeqId :=
  (if v.getLsbD 13 then [SeqId.control] else []) ++ (if v.getLsbD 14 then [SeqId.copy] else [])
    ++ if v.getLsbD 15 then [SeqId.matrix] else []

/-- The slots it names. -/
def dhaltSlots (v : Word) : List Nat := (List.range 4).filter fun i => v.getLsbD (9 + i)

/-- A trace record of a slot's halt or resumption. -/
def State.traceSlot (s : State) (ty c i : Nat) : State :=
  let k := s.cluster c
  s.trace ty k.task.ctx (4 * c + i) (k.slot i).blk (k.slot i).ver []

/-- A named slot: a RUNNING one drains and its halt is pending; any other is halted at once (R401). -/
def State.haltSlot (s : State) (c i : Nat) : State :=
  let x := (s.cluster c).slot i
  if x.halted || x.haltPending then s
  else if x.st == .running then
    s.mapCl c fun k => (k.stopDispatch i).mapSlot i fun x => { x with haltPending := true, wasRunning := true }
  else (s.mapCl c (·.mapSlot i fun x => { x with halted := true, wasRunning := false })).traceSlot 2 c i

/-- The sequencer can halt: it stands at a boundary, which the stall of an engine command that waits for its place is not, and what
it has sent has returned (R256, R351, R401). -/
def Sequencer.canHalt (x : Sequencer) : Bool := !x.stalled && !x.outstanding.any (·.isSent)

/-- The sequencer halts, with its replay queue frozen (R351, R401). -/
def State.haltNow (s : State) (c : Nat) (q : SeqId) : State :=
  ((s.freeze c q).mapSeq c q fun x => { x with halted := true, haltWant := false }).traceSeqHalt c q

/-- A named sequencer stops at its next instruction boundary (R401). -/
def State.haltSeq (s : State) (c : Nat) (q : SeqId) : State :=
  let x := s.seq c q
  if x.halted || x.haltWant then s
  else if x.canHalt then s.haltNow c q
  else s.mapSeq c q fun x => { x with haltWant := true }

/-- DHALT_HALT (R401). -/
def execDhaltHalt (value : Word) (s : State) : Result :=
  .next <|
    if !s.dhaltActs value false then s
    else
      let c := bits value 8 0
      (dhaltSeqs value).foldl (fun t q => t.haltSeq c q) ((dhaltSlots value).foldl (fun t i => t.haltSlot c i) s)

/-- A halt of a slot ends: one still pending is taken back, and the slot runs on unless something else has made it drain; a
pinned slot that was RUNNING begins a new period with its kept positions (R402). -/
def Cluster.resumeSlot (k : Cluster) (i : Nat) : Cluster :=
  let x := k.slot i
  let free := k.mapSlot i fun x => { x with halted := false, haltPending := false, wasRunning := false }
  if x.haltPending then
    if x.wasRunning then free.mapSlot i fun x => { x with st := SlotState.running, dispatching := k.sched i } else free
  else if x.halted && x.wasRunning && !k.sched i && x.st == .idle then (free.mapSlot i fun x => { x with keep := true }).startSlot i
  else free

def State.resumeSlot (s : State) (c i : Nat) : State :=
  let x := (s.cluster c).slot i
  if !x.halted && !x.haltPending then s else (s.mapCl c (·.resumeSlot i)).traceSlot 3 c i

/-- A halt of a sequencer ends: its replay entries are injected again, and a halt at BKPT resumes after it (R402). -/
def Sequencer.unhalt (x : Sequencer) : Sequencer :=
  if !x.halted then { x with haltWant := false }
  else { x.thaw with halted := false, haltAtBkpt := false, pc := if x.haltAtBkpt then x.pc + 4 else x.thaw.pc }

/-- DHALT_RESUME (R402). -/
def execDhaltResume (value : Word) (s : State) : Result :=
  .next <|
    if !s.dhaltActs value true then s
    else
      let c := bits value 8 0
      let s1 := (dhaltSlots value).foldl (fun t i => t.resumeSlot c i) s
      (dhaltSeqs value).foldl (fun t q => t.mapSeq c q (·.unhalt)) s1

/-- WATCHDOG_EXPIRY: the record, DSTAT.WDOG, and the count begins again (R406). -/
def execWatchdogExpiry (cl slot : Nat) (s : State) : Result :=
  .next <|
    let k := s.cluster cl
    let x := k.slot slot
    if s.dbg.wdlim == 0 || !k.inPeriod slot || x.wdCount < s.dbg.wdlim then s
    else
      (s.trace 4 k.task.ctx (4 * cl + slot) x.blk x.ver (leBytes 6 x.wdCount)).mapCl cl fun k =>
        { k.mapSlot slot (fun x => { x with wdCount := 0 }) with wdog := true }

/-! ### Register writes (R5) -/

/-- The write sets no bit of the mask. -/
def clear (v : Word) (rz : Nat) : Bool := v.toNat &&& rz == 0

/-- Bits n and up of a 64-bit register. -/
def above (n : Nat) : Nat := 2 ^ 64 - 2 ^ n

/-- The power block, written by the management firmware alone (R386, R387). -/
def State.writePower (s : State) (off : Nat) (v : Word) : State :=
  if off == 0 then
    if !clear v (above 12) then s
    else
      let n := bits v 5 0
      let keep := if 16 ≤ n && n ≤ 48 then n else s.defn
      { s with govctl := w64 (keep + v.toNat / 64 % 64 * 64) }
  else if 0x100 ≤ off && off < 0x140 && off % 8 == 0 then
    if clear v (above 32) then s.mapDie ((off - 0x100) / 8) fun d => { d with edie := v.toNat } else s
  else if 0x1000 ≤ off && off < 0x1000 + 0x40 * 512 then
    let c := (off - 0x1000) / 0x40
    match (off - 0x1000) % 0x40 with
    | 0x08 => if clear v (above 26) && v.getLsbD 24 then s.mapPower c fun p => { p with wrap := false } else s
    | 0x18 => if clear v (above 42) then s.mapPower c fun p => { p with ecap := bits v 31 0, icap := bits v 41 32 } else s
    | _ => s
  else s

/-- A register of an L2 trace filter and its reserved bits (R407). -/
def lfRz (r : Nat) : Nat := if r == 2 then above 31 else above 58 + 63

/-- The debug block, but for DHALT (R400, R407). -/
def State.writeDebug (s : State) (off : Nat) (v : Word) : State :=
  let d := s.dbg
  let setD (rz : Nat) (d1 : Debug) : State := if clear v rz then { s with dbg := d1 } else s
  if h : off < 0x80 ∧ off % 8 = 0 then setD (above 16) { d with darm := d.darm.set (off / 8) v (by omega) }
  else if h : 0x200 ≤ off ∧ off < 0x240 ∧ off % 8 = 0 then
    if (off - 0x200) / 8 % 4 == 3 then s
    else setD (lfRz ((off - 0x200) / 8 % 4)) { d with lf := d.lf.set ((off - 0x200) / 8) v (by omega) }
  else if 0x1000 ≤ off && off < 0x2000 && off % 8 == 0 then
    if clear v (above 26) && v.getLsbD 11 then s.mapCl ((off - 0x1000) / 8) fun k => { k with wdog := false } else s
  else
    match off with
    | 0x88 => setD (above 17) { d with drsel := v }
    | 0x100 => setD 0xFFF { d with trbase := v }
    | 0x108 => if 6 ≤ v.toNat && v.toNat ≤ 24 then setD (above 5) { d with trlog := v.toNat } else s
    | 0x118 => setD (above 32) { d with trrd := v.toNat }
    | 0x128 => setD (above 8) { d with tren := v.toNat }
    | 0x130 => setD (above 32) { d with wdlim := v.toNat }
    | _ => s

/-- The boot block, but for IMGGO (R419). -/
def State.writeBoot (s : State) (off : Nat) (v : Word) : State :=
  match off with
  | 0x08 => { s with boot := { s.boot with imgaddr := v } }
  | 0x10 => if clear v (above 32) then { s with boot := { s.boot with imglen := v.toNat } } else s
  | _ => s

/-- A context's counters (R408). -/
def Ctx.writeCounter (x : Ctx) (off : Nat) (v : Word) : Ctx :=
  if off == 0 then
    if clear v (above 17) then { x with cntctl := w64 (bits v 7 0 + bits (x.cntctl &&& ~~~v) 15 8 * 256 + bits v 16 16 * 65536) } else x
  else if off == 8 then
    if (List.range 8).all fun i => bits v (8 * i + 7) (8 * i) ≤ 10 then { x with cntev := v } else x
  else if h : 0x10 ≤ off ∧ off < 0x50 ∧ off % 8 = 0 then
    if clear v (above 48) then { x with cnt := x.cnt.set ((off - 0x10) / 8) v.toNat (by omega) } else x
  else x

/-- A 64-bit word of a function's MSI-X table (R389; log entry 36). -/
def Links.writeVector (l : Links) (fn i : Nat) (v : Word) : Links :=
  if i % 2 == 1 then
    ({ l with msixTab := l.msixTab.set (128 * fn + i) (w64 (bits v 31 0)) } : Links).maskVector (fn, i / 2) (v.getLsbD 32)
  else { l with msixTab := l.msixTab.set (128 * fn + i) v }

/-- BAR 2 of a function: the MSI-X table, HPASID and the counters of its contexts (R389, R393, R408). -/
def State.writeBar2 (s : State) (fn off : Nat) (v : Word) : State :=
  if 0x40000 ≤ off && off < 0x40400 && off % 8 == 0 then { s with links := s.links.writeVector fn ((off - 0x40000) / 8) v }
  else if 0x42000 ≤ off && off < 0x42200 && off % 8 == 0 then
    if clear v (above 21) then s.mapCtx (64 * fn + (off - 0x42000) / 8) fun x => { x with hpasid := v } else s
  else if 0x48000 ≤ off && off < 0x4A000 then
    s.mapCtx (64 * fn + (off - 0x48000) / 128) (·.writeCounter ((off - 0x48000) % 128) v)
  else s

/-- BAR 0 of the physical function, and the same offsets for the management cores (R386, R400, R419). -/
def State.writeBar0 (s : State) (off : Nat) (v : Word) (firmware : Bool) : State :=
  if 0x300000 ≤ off then s.writeDebug (off - 0x300000) v
  else if 0x200000 ≤ off then (if firmware then s.writePower (off - 0x200000) v else s)
  else if 0x100000 ≤ off then s.writeBoot (off - 0x100000) v
  else s

/-- The ATS Control register of a function's configuration space, of which bit 15 enables ATS (log entry 127). -/
def atsControl : Nat := 6

/-- ATS is switched for a function; switched off, its translations go (R388, R393; log entry 127). -/
def State.setAts (s : State) (fn : Nat) (on : Bool) : State :=
  let l := { s.links with atsOn := s.links.atsOn.filter (· != fn) }
  { s with links := if on then { l with atsOn := l.atsOn ++ [fn] } else { l with ats := l.ats.filter (·.1 != fn) } }

/-- REGISTER_WRITE: a write with a non-zero reserved field, to a read-only register or outside every range changes
nothing; in recovery the root monitor alone runs and the host has BAR 0 of the physical function alone; a peer reaches
BAR 4 alone (R5, R388, R389, R418). -/
def execRegisterWrite (off : Nat) (value : Word) (w : Writer) (s : State) : Result :=
  .next <| match w with
  | .firmware => if s.boot.st == 6 then s else s.writeBar0 off value true
  | .peer _ _ => { s with links := { s.links with unsupported := s.links.unsupported + 1 } }
  | .config fn =>
    if 256 ≤ fn || (s.boot.st == 6 && fn != 0) || off != atsControl then s else s.setAts fn (value.getLsbD 15)
  | .host fn bar =>
    if 256 ≤ fn then s
    else if bar == 0 && fn == 0 then s.writeBar0 off value false
    else if bar == 2 && s.boot.st != 6 then s.writeBar2 fn off value
    else s

end Sys2Proof.Machine
end

