-- ==== Sys2Proof/Machine/Start.lean ====
section
/-! DEFINITION. Starts, failed starts and recovery, the root monitor's requests and attestation (R314, R371, R376, R377,
R395, R411 to R420). -/

namespace Sys2Proof.Machine

/-! ### Starts (R413 to R417) -/

/-- STATE while a step runs (R413, R419). -/
def stateOfStep (n : Nat) : Nat := if n ≤ 1 then 0 else if n ≤ 3 then 1 else if n ≤ 5 then 2 else if n ≤ 9 then 3 else 4

/-- Step 3 has run: lines that L2 held modified hold what their backing store holds (R414). -/
def State.loseL2 (s : State) : Memory :=
  let held := s.l2.flatMap fun e => e.2.filterMap fun w => w.line.bind fun l => w.backing.map fun b => (l, b)
  let coming := s.l2Fills.filterMap fun f => f.backing.map fun b => (f.line, b)
  (held ++ coming).foldl (fun m e => m.write (64 * e.1) e.2) s.mem

/-- The steps of a start from step i to step n leave memory so: L2 lost at step 3, HBM zeroed at step 7, the Granary at
step 8 of a cold start (R413, R414). -/
def State.startMem (s : State) (warm : Bool) (i n : Nat) : Memory :=
  let m1 := if 3 ≤ n then s.loseL2 else s.mem
  let m2 := if i ≤ 7 && 7 ≤ n then m1.filter fun e => inGranary e.1 else m1
  if i ≤ 8 && 8 ≤ n && !warm then m2.filter fun e => !inGranary e.1 else m2

/-- A cluster's power from step 3 of a start: point 16 at VQ(16) (R371, R413). -/
def powerAt (a : List Nat) (planAt : Nat) : Power :=
  let v := almVq (a.getD 0 90)
  { Power.reset with almanac := a, vset := v, railMv := 5 * v, planAt := planAt }

/-- The clusters after the first n steps of a start: rails set from step 3, in service or withdrawn from step 9; the hours of
their last plans are kept throughout (R371, R385, R413, R417). -/
def State.startClusters (s : State) (n : Nat) (bad : List Nat) : Table Cluster :=
  if n < 3 then s.clusters.map fun e => (e.1, { Cluster.reset with power := { Power.reset with planAt := e.2.power.planAt } })
  else (List.range 512).map fun c =>
    let a := s.boot.almanacs.get c []
    let p := powerAt a (s.cluster c).power.planAt
    let ok := almanacValid a && !bad.contains c
    (c, { Cluster.reset with power := if 9 ≤ n then { p with insvc := ok, withdrawn := !ok } else p })

/-- NCL after a start (R417). -/
def State.startNcl (s : State) (bad : List Nat) : Nat :=
  (List.range 512).countP fun c => almanacValid (s.boot.almanacs.get c []) && !bad.contains c

/-- A start stands at a step, from which it can run on. -/
def Boot.standing (b : Boot) : Bool := b.starting && b.step != 0

/-- Powered time when the start began (R385). -/
def State.poweredAt (s : State) : Nat := if s.boot.standing then s.boot.powered else s.boot.powered + s.now

/-- The training record is valid and fresh: it is less than 168 powered hours old, and the start has found its seal to verify,
the inventory unchanged and every die within 15 °C (R413). -/
def State.trainingFresh (s : State) (found : Bool) : Bool :=
  found && match s.boot.trained with
    | some t => s.poweredAt - t < 168 * 3600000000000
    | none => false

/-- The module after the first n steps of a start, from the step at which it stands: everything volatile as at reset, the
stores kept; a full training writes its record (R413; log entry 126). -/
def State.started (s : State) (warm training : Bool) (n : Nat) (bad : List Nat) : State :=
  let b := s.boot
  let i := if b.standing then b.step else 1
  let full := i ≤ 4 && 4 ≤ n && !(warm && s.trainingFresh training)
  { State.reset with
    cur := s.cur, agenda := s.agenda, counter := s.counter, host := s.host, mem := s.startMem warm i n,
    now := if b.standing then s.now else 0,
    l2 := if 3 ≤ n then [] else s.l2,
    l2Fills := if 3 ≤ n then [] else s.l2Fills,
    clusters := if 9 < i then s.clusters else s.startClusters n bad,
    parts := if 11 ≤ n then b.store.map fun e => Partition.reset e.1 e.2.1 e.2.2.1 e.2.2.2 else [],
    boot := { b with warm := warm, ncl := if 9 < i then b.ncl else if 9 ≤ n then s.startNcl bad else 0, imgaddr := 0, imglen := 0,
                     romOnly := false, trained := if full then some s.poweredAt else b.trained, powered := s.poweredAt,
                     started := if b.standing then b.started else 0, starting := true, step := n + 1, st := stateOfStep (n + 1) },
    links := { Links.reset with hostUp := 5 ≤ n, granaryBad := s.links.granaryBad, granaryCap := s.links.granaryCap } }

/-- Recovery: the host link comes up as the physical function (R416, R418). -/
def State.recover (s : State) : State :=
  { s with boot := { s.boot with st := 6, starting := false }, links := { s.links with hostUp := true } }

/-- The boot ROM has refused the stored verified stage (R416). -/
def State.romRefuses (s : State) : State :=
  ({ s with boot := { s.boot with cfail := 2, errstep := 1, romOnly := true } } : State).recover

/-- The start fails at the step at which it stands (R413, R415). -/
def State.startFailed (s : State) : State :=
  let b := s.boot
  if b.warm then { s with boot := { b with starting := false, errstep := b.step, wfail := Nat.min (b.wfail + 1) 3 } }
  else
    let s1 : State := { s with boot := { b with starting := false, errstep := b.step, cfail := b.cfail + 1 } }
    if 2 ≤ b.cfail + 1 then s1.recover else s1

/-- A start that reaches READY clears both counts (R415). -/
def State.startReady (s : State) : State :=
  { s with boot := { s.boot with st := 5, starting := false, step := 0, wfail := 0, cfail := 0 } }

/-- R412: an image is accepted when both signatures verify against the fused digests and its version is at least the fused
minimum. -/
def Boot.accepts (b : Boot) (image : List Byte) : Bool :=
  Config.rsaVerifies b.rsaKey image && Config.slhVerifies b.slhKey image && b.minVersion ≤ Config.imageVersion image

/-- How a run of a start's steps ends. -/
inductive StartEnd where
  | fails (n : Nat)
  | stands (n : Nat)
  | ready
  deriving DecidableEq, Repr

/-- The step at which the run ends; 12 when all have run. -/
def StartEnd.at : StartEnd → Nat
  | .fails n => n
  | .stands n => n
  | .ready => 12

/-- A step that refuses its image ends the run before any later one (R412, R413). -/
def StartEnd.refused (e : StartEnd) (i step : Nat) (refused : Bool) : StartEnd :=
  if refused && i ≤ step && step < e.at then .fails step else e

/-- A start's steps run until one fails, until the start stands at one, or to READY; `rom` and `service` say that step 1 and
step 10 refuse their images (R412 to R417). -/
def State.runStart (s : State) (asked training : Bool) (e : StartEnd) (bad : List Nat) (rom service : Bool) : State :=
  let b := s.boot
  let warm := if b.standing then b.warm else asked && b.wfail != 3 && !b.starting
  let i := if b.standing then b.step else 1
  match (e.refused i 10 service).refused i 1 rom with
  | .ready => (s.started warm training 11 bad).startReady
  | .fails n =>
    if n < i || 11 < n then s
    else if n == 1 then (s.started warm training 0 bad).romRefuses
    else (s.started warm training (n - 1) bad).startFailed
  | .stands n => if n < i || 11 < n then s else s.started warm training (n - 1) bad

/-- How the run ends by what the event says: step n from 1 to 11 fails; 16 + n: the start stands at step n. -/
def startEnd : Option Nat → StartEnd
  | none => .ready
  | some n => if n < 17 then .fails n else .stands (n - 16)

/-- MODULE_START: a start begins, or one that stands at a step runs on; every start is cold while WFAIL is 3, and the one IMGGO
asks for. Steps 1 and 10 verify the stored images. None begins in recovery (R412 to R418). -/
def execModuleStart (warm : Bool) (training : Bool) (failStep : Option Nat) (bad : List Nat) (s : State) : Result :=
  .next <|
    let b := s.boot
    if b.st == 6 || failStep == some 0 then s
    else s.runStart warm training (startEnd failStep) bad (!b.accepts b.stage) (!b.accepts b.service)

/-- START_WATCHDOG_EXPIRY: 30 s from step 1 (R415). -/
def execStartWatchdogExpiry (s : State) : Result :=
  .next <|
    if s.boot.standing && 30000000000 ≤ s.now - s.boot.started then s.startFailed else s

/-- The image accepted in recovery is stored; the boot ROM takes one of the verified stage alone (R416, R418). -/
def Boot.storeImage (b : Boot) (image : List Byte) : Boot :=
  if !b.romOnly && Config.imageOfService image then { b with service := image } else { b with stage := image }

/-- IMGGO: in recovery an image that verifies is stored, both counts are cleared and the module starts cold (R412,
R416, R418, R419). -/
def execImggo (value : Word) (s : State) : Result :=
  .next <|
    let b := s.boot
    let image := s.host.read b.imgaddr.toNat b.imglen
    if b.st != 6 || value != 1 then s
    else if 1 ≤ b.imglen && b.imglen ≤ 2 ^ 31 && b.accepts image then
      { s with boot := { b.storeImage image with
          wfail := 0, cfail := 0, st := 0, warm := false, starting := true, step := 0, romOnly := false } }
    else { s with boot := { b with errstep := 0xF } }

/-! ### Requests to the root monitor (R411) -/

/-- R314: an entry of the partition table names 1, 2, 4 or 8 aligned dies. -/
def partEntryLegal (e : Nat × Nat × Nat × Nat) : Bool :=
  e.2.1 ≤ 3 && e.1 % 2 ^ e.2.1 == 0 && e.1 + 2 ^ e.2.1 ≤ 8 && e.2.2.1 < 2 ^ 13 && e.2.2.2 < 2 ^ 256

/-- Two entries share no die, number or function. -/
def partsApart (a b : Nat × Nat × Nat × Nat) : Bool :=
  (a.1 + 2 ^ a.2.1 ≤ b.1 || b.1 + 2 ^ b.2.1 ≤ a.1) && a.2.2.1 != b.2.2.1 && a.2.2.2 &&& b.2.2.2 == 0

def tableLegal : List (Nat × Nat × Nat × Nat) → Bool
  | [] => true
  | e :: r => partEntryLegal e && r.all (partsApart e) && tableLegal r

/-- The entry describes the partition. -/
def Partition.is (p : Partition) (e : Nat × Nat × Nat × Nat) : Bool :=
  p.first == e.1 && p.logsz == e.2.1 && p.module_ == e.2.2.1 && p.fns == e.2.2.2

/-- The partition holds no resident or staged task. -/
def State.partEmpty (s : State) (p : Partition) : Bool := s.clusters.all fun e => !p.holds e.1 || !e.2.holdsTask

/-- R314: the partitions that change, and those that come, hold no task. -/
def State.tableMay (s : State) (t : List (Nat × Nat × Nat × Nat)) : Bool :=
  s.parts.all (fun p => t.any (p.is ·) || s.partEmpty p)
    && t.all fun e => s.parts.any (·.is e) || s.partEmpty (Partition.reset e.1 e.2.1 e.2.2.1 e.2.2.2)

/-- The table takes effect: partitions that stay keep their registers. -/
def State.applyTable (s : State) (t : List (Nat × Nat × Nat × Nat)) : State :=
  { s with
    parts := t.map fun e => (s.parts.find? (·.is e)).getD (Partition.reset e.1 e.2.1 e.2.2.1 e.2.2.2),
    boot := { s.boot with store := t } }

/-- ROOT_MONITOR_REQUEST: checked and applied; the governor uses a new Almanac from its next evaluation; a refused request
changes nothing (R314, R377, R385, R395, R411). -/
def execRootMonitorRequest (r : RootRequest) (s : State) : Result :=
  .next <|
    if s.boot.st != 4 && s.boot.st != 5 then s
    else
      match r with
      | .almanac cl a =>
        if 512 ≤ cl || !almanacValid a then s
        else
          let s1 := s.mapPower cl fun p => { p with planned := some a }
          { s1 with boot := { s1.boot with almanacs := s1.boot.almanacs.set cl a } }
      | .partitions t => if tableLegal t && s.tableMay t then s.applyTable t else s
      | .domainMap m valid pos =>
        if 8192 ≤ m || 8192 ≤ pos then s else { s with boot := { s.boot with dmap := s.boot.dmap.set m (valid, pos) } }

/-! ### Attestation (R420) -/

/-- BOOTST (R419). -/
def Boot.bootst (b : Boot) : Nat :=
  b.st + 16 * b.warm.toNat + 32 * b.wfail + 128 * b.cfail + 512 * b.ncl + 2 ^ 19 * b.errstep

/-- The signed part of a report. -/
def State.reportBody (s : State) (nonce : List Byte) : List Byte :=
  nonce ++ (List.range 16).map (fun i => Config.attestIdentity (48 + i)) ++ leBytes 8 ((s.boot.powered + s.now) / 3600000000000)
    ++ (List.range 48).map (Config.sha384 s.boot.stage) ++ (List.range 48).map (Config.sha384 s.boot.service) ++ (List.range 48).map (Config.tableDigest s.boot.store)
    ++ leBytes 2 s.boot.ncl ++ leBytes 2 (s.boot.bootst % 65536) ++ List.replicate 36 0

/-- ATTESTATION_REQUEST: a report of the root monitor's verified stage, with an RSA-3072 signature of 384 bytes and an
SLH-DSA-SHA2-192s signature of 16,224 (R412, R420; none while the boot ROM alone runs, R416). -/
def execAttestationRequest (nonce : List Byte) (s : State) : Result :=
  .next <|
    if nonce.length != 48 || s.boot.st == 0 || s.boot.romOnly then s
    else
      let body := s.reportBody nonce
      let sig := (List.range 16608).map (Config.attestSignature body)
      { s with links := { s.links with reports := s.links.reports ++ [body ++ sig] } }

end Sys2Proof.Machine
end

