-- ==== Sys2Proof/Machine/Dispatch.lean ====
section
/-! DEFINITION. The meaning of every row of spec/opcode_table.json: one arm per constructor, each a direct call of its
meaning. -/

namespace Sys2Proof.Machine

/-- An instruction acts on the sequencer that issues; an event is its agent's move. -/
def exec (i : Instr) (s : State) : Host.Outcome State Fault Refusal :=
  match i with
  | .add g d a b => Sys2Proof.Machine.execAdd g d a b s
  | .sub g d a b => Sys2Proof.Machine.execSub g d a b s
  | .mul g d a b => Sys2Proof.Machine.execMul g d a b s
  | .mulh g d a b => Sys2Proof.Machine.execMulh g d a b s
  | .mulhn g d a b => Sys2Proof.Machine.execMulhn g d a b s
  | .div g d a b => Sys2Proof.Machine.execDiv g d a b s
  | .divn g d a b => Sys2Proof.Machine.execDivn g d a b s
  | .rem g d a b => Sys2Proof.Machine.execRem g d a b s
  | .remn g d a b => Sys2Proof.Machine.execRemn g d a b s
  | .and g d a b => Sys2Proof.Machine.execAnd g d a b s
  | .or g d a b => Sys2Proof.Machine.execOr g d a b s
  | .xor g d a b => Sys2Proof.Machine.execXor g d a b s
  | .andn g d a b => Sys2Proof.Machine.execAndn g d a b s
  | .shl g d a b => Sys2Proof.Machine.execShl g d a b s
  | .shr g d a b => Sys2Proof.Machine.execShr g d a b s
  | .sra g d a b => Sys2Proof.Machine.execSra g d a b s
  | .min g d a b => Sys2Proof.Machine.execMin g d a b s
  | .max g d a b => Sys2Proof.Machine.execMax g d a b s
  | .minn g d a b => Sys2Proof.Machine.execMinn g d a b s
  | .maxn g d a b => Sys2Proof.Machine.execMaxn g d a b s
  | .clz g d a => Sys2Proof.Machine.execClz g d a s
  | .ctz g d a => Sys2Proof.Machine.execCtz g d a s
  | .popc g d a => Sys2Proof.Machine.execPopc g d a s
  | .addi g d a imm => Sys2Proof.Machine.execAddi g d a imm s
  | .andi g d a imm => Sys2Proof.Machine.execAndi g d a imm s
  | .ori g d a imm => Sys2Proof.Machine.execOri g d a imm s
  | .xori g d a imm => Sys2Proof.Machine.execXori g d a imm s
  | .shli g d a n => Sys2Proof.Machine.execShli g d a n s
  | .shri g d a n => Sys2Proof.Machine.execShri g d a n s
  | .srai g d a n => Sys2Proof.Machine.execSrai g d a n s
  | .bfx g d a pos wm1 => Sys2Proof.Machine.execBfx g d a pos wm1 s
  | .bfi g d a pos wm1 => Sys2Proof.Machine.execBfi g d a pos wm1 s
  | .movi g d imm => Sys2Proof.Machine.execMovi g d imm s
  | .movs g d imm => Sys2Proof.Machine.execMovs g d imm s
  | .addpc g d imm => Sys2Proof.Machine.execAddpc g d imm s
  | .cmpEq g pd a b => Sys2Proof.Machine.execCmpEq g pd a b s
  | .cmpNe g pd a b => Sys2Proof.Machine.execCmpNe g pd a b s
  | .cmpLt g pd a b => Sys2Proof.Machine.execCmpLt g pd a b s
  | .cmpGe g pd a b => Sys2Proof.Machine.execCmpGe g pd a b s
  | .cmpLtn g pd a b => Sys2Proof.Machine.execCmpLtn g pd a b s
  | .cmpGen g pd a b => Sys2Proof.Machine.execCmpGen g pd a b s
  | .cmpiEq g pd a imm => Sys2Proof.Machine.execCmpiEq g pd a imm s
  | .cmpiNe g pd a imm => Sys2Proof.Machine.execCmpiNe g pd a imm s
  | .cmpiLt g pd a imm => Sys2Proof.Machine.execCmpiLt g pd a imm s
  | .cmpiGe g pd a imm => Sys2Proof.Machine.execCmpiGe g pd a imm s
  | .cmpiLtn g pd a imm => Sys2Proof.Machine.execCmpiLtn g pd a imm s
  | .cmpiGen g pd a imm => Sys2Proof.Machine.execCmpiGen g pd a imm s
  | .pand g pd pa pb => Sys2Proof.Machine.execPand g pd pa pb s
  | .por g pd pa pb => Sys2Proof.Machine.execPor g pd pa pb s
  | .pxor g pd pa pb => Sys2Proof.Machine.execPxor g pd pa pb s
  | .pnot g pd pa => Sys2Proof.Machine.execPnot g pd pa s
  | .pmov g pd pa => Sys2Proof.Machine.execPmov g pd pa s
  | .br g off => Sys2Proof.Machine.execBr g off s
  | .brl g off => Sys2Proof.Machine.execBrl g off s
  | .jr g a => Sys2Proof.Machine.execJr g a s
  | .jrl g d a => Sys2Proof.Machine.execJrl g d a s
  | .nop g => Sys2Proof.Machine.execNop g s
  | .loop g d imm => Sys2Proof.Machine.execLoop g d imm s
  | .ldB g d a off => Sys2Proof.Machine.execLdB g d a off s
  | .ldH g d a off => Sys2Proof.Machine.execLdH g d a off s
  | .ldW g d a off => Sys2Proof.Machine.execLdW g d a off s
  | .ldBn g d a off => Sys2Proof.Machine.execLdBn g d a off s
  | .ldHn g d a off => Sys2Proof.Machine.execLdHn g d a off s
  | .ldWn g d a off => Sys2Proof.Machine.execLdWn g d a off s
  | .ldD g d a off => Sys2Proof.Machine.execLdD g d a off s
  | .stB g d a off => Sys2Proof.Machine.execStB g d a off s
  | .stH g d a off => Sys2Proof.Machine.execStH g d a off s
  | .stW g d a off => Sys2Proof.Machine.execStW g d a off s
  | .stD g d a off => Sys2Proof.Machine.execStD g d a off s
  | .ldp g dh a off => Sys2Proof.Machine.execLdp g dh a off s
  | .stp g dh a off => Sys2Proof.Machine.execStp g dh a off s
  | .pref g write a off => Sys2Proof.Machine.execPref g write a off s
  | .amoAddW g d a b sc => Sys2Proof.Machine.execAmoAddW g d a b sc s
  | .amoAndW g d a b sc => Sys2Proof.Machine.execAmoAndW g d a b sc s
  | .amoOrW g d a b sc => Sys2Proof.Machine.execAmoOrW g d a b sc s
  | .amoXorW g d a b sc => Sys2Proof.Machine.execAmoXorW g d a b sc s
  | .amoMinW g d a b sc => Sys2Proof.Machine.execAmoMinW g d a b sc s
  | .amoMaxW g d a b sc => Sys2Proof.Machine.execAmoMaxW g d a b sc s
  | .amoMinnW g d a b sc => Sys2Proof.Machine.execAmoMinnW g d a b sc s
  | .amoMaxnW g d a b sc => Sys2Proof.Machine.execAmoMaxnW g d a b sc s
  | .amoSwapW g d a b sc => Sys2Proof.Machine.execAmoSwapW g d a b sc s
  | .amoFaddRxW g d a b sc => Sys2Proof.Machine.execAmoFaddRxW g d a b sc s
  | .amoAddD g d a b sc => Sys2Proof.Machine.execAmoAddD g d a b sc s
  | .amoAndD g d a b sc => Sys2Proof.Machine.execAmoAndD g d a b sc s
  | .amoOrD g d a b sc => Sys2Proof.Machine.execAmoOrD g d a b sc s
  | .amoXorD g d a b sc => Sys2Proof.Machine.execAmoXorD g d a b sc s
  | .amoMinD g d a b sc => Sys2Proof.Machine.execAmoMinD g d a b sc s
  | .amoMaxD g d a b sc => Sys2Proof.Machine.execAmoMaxD g d a b sc s
  | .amoMinnD g d a b sc => Sys2Proof.Machine.execAmoMinnD g d a b sc s
  | .amoMaxnD g d a b sc => Sys2Proof.Machine.execAmoMaxnD g d a b sc s
  | .amoSwapD g d a b sc => Sys2Proof.Machine.execAmoSwapD g d a b sc s
  | .casW g d a b sc => Sys2Proof.Machine.execCasW g d a b sc s
  | .casD g d a b sc => Sys2Proof.Machine.execCasD g d a b sc s
  | .fenceP g k1 k2 sc => Sys2Proof.Machine.execFenceP g k1 k2 sc s
  | .acqLd g d a size sext mask sc off => Sys2Proof.Machine.execAcqLd g d a size sext mask sc off s
  | .relSt g d a size mask sc off => Sys2Proof.Machine.execRelSt g d a size mask sc off s
  | .sete g e mask => Sys2Proof.Machine.execSete g e mask s
  | .clre g e => Sys2Proof.Machine.execClre g e s
  | .waite g e mask => Sys2Proof.Machine.execWaite g e mask s
  | .ringDef g a h => Sys2Proof.Machine.execRingDef g a h s
  | .rwaitF g a h mask imm => Sys2Proof.Machine.execRwaitF g a h mask imm s
  | .rwaitE g a h mask imm => Sys2Proof.Machine.execRwaitE g a h mask imm s
  | .radvP g a h mask imm => Sys2Proof.Machine.execRadvP g a h mask imm s
  | .radvC g a h mask imm => Sys2Proof.Machine.execRadvC g a h mask imm s
  | .rstat g d h => Sys2Proof.Machine.execRstat g d h s
  | .stepBegin g a => Sys2Proof.Machine.execStepBegin g a s
  | .stepProg g a => Sys2Proof.Machine.execStepProg g a s
  | .stepEnd g => Sys2Proof.Machine.execStepEnd g s
  | .fork g a mask => Sys2Proof.Machine.execFork g a mask s
  | .join g mask => Sys2Proof.Machine.execJoin g mask s
  | .exit g => Sys2Proof.Machine.execExit g s
  | .exitA g => Sys2Proof.Machine.execExitA g s
  | .rdv g mask id => Sys2Proof.Machine.execRdv g mask id s
  | .spawn g d a => Sys2Proof.Machine.execSpawn g d a s
  | .spawnC g d a => Sys2Proof.Machine.execSpawnC g d a s
  | .cfgLoad g d a b => Sys2Proof.Machine.execCfgLoad g d a b s
  | .cfgStat g d a => Sys2Proof.Machine.execCfgStat g d a s
  | .fabGo g a => Sys2Proof.Machine.execFabGo g a s
  | .binPush g a => Sys2Proof.Machine.execBinPush g a s
  | .binCnt g d a => Sys2Proof.Machine.execBinCnt g d a s
  | .fabQuiet g a => Sys2Proof.Machine.execFabQuiet g a s
  | .collRed g dh a b op w64 base size tag => Sys2Proof.Machine.execCollRed g dh a b op w64 base size tag s
  | .collBcast g dh a b w64 base size tag => Sys2Proof.Machine.execCollBcast g dh a b w64 base size tag s
  | .trap g code => Sys2Proof.Machine.execTrap g code s
  | .trapTerminate g => Sys2Proof.Machine.execTrapTerminate g s
  | .trapTerminateGang g => Sys2Proof.Machine.execTrapTerminateGang g s
  | .trapPreempt g => Sys2Proof.Machine.execTrapPreempt g s
  | .sysc g code => Sys2Proof.Machine.execSysc g code s
  | .retr g => Sys2Proof.Machine.execRetr g s
  | .idle g => Sys2Proof.Machine.execIdle g s
  | .bkpt g => Sys2Proof.Machine.execBkpt g s
  | .tlbiAll g => Sys2Proof.Machine.execTlbiAll g s
  | .tlbiAsid g a => Sys2Proof.Machine.execTlbiAsid g a s
  | .tlbiVa g a => Sys2Proof.Machine.execTlbiVa g a s
  | .tlbiVaAsid g a => Sys2Proof.Machine.execTlbiVaAsid g a s
  | .cflush g a => Sys2Proof.Machine.execCflush g a s
  | .cinv g a => Sys2Proof.Machine.execCinv g a s
  | .mfs g d r => Sys2Proof.Machine.execMfs g d r s
  | .mts g a r => Sys2Proof.Machine.execMts g a r s
  | .mtsFlags g a => Sys2Proof.Machine.execMtsFlags g a s
  | .mtsReplaycnt g a => Sys2Proof.Machine.execMtsReplaycnt g a s
  | .mtsCtxinv g a => Sys2Proof.Machine.execMtsCtxinv g a s
  | .mtsWsctl g a => Sys2Proof.Machine.execMtsWsctl g a s
  | .mtsWsctlSwreq g a => Sys2Proof.Machine.execMtsWsctlSwreq g a s
  | .mtsWtbl g a => Sys2Proof.Machine.execMtsWtbl g a s
  | .cpy g d a b o => Sys2Proof.Machine.execCpy g d a b o s
  | .cpyF g d a b o arm => Sys2Proof.Machine.execCpyF g d a b o arm s
  | .cpyR g a b o rop => Sys2Proof.Machine.execCpyR g a b o rop s
  | .cpyG g d a b o => Sys2Proof.Machine.execCpyG g d a b o s
  | .cpyS g d a b o => Sys2Proof.Machine.execCpyS g d a b o s
  | .cpyMx g d a b o => Sys2Proof.Machine.execCpyMx g d a b o s
  | .cpyPl g a b o => Sys2Proof.Machine.execCpyPl g a b o s
  | .cpyFill g a b o => Sys2Proof.Machine.execCpyFill g a b o s
  | .cpyWait g a imm => Sys2Proof.Machine.execCpyWait g a imm s
  | .mxcShape g d a b => Sys2Proof.Machine.execMxcShape g d a b s
  | .mxcOpa g d a b ty ring => Sys2Proof.Machine.execMxcOpa g d a b ty ring s
  | .mxcOpb g d a b ty ring => Sys2Proof.Machine.execMxcOpb g d a b ty ring s
  | .mxcArm g a b slot opc o => Sys2Proof.Machine.execMxcArm g a b slot opc o s
  | .mma g evt => Sys2Proof.Machine.execMma g evt s
  | .mmz g evt => Sys2Proof.Machine.execMmz g evt s
  | .mmp g a b o => Sys2Proof.Machine.execMmp g a b o s
  | .mxcDrain g a b ty acci ef satf evt => Sys2Proof.Machine.execMxcDrain g a b ty acci ef satf evt s
  | .mxcDrainD g a ndm1 acci evt => Sys2Proof.Machine.execMxcDrainD g a ndm1 acci evt s
  | .longOpComplete cl q k => Sys2Proof.Machine.execLongOpComplete cl q k s
  | .releasePerformed cl q k => Sys2Proof.Machine.execReleasePerformed cl q k s
  | .trapDelivery cl q => Sys2Proof.Machine.execTrapDelivery cl q s
  | .machineCheck cl residue => Sys2Proof.Machine.execMachineCheck cl residue s
  | .superstepEnd job gi => Sys2Proof.Machine.execSuperstepEnd job gi s
  | .dlriskPost job gi => Sys2Proof.Machine.execDlriskPost job gi s
  | .taskRetire cl => Sys2Proof.Machine.execTaskRetire cl s
  | .jobComplete job => Sys2Proof.Machine.execJobComplete job s
  | .binEnqueue cl src => Sys2Proof.Machine.execBinEnqueue cl src s
  | .bindeadlock cl => Sys2Proof.Machine.execBindeadlock cl s
  | .binDispatch cl slot => Sys2Proof.Machine.execBinDispatch cl slot s
  | .partialDispatch cl slot => Sys2Proof.Machine.execPartialDispatch cl slot s
  | .binAged cl blk => Sys2Proof.Machine.execBinAged cl blk s
  | .schedulerChoose cl => Sys2Proof.Machine.execSchedulerChoose cl s
  | .configFrameWrite cl => Sys2Proof.Machine.execConfigFrameWrite cl s
  | .slotStart cl slot => Sys2Proof.Machine.execSlotStart cl slot s
  | .regionDrained cl slot => Sys2Proof.Machine.execRegionDrained cl slot s
  | .pinnedRegionEnd cl slot => Sys2Proof.Machine.execPinnedRegionEnd cl slot s
  | .slotSwitch cl slot pos n => Sys2Proof.Machine.execSlotSwitch cl slot pos n s
  | .elementFire cl slot pos n => Sys2Proof.Machine.execElementFire cl slot pos n s
  | .killArrival cl k => Sys2Proof.Machine.execKillArrival cl k s
  | .legRoute cl slot net pos leg => Sys2Proof.Machine.execLegRoute cl slot net pos leg s
  | .legBcast cl slot net pos leg => Sys2Proof.Machine.execLegBcast cl slot net pos leg s
  | .legIdx cl slot net pos leg => Sys2Proof.Machine.execLegIdx cl slot net pos leg s
  | .legMerge cl slot net pos leg => Sys2Proof.Machine.execLegMerge cl slot net pos leg s
  | .legSteer cl slot net pos leg => Sys2Proof.Machine.execLegSteer cl slot net pos leg s
  | .legHold cl slot net pos leg => Sys2Proof.Machine.execLegHold cl slot net pos leg s
  | .portWrd cl slot tile => Sys2Proof.Machine.execPortWrd cl slot tile s
  | .portWwr cl slot tile => Sys2Proof.Machine.execPortWwr cl slot tile s
  | .portDrd cl slot tile => Sys2Proof.Machine.execPortDrd cl slot tile s
  | .portReadReturn cl slot tile => Sys2Proof.Machine.execPortReadReturn cl slot tile s
  | .portDwr cl slot tile => Sys2Proof.Machine.execPortDwr cl slot tile s
  | .portAmo cl slot tile => Sys2Proof.Machine.execPortAmo cl slot tile s
  | .portRed cl slot tile => Sys2Proof.Machine.execPortRed cl slot tile s
  | .portExp2 cl slot tile => Sys2Proof.Machine.execPortExp2 cl slot tile s
  | .portLog2 cl slot tile => Sys2Proof.Machine.execPortLog2 cl slot tile s
  | .portRcp cl slot tile => Sys2Proof.Machine.execPortRcp cl slot tile s
  | .portRsqrt cl slot tile => Sys2Proof.Machine.execPortRsqrt cl slot tile s
  | .portTanh cl slot tile => Sys2Proof.Machine.execPortTanh cl slot tile s
  | .portCvd cl slot tile => Sys2Proof.Machine.execPortCvd cl slot tile s
  | .portCvw cl slot tile => Sys2Proof.Machine.execPortCvw cl slot tile s
  | .portBenq cl slot tile => Sys2Proof.Machine.execPortBenq cl slot tile s
  | .portMove cl slot tile => Sys2Proof.Machine.execPortMove cl slot tile s
  | .portFifov cl slot tile => Sys2Proof.Machine.execPortFifov cl slot tile s
  | .portFifos cl slot tile => Sys2Proof.Machine.execPortFifos cl slot tile s
  | .portLbuf cl slot tile => Sys2Proof.Machine.execPortLbuf cl slot tile s
  | .portEos cl slot tile => Sys2Proof.Machine.execPortEos cl slot tile s
  | .ringGeneratorSlot cl slot tile gen => Sys2Proof.Machine.execRingGeneratorSlot cl slot tile gen s
  | .ringGeneratorAdvance cl slot tile gen => Sys2Proof.Machine.execRingGeneratorAdvance cl slot tile gen s
  | .arrayPortServe cl tile => Sys2Proof.Machine.execArrayPortServe cl tile s
  | .copyCommandBegin cl => Sys2Proof.Machine.execCopyCommandBegin cl s
  | .copyRingClaim cl k => Sys2Proof.Machine.execCopyRingClaim cl k s
  | .copyCommandComplete cl k => Sys2Proof.Machine.execCopyCommandComplete cl k s
  | .copyAccessFailure cl k => Sys2Proof.Machine.execCopyAccessFailure cl k s
  | .matrixNextCommand cl => Sys2Proof.Machine.execMatrixNextCommand cl s
  | .armSlotStore cl => Sys2Proof.Machine.execArmSlotStore cl s
  | .matrixRingSlot cl => Sys2Proof.Machine.execMatrixRingSlot cl s
  | .mmpEvaluation cl => Sys2Proof.Machine.execMmpEvaluation cl s
  | .matrixCommandComplete cl => Sys2Proof.Machine.execMatrixCommandComplete cl s
  | .matrixAccessFailure cl => Sys2Proof.Machine.execMatrixAccessFailure cl s
  | .homeAccess id choice => Sys2Proof.Machine.execHomeAccess id choice s
  | .l2Fill line set cls => Sys2Proof.Machine.execL2Fill line set cls s
  | .combineRequest first second => Sys2Proof.Machine.execCombineRequest first second s
  | .sheafReturn id => Sys2Proof.Machine.execSheafReturn id s
  | .pageWalkStart cl k => Sys2Proof.Machine.execPageWalkStart cl k s
  | .pageWalkComplete cl k => Sys2Proof.Machine.execPageWalkComplete cl k s
  | .schedulerCycle part => Sys2Proof.Machine.execSchedulerCycle part s
  | .gangLevelRaise job gi => Sys2Proof.Machine.execGangLevelRaise job gi s
  | .gangStart job gi => Sys2Proof.Machine.execGangStart job gi s
  | .launchWrite fn off bytes at_ => Sys2Proof.Machine.execLaunchWrite fn off bytes at_ s
  | .quantumExpiry part => Sys2Proof.Machine.execQuantumExpiry part s
  | .enginePreemptStop cl engine => Sys2Proof.Machine.execEnginePreemptStop cl engine s
  | .preemptSave cl => Sys2Proof.Machine.execPreemptSave cl s
  | .preemptSaveDone cl => Sys2Proof.Machine.execPreemptSaveDone cl s
  | .preemptLimitExpiry job gi => Sys2Proof.Machine.execPreemptLimitExpiry job gi s
  | .worldSwitchComplete part => Sys2Proof.Machine.execWorldSwitchComplete part s
  | .gangResume job gi => Sys2Proof.Machine.execGangResume job gi s
  | .currentReport cl code => Sys2Proof.Machine.execCurrentReport cl code s
  | .governorEvaluation cl => Sys2Proof.Machine.execGovernorEvaluation cl s
  | .railSlewDone cl => Sys2Proof.Machine.execRailSlewDone cl s
  | .canaryTrip cl => Sys2Proof.Machine.execCanaryTrip cl s
  | .correctableError cl => Sys2Proof.Machine.execCorrectableError cl s
  | .ageingRead cl driftPpm => Sys2Proof.Machine.execAgeingRead cl driftPpm s
  | .replan cl almanac => Sys2Proof.Machine.execReplan cl almanac s
  | .inboundWrite fn pasid off bytes requester => Sys2Proof.Machine.execInboundWrite fn pasid off bytes requester s
  | .inboundRead fn pasid off len requester => Sys2Proof.Machine.execInboundRead fn pasid off len requester s
  | .zeroLengthRead requester => Sys2Proof.Machine.execZeroLengthRead requester s
  | .atsInvalidate fn page => Sys2Proof.Machine.execAtsInvalidate fn page s
  | .hostReadTimeout id => Sys2Proof.Machine.execHostReadTimeout id s
  | .yilsinRd f => Sys2Proof.Machine.execYilsinRd f s
  | .yilsinWr f => Sys2Proof.Machine.execYilsinWr f s
  | .yilsinAmo f => Sys2Proof.Machine.execYilsinAmo f s
  | .yilsinCas f => Sys2Proof.Machine.execYilsinCas f s
  | .yilsinRdrsp f => Sys2Proof.Machine.execYilsinRdrsp f s
  | .yilsinWrack f => Sys2Proof.Machine.execYilsinWrack f s
  | .yilsinAmorsp f => Sys2Proof.Machine.execYilsinAmorsp f s
  | .yilsinFlush f => Sys2Proof.Machine.execYilsinFlush f s
  | .yilsinFlushack f => Sys2Proof.Machine.execYilsinFlushack f s
  | .linkRetrainTimeout port => Sys2Proof.Machine.execLinkRetrainTimeout port s
  | .dhaltHalt value => Sys2Proof.Machine.execDhaltHalt value s
  | .dhaltResume value => Sys2Proof.Machine.execDhaltResume value s
  | .watchdogExpiry cl slot => Sys2Proof.Machine.execWatchdogExpiry cl slot s
  | .counterForward cl => Sys2Proof.Machine.execCounterForward cl s
  | .enloRead cl requester => Sys2Proof.Machine.execEnloRead cl requester s
  | .registerWrite off value w => Sys2Proof.Machine.execRegisterWrite off value w s
  | .imggo value => Sys2Proof.Machine.execImggo value s
  | .moduleStart warm training failStep bad => Sys2Proof.Machine.execModuleStart warm training failStep bad s
  | .startWatchdogExpiry => Sys2Proof.Machine.execStartWatchdogExpiry s
  | .rootMonitorRequest r => Sys2Proof.Machine.execRootMonitorRequest r s
  | .attestationRequest nonce => Sys2Proof.Machine.execAttestationRequest nonce s
  | .clusterWithdraw cl => Sys2Proof.Machine.execClusterWithdraw cl s
  | .hostLinkDown => Sys2Proof.Machine.execHostLinkDown s
  | .granaryLinkFailure port => Sys2Proof.Machine.execGranaryLinkFailure port s
  | .yilsinPortReturn port => Sys2Proof.Machine.execYilsinPortReturn port s
  | .discardedFlit f => Sys2Proof.Machine.execDiscardedFlit f s
  | .unsupportedRequest requester => Sys2Proof.Machine.execUnsupportedRequest requester s
  | .atsTranslationCompletion id => Sys2Proof.Machine.execAtsTranslationCompletion id s

end Sys2Proof.Machine
end

