-- ==== Sys2Proof/Machine/Rounds.lean ====
section
/-! DEFINITION. The round the machine makes when nothing says what moves next: every agent of the module that could
move is given its turn, every sequencer of a resident task issues, and a clk passes (log entry 1). -/

namespace Sys2Proof.Machine

/-- n, n − 1, …, 0. -/
def downTo (n : Nat) : List Nat := (List.range n).reverse

/-- The event of a leg by its operation (R224). -/
def legMove (op cl slot net pos leg : Nat) : List Instr :=
  match op with
  | 1 => [.legRoute cl slot net pos leg]
  | 2 => [.legIdx cl slot net pos leg]
  | 3 => [.legBcast cl slot net pos leg]
  | 4 => [.legMerge cl slot net pos leg]
  | 5 => [.legSteer cl slot net pos leg]
  | 6 => [.legHold cl slot net pos leg]
  | _ => []

/-- The event of a port by its operation (R230). -/
def portMove (opr cl slot tile : Nat) : List Instr :=
  match opr with
  | 1 => [.portReadReturn cl slot tile, .portWrd cl slot tile]
  | 2 => [.portWwr cl slot tile]
  | 3 => [.portReadReturn cl slot tile, .portDrd cl slot tile]
  | 4 => [.portDwr cl slot tile]
  | 5 => [.portAmo cl slot tile]
  | 6 => [.portRed cl slot tile]
  | 7 => [.portExp2 cl slot tile]
  | 8 => [.portLog2 cl slot tile]
  | 9 => [.portRcp cl slot tile]
  | 0xA => [.portRsqrt cl slot tile]
  | 0xB => [.portTanh cl slot tile]
  | 0xC => [.portCvd cl slot tile]
  | 0xD => [.portCvw cl slot tile]
  | 0xE => [.portBenq cl slot tile]
  | 0xF => [.portReadReturn cl slot tile]
  | 0x10 => [.portMove cl slot tile]
  | 0x11 => [.portFifov cl slot tile]
  | 0x12 => [.portFifos cl slot tile]
  | 0x13 => [.portLbuf cl slot tile]
  | _ => []

/-- What a configured frame of a slot moves (R189 to R253). -/
def frameMoves (cl i f : Nat) : List Instr :=
  let a := fAddr f
  match fKind f with
  | 1 => [.slotSwitch cl i (a % 64) (a / 64), .elementFire cl i (a % 64) (a / 64)]
  | 2 =>
    let t := posTile (a % 64)
    [.ringGeneratorSlot cl i t 0, .ringGeneratorSlot cl i t 1] ++ portMove (mtOpr f) cl i t
      ++ [.portEos cl i t, .ringGeneratorAdvance cl i t 0, .ringGeneratorAdvance cl i t 1, .binEnqueue cl (32 * i + t)]
  | 3 => ((List.range 6).map fun n => legMove (swLeg f n).op cl i (a / 64) (a % 64) n).flatten
  | _ => []

/-- What a slot of a cluster moves (R17 to R28, R212). -/
def Cluster.slotMoves (k : Cluster) (cl i : Nat) : List Instr :=
  (if k.runs i then ((k.slot i).frames.map (frameMoves cl i)).flatten else [])
    ++ [.slotStart cl i, .binDispatch cl i, .partialDispatch cl i, .regionDrained cl i, .pinnedRegionEnd cl i, .watchdogExpiry cl i]

/-- What a sequencer's outstanding operations and pending causes move. -/
def Cluster.seqMoves (k : Cluster) (cl : Nat) (q : SeqId) : List Instr :=
  let n := (k.seq q).outstanding.length
  ((downTo n).map fun i => .longOpComplete cl q i) ++ ((downTo (n + 1)).map fun i => .releasePerformed cl q i)
    ++ [.trapDelivery cl q]

/-- What the copy engine and the matrix array move. -/
def Cluster.engineMoves (k : Cluster) (cl : Nat) : List Instr :=
  let n := k.copy.begun.length
  [.copyCommandBegin cl] ++ ((List.range n).map fun i => .copyRingClaim cl i)
    ++ ((downTo n).map fun i => [Instr.copyCommandComplete cl i, .copyAccessFailure cl i]).flatten
    ++ [.matrixNextCommand cl, .armSlotStore cl, .matrixRingSlot cl, .mmpEvaluation cl, .matrixCommandComplete cl,
        .matrixAccessFailure cl]

/-- What the pre-emption of a cluster moves (R361 to R364). -/
def Cluster.stopMoves (k : Cluster) (cl : Nat) : List Instr :=
  if k.task.st == .preempting then ((List.range 7).map fun e => .enginePreemptStop cl e) ++ [.preemptSave cl, .preemptSaveDone cl]
  else []

/-- What one cluster moves before its sequencers issue: its array ports, its misses, and the operations outstanding. -/
def Cluster.memoryMoves (k : Cluster) (cl : Nat) : List Instr :=
  ((k.tileQ.map (·.1 / 8)).eraseDups.map fun t => Instr.arrayPortServe cl t)
    ++ ((List.range k.misses.length).map fun i => .pageWalkStart cl i)
    ++ ((downTo k.misses.length).map fun i => .pageWalkComplete cl i)
    ++ k.seqMoves cl .control ++ k.seqMoves cl .copy ++ k.seqMoves cl .matrix

/-- What it moves after them: the engines, then the fabric (R182). -/
def Cluster.moves (k : Cluster) (cl : Nat) : List Instr :=
  k.engineMoves cl ++ ((downTo k.fab.kills.length).map fun i => .killArrival cl i)
    ++ ((List.range 4).map (k.slotMoves cl)).flatten
    ++ (if k.loads.isEmpty && !(k.staged.any fun x => x.preps.any (!·.whole)) then [] else [.configFrameWrite cl])
    ++ [.binEnqueue cl 128, .binEnqueue cl 129] ++ (k.bins.map fun e => .binAged cl e.1)
    ++ [.bindeadlock cl, .schedulerChoose cl] ++ k.stopMoves cl
    ++ [.taskRetire cl, .railSlewDone cl, .governorEvaluation cl, .counterForward cl]

/-- What a gang moves (R41 to R44, R326 to R332, R364, R369). -/
def gangMoves (job : Nat) (g : Gang) : List Instr :=
  [.superstepEnd job g.gi, .dlriskPost job g.gi, .gangLevelRaise job g.gi, .gangStart job g.gi, .gangResume job g.gi,
   .preemptLimitExpiry job g.gi]

/-- What the homes, the switches and the clusters' memory accesses move. -/
def State.memoryMoves (s : State) : List Instr :=
  (s.reqs.map fun r => Instr.homeAccess r.id 0) ++ (s.l2Fills.map fun f => .l2Fill f.line (s.setOf (64 * f.line)) f.rcls)
    ++ (s.sheaves.map fun h => .sheafReturn h.id)
    ++ (s.clusters.map fun e => e.2.memoryMoves e.1).flatten

/-- Everything else the module moves by itself. -/
def State.moves (s : State) : List Instr :=
  (s.clusters.map fun e => e.2.moves e.1).flatten
    ++ (s.jobs.map fun j => (j.gangs.map (gangMoves j.num)).flatten ++ [.jobComplete j.num]).flatten
    ++ ((List.range s.parts.length).map fun i => [Instr.quantumExpiry i, .worldSwitchComplete i, .schedulerCycle i]).flatten

/-- Every sequencer of a resident task issues, in ascending clusters. -/
def State.issues (s : State) : List Turn :=
  (s.clusters.map fun e =>
    if e.2.task.resident then [Turn.issue e.1 .control, .issue e.1 .copy, .issue e.1 .matrix] else []).flatten

/-- What stands in the output queues of the port dies, the latest first, and on its way to the host (R393, R396). -/
def State.departures (s : State) : List Turn :=
  ((downTo s.links.yQ.length).map fun i => Turn.depart i)
    ++ (s.links.hostReqs.filter fun h => !h.needAts).map fun h => .host h.id

/-- One round: packets within the module, those that leave it, and memory, the sequencers, then the module's own moves, so
that in a clk the sequencers come first, then the engines, then the ports (R182); and one clk of every cluster, taken as 1 ns.
-/
def State.round (s : State) : List Turn :=
  s.links.turned.map .packet ++ s.departures ++ s.memoryMoves.map .occur ++ s.issues ++ s.moves.map .occur ++ (s.clusters.map fun e => .clocks e.1 1) ++ [.elapse 1]

end Sys2Proof.Machine
end

