-- ==== Sys2Proof/Machine/Issue.lean ====
section
/-! DEFINITION. One turn of the module: a sequencer issues, an event comes about, time or clks pass (R107, R124, R125,
R145, R157, R168, R171, R351, R352); and the placing of an instruction where a sequencer fetches next. -/

namespace Sys2Proof.Machine

/-! ### Issue -/

/-- R408: an instruction counts once when it issues, not while it waits. -/
def State.countIssue (s : State) (i : Instr) (t : State) : State :=
  if s.me.waitAt.isNone && (t.me.pc != s.me.pc || jumps i || t.me.waitAt.isSome || t.me.exited) then
    t.mapCl s.cur.1 (·.count 1 1)
  else t

/-- An instruction that was replayed as a whole has completed: issue goes on where TRAPPC said (R351). -/
def Sequencer.goOn (x : Sequencer) (i : Instr) : Sequencer :=
  match x.resume with
  | some (at_, next) => if x.pc == at_ + w64 i.len then { x with pc := next, resume := none } else x
  | none => x

/-- The meaning of an instruction that issues; one that an outstanding operation holds back waits (R145). -/
def State.issueInstr (s : State) (i : Instr) : Result :=
  if s.me.heldBack i then .next s
  else
    match exec i s with
    | .next t => .next ((s.countIssue i t).mapSeq s.cur.1 s.cur.2 (·.goOn i))
    | r => r

/-- The bytes fetched at the pc: an instruction, or an illegal encoding whatever its guard holds (R124, R125). -/
def State.issueBytes (s : State) (bs : List Byte) : Result :=
  match decode bs with
  | .ok (i, _) => s.issueInstr i
  | .error _ => .next (s.ill (leNat (bs.take 4)))

/-- Fetch at the pc, and issue; a fetch fault is a precise trap of the pc (R125, R157). -/
def State.fetchIssue (s : State) : Result :=
  match s.fetch s.cur.1 s.cur.2 s.me.pc.toNat with
  | .ok s1 bs => s1.issueBytes bs
  | .fail s1 cause detail va => .next (s1.trap cause detail (w64 va))
  | .wait s1 => .next s1

/-- The sequencer of a task that moves is to issue: a cause ready at the boundary comes first (R168, R171, R351, R352), and before a
check by which an engine command that stalled fails (R256). -/
def State.issueTurn (s : State) : Result :=
  let x := s.me
  if !s.here.task.moves || x.idle || x.halted then .next s
  else if x.haltWant && !x.stalled then .next (if x.canHalt then s.haltNow s.cur.1 s.cur.2 else s)
  else
    match s.pendingAt s.cur.1 s.cur.2 with
    | some _ =>
      if !x.stalled || x.outstanding.any (·.isFaulted) then execTrapDelivery s.cur.1 s.cur.2 s
      else
        match s.fetchIssue with
        | .next t => if t.me.inProg == x.inProg && t.me.inSup == x.inSup then .next t
                     else execTrapDelivery s.cur.1 s.cur.2 (s.mapMe (·.endWait))
        | r => r
    | none => if x.exited || x.sleeping then .next s else s.fetchIssue

/-! ### Turns -/

/-- The cluster an event names. -/
def eventCluster : Instr → Option Nat
  | .longOpComplete cl .. | .releasePerformed cl .. | .trapDelivery cl .. | .machineCheck cl .. | .taskRetire cl |
    .bindeadlock cl | .schedulerChoose cl | .configFrameWrite cl | .copyCommandBegin cl | .matrixNextCommand cl |
    .armSlotStore cl | .matrixRingSlot cl | .mmpEvaluation cl | .matrixCommandComplete cl | .matrixAccessFailure cl |
    .preemptSave cl | .preemptSaveDone cl | .governorEvaluation cl | .railSlewDone cl | .canaryTrip cl |
    .correctableError cl | .counterForward cl | .clusterWithdraw cl | .binEnqueue cl .. | .binDispatch cl .. |
    .partialDispatch cl .. | .slotStart cl .. | .regionDrained cl .. | .pinnedRegionEnd cl .. |
    .watchdogExpiry cl .. | .binAged cl .. | .slotSwitch cl .. | .elementFire cl .. | .killArrival cl .. |
    .legRoute cl .. | .legBcast cl .. | .legIdx cl .. | .legMerge cl .. | .legSteer cl .. | .legHold cl .. |
    .portWrd cl .. | .portWwr cl .. | .portDrd cl .. | .portReadReturn cl .. | .portDwr cl .. | .portAmo cl .. |
    .portRed cl .. | .portExp2 cl .. | .portLog2 cl .. | .portRcp cl .. | .portRsqrt cl .. | .portTanh cl .. |
    .portCvd cl .. | .portCvw cl .. | .portBenq cl .. | .portMove cl .. | .portFifov cl .. | .portFifos cl .. |
    .portLbuf cl .. | .portEos cl .. | .ringGeneratorSlot cl .. | .ringGeneratorAdvance cl .. |
    .arrayPortServe cl .. | .copyRingClaim cl .. | .copyAccessFailure cl .. | .copyCommandComplete cl .. |
    .pageWalkStart cl .. | .pageWalkComplete cl .. | .enginePreemptStop cl .. | .currentReport cl .. |
    .ageingRead cl .. | .replan cl .. | .enloRead cl .. => some cl
  | _ => none

/-- A packet between partitions of the module arrives (R79, R397). -/
def State.packet (s : State) (f : Flit) : Result :=
  match f.kind with
  | 0 => execYilsinRd f s
  | 1 => execYilsinWr f s
  | 2 => execYilsinAmo f s
  | 3 => execYilsinRdrsp f s
  | 4 => execYilsinWrack f s
  | 5 => execYilsinAmorsp f s
  | 6 => execYilsinFlush f s
  | 7 => execYilsinFlushack f s
  | 8 => execYilsinCas f s
  | _ => .next s

/-- An event in which an engine begins work: a copy run, a k-block or a plane, the firing of a digit element (R375). -/
def beginsWork : Instr → Bool
  | .copyCommandComplete .. | .copyAccessFailure .. | .mmpEvaluation .. | .matrixCommandComplete .. | .matrixAccessFailure ..
  | .elementFire .. => true
  | _ => false

/-- The event carries on what its engine has begun. -/
def Cluster.midWork (k : Cluster) : Instr → Bool
  | .copyCommandComplete _ i | .copyAccessFailure _ i => k.copy.begun[i % 4]?.any (·.going)
  | .mmpEvaluation _ | .matrixCommandComplete _ | .matrixAccessFailure _ => k.mat.cur.any (·.going)
  | _ => false

/-- The limiter holds the event back: it comes in a later clk (R375). -/
def State.holdsBack (s : State) (e : Instr) : Bool :=
  beginsWork e && (eventCluster e).any fun c => (s.cluster c).throttled && !(s.cluster c).midWork e

/-- The packet that stands at place i of the output queues of the port dies leaves by its port, behind those of its path (R396). -/
def State.depart (s : State) (i : Nat) : State :=
  match s.links.yQ[i]? with
  | none => s
  | some f =>
    let ahead := (s.links.yQ.take i).any fun g => g.path == f.path && g.dmod == f.dmod
    let down := (s.outPort f.dmod f.path).any s.links.yDown.contains
    if ahead || down then s
    else { s with links := { s.links with yQ := dropNth s.links.yQ i, yOut := s.links.yOut ++ [f] } }

/-- What a turn does; a cluster the module does not have is no turn of any agent (R1). -/
def State.turn (s : State) : Turn → Result
  | .issue c q =>
    if c < 512 then (if (s.cluster c).throttled then .next s else ({ s with cur := (c, q) } : State).issueTurn)
    else .fault .agentAbsent
  | .occur e => if (eventCluster e).all (· < 512) then (if s.holdsBack e then .next s else exec e s) else .fault .agentAbsent
  | .packet f => s.packet f
  | .depart i => .next (s.depart i)
  | .host id => .next (s.hostServe id)
  | .elapse ns => .next { s with now := s.now + ns }
  | .clocks c n => if c < 512 then .next (s.clocks c n) else .fault .agentAbsent

/-- The first turn of the agenda; an empty agenda is filled with a round. -/
def State.move (s : State) : Result :=
  match s.agenda with
  | [] => .next { s with agenda := s.round }
  | t :: r => ({ s with agenda := r } : State).turn t

/-! ### Placing an instruction -/

/-- The sequencer an instruction word belongs to, by its major opcode (R123, R124). -/
def seqOfMajor (maj : Nat) : SeqId := if maj == 0x38 then .copy else if maj == 0x3C then .matrix else .control

/-- A sequencer that stands at address 0 with nothing outstanding or pending. -/
def Sequencer.atZero (x : Sequencer) : Sequencer :=
  { x with pc := 0, idle := false, exited := false, sleeping := false, halted := false, haltWant := false, outstanding := [], waits := [],
           engFaults := [], engPage := false, dlrisk := none, mchk := none }

/-- The first page of the partition's memory, mapped for every access of every context at virtual address 0. -/
def firstPage (p : Partition) : TlbEntry :=
  { asid := 0, global := true, vbase := 0, size := 65536, pbase := p.module_ * 2 ^ 45, r := true, w := true, x := true,
    pin := false, cmp := false, cls := 0 }

/-- Cluster 0 with a running task and the page in its TLB. -/
def Cluster.running (k : Cluster) (q : SeqId) (e : TlbEntry) : Cluster :=
  { k.setSeq q (k.seq q).atZero with
    task := { k.task with resident := true, st := .running }, tlb := e :: k.tlb.take 255 }

/-- The words of an instruction placed at virtual address 0 of a running task of cluster 0, whose sequencer is next to
issue (log entry 10). -/
def State.placeWord (s : State) (nbits w : Nat) : State :=
  let v := w % 2 ^ nbits
  let q := seqOfMajor (v % 2 ^ 32 / 2 ^ 26)
  let p := s.part 0
  let s1 := s.mapCl 0 fun k => k.running q (firstPage p)
  { s1 with cur := (0, q), agenda := [.issue 0 q], mem := s1.mem.write (p.first * 2 ^ 45) (leBytes 8 v) }

end Sys2Proof.Machine
end

