-- ==== Sys2Proof/Machine/Step.lean ====
section
/-! DEFINITION. One step of the module, and an instruction placed where the next step fetches. -/

namespace Sys2Proof.Machine

/-- One step: the first turn of the agenda (log entry 1). -/
def step (s : State) : Host.Outcome State Fault Refusal := s.move

/-- The state with an instruction where the next step fetches its instruction (log entry 10). -/
def State.withFetchWord (s : State) (nbits w : Nat) : State := s.placeWord nbits w

end Sys2Proof.Machine
end

