-- ==== Sys2Proof/Machine/Reads.lean ====
section
/-! DEFINITION. What a read of a register outside the clusters returns: the power block, the debug block, the boot block
and BAR 2 (R386, R387, R389, R393, R400, R407, R408, R419). A read changes nothing but for ENLO's latch, which is an
event of its own. -/

namespace Sys2Proof.Machine

/-- Fields at rising bit offsets, as one register. -/
def packed (l : List (Nat × Nat)) : Word := w64 (l.foldl (fun acc e => acc + e.2 * 2 ^ e.1) 0)

/-- The block of a cluster in the power block (R387); ENHI is the requester's shadow (R386). -/
def Power.read (p : Power) (requester off : Nat) : Word :=
  match off with
  | 0x00 => w64 (p.count % 2 ^ 32)
  | 0x04 => w64 (p.enhi.get requester 0 % 2 ^ 32)
  | 0x08 => packed [(0, p.n), (6, p.vset), (14, p.thr), (18, p.moff), (23, p.short.toNat), (24, p.wrap.toNat), (25, p.insvc.toNat)]
  | 0x10 => packed [(0, p.code), (10, p.seq)]
  | 0x18 => packed [(0, p.ecap), (32, p.icap)]
  | 0x20 => packed [(0, p.mevt), (16, p.cec)]
  | _ => 0

/-- The power block (R386, R387). -/
def State.readPower (s : State) (requester off : Nat) : Word :=
  if off == 0 then s.govctl
  else if 0x100 ≤ off && off < 0x140 && off % 8 == 0 then w64 (s.die ((off - 0x100) / 8)).edie
  else if 0x1000 ≤ off && off < 0x1000 + 0x40 * 512 then
    (s.cluster ((off - 0x1000) / 0x40)).power.read requester ((off - 0x1000) % 0x40)
  else 0

/-- DSTAT of a cluster (R400). -/
def Cluster.dstat (k : Cluster) : Word :=
  let mask (p : Slot → Bool) : Nat := (List.range 4).foldl (fun acc i => acc + if p (k.slot i) then 2 ^ i else 0) 0
  packed [(0, mask (·.halted)), (4, mask (·.haltPending)),
    (8, k.seqC.halted.toNat + 2 * k.seqY.halted.toNat + 4 * k.seqM.halted.toNat), (11, k.wdog.toNat), (12, k.task.ctx % 2 ^ 14)]

/-- An item of a sequencer (R400). -/
def Cluster.item (k : Cluster) (q : SeqId) (n : Nat) : Word :=
  let x := k.seq q
  if n < 32 then x.reg (Fin.ofNat 32 n)
  else
    match n with
    | 32 => w64 ((List.range 8).foldl (fun acc i => acc + if x.pred (Fin.ofNat 8 i) then 2 ^ i else 0) 0)
    | 33 => x.pc
    | 34 => k.task.flags
    | 35 => x.frame.cause
    | _ => 0

/-- DRVAL: the selected item of a halted sequencer; 0 otherwise (R400). -/
def State.drval (s : State) : Word :=
  let v := s.dbg.drsel
  let k := s.cluster (bits v 8 0)
  let get (q : SeqId) : Word := if (k.seq q).halted then k.item q (bits v 16 11) else 0
  match bits v 10 9 with
  | 0 => get .control
  | 1 => get .copy
  | 2 => get .matrix
  | _ => 0

/-- The debug block (R400, R407). -/
def State.readDebug (s : State) (off : Nat) : Word :=
  let d := s.dbg
  if h : off < 0x80 ∧ off % 8 = 0 then d.darm[off / 8]'(by omega)
  else if h : 0x200 ≤ off ∧ off < 0x240 ∧ off % 8 = 0 then d.lf[(off - 0x200) / 8]'(by omega)
  else if 0x1000 ≤ off && off < 0x2000 && off % 8 == 0 then (s.cluster ((off - 0x1000) / 8)).dstat
  else
    match off with
    | 0x88 => d.drsel
    | 0x90 => s.drval
    | 0x100 => d.trbase
    | 0x108 => w64 d.trlog
    | 0x110 => w64 d.trwr
    | 0x118 => w64 d.trrd
    | 0x120 => w64 d.trdrop
    | 0x128 => w64 d.tren
    | 0x130 => w64 d.wdlim
    | _ => 0

/-- The boot block (R419). -/
def State.readBoot (s : State) (off : Nat) : Word :=
  match off with
  | 0x00 => w64 s.boot.bootst
  | 0x08 => s.boot.imgaddr
  | 0x10 => w64 s.boot.imglen
  | _ => 0

/-- BAR 0 of the physical function, and the same offsets for the management cores (R386, R389, R400, R419). -/
def State.readBar0 (s : State) (requester off : Nat) : Word :=
  if 0x300000 ≤ off then s.readDebug (off - 0x300000)
  else if 0x200000 ≤ off then s.readPower requester (off - 0x200000)
  else if 0x100000 ≤ off then s.readBoot (off - 0x100000)
  else 0

/-- A context's counters (R408). -/
def Ctx.readCounter (x : Ctx) (off : Nat) : Word :=
  if off == 0 then x.cntctl
  else if off == 8 then x.cntev
  else if h : 0x10 ≤ off ∧ off < 0x50 ∧ off % 8 = 0 then w64 (x.cnt[(off - 0x10) / 8]'(by omega))
  else 0

/-- A 64-bit word of a function's MSI-X table: the mask of a vector stands in bit 32 of its entry's second half (R389; log
entry 36). -/
def State.readVector (s : State) (fn i : Nat) : Word :=
  let v := (s.links.msixTab.get (128 * fn + i) 0).toNat
  w64 (if i % 2 == 1 then v % 2 ^ 32 + if s.links.msixOpen.contains (fn, i / 2) then 0 else 2 ^ 32 else v)

/-- BAR 2 of a function: launch windows read as zero, as does every offset in no listed range (R389, R393, R408). -/
def State.readBar2 (s : State) (fn off : Nat) : Word :=
  if 0x40000 ≤ off && off < 0x40400 && off % 8 == 0 then s.readVector fn ((off - 0x40000) / 8)
  else if off == 0x41000 then packed ((List.range 64).map fun k => (k, (s.links.msixPend.contains (fn, k)).toNat))
  else if 0x42000 ≤ off && off < 0x42200 && off % 8 == 0 then (s.ctx (64 * fn + (off - 0x42000) / 8)).hpasid
  else if 0x48000 ≤ off && off < 0x4A000 then (s.ctx (64 * fn + (off - 0x48000) / 128)).readCounter ((off - 0x48000) % 128)
  else 0

/-- What a register read returns; none is Unsupported Request: of a peer, of a function above 255, and in recovery of all but
the physical function with BAR 0, where no management core but the root monitor's runs (R388, R389, R418). -/
def State.readRegister (s : State) (w : Writer) (requester off : Nat) : Option Word :=
  let up (fn bar : Nat) : Bool := fn < 256 && (s.boot.st != 6 || (fn == 0 && bar == 0))
  match w with
  | .peer _ _ => none
  | .firmware => if s.boot.st == 6 then none else some (s.readBar0 requester off)
  | .config fn => if up fn 0 then some (w64 (if off == atsControl && s.links.atsOn.contains fn then 2 ^ 15 else 0)) else none
  | .host fn bar =>
    if !up fn bar then none
    else if bar == 0 then some (if fn == 0 then s.readBar0 requester off else 0)
    else some (if bar == 2 then s.readBar2 fn off else 0)

end Sys2Proof.Machine
end

