-- ==== Sys2Proof/Safety.lean ====
section
/-! DEFINITION. The terms statements are made in: what a turn of one sequencer leaves as it was, what an instruction that
completes writes, what a trap leaves, and the invariants of the machine. -/

namespace Sys2Proof.Machine

/-! ### Frames -/

/-- t is s but for the sequencer that issues: every other cluster, the rest of its own, every memory, every partition,
context, job, link and block of the module is as it was. -/
structure OnlySeq (s t : State) : Prop where
  module_ : ({ t with clusters := s.clusters } : State) = s
  others : ∀ c, c ≠ s.cur.1 → t.cluster c = s.cluster c
  rest : ∀ x, t.here.setSeq s.cur.2 x = s.here.setSeq s.cur.2 x
  bytes : ∀ key n, t.rawRead key n = s.rawRead key n
  hostBytes : ∀ a, t.host.readByte a = s.host.readByte a

/-- t is s but for cluster c: every other cluster, every memory outside c's tiles, every partition, context, job, link and
block of the module is as it was. -/
structure OnlyCluster (s t : State) (c : Nat) : Prop where
  module_ : ({ t with clusters := s.clusters } : State) = s
  others : ∀ d, d ≠ c → t.cluster d = s.cluster d
  bytes : ∀ key n, key < 2 ^ 60 → t.rawRead key n = s.rawRead key n
  hostBytes : ∀ a, t.host.readByte a = s.host.readByte a

/-- y is x but for registers, predicates and the pc. -/
def Sequencer.OnlyRegs (x y : Sequencer) : Prop := ({ y with regs := x.regs, preds := x.preds, pc := x.pc } : Sequencer) = x

/-- The instruction completes, writes v to s[d] (to no register when d is s0), goes on at pc', and leaves everything
else. -/
def WritesTo (s : State) (i : Instr) (d : Reg) (v pc' : Word) : Prop :=
  ∃ t, exec i s = .next t ∧ OnlySeq s t ∧ s.me.OnlyRegs t.me ∧ t.me.pc = pc'
    ∧ (∀ r, t.me.reg r = if r = d ∧ r ≠ 0 then v else s.me.reg r) ∧ ∀ p, t.me.pred p = s.me.pred p

/-- The instruction completes, writes v to s[d] and goes on at pc + 4. -/
def Writes (s : State) (i : Instr) (d : Reg) (v : Word) : Prop := WritesTo s i d v (s.me.pc + 4)

/-- The instruction completes, writes v to pd, goes on at pc + 4, and leaves everything else. -/
def WritesPred (s : State) (i : Instr) (d : PReg) (v : Bool) : Prop :=
  ∃ t, exec i s = .next t ∧ OnlySeq s t ∧ s.me.OnlyRegs t.me ∧ t.me.pc = s.me.pc + 4
    ∧ (∀ p, t.me.pred p = if p = d ∧ p ≠ 0 then v else s.me.pred p) ∧ ∀ r, t.me.reg r = s.me.reg r

/-- The instruction completes, goes on at pc', and leaves everything else. -/
def GoesTo (s : State) (i : Instr) (pc' : Word) : Prop :=
  ∃ t, exec i s = .next t ∧ OnlySeq s t ∧ s.me.OnlyRegs t.me ∧ t.me.pc = pc'
    ∧ (∀ r, t.me.reg r = s.me.reg r) ∧ ∀ p, t.me.pred p = s.me.pred p

/-- The long operation o has issued as the youngest outstanding one and the pc stands behind its instruction; registers
and predicates are as they were, and so is everything else. -/
def Issues (s : State) (i : Instr) (len : Nat) (o : LongOp) : Prop :=
  ∃ t, exec i s = .next t ∧ OnlySeq s t
    ∧ t.me = { s.me with pc := s.me.pc + w64 len, serial := s.me.serial + 1, outstanding := s.me.outstanding ++ [o] }

/-- What a trap lets go beside the sequencer: the record reads it has sent, and the reports of failed walks that no access has
taken (R340, R351). -/
def State.unasked (u : State) : State := (u.dropAsks u.myAgent).mapHere (·.dropReports)

/-- An instruction of a sequencer at PL 0 traps, as the machine stands in u once the instruction's own reads have been made:
the frame holds bits 54:0 of the pc (R147), the cause with its DETAIL and DONE, the
argument and the replay queue; the sequencer goes to its handler; every register is as the sequencer's completed
operations leave it, and everything outside the sequencer is as it was, but for what the trap lets go. -/
def TrapsFrom (s u : State) (i : Instr) (cause detail : Nat) (arg pc : Word) (done : Bool) : Prop :=
  ∃ t, exec i s = .next t ∧ OnlySeq u.unasked t
    ∧ t.me.frame = ⟨w64 (bits pc 54 0), causeWord cause detail done, arg, u.me.settle.outstanding⟩
    ∧ t.me.pc = (u.handler u.cur.1 u.cur.2 cause detail).2
    ∧ t.me.pl = (u.handler u.cur.1 u.cur.2 cause detail).1
    ∧ (u.me.inProg = true → t.me.shadow = some u.me.frame)
    ∧ t.me.outstanding = [] ∧ (∀ r, t.me.reg r = u.me.settle.reg r) ∧ ∀ p, t.me.pred p = u.me.pred p

/-- The same of an instruction that reads nothing of memory. -/
abbrev Traps (s : State) (i : Instr) (cause detail : Nat) (arg pc : Word) (done : Bool) : Prop :=
  TrapsFrom s s i cause detail arg pc done

/-- The checks of R158 pass: a canonical address, a multiple of al, with none of its n bytes in the hole. -/
abbrev EaOk (ea : Word) (al n : Nat) : Prop :=
  ea.toNat < 2 ^ 55 ∧ ea.toNat % al = 0 ∧ (ea.toNat + n ≤ 0x7FF000200000 ∨ 0x800000000000 ≤ ea.toNat)

/-- A long operation as it issues (R145). -/
def State.op (s : State) (i : Instr) (kind : OpKind) (ea d1 d2 : Word) (dst : Nat) : LongOp :=
  ⟨i, s.me.pc, kind, ea, d1, d2, dst, none, none, .unsent, s.me.serial, s.me.seenBy 0, none⟩

/-- A sequencer at PL 0 that can take a trap at once. -/
abbrev State.CanTrap (s : State) : Prop := s.me.pl = false ∧ ∀ o ∈ s.me.outstanding, o.isSent = false

/-- The cluster belongs to a partition; while no table gives one, to that of eight dies (R314). -/
abbrev State.InPart (s : State) (c : Nat) : Prop := s.parts = [] ∧ c < 512 ∨ ∃ p ∈ s.parts, p.holds c = true

/-- The instruction or event completes in a state with the property. -/
def Yields (s : State) (i : Instr) (P : State → Prop) : Prop := ∃ t, exec i s = .next t ∧ P t

/-- k with the marks that a release leaves between the commands of the engines, and the events, of k' (R84, R179). -/
def Cluster.withMarks (k k' : Cluster) : Cluster :=
  { k with events := k'.events, evRel := k'.evRel, evAt := k'.evAt,
           copy := { k.copy with before := k'.copy.before, floor := k'.copy.floor, mark := k'.copy.mark },
           mat := { k.mat with before := k'.mat.before, floor := k'.mat.floor, mark := k'.mat.mark } }

/-- y is x but for its pc, the waits it keeps, what it has observed and when, and IDLE. -/
def Sequencer.Waited (x y : Sequencer) : Prop :=
  ({ y with pc := x.pc, waits := x.waits, seen := x.seen, past := x.past, obs := x.obs, acqAt := x.acqAt, sleeping := x.sleeping }
    : Sequencer) = x

/-- Nothing of the issuing sequencer is on its way: a release it executes performs at once (R91, R97). -/
abbrev State.Quiet (s : State) : Prop :=
  s.me.outstanding = [] ∧ s.me.waitAt = none ∧ s.here.openCmds s.cur.2 = [] ∧ s.here.usedMo = [] ∧ s.here.usedDo = []
    ∧ s.here.usedSy = [] ∧ s.here.usedHost = false ∧ s.postedOut s.cur.1 true = false ∧ s.zeroOut s.cur.1 = false

/-- What t has of the issuing sequencer's cluster is what s has, but for what f names; the sequencers keep all but their
waits, and the one that issued stands at pc'. -/
def State.HereBut (s t : State) (pc' : Word) (f : Cluster → Cluster) : Prop :=
  OnlyCluster s t s.cur.1 ∧ f t.here = ({ s.here with seqC := t.here.seqC, seqY := t.here.seqY, seqM := t.here.seqM } : Cluster)
    ∧ (∀ q, (s.here.seq q).Waited (t.here.seq q)) ∧ t.me.pc = pc' ∧ ∀ q, q ≠ s.cur.2 → (t.here.seq q).pc = (s.here.seq q).pc

/-- The issuing sequencer finds its records, one after another: each address passes the checks of R158, nothing of its own
holds the read back, and the read succeeds; u is the machine once they have been made. -/
def State.Reads (s : State) : List (Word × List Byte) → State → Prop
  | [], u => u = s.dropLines s.myAgent
  | e :: r, u => EaOk e.1 64 64 ∧ s.me.outstanding.any (s.blocksRecord s.cur.1 s.cur.2 e.1.toNat 64) = false
      ∧ ∃ s1 : State, s.vread (s.seqWho s.cur.1 s.cur.2) e.1.toNat 64 = .ok s1 e.2 ∧ (s1.mapMe (·.access)).Reads r u

/-- One record. -/
abbrev State.Record (s : State) (va : Word) (bs : List Byte) (u : State) : Prop := s.Reads [(va, bs)] u

/-- The same while an engine command takes its place (R256). -/
abbrev State.EngineReads (s : State) (l : List (Word × List Byte)) (u : State) : Prop :=
  (s.mapMe (·.setWait .placing)).Reads l u

/-- The task of cluster c has failed with a code, cause and detail (R356): its sequencers have stopped, its bins and
queues are empty and no region runs. -/
def Cluster.Failed (k : Cluster) (code cause detail : Nat) : Prop :=
  k.task.st = .failing ∧ k.task.code = code ∧ k.task.cause = cause ∧ k.task.detail = detail
    ∧ (∀ q, (k.seq q).idle = true ∧ (k.seq q).exited = true ∧ ∀ o ∈ (k.seq q).outstanding, o.isSent = true)
    ∧ k.binRecords = [] ∧ k.copy.queue = [] ∧ k.copy.begun = [] ∧ k.mat.queue = [] ∧ k.mat.cur = none ∧ k.loads = []
    ∧ ∀ i, (k.slot i).st = .empty ∨ (k.slot i).st = .idle

/-- The task of cluster c can still fail. -/
abbrev Cluster.Alive (k : Cluster) : Prop := k.task.resident = true ∧ k.task.st ≠ .failing

/-- Memory n is m with the bytes bs from a up: every byte outside them reads as before. -/
def Memory.Stores (m n : Memory) (a : Nat) (bs : List Byte) : Prop :=
  ∀ x, n.readByte x = if a ≤ x ∧ x < a + bs.length then bs.getD (x - a) 0 else m.readByte x

/-- Operation number n of sequencer q of cluster c, a load, has performed with these bytes (R145, R159). -/
def Loaded (s t : State) (c : Nat) (q : SeqId) (n : Nat) (bs : List Byte) : Prop :=
  ∀ o size sx, (s.seq c q).outstanding.find? (·.serial == n) = some o → o.kind = .load size sx →
    (t.seq c q).outstanding.find? (·.serial == n) = some { o with phase := .done (extend size sx bs) 0 }

/-- The port q of a region that runs, with an operation that has not ended and with nothing of its own to emit. -/
abbrev State.PortReady (s : State) (q : PortAt) (op : Nat) : Prop :=
  (s.cluster q.cl).portAt q.cl q.slot q.tile = some q ∧ q.opr = op ∧ (s.cluster q.cl).runs q.slot = true
    ∧ (s.cluster q.cl).saving = false ∧ ((s.cluster q.cl).portOf q).outQ = [] ∧ ((s.cluster q.cl).portOf q).coQ = []
    ∧ ((s.cluster q.cl).portOf q).eosDue = false ∧ ((s.cluster q.cl).portOf q).ended = false

/-- The beats that have come on a channel of a cluster: all of its buffer but one that waits to cross (R223). -/
def State.beats (s : State) (c key : Nat) : List Token :=
  let x := (s.cluster c).chan key
  if x.late then x.buf.dropLast else x.buf

/-- A channel of a cluster but for whether its newest beat still waits to cross (R223). -/
def Cluster.carried (k : Cluster) (key : Nat) : Chan := { k.chan key with late := false }

/-- The list l is the array's fired slots with `slot` among them: behind those that fired in earlier clks, and of those that
fired in this clk behind the lower numbers (R278). -/
def Matrix.Lines (m : Matrix) (clk slot : Nat) (l : List Nat) : Prop :=
  ∃ a b, m.fired = a ++ b ∧ l = a ++ slot :: b ∧ (∀ x ∈ a, m.firedAt.get x 0 ≠ clk ∨ x < slot)
    ∧ ∀ x, b.head? = some x → m.firedAt.get x 0 = clk ∧ slot ≤ x

/-- The instruction takes no time of its own: the state stays as it is, and it is issued again (R188). -/
def Waits (s : State) (i : Instr) : Prop := exec i s = .next s

/-! ### Invariants -/

/-- Every memory of the module is in its canonical form. -/
def State.MemOk (s : State) : Prop :=
  s.mem.wf = true ∧ s.host.wf = true ∧ (∀ c, (s.cluster c).tiles.wf = true) ∧ ∀ k, (s.savedCl.get k .reset).tiles.wf = true

/-- The reserved fields of a partition's registers read as zero (R308, R320). -/
def Partition.RegsOk (p : Partition) : Prop :=
  p.svec.toNat &&& sregRz 0x401 = 0 ∧ p.svasid < 2 ^ 14 ∧ p.ctxtbl.toNat &&& sregRz 0x418 = 0
    ∧ p.wtbl.toNat &&& sregRz 0x41A = 0 ∧ p.dropcnt < 2 ^ 32

def State.PartsOk (s : State) : Prop := ∀ p ∈ s.parts, p.RegsOk

end Sys2Proof.Machine
end

