-- ==== Sys2Proof/Certificates/Slice0/Obligations.lean ====
section
/-! DEFINITION. The statements for the provers. -/

open Sys2Proof Sys2Proof.Machine

/-! ### Registers, predicates and control flow (R107 to R156) -/

/-- R148 but division: each register form writes the value its row gives to s[d], and nothing else changes. -/
def Obligations.RegisterForms : Prop :=
  ∀ (s : State) (g : Guard) (d a b : Reg), s.guardOn g = true →
    let x := s.me.reg a
    let y := s.me.reg b
    Writes s (.add g d a b) d (x + y) ∧ Writes s (.sub g d a b) d (x - y) ∧ Writes s (.mul g d a b) d (x * y)
    ∧ (∃ v : Word, v.toInt = x.toInt * y.toInt / 2 ^ 64 ∧ Writes s (.mulh g d a b) d v)
    ∧ (∃ v : Word, v.toNat = x.toNat * y.toNat / 2 ^ 64 ∧ Writes s (.mulhn g d a b) d v)
    ∧ Writes s (.and g d a b) d (x &&& y) ∧ Writes s (.or g d a b) d (x ||| y) ∧ Writes s (.xor g d a b) d (x ^^^ y)
    ∧ Writes s (.andn g d a b) d (x &&& ~~~y)
    ∧ Writes s (.shl g d a b) d (BitVec.ofNat 64 (x.toNat * 2 ^ (y.toNat % 64)))
    ∧ Writes s (.shr g d a b) d (BitVec.ofNat 64 (x.toNat / 2 ^ (y.toNat % 64)))
    ∧ (∃ v : Word, v.toInt = x.toInt / 2 ^ (y.toNat % 64) ∧ Writes s (.sra g d a b) d v)
    ∧ (∃ v : Word, v.toInt = Min.min x.toInt y.toInt ∧ Writes s (.min g d a b) d v)
    ∧ (∃ v : Word, v.toInt = Max.max x.toInt y.toInt ∧ Writes s (.max g d a b) d v)
    ∧ (∃ v : Word, v.toNat = Min.min x.toNat y.toNat ∧ Writes s (.minn g d a b) d v)
    ∧ (∃ v : Word, v.toNat = Max.max x.toNat y.toNat ∧ Writes s (.maxn g d a b) d v)
    ∧ (∃ v : Word, v.toNat ≤ 64 ∧ (∀ i, i < v.toNat → x.getLsbD (63 - i) = false)
        ∧ (v.toNat < 64 → x.getLsbD (63 - v.toNat) = true) ∧ Writes s (.clz g d a) d v)
    ∧ (∃ v : Word, v.toNat ≤ 64 ∧ (∀ i, i < v.toNat → x.getLsbD i = false)
        ∧ (v.toNat < 64 → x.getLsbD v.toNat = true) ∧ Writes s (.ctz g d a) d v)
    ∧ ∃ v : Word, v.toNat = (Finset.univ.filter fun i : Fin 64 => x.getLsbD i.val = true).card ∧ Writes s (.popc g d a) d v

/-- R148, R145: a division issues as a long operation that carries its quotient or remainder, with the results of the
table for a zero divisor and for −2^63 / −1; LONG_OP_COMPLETE writes it to s[d] and takes the operation away. -/
def Obligations.Divisions : Prop :=
  ∀ (s : State) (g : Guard) (d a b : Reg), s.guardOn g = true →
    let x := s.me.reg a
    let y := s.me.reg b
    let op (i : Instr) (v : Word) : LongOp := { s.op i .alu 0 0 0 d.val with phase := .done v 0 }
    (∃ v : Word, Issues s (.div g d a b) 4 (op (.div g d a b) v)
      ∧ (y = 0 → v = 0) ∧ (y ≠ 0 → ¬(x.toInt = -2 ^ 63 ∧ y.toInt = -1) → v.toInt = x.toInt.tdiv y.toInt)
      ∧ (x.toInt = -2 ^ 63 → y.toInt = -1 → v.toInt = -2 ^ 63))
    ∧ (∃ v : Word, Issues s (.divn g d a b) 4 (op (.divn g d a b) v)
      ∧ (y = 0 → v = 0) ∧ (y ≠ 0 → v.toNat = x.toNat / y.toNat))
    ∧ (∃ v : Word, Issues s (.rem g d a b) 4 (op (.rem g d a b) v)
      ∧ (y = 0 → v = x) ∧ (y ≠ 0 → ¬(x.toInt = -2 ^ 63 ∧ y.toInt = -1) → v.toInt = x.toInt.tmod y.toInt)
      ∧ (x.toInt = -2 ^ 63 → y.toInt = -1 → v = 0))
    ∧ (∃ v : Word, Issues s (.remn g d a b) 4 (op (.remn g d a b) v)
      ∧ (y = 0 → v = x) ∧ (y ≠ 0 → v.toNat = x.toNat % y.toNat))

/-- R149 to R151: the immediate, bitfield and constant forms. -/
def Obligations.ImmediateForms : Prop :=
  ∀ (s : State) (g : Guard) (d a : Reg), s.guardOn g = true →
    let x := s.me.reg a
    (∀ imm : BitVec 12,
      Writes s (.addi g d a imm) d (x + imm.signExtend 64) ∧ Writes s (.andi g d a imm) d (x &&& imm.zeroExtend 64)
      ∧ Writes s (.ori g d a imm) d (x ||| imm.zeroExtend 64) ∧ Writes s (.xori g d a imm) d (x ^^^ imm.zeroExtend 64))
    ∧ (∀ n : Fin 64,
      Writes s (.shli g d a n) d (BitVec.ofNat 64 (x.toNat * 2 ^ n.val))
      ∧ Writes s (.shri g d a n) d (BitVec.ofNat 64 (x.toNat / 2 ^ n.val))
      ∧ ∃ v : Word, v.toInt = x.toInt / 2 ^ n.val ∧ Writes s (.srai g d a n) d v)
    ∧ (∀ pos wm1 : Fin 64, pos.val + wm1.val + 1 ≤ 64 →
      (∃ v : Word, (∀ i, v.getLsbD i = (decide (i ≤ wm1.val) && x.getLsbD (pos.val + i))) ∧ Writes s (.bfx g d a pos wm1) d v)
      ∧ ∃ v : Word, (∀ i, v.getLsbD i = if pos.val ≤ i ∧ i ≤ pos.val + wm1.val then x.getLsbD (i - pos.val)
          else (s.me.reg d).getLsbD i) ∧ Writes s (.bfi g d a pos wm1) d v)
    ∧ (∀ imm : BitVec 17, Writes s (.movi g d imm) d (imm.signExtend 64)
      ∧ ∃ v : Word, v = s.me.pc + BitVec.ofInt 64 (imm.toInt * 4) ∧ Writes s (.addpc g d imm) d v)
    ∧ ∀ imm : BitVec 16, ∃ v : Word, v.toNat = (s.me.reg d).toNat * 2 ^ 16 % 2 ^ 64 + imm.toNat ∧ Writes s (.movs g d imm) d v

/-- R152, R153: the compares and the predicate logic write their predicate, which p0 never is, and nothing else. -/
def Obligations.Predicates : Prop :=
  ∀ (s : State) (g : Guard) (pd pa pb : PReg) (a b : Reg) (imm : BitVec 12), s.guardOn g = true →
    let x := s.me.reg a
    let y := s.me.reg b
    let i := imm.toInt
    let n := imm.toNat
    WritesPred s (.cmpEq g pd a b) pd (decide (x = y)) ∧ WritesPred s (.cmpNe g pd a b) pd (decide (x ≠ y))
    ∧ WritesPred s (.cmpLt g pd a b) pd (decide (x.toInt < y.toInt))
    ∧ WritesPred s (.cmpGe g pd a b) pd (decide (x.toInt ≥ y.toInt))
    ∧ WritesPred s (.cmpLtn g pd a b) pd (decide (x.toNat < y.toNat))
    ∧ WritesPred s (.cmpGen g pd a b) pd (decide (x.toNat ≥ y.toNat))
    ∧ WritesPred s (.cmpiEq g pd a imm) pd (decide (x.toInt = i)) ∧ WritesPred s (.cmpiNe g pd a imm) pd (decide (x.toInt ≠ i))
    ∧ WritesPred s (.cmpiLt g pd a imm) pd (decide (x.toInt < i)) ∧ WritesPred s (.cmpiGe g pd a imm) pd (decide (x.toInt ≥ i))
    ∧ WritesPred s (.cmpiLtn g pd a imm) pd (decide (x.toNat < n))
    ∧ WritesPred s (.cmpiGen g pd a imm) pd (decide (x.toNat ≥ n))
    ∧ WritesPred s (.pand g pd pa pb) pd (s.me.pred pa && s.me.pred pb)
    ∧ WritesPred s (.por g pd pa pb) pd (s.me.pred pa || s.me.pred pb)
    ∧ WritesPred s (.pxor g pd pa pb) pd (s.me.pred pa != s.me.pred pb)
    ∧ WritesPred s (.pnot g pd pa) pd (!s.me.pred pa) ∧ WritesPred s (.pmov g pd pa) pd (s.me.pred pa)

/-- R154 to R156: branches, register jumps, NOP and LOOP. The target of JRL is read before s[d] is written; a target that
is not a multiple of 4 takes ALIGN at the jump, which then writes no register; a count of 1 ends a loop and a count of 0
goes round; a LOOP over s0 is no instruction; and where the guard fails each only passes on. -/
def Obligations.ControlFlow : Prop :=
  ∀ (s : State) (g : Guard) (d a : Reg) (off : BitVec 22) (imm : BitVec 17),
    let pc := s.me.pc
    let x := s.me.reg a
    let all : List (Instr × Nat) :=
      [(.br g off, 0x18), (.brl g off, 0x19), (.jr g a, 0x1A), (.jrl g d a, 0x1A), (.nop g, 0x1A), (.loop g d imm, 0x1B)]
    (s.guardOn g = true →
      GoesTo s (.br g off) (pc + BitVec.ofInt 64 (off.toInt * 4))
      ∧ WritesTo s (.brl g off) 31 (pc + 4) (pc + BitVec.ofInt 64 (off.toInt * 4))
      ∧ (x.toNat % 4 = 0 → GoesTo s (.jr g a) x ∧ WritesTo s (.jrl g d a) d (pc + 4) x)
      ∧ (x.toNat % 4 ≠ 0 → s.CanTrap → Traps s (.jr g a) 3 0 x pc false ∧ Traps s (.jrl g d a) 3 0 x pc false)
      ∧ GoesTo s (.nop g) (pc + 4)
      ∧ WritesTo s (.loop g d imm) d (s.me.reg d - 1)
          (if s.me.reg d = 1 then pc + 4 else pc + BitVec.ofInt 64 (imm.toInt * 4)))
    ∧ (s.guardOn g = false → ∀ i ∈ all, GoesTo s i.1 (pc + 4))
    ∧ (∀ i ∈ all, encodeNat i.1 / 2 ^ 26 = i.2)
    ∧ (Instr.loop g 0 imm).wf = false ∧ ∀ bs r, decode bs ≠ .ok (.loop g 0 imm, r)

/-- R108: an instruction whose guard fails only advances the pc, by its own length, whatever it is; an engine command has
passed the check of R124 that it stands on its own sequencer at PL 0. -/
def Obligations.GuardFails : Prop :=
  ∀ (s : State) (i : Instr) (g : Guard), i.guard = some g → s.guardOn g = false →
    (∀ q, ownSeq i = some q → s.cur.2 = q ∧ s.me.pl = false) → GoesTo s i (s.me.pc + w64 (instrBytes i))

/-- R124, R125: an engine command on another sequencer is an illegal encoding and takes ILL at its pc, with its first
word as TRAPARG, whatever its guard holds. -/
def Obligations.EngineCommandElsewhere : Prop :=
  ∀ (s : State) (i : Instr) (q : SeqId), ownSeq i = some q → s.cur.2 ≠ q → s.CanTrap →
    Traps s i 1 0 (w64 (encodeNat i % 2 ^ 32)) s.me.pc false

/-! ### Loads, stores and atomics (R158 to R178) -/

/-- R158 to R161, R347: a load or store whose address passes the checks issues as a long operation on ea := s[a] + sext(off9) ×
size, with the data of a store as they stand at issue. PREF goes on at pc + 4 with every register and every byte as it was: one
that fails a check or in translation, or names the window or the host window, changes nothing; any other leaves its line in its
home slice when its class allocates and no fill of the line is on its way already. -/
def Obligations.LoadsAndStoresIssue : Prop :=
  ∀ (s : State) (g : Guard) (d a : Reg) (dh : Fin 16) (off : BitVec 9), s.guardOn g = true →
    let ea (n : Nat) : Word := s.me.reg a + BitVec.ofInt 64 (off.toInt * n)
    let v := s.me.reg d
    (EaOk (ea 1) 1 1 → Issues s (.ldB g d a off) 4 (s.op (.ldB g d a off) (.load 1 true) (ea 1) 0 0 d.val)
      ∧ Issues s (.ldBn g d a off) 4 (s.op (.ldBn g d a off) (.load 1 false) (ea 1) 0 0 d.val)
      ∧ Issues s (.stB g d a off) 4 (s.op (.stB g d a off) (.store 1) (ea 1) v 0 0))
    ∧ (EaOk (ea 2) 2 2 → Issues s (.ldH g d a off) 4 (s.op (.ldH g d a off) (.load 2 true) (ea 2) 0 0 d.val)
      ∧ Issues s (.ldHn g d a off) 4 (s.op (.ldHn g d a off) (.load 2 false) (ea 2) 0 0 d.val)
      ∧ Issues s (.stH g d a off) 4 (s.op (.stH g d a off) (.store 2) (ea 2) v 0 0))
    ∧ (EaOk (ea 4) 4 4 → Issues s (.ldW g d a off) 4 (s.op (.ldW g d a off) (.load 4 true) (ea 4) 0 0 d.val)
      ∧ Issues s (.ldWn g d a off) 4 (s.op (.ldWn g d a off) (.load 4 false) (ea 4) 0 0 d.val)
      ∧ Issues s (.stW g d a off) 4 (s.op (.stW g d a off) (.store 4) (ea 4) v 0 0))
    ∧ (EaOk (ea 8) 8 8 → Issues s (.ldD g d a off) 4 (s.op (.ldD g d a off) (.load 8 false) (ea 8) 0 0 d.val)
      ∧ Issues s (.stD g d a off) 4 (s.op (.stD g d a off) (.store 8) (ea 8) v 0 0))
    ∧ (EaOk (ea 8) 8 16 → Issues s (.ldp g dh a off) 4 (s.op (.ldp g dh a off) .loadPair (ea 8) 0 0 (2 * dh.val))
      ∧ Issues s (.stp g dh a off) 4
        (s.op (.stp g dh a off) .storePair (ea 8) (s.me.reg (evenReg dh)) (s.me.reg (oddReg dh)) 0))
    ∧ ∀ w : Bool,
      (s.prefKey (ea 1) = none → GoesTo s (.pref g w a off) (s.me.pc + 4))
      ∧ ∀ key cls, s.prefKey (ea 1) = some (key, cls) → Yields s (.pref g w a off) fun t =>
          OnlySeq s { t with l2 := s.l2, staging := s.staging, counter := s.counter } ∧ t.me = { s.me with pc := s.me.pc + 4 }
            ∧ (allocates (s.rctOf key cls) = true → s.l2Fills.any (·.line == key / 64) = false → t.hitsL2 key = true)

/-- R158: the first failing check of an F-MEM access, in the order non-canonical, misaligned, in the hole behind the
window, takes a precise trap at the instruction with TRAPARG := ea, and nothing is issued. -/
def Obligations.AddressChecks : Prop :=
  ∀ (s : State) (g : Guard) (d a : Reg) (dh : Fin 16) (off : BitVec 9), s.guardOn g = true → s.CanTrap →
    let forms : List (Instr × Nat × Nat) :=
      [(.ldB g d a off, 1, 1), (.ldBn g d a off, 1, 1), (.stB g d a off, 1, 1), (.ldH g d a off, 2, 2),
       (.ldHn g d a off, 2, 2), (.stH g d a off, 2, 2), (.ldW g d a off, 4, 4), (.ldWn g d a off, 4, 4),
       (.stW g d a off, 4, 4), (.ldD g d a off, 8, 8), (.stD g d a off, 8, 8), (.ldp g dh a off, 8, 16),
       (.stp g dh a off, 8, 16)]
    ∀ f ∈ forms,
      let ea : Word := s.me.reg a + BitVec.ofInt 64 (off.toInt * f.2.1)
      (2 ^ 55 ≤ ea.toNat → Traps s f.1 4 1 ea s.me.pc false)
      ∧ (ea.toNat < 2 ^ 55 → ea.toNat % f.2.1 ≠ 0 → Traps s f.1 3 0 ea s.me.pc false)
      ∧ (ea.toNat < 2 ^ 55 → ea.toNat % f.2.1 = 0 → 0x7FF000200000 < ea.toNat + f.2.2 → ea.toNat < 0x800000000000 →
          Traps s f.1 4 2 ea s.me.pc false)

/-- R172, R173: every atomic and CAS whose address is aligned to its width issues as a long operation with its operand;
CAS carries s[d] as comparand. -/
def Obligations.AtomicsIssue : Prop :=
  ∀ (s : State) (g : Guard) (d a b : Reg) (sc : Scope), s.guardOn g = true →
    let ea := s.me.reg a
    let v := s.me.reg b
    (EaOk ea 4 4 → ∀ f ∈ [(Instr.amoAddW g d a b sc, 0), (.amoAndW g d a b sc, 1), (.amoOrW g d a b sc, 2),
        (.amoXorW g d a b sc, 3), (.amoMinW g d a b sc, 4), (.amoMaxW g d a b sc, 5), (.amoMinnW g d a b sc, 6),
        (.amoMaxnW g d a b sc, 7), (.amoSwapW g d a b sc, 8), (.amoFaddRxW g d a b sc, 9)],
      Issues s f.1 4 (s.op f.1 (.amo f.2 false sc) ea v 0 d.val))
    ∧ (EaOk ea 8 8 → ∀ f ∈ [(Instr.amoAddD g d a b sc, 0), (.amoAndD g d a b sc, 1), (.amoOrD g d a b sc, 2),
        (.amoXorD g d a b sc, 3), (.amoMinD g d a b sc, 4), (.amoMaxD g d a b sc, 5), (.amoMinnD g d a b sc, 6),
        (.amoMaxnD g d a b sc, 7), (.amoSwapD g d a b sc, 8)],
      Issues s f.1 4 (s.op f.1 (.amo f.2 true sc) ea v 0 d.val))
    ∧ (EaOk ea 4 4 → Issues s (.casW g d a b sc) 4 (s.op (.casW g d a b sc) (.cas false sc) ea v (s.me.reg d) d.val))
    ∧ (EaOk ea 8 8 → Issues s (.casD g d a b sc) 4 (s.op (.casD g d a b sc) (.cas true sc) ea v (s.me.reg d) d.val))

/-- R163, R164, R178: ACQ.LD and REL.ST with their class masks, CFLUSH, and CINV at PL 1 issue as long operations; a mask
of 0 leaves a plain load or store, and what a release covers comes before the later accesses of its sequencer. -/
def Obligations.OrderedAccessesIssue : Prop :=
  ∀ (s : State) (g : Guard) (d a : Reg) (size : Fin 4) (sx : Bool) (mask : Mask) (sc : Scope) (off : BitVec 16),
    s.guardOn g = true →
    let n := 2 ^ size.val
    let ea : Word := s.me.reg a + off.signExtend 64
    let ld : Instr := .acqLd g d a size sx mask sc off
    let st : Instr := .relSt g d a size mask sc off
    (EaOk ea n n →
      Issues s ld 8 { s.op ld (.load n sx) ea 0 0 d.val with acq := if mask = 0 then none else some (mask, sc) }
      ∧ (mask = 0 → Issues s st 8 (s.op st (.store n) ea (s.me.reg d) 0 0))
      ∧ (mask ≠ 0 → s.here.usedMo = [] → s.here.usedDo = [] → s.here.usedSy = [] →
          ∃ r : Release, r.mask = mask ∧ r.scope = sc ∧ r.markers = [] ∧ r.performed = false ∧ r.before = s.me.serial
            ∧ Yields s st fun t => OnlyCluster s t s.cur.1
              ∧ (t.here.withMarks s.here).setSeq s.cur.2 s.me = s.here
              ∧ ({ t.me with seen := s.me.seen } : Sequencer)
                = { s.me with
                    pc := s.me.pc + 8, serial := s.me.serial + 1,
                    outstanding := s.me.outstanding
                      ++ [{ s.op st (.store n) ea (s.me.reg d) 0 0 with rel := some r, view := t.me.seenBy 0 }] }
              ∧ ∀ w ∈ s.here.covered s.cur.2 mask, w ∈ r.known ∧ w ∈ t.me.seenBy 0))
    ∧ (EaOk (s.me.reg a) 1 1 →
      Issues s (.cflush g a) 4 (s.op (.cflush g a) .flush (s.me.reg a) 0 0 0)
      ∧ (s.me.pl = true → Issues s (.cinv g a) 4 (s.op (.cinv g a) .invalidate (s.me.reg a) 0 0 0)))

/-! ### Fences, events, rings and steps (R177 to R184) -/

/-- R94, R177, R179: a fence with an empty mask orders nothing; with nothing on its way a fence makes what it covers come
before the later accesses of K2, and SETE sets its flag alone. CLRE clears its flag alone; where another agent has set the flag
in the same clk the clear comes first: the flag stays set, with the release of that set alone, and every IDLE is woken (R168,
R179). WAITE completes on a set flag, which it leaves set, and on a clear one it stays where it is. -/
def Obligations.FencesAndEvents : Prop :=
  ∀ (s : State) (g : Guard) (e : Fin 64) (k1 k2 mask : Mask) (sc : Scope), s.guardOn g = true →
    let pc := s.me.pc
    let f (k : Cluster) : Cluster := k.withMarks s.here
    (k1 = 0 ∨ k2 = 0 → GoesTo s (.fenceP g k1 k2 sc) (pc + 4))
    ∧ (s.Quiet → k1 ≠ 0 → k2 ≠ 0 → Yields s (.fenceP g k1 k2 sc) fun t =>
        s.HereBut { t with links := s.links } (pc + 4) f ∧ t.here.events = s.here.events
          ∧ ({ t.links with moDone := s.links.moDone, rKnown := s.links.rKnown, syDone := s.links.syDone } : Links) = s.links
          ∧ ∀ i, i < 6 → k2.getLsbD i = true → ∀ w ∈ s.here.covered s.cur.2 k1, w ∈ t.me.seenBy i)
    ∧ (s.Quiet → Yields s (.sete g e mask) fun t =>
        s.HereBut t (pc + 4) f ∧ ∀ j, t.here.events.getLsbD j = (s.here.events.getLsbD j || decide (j = e.val)))
    ∧ (s.here.setNow s.cur.2 e.val = false → Yields s (.clre g e) fun t =>
        s.HereBut t (pc + 4) f ∧ ∀ j, t.here.events.getLsbD j = (s.here.events.getLsbD j && decide (j ≠ e.val)))
    ∧ (s.here.setNow s.cur.2 e.val = true → Yields s (.clre g e) fun t =>
        s.HereBut t (pc + 4) f ∧ t.here.events = s.here.events ∧ (∀ q, (t.here.seq q).sleeping = false)
          ∧ t.here.evRel.get e.val [] = ((s.here.evRel.get e.val []).getLast?).toList)
    ∧ (s.me.waitAt = none → s.here.events.getLsbD e.val = true →
        Yields s (.waite g e mask) fun t => s.HereBut t (pc + 4) id)
    ∧ (s.me.waitAt = none → s.here.events.getLsbD e.val = false →
        Yields s (.waite g e mask) fun t => s.HereBut t pc id)

/-- R181 to R183: on a defined ring with enough full or free slots a wait completes and an advance moves its count; a wait
for more slots than the ring has, or on no ring, takes RING; RSTAT reads the counts; RING.DEF defines a free handle with
P := INIT and C := 0 from a legal descriptor, and refuses an illegal one. -/
def Obligations.RingInstructions : Prop :=
  ∀ (s : State) (g : Guard) (d a : Reg) (h : Fin 16) (mask : Mask) (imm : BitVec 16), s.guardOn g = true →
    let pc := s.me.pc
    let r := s.here.ring h.val
    let n : Word := s.me.reg a + imm.zeroExtend 64
    let f (k : Cluster) : Cluster := { k.withMarks s.here with rings := s.here.rings }
    (r.defined = true → s.me.waitAt = none → n.toNat ≤ r.nslot →
      Yields s (.rwaitF g a h mask imm) (fun t => s.HereBut t (if n.toNat ≤ r.full then pc + 8 else pc) id)
      ∧ Yields s (.rwaitE g a h mask imm) (fun t => s.HereBut t (if n.toNat ≤ r.free then pc + 8 else pc) id))
    ∧ (s.CanTrap → s.me.waitAt = none → (r.defined = false ∨ r.nslot < n.toNat) →
      ∃ det, det = (if r.defined then 3 else 4) ∧ Traps s (.rwaitF g a h mask imm) 0xE det n pc false
        ∧ Traps s (.rwaitE g a h mask imm) 0xE det n pc false)
    ∧ (s.Quiet → r.defined = true →
      (n.toNat ≤ r.free → Yields s (.radvP g a h mask imm) fun t => s.HereBut t (pc + 8) f
        ∧ (t.here.ring h.val).p = r.p + n.toNat ∧ (t.here.ring h.val).c = r.c
        ∧ ∀ j, j ≠ h.val → t.here.ring j = s.here.ring j)
      ∧ (n.toNat ≤ r.full → Yields s (.radvC g a h mask imm) fun t => s.HereBut t (pc + 8) f
        ∧ (t.here.ring h.val).c = r.c + n.toNat ∧ (t.here.ring h.val).p = r.p
        ∧ ∀ j, j ≠ h.val → t.here.ring j = s.here.ring j))
    ∧ (∃ v : Word, WritesTo s (.rstat g d h) d v (pc + 8) ∧ v.getLsbD 63 = r.defined
      ∧ (r.defined = true → bits v 12 0 = (r.p - r.c) % 2 ^ 13 ∧ bits v 28 16 = (r.nslot - (r.p - r.c)) % 2 ^ 13
          ∧ (1 ≤ r.nslot → r.nslot ≤ 4096 → bits v 43 32 = r.p % r.nslot ∧ bits v 59 48 = r.c % r.nslot)))
    ∧ ∀ bs u, s.Record (s.me.reg a) bs u → s.cur.2 = .control →
        (ringLegal bs = true → u.here.ringBusy h.val = false → Yields s (.ringDef g a h) fun t =>
          u.HereBut t (u.me.pc + 8) (fun k => { k with rings := u.here.rings }) ∧ (t.here.ring h.val).defined = true ∧ (t.here.ring h.val).p = field bs 10 2
            ∧ (t.here.ring h.val).c = 0 ∧ (t.here.ring h.val).nslot = field bs 4 2
            ∧ ∀ j, j ≠ h.val → t.here.ring j = u.here.ring j)
        ∧ (ringLegal bs = false → u.CanTrap → TrapsFrom s u (.ringDef g a h) 0xE 1 0 u.me.pc false)
        ∧ (ringLegal bs = true → u.here.ringBusy h.val = true → u.CanTrap →
            TrapsFrom s u (.ringDef g a h) 0xE 2 0 u.me.pc false)

/-- R41 to R43, R184: STEP.BEGIN of rank 0 sets the step's deadline once; STEP.PROG stores the low 16 bits; STEP.END
arrives once, stays while the step goes on and completes when it has ended; on another sequencer each takes SEQSTATE. -/
def Obligations.Steps : Prop :=
  ∀ (s : State) (g : Guard) (a : Reg) (gg : Gang), s.guardOn g = true → s.gangOf s.cur.1 = some gg →
    let pc := s.me.pc
    let v := (s.me.reg a).toNat % 2 ^ 32
    (s.cur.2 = .control →
      (Yields s (.stepBegin g a) fun t => OnlySeq s { t with jobs := s.jobs } ∧ t.me = { s.me with pc := pc + 4 }
        ∧ (∀ n i, (n, i) ≠ (s.here.task.job, s.here.task.gi) → t.gang n i = s.gang n i)
        ∧ ∃ x, t.gangOf s.cur.1 = some x ∧ x = (if s.here.task.rank = 0 ∧ gg.deadlineSet = false then
            { gg with deadlineSet := true, deadline := if v = 0 then none else some (gg.stepStart + v) } else gg))
      ∧ (Yields s (.stepProg g a) fun t => OnlyCluster s t s.cur.1
        ∧ t.here = { s.here with task := { s.here.task with prog := (s.me.reg a).toNat % 2 ^ 16 }, seqC := { s.me with pc := pc + 4 } })
      ∧ (s.me.waitAt = none → Yields s (.stepEnd g) fun t => OnlyCluster s t s.cur.1
        ∧ t.here = { s.here with task := { s.here.task with arrived := true }, seqC := { s.me with waits := t.me.waits } }
        ∧ t.me.waitAt = some (.stepEnd gg.step))
      ∧ (s.me.waitAt = some (.stepEnd gg.step) → exec (.stepEnd g) s = .next s)
      ∧ ∀ k, k ≠ gg.step → s.me.waitAt = some (.stepEnd k) → Yields s (.stepEnd g) fun t => s.HereBut t (pc + 4) id)
    ∧ (s.cur.2 ≠ .control → s.CanTrap →
      Traps s (.stepBegin g a) 0xB 0 0 pc false ∧ Traps s (.stepProg g a) 0xB 0 0 pc false
        ∧ Traps s (.stepEnd g) 0xB 0 0 pc false)

/-! ### Sequencers and tasks (R32 to R37, R46, R180, R185 to R187) -/

/-- R32, R33, R180: FORK starts the idle sequencers it names at s[a] with s1 to s7 of the control sequencer and everything
else cleared, and JOIN completes when all it names are idle; naming the control sequencer, a reserved bit or, for FORK, a
sequencer that is not idle takes SEQSTATE, and a misaligned entry ALIGN. -/
def Obligations.ForkAndJoin : Prop :=
  ∀ (s : State) (g : Guard) (a : Reg) (mask : BitVec 4), s.guardOn g = true →
    let legal : Prop := s.cur.2 = .control ∧ mask.getLsbD 0 = false ∧ mask.getLsbD 3 = false
    let idle : Prop := ∀ q ∈ seqsOf mask, (s.here.seq q).idle = true
    let e := s.me.reg a
    (legal → idle → e.toNat % 4 = 0 → s.me.outstanding = [] → Yields s (.fork g a mask) fun t =>
      OnlyCluster s t s.cur.1 ∧ t.me = { s.me with pc := s.me.pc + 4 }
        ∧ (∀ q ∈ seqsOf mask, let x := t.here.seq q
            x.pc = e ∧ x.idle = false ∧ x.exited = false ∧ x.pl = false ∧ x.outstanding = [] ∧ x.waits = []
              ∧ (∀ r : Reg, x.reg r = if r.val ≤ 7 then s.me.reg r else 0) ∧ ∀ p, x.pred p = decide (p = 0))
        ∧ (∀ q, q ≠ .control → q ∉ seqsOf mask → t.here.seq q = s.here.seq q)
        ∧ ({ t.here with seqC := s.here.seqC, seqY := s.here.seqY, seqM := s.here.seqM } : Cluster) = s.here)
    ∧ (legal → idle → s.CanTrap → e.toNat % 4 ≠ 0 → Traps s (.fork g a mask) 3 0 e s.me.pc false)
    ∧ (s.CanTrap → ¬(legal ∧ idle) → Traps s (.fork g a mask) 0xB 0 0 s.me.pc false)
    ∧ (legal → idle → Yields s (.join g mask) fun t => s.HereBut t (s.me.pc + 4) id)
    ∧ (legal → ¬idle → exec (.join g mask) s = .next s)
    ∧ (s.CanTrap → ¬legal → Traps s (.join g mask) 0xB 0 0 s.me.pc false)

/-- R33 to R36: with nothing outstanding, EXIT ends the sequencer's program, which is then idle once its engine has no
command open; on the control sequencer the task waits to retire and its running pinned regions drain. EXIT.A on the copy
sequencer discards the commands not begun; on the control sequencer it abandons the task and empties its bins. -/
def Obligations.Exits : Prop :=
  ∀ (s : State) (g : Guard), s.guardOn g = true → s.me.outstanding = [] →
    (s.cur.2 ≠ .control → Yields s (.exit g) fun t => OnlyCluster s t s.cur.1 ∧ t.me.exited = true
      ∧ t.me.regs = s.me.regs ∧ (s.here.openCmds s.cur.2 = [] → t.me.idle = true))
    ∧ (s.cur.2 = .control → s.here.task.st = .running → Yields s (.exit g) fun t => OnlyCluster s t s.cur.1
      ∧ t.me.exited = true ∧ t.here.task = { s.here.task with st := .exiting, left := true }
      ∧ ∀ e ∈ s.here.slots, e.2.st = .running → s.here.sched e.1 = false →
          (e.1, { e.2 with st := .draining, wasRunning := false }) ∈ t.here.slots)
    ∧ (s.cur.2 = .copy → Yields s (.exitA g) fun t => OnlyCluster s t s.cur.1 ∧ t.me.exited = true
      ∧ t.here.copy = { s.here.copy with queue := [] } ∧ t.here.mat = s.here.mat)
    ∧ (s.cur.2 = .matrix → Yields s (.exitA g) fun t => OnlyCluster s t s.cur.1 ∧ t.me.exited = true
      ∧ t.here.mat.queue = [] ∧ t.here.mat.arms = [] ∧ t.here.mat.cur = s.here.mat.cur ∧ t.here.copy = s.here.copy)
    ∧ (s.cur.2 = .control → s.here.task.st = .running → Yields s (.exitA g) fun t => OnlyCluster s t s.cur.1
      ∧ t.here.task.st = .abandoning ∧ t.here.task.abandoned = true
      ∧ t.here.task.disc = s.here.task.disc + s.here.binRecords.length ∧ t.here.binRecords = []
      ∧ t.here.copy.queue = [] ∧ t.here.mat.queue = [] ∧ ∀ q, (t.here.seq q).exited = true)

/-- R34, R180: a rendezvous with nobody else completes at once; one that does not name its own sequencer takes SEQSTATE;
the last of two participants to come, with nothing of theirs on its way, lets both continue; and one with another identifier
or mask than a rendezvous it is named in takes RDVFAULT, and the one waiting there will. -/
def Obligations.Rendezvous : Prop :=
  ∀ (s : State) (g : Guard) (mask : BitVec 4) (id : BitVec 8), s.guardOn g = true →
    let q := s.cur.2
    (mask.getLsbD 3 = false → seqsOf mask = [q] → Yields s (.rdv g mask id) fun t => s.HereBut t (s.me.pc + 4) fun k => k)
    ∧ (s.CanTrap → (mask.getLsbD 3 = true ∨ q ∉ seqsOf mask) → Traps s (.rdv g mask id) 0xB 0 0 s.me.pc false)
    ∧ (∀ p r, p ≠ q → mask.getLsbD 3 = false → (∀ x, x ∈ seqsOf mask ↔ x = q ∨ x = p) → s.Quiet →
        (s.here.seq p).rdvAt = some (mask, id, r) → s.releaseReady s.cur.1 p r = true →
        (s.here.seq p).idle = false → (s.here.seq p).exited = false →
        (∀ x, x ≠ q → x ≠ p → (s.here.seq x).rdvAt = none) →
        Yields s (.rdv g mask id) fun t => OnlyCluster s t s.cur.1 ∧ t.me.pc = s.me.pc + 4
          ∧ (t.here.seq p).waitAt = some .released ∧ (t.here.seq p).pc = (s.here.seq p).pc
          ∧ ∀ x, (t.here.seq x).regs = (s.here.seq x).regs ∧ (t.here.seq x).preds = (s.here.seq x).preds)
    ∧ ∀ p m i r, p ≠ q → (s.here.seq p).rdvAt = some (m, i, r) → q ∈ seqsOf m → (m, i) ≠ (mask, id) → mask.getLsbD 3 = false →
        q ∈ seqsOf mask → seqsOf mask ≠ [q] → s.me.waitAt = none → s.CanTrap → Yields s (.rdv g mask id) fun t =>
          OnlyCluster s.unasked t s.cur.1
            ∧ t.me.frame = ⟨w64 (bits s.me.pc 54 0), causeWord 0xC 0 false, 0, s.me.settle.outstanding⟩
            ∧ (t.here.seq p).waitAt = some (.failed 0xC 0 0)

/-- R46, R185, R323, R324: SPAWN and SPAWN.C answer 2 × 2^48 for a context that may not spawn or a record that fails its
checks, 2^48 where there is no room, and otherwise make a job of the record under the next number of its origin, which
they answer. -/
def Obligations.Spawning : Prop :=
  ∀ (s u : State) (g : Guard) (d a : Reg) (bs : List Byte), s.guardOn g = true → s.cur.2 = .control →
    s.Record (s.me.reg a) bs u →
    let ctx := u.here.task.ctx
    let l := launchOf bs
    let no : Prop := bit (u.ctxField ctx 8 1) 1 = true ∨ u.badLaunch ctx l true = true
    let num := ctx * 2 ^ 34 + 2 ^ 33 + ((u.ctx ctx).seqSpawn + 1) % 2 ^ 33
    ∀ cont : Bool,
      let i : Instr := if cont then .spawnC g d a else .spawn g d a
      let answers (t : State) (w : Nat) : Prop :=
        t.me.pc = u.me.pc + 4 ∧ (∀ r, t.me.reg r = if r = d ∧ r ≠ 0 then w64 w else u.me.reg r) ∧ t.here.task.noReplay = true
      (no → Yields s i fun t => answers t (2 * 2 ^ 48) ∧ t.jobs = u.jobs)
      ∧ (¬no → u.room ctx cont = none → Yields s i fun t => answers t (2 ^ 48) ∧ t.jobs = u.jobs)
      ∧ ∀ p, ¬no → u.room ctx cont = some p → Yields s i fun t => answers t num
          ∧ (t.ctx ctx).seqSpawn = ((u.ctx ctx).seqSpawn + 1) % 2 ^ 33
          ∧ ∃ j, t.jobs = u.jobs ++ [j] ∧ j.num = num ∧ j.ctx = ctx ∧ j.cont = cont ∧ j.inPool = p ∧ j.live = true
              ∧ j.gangs.length = l.ngm1 + 1 ∧ j.gtab = w64 l.gtab ∧ j.crec = w64 l.crec

/-- R186, R187: a collective answers at once outside its group, with a count of 0 or of 1, and when too few members live;
otherwise the first contribution opens an instance, the reduction that makes up its count completes it (ADD.D of two with
their sum), and a participant of a completed instance receives its result. -/
def Obligations.Collectives : Prop :=
  ∀ (s : State) (g : Guard) (dh : Fin 16) (a b : Reg) (op : Fin 9) (w : Bool) (base size : Fin 512) (tag : BitVec 8)
    (gg : Gang), s.guardOn g = true → s.cur.2 = .control → s.gangOf s.cur.1 = some gg →
    let t0 := s.here.task
    let n := size.val + 1
    let count := (s.me.reg b).toNat
    let v : Word := if w then s.me.reg a else w64 ((s.me.reg a).toNat % 2 ^ 32)
    let inside : Prop := base.val ≤ t0.rank ∧ t0.rank < base.val + n
    let answers (t : State) (x st : Word) : Prop :=
      t.me.pc = s.me.pc + 8 ∧ ∀ r, t.me.reg r = if r = oddReg dh then st else if r = evenReg dh ∧ r ≠ 0 then x else s.me.reg r
    let stays (t : State) (id : Nat) : Prop :=
      t.me.pc = s.me.pc ∧ t.me.regs = s.me.regs ∧ t.me.waitAt = some (.coll id dh)
    (∀ bcast : Bool,
      let i : Instr := if bcast then .collBcast g dh a b w base size tag else .collRed g dh a b op w base size tag
      (s.me.waitAt = none → gg.colls = [] →
        (¬inside → Yields s i fun t => answers t 0 (2 ^ 20))
        ∧ (inside → count = 0 → Yields s i fun t => ∃ x, answers t x (2 ^ 16))
        ∧ (inside → count = 1 → w = true → Yields s i fun t => answers t v 1)
        ∧ (inside → 2 ≤ count → ((gg.liveMembers base.val n).length < count ∨ (bcast = true ∧ gg.live base.val = false)) →
            Yields s i fun t => answers t 0 (2 ^ 18))
        ∧ (inside → 2 ≤ count → count ≤ (gg.liveMembers base.val n).length → (bcast = true → gg.live base.val = true) →
            Yields s i fun t => stays t s.counter ∧ ∃ x c, t.gangOf s.cur.1 = some x ∧ x.colls = [c] ∧ c.id = s.counter
              ∧ c.count = count ∧ c.contribs = [(t0.rank, v)] ∧ c.result = none))
      ∧ ∀ c r st, s.me.waitAt = some (.coll c.id dh) → gg.colls = [c] → c.result = some (r, st) →
          Yields s i fun t => answers t r st)
    ∧ ∀ c, s.me.waitAt = none → gg.colls = [c] → c.base = base.val → c.size = n → c.tag = tag.toNat → c.bcast = false →
        c.op = op.val → c.w64 = w → c.count = count → c.result = none → 2 ≤ count → c.contribs.length + 1 = count → inside →
        gg.live t0.rank = true → (∀ e ∈ c.contribs, e.1 ≠ t0.rank) → count ≤ (gg.liveMembers base.val n).length →
        Yields s (.collRed g dh a b op w base size tag) fun t => stays t c.id ∧ ∃ x d r, t.gangOf s.cur.1 = some x
          ∧ x.colls = [d] ∧ d.contribs = c.contribs ++ [(t0.rank, v)] ∧ d.result = some (r, w64 count)
          ∧ ∀ e, c.contribs = [e] → op = 0 → w = true → r = e.2 + v

/-! ### Traps and special registers (R146, R147, R165 to R169, R305 to R312, R349 to R355) -/

/-- R166, R351, R401: BKPT takes the precise trap BKPT at its own pc, with TRAPARG 0 and DONE 0; where a debugger has armed halting
for the context the sequencer halts there instead, once every access that it has sent has returned. At PL 1 it is a nested trap,
which ends the task (R355). -/
def Obligations.Breakpoints : Prop :=
  ∀ (s : State) (g : Guard), s.guardOn g = true →
    encodeNat (.bkpt g) / 2 ^ 26 = 0x34 ∧ encodeNat (.bkpt g) % 2 ^ 7 = 2
    ∧ (s.bkptArmed s.here.task.ctx = false → s.CanTrap → Traps s (.bkpt g) 0xA 0 0 s.me.pc false)
    ∧ (s.bkptArmed s.here.task.ctx = false → s.me.pl = true → s.here.Alive → (∀ o ∈ s.me.outstanding, o.isSent = false) →
        Yields s (.bkpt g) fun t => t.here.Failed 0xC 0xA 0xFF)
    ∧ (s.bkptArmed s.here.task.ctx = true →
        ((∀ o ∈ s.me.outstanding, o.isSent = false) → Yields s (.bkpt g) fun t =>
          OnlySeq s { t with host := s.host, dbg := s.dbg }
            ∧ t.me = { s.me.settle with halted := true, haltAtBkpt := true })
        ∧ ((∃ o ∈ s.me.outstanding, o.isSent = true) → exec (.bkpt g) s = .next s))

/-- R165, R355: TRAP and SYSC at PL 0 complete and then trap. At PL 1 TRAP #0 ends the task with the cause being handled,
TRAP #1 that of the whole gang, TRAP #2 asks for pre-emption, and any other TRAP and SYSC are nested traps, which end it. -/
def Obligations.TrapInstructions : Prop :=
  ∀ (s : State) (g : Guard) (code : BitVec 16), s.guardOn g = true →
    let pc := s.me.pc
    let w := s.me.frame.cause
    let dies (t : State) (cause detail : Nat) : Prop := t.here.Failed 0xC cause detail
    (s.CanTrap →
      Traps s (.trap g code) 8 0 (code.zeroExtend 64) (pc + 4) true
      ∧ Traps s (.trapTerminate g) 8 0 0 (pc + 4) true ∧ Traps s (.trapTerminateGang g) 8 0 1 (pc + 4) true
      ∧ Traps s (.trapPreempt g) 8 0 2 (pc + 4) true ∧ Traps s (.sysc g code) 9 0 (code.zeroExtend 64) (pc + 4) true)
    ∧ (s.me.pl = true → s.here.Alive → (∀ o ∈ s.me.outstanding, o.isSent = false) →
      (Yields s (.trap g code) fun t => dies t 1 0xFF) ∧ (Yields s (.sysc g code) fun t => dies t 9 0xFF)
      ∧ (Yields s (.trapTerminate g) fun t => dies t (bits w 7 0) (bits w 15 8))
      ∧ (∀ gg, s.gangOf s.cur.1 = some gg → (∀ c ∈ s.seats s.here.task.job gg, (s.cluster c).Alive) →
          Yields s (.trapTerminateGang g) fun t => dies t (bits w 7 0) (bits w 15 8)
            ∧ ∀ c ∈ s.seats s.here.task.job gg, (t.cluster c).task.st = .failing)
      ∧ Yields s (.trapPreempt g) fun t => OnlyCluster s t s.cur.1
          ∧ t.here = { s.here.setSeq s.cur.2 { s.me with pc := pc + 4 } with
                       task := { s.here.task with preReq := s.cur.2 :: s.here.task.preReq } })

/-- R146, R165, R167, R168, R354: RETR outside a handler takes SEQSTATE; in one, with nothing of its own outstanding, it goes
to TRAPPC with the replay entries issued anew, of which an instruction that is replayed as a whole issues first (R351), and a
supervisor handler's also takes PL from PPL and the shadow frame back; a STEP.END it returns to whose step has ended is
complete. IDLE stops issue behind itself. TRAP and SYSC at PL 0, and MFS and every MTS whose value its register takes,
complete: the first in the entry to their handler, the others at pc + 4. -/
def Obligations.ReturnsAndIdle : Prop :=
  ∀ (s : State) (g : Guard), s.guardOn g = true →
    let x := s.me
    let plain (i : Instr) : Prop := ∃ t, exec i s = .next t ∧ t.me.pc = x.pc + 4
    let enters (i : Instr) (cause : Nat) : Prop := ∃ t, exec i s = .next t ∧ t.me.frame.pc = w64 (bits (x.pc + 4) 54 0)
      ∧ t.me.pc = (s.handler s.cur.1 s.cur.2 cause 0).2 ∧ t.me.pl = (s.handler s.cur.1 s.cur.2 cause 0).1
    let whole := x.frame.replay.find? (·.kind == .command)
    let back : Word := (whole.map (·.pc)).getD x.frame.pc
    let stepOver (k : Nat) : Prop := ∃ w ∈ x.waits, w.pc = back ∧ w.kind = .stepEnd k ∧ k ≠ s.stepOf s.cur.1
    let again := (x.frame.replay.filter (·.kind != .command)).map fun o => { o with phase := Phase.unsent }
    let resume := whole.map fun (o : LongOp) => (o.pc, x.frame.pc)
    (s.CanTrap → x.inProg = false → x.inSup = false → Traps s (.retr g) 0xB 0 0 x.pc false)
    ∧ (x.outstanding = [] → x.inProg = true → x.pl = false → (∀ w ∈ x.waits, w.pc ≠ back) → Yields s (.retr g) fun t =>
        OnlySeq (s.mapHere (·.dropReports)) t
          ∧ t.me = { x with pc := back, outstanding := again, resume := resume, inProg := false, frame := { x.frame with replay := [] } })
    ∧ (x.outstanding = [] → x.inProg = true → x.pl = false → ∀ k, x.waits.length = 1 → stepOver k → Yields s (.retr g) fun t =>
        OnlySeq (s.mapHere (·.dropReports)) t ∧ t.me.pc = back + 4 ∧ t.me.waits = [])
    ∧ (x.outstanding = [] → x.inSup = true → x.pl = true → s.here.task.preReq.contains s.cur.2 = false →
        (∀ w ∈ x.waits, w.pc ≠ back) → Yields s (.retr g) fun t =>
          OnlySeq (s.mapHere (·.dropReports)) t
            ∧ t.me = { x with
                       pc := back, outstanding := again, resume := resume, pl := x.ppl, inSup := false, shadow := none,
                       frame := x.shadow.getD { x.frame with replay := [] } })
    ∧ (x.outstanding ≠ [] → (x.inProg = true ∨ x.inSup = true) → exec (.retr g) s = .next s)
    ∧ (Yields s (.idle g) fun t => OnlySeq s t ∧ t.me = { x with pc := x.pc + 4, sleeping := true })
    ∧ (s.CanTrap → (∀ code : BitVec 16, enters (.trap g code) 8 ∧ enters (.sysc g code) 9) ∧ enters (.trapTerminate g) 8
        ∧ enters (.trapTerminateGang g) 8 ∧ enters (.trapPreempt g) 8)
    ∧ ∀ (d a : Reg) (r : BitVec 12),
        let v := s.me.reg a
        (r.toNat < 0x400 ∨ x.pl = true → plain (.mfs g d r) ∧ (sregLegal r.toNat v = true → plain (.mts g a r)))
        ∧ (v.toNat < 256 → plain (.mtsFlags g a)) ∧ (v.toNat < 16 → plain (.mtsReplaycnt g a))
        ∧ (x.pl = true → (v.toNat < 2 ^ 14 → plain (.mtsCtxinv g a))
            ∧ (v.toNat &&& sregRz 0x41A = 0 → plain (.mtsWtbl g a))
            ∧ (wsctlLegal v = true → (v.getLsbD 9 = false ∨ s.jobsOf (s.part s.cur.1) = []) →
                plain (.mtsWsctl g a) ∧ plain (.mtsWsctlSwreq g a)))

/-- R122, R146, R147, R308: what MFS reads from each special register; a supervisor register at PL 0 takes PRIV with its
number. -/
def Obligations.SpecialReads : Prop :=
  ∀ (s : State) (g : Guard) (d : Reg), s.guardOn g = true →
    let reads (r : BitVec 12) (v : Word) : Prop := Writes s (.mfs g d r) d v
    let k := s.here
    let p := s.part s.cur.1
    reads 0 (match s.cur.2 with | .control => 0 | .copy => 1 | .matrix => 2) ∧ reads 1 k.task.flags
    ∧ reads 2 (w64 k.task.rank) ∧ reads 3 (w64 k.task.n) ∧ reads 4 (w64 (s.cur.1 % 512 + 512 * (p.module_ % 2 ^ 13)))
    ∧ reads 8 s.me.frame.pc ∧ reads 9 s.me.frame.cause ∧ reads 0xA s.me.frame.arg
    ∧ reads 0xB (w64 s.me.frame.replay.length) ∧ reads 0x10 k.mat.mrowp
    ∧ (s.me.pl = true →
      (∃ v : Word, reads 0x400 v ∧ v.toNat < 8 ∧ v.getLsbD 0 = s.me.pl ∧ v.getLsbD 1 = s.me.ppl ∧ v.getLsbD 2 = s.me.amask)
      ∧ reads 0x401 p.svec ∧ reads 0x402 s.me.svscr[0] ∧ reads 0x403 s.me.svscr[1] ∧ reads 0x404 s.me.svscr[2]
      ∧ reads 0x405 s.me.svscr[3] ∧ reads 0x408 (w64 (k.task.ctx % 2 ^ 14 + 2 ^ 14 * (k.task.world % 16)))
      ∧ reads 0x409 (w64 p.svasid) ∧ (∀ i : Fin 8, reads (BitVec.ofNat 12 (0x410 + i.val)) p.rct[i])
      ∧ reads 0x418 p.ctxtbl ∧ reads 0x41A p.wtbl ∧ reads 0x41B (w64 p.dropcnt)
      ∧ (∃ v : Word, reads 0x40A v ∧ bits v 2 0 = p.first % 8 ∧ bits v 4 3 = p.logsz % 4 ∧ bits v 17 5 = p.module_ % 2 ^ 13
          ∧ bits v 63 18 = 0)
      ∧ ∃ v : Word, reads 0x419 v ∧ v.getLsbD 0 = p.wsMode ∧ bits v 4 1 = p.wsNw % 16 ∧ v.getLsbD 10 = p.wsBad
          ∧ bits v 8 5 = (if p.wsMode then p.wsCur % 16 else 0) ∧ bits v 31 16 = p.wsQuant % 65536 ∧ v.getLsbD 9 = false)
    ∧ ∀ r : BitVec 12, 0x400 ≤ r.toNat → s.CanTrap → Traps s (.mfs g d r) 2 0 (w64 r.toNat) s.me.pc false

/-- R73, R75, R146, R147, R308: MTS writes the register it names and nothing else: TRAPPC, PSTATE but for PL, SVSCRi, the
partition's registers, of which RCTn waits for the incoming world while worlds switch (log entry 103), FLAGS for the task,
and REPLAYCNT, where 0 discards the entries; CTX and PARTINFO it leaves. A bit of a reserved field makes it
an illegal encoding, and a supervisor register at PL 0 takes PRIV. -/
def Obligations.SpecialWrites : Prop :=
  ∀ (s : State) (g : Guard) (a : Reg), s.guardOn g = true → s.InPart s.cur.1 →
    let v := s.me.reg a
    let x := { s.me with pc := s.me.pc + 4 }
    let mine (r : BitVec 12) (f : Sequencer → Sequencer) : Prop :=
      v.toNat &&& sregRz r.toNat = 0 → Yields s (.mts g a r) fun t => OnlySeq s t ∧ t.me = f x
    let part (r : BitVec 12) (f : Partition → Partition) : Prop :=
      v.toNat &&& sregRz r.toNat = 0 → (0x410 ≤ r.toNat → r.toNat ≤ 0x417 → ¬(nbits v.toNat 2 16 = 0 ∧ bit v.toNat 20 = true)) →
        Yields s (.mts g a r) fun t => t.me = x ∧ t.part s.cur.1 = f (s.part s.cur.1)
          ∧ ({ t with clusters := s.clusters, parts := s.parts } : State) = s
    (s.me.frame.pc = v → mine 8 id)
    ∧ (s.me.waits = [] → mine 8 fun y => { y with frame := { y.frame with pc := v } })
    ∧ (s.me.pl = true →
      mine 0x400 (fun y => { y with ppl := v.getLsbD 1, amask := v.getLsbD 2 })
      ∧ mine 0x402 (fun y => { y with svscr := y.svscr.set 0 v }) ∧ mine 0x403 (fun y => { y with svscr := y.svscr.set 1 v })
      ∧ mine 0x408 id ∧ mine 0x40A id ∧ mine 0x404 (fun y => { y with svscr := y.svscr.set 2 v }) ∧ mine 0x405 (fun y => { y with svscr := y.svscr.set 3 v })
      ∧ part 0x401 (fun p => { p with svec := v }) ∧ part 0x409 (fun p => { p with svasid := v.toNat })
      ∧ part 0x418 (fun p => { p with ctxtbl := v }) ∧ part 0x41B (fun p => { p with dropcnt := v.toNat })
      ∧ ∀ i : Fin 8, part (BitVec.ofNat 12 (0x410 + i.val)) fun p =>
          if p.switching = none then { p with rct := p.rct.set i v } else { p with pendingRct := p.pendingRct.set i.val v })
    ∧ (v.toNat < 256 → Yields s (.mtsFlags g a) fun t => OnlyCluster s t s.cur.1 ∧ t.me = x
        ∧ t.here.task = { s.here.task with flags := v })
    ∧ (v.toNat < 16 → Yields s (.mtsReplaycnt g a) fun t => OnlySeq s t
        ∧ t.me = if v = 0 then { x with frame := { x.frame with replay := [] } } else x)
    ∧ (s.CanTrap →
      (∀ r : BitVec 12, r.toNat < 0x400 → v.toNat &&& sregRz r.toNat ≠ 0 →
        Traps s (.mts g a r) 1 0 (w64 (encodeNat (.mts g a r) % 2 ^ 32)) s.me.pc false)
      ∧ (256 ≤ v.toNat → Traps s (.mtsFlags g a) 1 0 (w64 (encodeNat (.mtsFlags g a) % 2 ^ 32)) s.me.pc false)
      ∧ (16 ≤ v.toNat → Traps s (.mtsReplaycnt g a) 1 0 (w64 (encodeNat (.mtsReplaycnt g a) % 2 ^ 32)) s.me.pc false)
      ∧ (∀ r : BitVec 12, 0x400 ≤ r.toNat → Traps s (.mts g a r) 2 0 (w64 r.toNat) s.me.pc false)
      ∧ Traps s (.mtsCtxinv g a) 2 0 0x41C s.me.pc false ∧ Traps s (.mtsWsctl g a) 2 0 0x419 s.me.pc false
      ∧ Traps s (.mtsWsctlSwreq g a) 2 0 0x419 s.me.pc false ∧ Traps s (.mtsWtbl g a) 2 0 0x41A s.me.pc false)

/-- R308, R311, R316 to R319: CTXINV drops a cached descriptor; WSCTL sets mode, worlds and quantum and reads the table
afresh, SWREQ ends the quantum as well; WTBL sets the base and reads the table afresh. A table that fails its check sets
BAD and leaves the worlds. -/
def Obligations.SupervisorWrites : Prop :=
  ∀ (s : State) (g : Guard) (a : Reg), s.guardOn g = true → s.me.pl = true → s.InPart s.cur.1 →
    let v := s.me.reg a
    let c := s.cur.1
    (v.toNat < 2 ^ 14 → Yields s (.mtsCtxinv g a) fun t =>
      OnlySeq s { t with ctxs := s.ctxs } ∧ t.me = { s.me with pc := s.me.pc + 4 } ∧ (t.ctx v.toNat).desc = none
        ∧ ∀ n, n ≠ v.toNat → t.ctx n = s.ctx n)
    ∧ (wsctlLegal v = true →
      (v.getLsbD 9 = false → ∀ i ∈ [Instr.mtsWsctl g a, .mtsWsctlSwreq g a], Yields s i fun t =>
        t.me = { s.me with pc := s.me.pc + 4 } ∧ ({ t with clusters := s.clusters, parts := s.parts } : State) = s
          ∧ let p := t.part c
            p.wsMode = v.getLsbD 0 ∧ p.wsNw = bits v 4 1 ∧ p.wsQuant = bits v 31 16
              ∧ (p.wsBad = true → p.worlds = (s.part c).worlds ∧ p.nextWorlds = (s.part c).nextWorlds))
      ∧ ∀ i ∈ [Instr.mtsWsctl g a, .mtsWsctlSwreq g a], v.getLsbD 9 = true → v.getLsbD 0 = true →
          (s.part c).switching = none → (s.jobsOf (s.part c)) = [] →
          Yields s i fun t => t.me = { s.me with pc := s.me.pc + 4 } ∧ (t.part c).quantStart = s.now
            ∧ (t.part c).switching = none)
    ∧ (v.toNat &&& sregRz 0x41A = 0 → Yields s (.mtsWtbl g a) fun t =>
        t.me = { s.me with pc := s.me.pc + 4 } ∧ ({ t with clusters := s.clusters, parts := s.parts } : State) = s
          ∧ (t.part c).wtbl = v
          ∧ ((t.part c).wsBad = true → (t.part c).worlds = (s.part c).worlds ∧ (t.part c).nextWorlds = (s.part c).nextWorlds))

/-- R169, R306, R346: at PL 1, with no access of the partition on its way that an entry it takes has translated, a TLBI newly
issued completes: no TLB of the partition holds an entry it takes, and every other entry stands. At PL 0 it takes PRIV. -/
def Obligations.Tlbi : Prop :=
  ∀ (s : State) (g : Guard) (a : Reg), s.guardOn g = true → s.me.waitAt = none →
    let v := s.me.reg a
    let p := s.part s.cur.1
    let gone (i : Instr) (takes : TlbEntry → Bool) : Prop :=
      (∀ x ∈ s.inFlight, p.holds x.2.1 = true → ∀ e, x.2.2 = some e → takes e = false) → Yields s i fun t =>
        t.me.pc = s.me.pc + 4 ∧ t.me.regs = s.me.regs
        ∧ (∀ e ∈ s.clusters, (t.cluster e.1).tlb =
            if p.holds e.1 then (s.cluster e.1).tlb.filter (fun x => !takes x) else (s.cluster e.1).tlb)
        ∧ ({ t with clusters := s.clusters, dies := s.dies, parts := s.parts } : State) = s
        ∧ t.parts.map (fun q => { q with held := [] }) = s.parts.map fun q => { q with held := [] }
    (s.me.pl = true →
      gone (.tlbiAll g) (fun _ => true)
      ∧ (v.toNat < 2 ^ 14 → gone (.tlbiAsid g a) fun x => !x.global && x.asid == v.toNat)
      ∧ gone (.tlbiVa g a) (fun x => (x.global || x.asid == p.svasid) && x.covers (65536 * bits v 54 16))
      ∧ (bits v 15 14 = 0 → v.toNat < 2 ^ 55 →
          gone (.tlbiVaAsid g a) fun x => (x.global || x.asid == bits v 13 0) && x.covers (65536 * bits v 54 16)))
    ∧ (s.CanTrap → ∀ i ∈ [Instr.tlbiAll g, .tlbiAsid g a, .tlbiVa g a, .tlbiVaAsid g a, .cinv g a],
        Traps s i 2 0 0 s.me.pc false)

/-! ### Configuration slots and engine commands as instructions (R213 to R220, R256 to R273, R281 to R290) -/

/-- R214 to R220: on the control sequencer CFG.LOAD begins a load in a free pinned slot and answers 0, or answers the code
of the check that fails; CFG.STAT reads the slot; FAB.GO starts a READY slot; FAB.QUIET drains a RUNNING one and completes
at one that is not busy; BIN.PUSH enqueues the record at s[a] and BIN.CNT counts a bin. Elsewhere each takes SEQSTATE. -/
def Obligations.FabricControl : Prop :=
  ∀ (s : State) (g : Guard) (d a b : Reg), s.guardOn g = true →
    let pc := s.me.pc
    let img := s.me.reg a
    let sel := s.me.reg b
    let i := img.toNat % 4
    let j := sel.toNat % 4
    let blk := bits sel 27 16
    let k := s.here
    let named : Prop := bits sel 15 2 = 0 ∧ bits sel 63 28 = 0 ∧ blk ≠ 0xFFF ∧ img.toNat % 64 = 0
    let new (j blk : Nat) (img : Word) (sched : Bool) : Load :=
      ⟨j, blk, img, sched, s.asidOf s.cur.1 s.cur.2, union (k.seqC.seenBy 0) k.seqC.own, k.clk, 0, 0, 0xFFFFFFFF#32⟩
    (s.cur.2 = .control →
      (named → k.sched j = false → (k.slot j).halted = false → (k.slot j).busy = false ∨ (k.slot j).st = .ready →
        (∀ n, n < 4 → (k.slot n).st = .empty ∨ (k.slot n).blk ≠ blk) → Yields s (.cfgLoad g d a b) fun t =>
          OnlyCluster s t s.cur.1 ∧ t.me.pc = pc + 4 ∧ (∀ r, t.me.reg r = if r = d ∧ r ≠ 0 then 0 else s.me.reg r)
            ∧ (t.here.slot j).st = .loading ∧ (t.here.slot j).blk = blk ∧ (t.here.slot j).img = img
            ∧ t.here.loads = addLoad (new j blk img false) k.loads
            ∧ ((∀ l ∈ k.loads, l.clk = k.clk → l.slot < j) → t.here.loads = k.loads ++ [new j blk img false])
            ∧ ∀ n, n ≠ j → t.here.slot n = k.slot n)
      ∧ (bits sel 15 2 ≠ 0 ∨ bits sel 63 28 ≠ 0 → Writes s (.cfgLoad g d a b) d 0xA02)
      ∧ (bits sel 15 2 = 0 → bits sel 63 28 = 0 → blk = 0xFFF → Writes s (.cfgLoad g d a b) d 0x402)
      ∧ (bits sel 15 2 = 0 → bits sel 63 28 = 0 → blk ≠ 0xFFF → img.toNat % 64 ≠ 0 → Writes s (.cfgLoad g d a b) d 0xA02)
      ∧ (named → k.sched j = true → Writes s (.cfgLoad g d a b) d 0x802)
      ∧ (named → k.sched j = false → (k.slot j).halted = true ∨ (k.slot j).busy = true ∧ (k.slot j).st ≠ .ready →
          Writes s (.cfgLoad g d a b) d 1)
      ∧ (let x := k.slot i
         x.blk < 4096 → x.ver < 65536 → ∃ v : Word, Writes s (.cfgStat g d a) d v ∧ bits v 2 0 = x.st.code
          ∧ v.getLsbD 3 = !k.sched i ∧ bits v 31 16 = (if x.st = .empty then 0 else x.blk)
          ∧ bits v 47 32 = (if x.st = .empty then 0 else x.ver) ∧ bits v 63 48 = x.lasterr % 65536)
      ∧ (k.sched i = false → (k.slot i).halted = false → (k.slot i).st = .ready → Yields s (.fabGo g a) fun t =>
          OnlyCluster s t s.cur.1 ∧ t.me.pc = pc + 4 ∧ t.me.regs = s.me.regs ∧ (t.here.slot i).st = .running
            ∧ (t.here.slot i).groups = 0 ∧ (t.here.slot i).startClk = k.clk ∧ ∀ n, n ≠ i → t.here.slot n = k.slot n)
      ∧ (k.sched i = true → s.CanTrap → Traps s (.fabGo g a) 0xD 0 (k.cfgStat i) pc false)
      ∧ (s.me.waitAt = none → (k.slot i).busy = false ∨ (k.slot i).st = .ready → Yields s (.fabQuiet g a) fun t =>
          OnlySeq s t ∧ t.me.pc = pc + 4 ∧ t.me.regs = s.me.regs ∧ ∀ w ∈ k.regionWrites i, w ∈ t.me.obs.get 1 [])
      ∧ (s.me.waitAt = none → (k.slot i).st = .running → Yields s (.fabQuiet g a) fun t =>
          t.me.pc = pc ∧ t.me.regs = s.me.regs ∧ t.here.slot i = { k.slot i with st := .draining, dispatching := false })
      ∧ (∀ bs n u, s.Record img bs u → k.pushSlot = none → u.here.blockOf (recordFrom bs) = .inl n → n ≠ 0xFFF →
          (u.here.bin n).recs.length < u.here.binCap n → Yields s (.binPush g a) fun t => OnlyCluster u t u.cur.1
            ∧ t.me.pc = u.me.pc + 4 ∧ t.me.regs = u.me.regs
            ∧ (t.here.bin n).recs = (u.here.bin n).recs ++ [(recordFrom bs).hop] ∧ ∀ m, m ≠ n → t.here.bin m = u.here.bin m)
      ∧ Writes s (.binCnt g d a) d (if bits img 11 0 = 0xFFF then 0 else w64 (k.binCount (bits img 11 0))))
    ∧ (s.cur.2 ≠ .control → s.CanTrap →
      ∀ x ∈ [Instr.cfgLoad g d a b, .cfgStat g d a, .fabGo g a, .fabQuiet g a, .binPush g a, .binCnt g d a],
        Traps s x 0xB 0 0 pc false)

/-- R256 to R273: on the copy sequencer at PL 0 a copy command whose records are there, are legal and agree takes its
place at the end of the queue with what its records and registers hold, and goes on; the first illegal record takes COPY
with its address once all have been read, and a scale base beside a source of no MX type ILL (log entry 97); CPY.WAIT goes
on once no more than its count are open. -/
def Obligations.CopyCommands : Prop :=
  ∀ (s u : State) (g : Guard) (d a b : Reg) (o : CopyOpts) (A B D : List Byte), s.guardOn g = true → s.cur.2 = .copy →
    s.me.pl = false →
    let va := s.me.reg a
    let vb := s.me.reg b
    let vd := s.me.reg d
    let p := patternOf va A
    let q := patternOf vb B
    let x := patternOf vd D
    let legal (bs : List Byte) (p : Pattern) : Prop := patternLegal bs p = true
    let read2 : Prop := s.EngineReads [(va, A), (vb, B)] u
    let two : Prop := read2 ∧ legal A p ∧ legal B q
    let placed (i : Instr) (c : CopyCmd) : Prop :=
      o.rside = .none → u.here.copy.queue.length < 16 → c.check = 0 → Yields s i fun t =>
        OnlyCluster u { t with counter := u.counter } u.cur.1 ∧ t.counter = u.counter + 1 ∧ t.me.pc = u.me.pc + 8
          ∧ t.me.regs = u.me.regs ∧ t.here.mat = u.here.mat ∧ t.here.tiles = u.here.tiles
          ∧ t.here.copy = { u.here.copy with queue := u.here.copy.queue ++ [{ c with id := u.counter }] }
    let blank (op : CopyOp) (scale value : Word) (arm rop : Nat) : CopyCmd :=
      { id := 0, op := op, src := p, dst := q, aux := .zero, scale := scale, value := value, opts := o, arm := arm, rop := rop,
        ns := 0, view := s.me.seenBy 2, asid := s.here.task.ctx, claimed := false, pos := 0, due := [], going := false,
        bad := none, ids := [], fault := none }
    (two → p.conv = 0 → d = 0 ∨ isMxTy p.ty = true → placed (.cpy g d a b o) (blank .cpy vd 0 0 0)
      ∧ ∀ arm : Fin 4, placed (.cpyF g d a b o arm) (blank .cpyF vd 0 arm.val 0))
    ∧ (two → (p.conv = 0 → ∀ rop : Fin 3, placed (.cpyR g a b o rop) (blank .cpyR 0 0 0 rop.val))
      ∧ placed (.cpyMx g d a b o) (blank .cpyMx vd 0 0 0) ∧ placed (.cpyPl g a b o) (blank .cpyPl 0 0 0 0))
    ∧ (s.EngineReads [(va, A), (vb, B), (vd, D)] u → legal A p → legal B q → legal D x → p.conv = 0 →
      placed (.cpyG g d a b o) { blank .cpyG 0 0 0 0 with aux := x }
        ∧ placed (.cpyS g d a b o) { blank .cpyS 0 0 0 0 with aux := x })
    ∧ (s.EngineReads [(vb, B)] u → legal B q → placed (.cpyFill g a b o) { blank .cpyFill 0 va 0 0 with src := .zero })
    ∧ (u.CanTrap → read2 →
      let takes (i : Instr) (v : Word) : Prop := TrapsFrom s u i 0xF 1 v u.me.pc false
      (d = 0 ∨ isMxTy p.ty = true →
        (¬(legal A p) ∨ p.conv ≠ 0 → takes (.cpy g d a b o) va ∧ ∀ arm : Fin 4, takes (.cpyF g d a b o arm) va)
        ∧ (legal A p → p.conv = 0 → ¬(legal B q) →
            takes (.cpy g d a b o) vb ∧ ∀ arm : Fin 4, takes (.cpyF g d a b o arm) vb))
      ∧ (¬(legal A p) → takes (.cpyMx g d a b o) va ∧ takes (.cpyPl g a b o) va)
      ∧ (d ≠ 0 → isMxTy p.ty = false →
          TrapsFrom s u (.cpy g d a b o) 1 0 (w64 (encodeNat (.cpy g d a b o) % 2 ^ 32)) u.me.pc false))
    ∧ ∀ imm : BitVec 16, let n := (va + imm.zeroExtend 64).toNat
        ((s.here.openCmds .copy).length ≤ n → GoesTo s (.cpyWait g a imm) (s.me.pc + 8))
        ∧ (n < (s.here.openCmds .copy).length → exec (.cpyWait g a imm) s = .next s)

/-- R256, R281 to R290: on the matrix sequencer at PL 0 with room in the queue a matrix command whose checks pass takes its
place at the end of it with what its registers hold, and MXC.SHAPE, MXC.OPA and MXC.OPB set the shadow; each check that
fails takes MATRIX with its DETAIL. -/
def Obligations.MatrixCommands : Prop :=
  ∀ (s : State) (g : Guard) (d a b : Reg), s.guardOn g = true → s.cur.2 = .matrix → s.me.pl = false →
    s.here.mat.queue.length < 8 →
    let va := s.me.reg a
    let vb := s.me.reg b
    let vd := s.me.reg d
    let m := s.here.mat
    let queued (i : Instr) (op : MatOp) (evt : Option (Fin 64)) (f : Matrix → Matrix) : Prop := Yields s i fun t =>
      OnlyCluster s { t with counter := s.counter } s.cur.1 ∧ t.counter = s.counter + 1 ∧ t.me.pc = s.me.pc + 8
        ∧ t.me.regs = s.me.regs ∧ t.here.copy = s.here.copy ∧ t.here.tiles = s.here.tiles
        ∧ t.here.mat = f { m with queue := m.queue ++ [⟨s.counter, op, evt.map (·.val), s.me.seenBy 3, s.here.task.ctx,
            none, none, none, none⟩] }
    let dim (v : Word) : Prop := 1 ≤ v.toNat ∧ v.toNat ≤ 256
    let traps (i : Instr) (detail : Nat) (v : Word) : Prop := s.CanTrap → Traps s i 0x10 detail v s.me.pc false
    (dim vd → dim va → vb.toNat < 2 ^ 32 → queued (.mxcShape g d a b) (.shape vd.toNat va.toNat vb.toNat) none
      fun x => { x with shShape := some (vd.toNat, va.toNat, vb.toNat) })
    ∧ (¬dim vd → traps (.mxcShape g d a b) 1 vd) ∧ (dim vd → ¬dim va → traps (.mxcShape g d a b) 1 va)
    ∧ (dim vd → dim va → 2 ^ 32 ≤ vb.toNat → traps (.mxcShape g d a b) 1 vb)
    ∧ (∀ ty : BitVec 8,
      let typed : Prop := ty.toNat = 0 ∨ ty.toNat = 8 ∨ 0xA ≤ ty.toNat ∧ ty.toNat ≤ 0x11
      let al := if ty.toNat = 0x11 then 1024 else 64
      let o : Operand := ⟨ty.toNat, va, vb, vd, none⟩
      (typed → va.toNat % al = 0 → vb.toNat % al = 0 →
        queued (.mxcOpa g d a b ty none) (.opa o) none (fun x => { x with shA := some o })
        ∧ (ty.toNat ≠ 0x11 → queued (.mxcOpb g d a b ty none) (.opb o) none fun x => { x with shB := some o }))
      ∧ (¬typed → ∀ ring, traps (.mxcOpa g d a b ty ring) 2 (w64 ty.toNat))
      ∧ (¬typed ∨ ty.toNat = 0x11 → ∀ ring, traps (.mxcOpb g d a b ty ring) 2 (w64 ty.toNat))
      ∧ (typed → va.toNat % al ≠ 0 → ∀ ring, traps (.mxcOpa g d a b ty ring) 3 va))
    ∧ (∀ sh A B, m.shShape = some sh → m.shA = some A → m.shB = some B → matPair A.ty B.ty = true → A.ring = none →
      B.ring = none → ∀ (slot : Fin 4) (evt : Option (Fin 64)) (o : MmpOpts),
        (A.ty ≠ 0x11 → queued (.mma g evt) .mma evt id ∧ queued (.mmz g evt) .mmz evt id
          ∧ queued (.mxcArm g a b slot 0 o) (.arm slot.val 0 0 0 o) o.evt id
          ∧ queued (.mxcArm g a b slot 1 o) (.arm slot.val 1 0 0 o) o.evt id)
        ∧ (A.ty = 0x11 → o.scaled = false → 1 ≤ bits vb 3 0 → bits vb 3 0 ≤ 8 →
          let th := BitVec.ofNat 32 va.toNat
          queued (.mmp g a b o) (.mmp th (bits vb 3 0) o) o.evt id
            ∧ queued (.mxcArm g a b slot 2 o) (.arm slot.val 2 th (bits vb 3 0) o) o.evt id)
        ∧ (A.ty = 0x11 → o.scaled = false → (bits vb 3 0 = 0 ∨ 8 < bits vb 3 0) →
          traps (.mmp g a b o) 7 (w64 (bits vb 3 0))))
    ∧ ∀ sh, m.shShape = some sh → ∀ (acci ef satf : Bool) (evt : Option (Fin 64)) (ndm1 : Fin 16),
      (∀ ty : BitVec 8, drainType ty.toNat = true → va.toNat % wordSize ty.toNat = 0 → vb.toNat % wordSize ty.toNat = 0 →
        queued (.mxcDrain g a b ty acci ef satf evt) (.drain va vb ty.toNat acci ef satf) evt id)
      ∧ (va.toNat < 128 →
        queued (.mxcDrainD g a ndm1 acci evt) (.drainD (va.toNat % 32) (va.toNat / 32) ndm1.val acci) evt id)
      ∧ (128 ≤ va.toNat → traps (.mxcDrainD g a ndm1 acci evt) 8 va)

/-! ### Long operations and memory (R79, R85, R91, R98 to R104, R145, R163, R164, R171, R241, R341 to R348) -/

/-- R81, R93, R145, R160, R171, R178, R337, R343: an operation not yet sent goes to the tile its window address names, where
a store performs as it enters the queue, or to the home its translation names, a pair in two halves, or faults where its
permissions fail; one that has performed writes its results and is gone; and a release that is ready performs. -/
def Obligations.LongOperations : Prop :=
  (∀ (s : State) (c : Nat) (q : SeqId) (k : Nat) (o : LongOp), (s.seq c q).outstanding[k]? = some o →
    let x := s.seq c q
    let ea := o.ea.toNat
    let n := o.kind.size
    let asid := if x.pl then (s.part c).svasid else (s.cluster c).task.ctx
    (o.phase = .unsent → c < 512 → s.maySend c q o = true → x.halted = false → x.haltWant = false →
      (s.cluster c).task.st ≠ .preempting → 1 ≤ n → ea / 64 = (ea + n - 1) / 64 →
      (winBase ≤ ea → ea + n ≤ winHole → o.kind.isLine = false →
        let at_ := 8 * ((ea - winBase) / 65536)
        n ≠ 16 → ((s.cluster c).tileQ.get at_ []).length < 16 → Yields s (.longOpComplete c q k) fun t =>
          OnlyCluster s { t with counter := s.counter } c ∧ t.counter = s.counter + 1
            ∧ ({ t.seq c q with own := x.own } : Sequencer)
                = (if o.kind = .store n then ((x.setPhase o.serial (.done 0 0)).departs o).credit o.serial [s.counter]
                  else (x.setPhase o.serial (.sent s.counter)).departs o)
            ∧ ∃ r, (t.cluster c).tileQ.get at_ [] = (s.cluster c).tileQ.get at_ [] ++ [r] ∧ r.id = s.counter ∧ r.kind = o.req
                ∧ r.key = tileKey c (ea - winBase) ∧ r.ret = .seqOp c q o.serial)
      ∧ (ea + n ≤ winBase ∨ winEnd ≤ ea → ea + n ≤ 2 ^ 55 →
        (∀ pa e key, (s.cluster c).xlat asid ea o.kind.need = .ok pa e → s.placeOf (s.part c) pa = .mem key →
          (o.kind.need.r = true → s.poisoned key = false) →
          let sent (t : State) : Prop := ({ t with clusters := s.clusters, reqs := s.reqs, counter := s.counter } : State) = s
          let asks (r : MemReq) (kind : ReqKind) (key pa : Nat) (ret : RetTo) : Prop :=
            r.kind = kind ∧ r.key = key ∧ r.pa = pa ∧ r.agent = ⟨c, 0, seqNo q⟩ ∧ r.ret = ret
          (n ≠ 16 → Yields s (.longOpComplete c q k) fun t => sent t ∧ t.seq c q = (x.setPhase o.serial (.sent s.counter)).departs o
            ∧ ∃ r, t.reqs = s.reqs ++ [r] ∧ r.id = s.counter ∧ asks r o.req key pa (.seqOp c q o.serial))
          ∧ (n = 16 → o.half = none → Yields s (.longOpComplete c q k) fun t => sent t
            ∧ t.seq c q = (x.setPhase o.serial (.halves none none)).departs o
            ∧ ∃ l h, t.reqs = s.reqs ++ [l, h] ∧ l.id = s.counter ∧ h.id = s.counter + 1
                ∧ asks l (o.halfReq false) key pa (.seqHalf c q o.serial false)
                ∧ asks h (o.halfReq true) (key + 8) (pa + 8) (.seqHalf c q o.serial true)))
        ∧ ((s.cluster c).xlat asid ea o.kind.need = .perm → Yields s (.longOpComplete c q k) fun t =>
            OnlyCluster s t c ∧ t.seq c q = x.setPhase o.serial (.faulted 4 3 o.ea))))
    ∧ (∀ v v2 (d : Reg), o.phase = .done v v2 → o.dst = d.val → (x.exited = true → ∀ p ∈ x.outstanding, p.isFaulted = false) →
      let gone (t : State) : Prop := OnlyCluster s t c ∧ (t.seq c q).pc = x.pc
        ∧ (t.seq c q).outstanding = x.outstanding.filter fun p => p.serial != o.serial
      (∀ size sx, o.kind = .load size sx ∨ o.kind = .alu → Yields s (.longOpComplete c q k) fun t => gone t
        ∧ ∀ r, (t.seq c q).reg r = if r = d ∧ r ≠ 0 then v else x.reg r)
      ∧ (∀ size, o.kind = .store size → Yields s (.longOpComplete c q k) fun t => gone t ∧ (t.seq c q).regs = x.regs))
    ∧ ∀ r, o.rel = some r → r.performed = false → s.releaseReady c q r = true → Yields s (.releasePerformed c q (k + 1)) fun t =>
      OnlyCluster s { t with links := s.links } c ∧ (t.seq c q).regs = x.regs ∧ (t.seq c q).outstanding = x.outstanding.map fun p =>
        if p.serial = o.serial then { p with rel := some { r with performed := true } }
        else if o.serial < p.serial then { p with view := union p.view r.known } else p)
  ∧ ∀ (s : State) (c : Nat) (q : SeqId) (r : Release) (e : Fin 64),
    (s.seq c q).waitAt = some (.release r (.setEvent e.val)) → s.releaseReady c q r = true →
    Yields s (.releasePerformed c q 0) fun t => OnlyCluster s { t with links := s.links } c ∧ (t.seq c q).waitAt = some .released
      ∧ (t.cluster c).events = (s.cluster c).events ||| w64 (2 ^ e.val) ∧ (t.seq c q).regs = (s.seq c q).regs

/-- R98, R241: in a clk in which it has served none yet, a tile's array port serves the requester its pointer comes to first
with an entry that nothing queued comes before, moves on, and performs that one access: a write stores its bytes and no other,
a read leaves the tile, and an atomic or a reduction stores what R173 says. -/
def Obligations.TileService : Prop :=
  ∀ (s : State) (c tile i off : Nat) (e : MemReq) (rest : List MemReq), s.MemOk → i < 7 →
    let k := s.cluster c
    let at_ (j : Nat) := 8 * tile + (k.tilePtr.get tile 0 + j) % 7
    k.tileAt.get tile 0 ≠ k.clk + 1 →
    (∀ j, j < i → k.mayServe tile ((k.tilePtr.get tile 0 + j) % 7) = false) → k.tileQ.get (at_ i) [] = e :: rest →
    (∀ l ∈ k.tileQ, l.1 / 8 = tile → l.1 ≠ at_ i → ∀ x ∈ l.2, x.id ∉ e.view) → e.key = 2 ^ 60 + 2 ^ 21 * c + off →
    let served (P : State → Prop) : Prop := Yields s (.arrayPortServe c tile) fun t =>
      (t.cluster c).tileQ.get (at_ i) [] = rest ∧ (∀ n, n ≠ at_ i → (t.cluster c).tileQ.get n [] = k.tileQ.get n [])
        ∧ (t.cluster c).tilePtr.get tile 0 = ((k.tilePtr.get tile 0 + i) % 7 + 1) % 7 ∧ t.mem = s.mem ∧ t.host = s.host
        ∧ (∀ d, d ≠ c → (t.cluster d).tiles = (s.cluster d).tiles) ∧ P t
    (∀ bs, e.kind = .write bs → off + bs.length ≤ 2 ^ 21 → served fun t => k.tiles.Stores (t.cluster c).tiles off bs)
    ∧ (∀ n, e.kind = .read n → off + n ≤ 2 ^ 21 → served fun t => (t.cluster c).tiles = k.tiles
        ∧ ∀ q m, n ≤ 8 → e.ret = .seqOp c q m → Loaded s t c q m (k.tiles.read off n))
    ∧ ∀ op w y p, e.kind = .amo op w y p ∨ e.kind = .reds [(e.key, op, w, y)] →
        let n := if w then 8 else 4
        off + n ≤ 2 ^ 21 → served fun t =>
          k.tiles.Stores (t.cluster c).tiles off (leBytes n (amoNew op (8 * n) (leNat (k.tiles.read off n)) (y.toNat % 2 ^ (8 * n))).1)

/-- R87, R90, R99, R163, R164, R348: a home serves a request that no earlier one of its agent to its line precedes: a write
stores its bytes and no other, a read leaves memory and returns its bytes, an atomic and a CAS store what R173 says, a
flush leaves memory and cleans its line and no other, and an invalidation brings back what the line's backing store holds and
empties its ways; only a read passes over writes. A
line that an access has asked for enters the set of its home slice, in a way that the access's class allows, and leaves memory. -/
def Obligations.HomeService : Prop :=
  (∀ (s : State) (id : Nat) (r : MemReq), s.MemOk → s.reqs.find? (·.id == id) = some r →
    (∀ p ∈ s.reqs.takeWhile (·.id != id), p.key / 64 = r.key / 64 → ∀ a ∈ s.agentsOf p, a ∉ s.agentsOf r) → r.key + 64 ≤ 2 ^ 60 →
    bit s.dbg.lf[2].toNat 30 = false → bit s.dbg.lf[6].toNat 30 = false →
    let line := r.key / 64 * 64
    let served (P : State → Prop) : Prop := Yields s (.homeAccess id 0) fun t =>
      t.reqs = s.reqs.filter (fun p => p.id != id) ∧ (∀ c, (t.cluster c).tiles = (s.cluster c).tiles) ∧ t.host = s.host ∧ P t
    (∀ bs, r.kind = .write bs → served fun t => s.mem.Stores t.mem r.key bs)
    ∧ (∀ n, r.kind = .read n → n ≤ 64 → served fun t => t.mem = s.mem
        ∧ ∀ c q m, n ≤ 8 → r.ret = .seqOp c q m → Loaded s t c q m (s.mem.read r.key n))
    ∧ (∀ op w y p, r.kind = .amo op w y p →
        let n := if w then 8 else 4
        served fun t => s.mem.Stores t.mem r.key
          (leBytes n (amoNew op (8 * n) (leNat (s.mem.read r.key n)) (y.toNat % 2 ^ (8 * n))).1))
    ∧ (∀ w cmp new, r.kind = .cas w cmp new →
        let n := if w then 8 else 4
        (leNat (s.mem.read r.key n) = cmp.toNat % 2 ^ (8 * n) → served fun t => s.mem.Stores t.mem r.key (toBytes n new))
        ∧ (leNat (s.mem.read r.key n) ≠ cmp.toNat % 2 ^ (8 * n) → served fun t => t.mem = s.mem))
    ∧ (r.kind = .flush → served fun t => t.mem = s.mem ∧ t.backing (r.key / 64) = none
        ∧ ∀ l, l ≠ r.key / 64 → t.backing l = s.backing l)
    ∧ (r.kind = .invalidate →
        (∀ b, s.backing (r.key / 64) = some b → served fun t => s.mem.Stores t.mem line b
          ∧ t.backing (r.key / 64) = none ∧ t.hitsL2 line = false)
        ∧ (s.backing (r.key / 64) = none → served fun t => ∀ a, t.mem.readByte a = s.mem.readByte a))
    ∧ ∀ n, (∀ m, r.kind ≠ .read m) → exec (.homeAccess id (n + 1)) s = .next s)
  ∧ ∀ (s : State) (line set : Nat) (cls : Fin 8),
    let asked := s.l2Fills.find? fun f => f.line == line && f.rcls == cls.val
    let rct := s.rctOf (64 * line) cls.val
    (∀ f, asked = some f → s.setOf (64 * line) = set → bit rct 20 = true → nbits rct 18 2 ≠ 2 → nbits rct 2 16 ≠ 0 →
      s.l2.get set [] = [] → s.poisoned (64 * line) = false → Yields s (.l2Fill line set cls.val) fun t =>
        ({ t with l2 := s.l2, l2Fills := s.l2Fills } : State) = s ∧ t.l2Fills = s.l2Fills.erase f
          ∧ (∀ n, n ≠ set → t.l2.get n [] = s.l2.get n []) ∧ (t.l2.get set []).length = 16
          ∧ ∃ w, bit rct (2 + w) = true ∧ ((t.l2.get set [])[w]?).map (fun x => (x.line, x.backing)) = some (some line, f.backing)
            ∧ ∀ v, v ≠ w → v < 16 → ((t.l2.get set [])[v]?).map (·.line) = some none)
    ∧ (asked = none ∨ s.setOf (64 * line) ≠ set → exec (.l2Fill line set cls.val) s = .next s)

/-- R35, R350 to R353, R357: at an instruction boundary at PL 0 a sequencer takes MCHK first, then the oldest fault of an
operation, then, outside its handlers, ENGPAGE, ENGFAULT and DLRISK, which AMASK holds; within a handler it takes none of
these. It writes its frame and goes to the handler; an instruction whose record read has been sent stands in the replay queue,
behind the long operations, and TRAPPC names the next (R368). -/
def Obligations.TrapDeliveries : Prop :=
  ∀ (s : State) (c : Nat) (q : SeqId),
    let x := s.seq c q
    s.atBoundary c q = true → x.pl = false →
    let takes (cause detail : Nat) (arg : Word) : Prop := Yields s (.trapDelivery c q) fun t =>
      OnlyCluster (s.dropAsks ⟨c, 0, seqNo q⟩) { t with counter := s.counter } c
        ∧ (t.seq c q).frame.cause = causeWord cause detail false ∧ (t.seq c q).frame.arg = arg
        ∧ (t.seq c q).frame.pc = w64 (bits (s.boundary c q).1 54 0)
        ∧ (t.seq c q).frame.replay = x.settle.outstanding ++ (s.boundary c q).2
        ∧ (t.seq c q).pc = (s.handler c q cause detail).2 ∧ (t.seq c q).pl = (s.handler c q cause detail).1
        ∧ (t.seq c q).outstanding = [] ∧ (∀ r, (t.seq c q).reg r = x.settle.reg r) ∧ ∀ p, (t.seq c q).pred p = x.pred p
    ((∀ i ea st, x.waitAt ≠ some (.reading i ea st)) → s.boundary c q = (x.pc, []))
    ∧ (∀ i ea st, x.waitAt = some (.reading i ea st) → s.asks ⟨c, 0, seqNo q⟩ = true → x.resume = none →
        (s.boundary c q).1 = x.pc + w64 i.len
          ∧ ∃ e, (s.boundary c q).2 = [e] ∧ e.ins = i ∧ e.pc = x.pc ∧ e.kind = .command ∧ e.ea = ea)
    ∧ (∀ d a, x.mchk = some (d, a) → takes 0x14 d a)
    ∧ (x.mchk = none → ∀ o cause d a, x.outstanding.find? (·.isFaulted) = some o → o.phase = .faulted cause d a →
        takes cause d a)
    ∧ (x.mchk = none → x.outstanding.find? (·.isFaulted) = none → (q = .control → (s.cluster c).task.left = false) →
      (x.inProg = true ∨ x.inSup = true → x.exited = false → exec (.trapDelivery c q) s = .next (s.mapCl c (·.settleIdle)))
      ∧ (x.inProg = false → x.inSup = false →
        (x.engPage = true → takes 0x13 0 (s.pidx c))
        ∧ (x.engPage = false → x.exited = false →
          (∀ d a l, x.engFaults = (d, a) :: l → takes 0x11 d a)
          ∧ (∀ a, x.engFaults = [] → x.dlrisk = some a → x.amask = false → takes 0x12 0 a)
          ∧ (∀ a, x.engFaults = [] → x.dlrisk = some a → x.amask = true →
              exec (.trapDelivery c q) s = .next (s.mapCl c (·.settleIdle))))))

/-- R97, R100 to R104: two AMOs of one address, operation, width and scope, of which b entered later and behind no request
of its agent to the line, combine into one request with the operand a ⊕ b, and
when its old value v comes back the first receives v and the second v ⊕ a; for every operation but FADD.RX the home is
left as serving a and then b would leave it. -/
def Obligations.Combining : Prop :=
  (∀ (op w : Nat) (v x y : Nat), op ≤ 8 → 0 < w → v < 2 ^ w → x < 2 ^ w → y < 2 ^ w →
    (amoNew op w (amoNew op w v x).1 y).1 = (amoNew op w v (amoNew op w x y).1).1)
  ∧ (∀ (s : State) (i j : Nat) (a b : MemReq) (op : Nat) (w64 : Bool) (x y : Word) (p p' : Bool),
    s.reqs.find? (·.id == i) = some a → s.reqs.find? (·.id == j) = some b → i ≠ j →
    a.kind = .amo op w64 x p → b.kind = .amo op w64 y p' → a.key = b.key → a.pa = b.pa → a.scope = b.scope → op ≤ 8 →
    i < 2 ^ 32 → (s.reqs.takeWhile (·.id != j)).any (·.id == i) = true →
    (∀ e ∈ s.reqs.takeWhile (·.id != j), e.id ≠ i → e.key / 64 = b.key / 64 → ∀ g ∈ s.agentsOf e, g ∉ s.agentsOf b) →
    let w := if w64 then 64 else 32
    Yields s (.combineRequest i j) fun t => t.mem = s.mem ∧ t.hist = s.hist ∧ t.sheaves = s.sheaves ++ [⟨s.counter, a, b, none, none, none, none⟩]
      ∧ ∃ r, t.reqs = (s.reqs.map fun n => if n.id = i then r else n).filter (fun n => n.id != j)
          ∧ r.key = a.key ∧ r.agent = a.agent ∧ r.scope = a.scope ∧ r.ret = .sheaf s.counter
          ∧ r.kind = .amo op w64 (Machine.w64 (amoNew op w (x.toNat % 2 ^ w) (y.toNat % 2 ^ w)).1) (p && p'))
  ∧ ∀ (s : State) (h : Sheaf) (op : Nat) (w64 : Bool) (v x : Word) (p : Bool) (c d : Nat) (q u : SeqId) (m n : Nat),
    s.sheaves.find? (·.id == h.id) = some h → h.old = some v → h.first.kind = .amo op w64 x p → op ≤ 8 →
    h.first.ret = .seqOp c q m → h.second.ret = .seqOp d u n → (c, q) ≠ (d, u) →
    ∀ oa ob sa sb, (s.seq c q).outstanding.find? (·.serial == m) = some oa → oa.kind = .amo op w64 sa → oa.rel = none →
      (s.seq d u).outstanding.find? (·.serial == n) = some ob → ob.kind = .amo op w64 sb → ob.rel = none →
    let size := if w64 then 8 else 4
    let old := v.toNat % 2 ^ (8 * size)
    Yields s (.sheafReturn h.id) fun t => t.mem = s.mem ∧ t.reqs = s.reqs ∧ t.sheaves = s.sheaves.filter (fun g => g.id != h.id)
      ∧ (t.seq c q).outstanding.find? (·.serial == m) = some { oa with phase := .done (extOld op w64 old) 0 }
      ∧ (t.seq d u).outstanding.find? (·.serial == n)
          = some { ob with phase := .done (extOld op w64 (amoNew op (8 * size) old (x.toNat % 2 ^ (8 * size))).1) 0 }

/-- R337, R340, R341, R343, R344: a walker of the die takes up a miss while one of its 64 is free; a walk that finds a leaf
puts it into the TLB of every cluster whose miss joined it, where no pinned entry of it stands; one that finds none ends the
misses of sequencers, which will report it, and leaves memory when no engine joined. -/
def Obligations.PageWalks : Prop :=
  ∀ (s : State) (c k : Nat) (m : Miss), (s.cluster c).misses[k]? = some m →
    let p := s.part c
    let joins (d : Nat) : Prop := ∃ n ∈ (s.cluster d).misses, n.joined m.asid m.page = true
    let on := s.walksOn (c / 64)
    (m.walking = false → m.failed = none → (m.asid, m.page) ∈ on ∨ on.length < 64 ∧ s.walkTurn (c / 64) c on = false →
      Yields s (.pageWalkStart c k) fun t =>
      OnlyCluster s { t with dies := s.dies } c ∧ (t.cluster c).misses[k]? = some { m with walking := true }
        ∧ (t.cluster c).tlb = (s.cluster c).tlb)
    ∧ (m.walking = true →
      (∀ e, s.walk p (c / 64) m.asid m.va = .leaf e → e.pin = false → Yields s (.pageWalkComplete c k) fun t =>
        ({ t with clusters := s.clusters, dies := s.dies, ctxs := s.ctxs, l2 := s.l2 } : State) = s
          ∧ (∀ d, d / 64 = c / 64 → joins d →
              ((∀ f ∈ (s.cluster d).tlb, f.pin = true → (f.asid, f.vbase, f.size) ≠ (e.asid, e.vbase, e.size)) →
                (t.cluster d).tlb.head? = some e)
              ∧ ∀ n ∈ (t.cluster d).misses, n.joined m.asid m.page = false)
          ∧ ∀ d, d / 64 ≠ c / 64 → t.cluster d = s.cluster d)
      ∧ ∀ level kind, s.walk p (c / 64) m.asid m.va = .miss level kind →
        (∀ d, d / 64 = c / 64 → ∀ n ∈ (s.cluster d).misses, n.joined m.asid m.page = true → n.cls = 0) →
        Yields s (.pageWalkComplete c k) fun t =>
          ({ t with clusters := s.clusters, ctxs := s.ctxs, l2 := s.l2 } : State) = s
          ∧ ∀ d, (t.cluster d).tlb = (s.cluster d).tlb
            ∧ (d / 64 = c / 64 → ∀ n ∈ (s.cluster d).misses, n.joined m.asid m.page = true → n.seqWants = true →
                { n with cls := 0, walking := false, failed := some (level, kind) } ∈ (t.cluster d).misses))

/-! ### Steps, gangs and jobs (R35 to R48, R312 to R334, R390) -/

/-- R41, R44, R97, R313, R326, R360: when every task of a gang has arrived or retired, every write has performed and every
marker has come back, the step ends and the next begins in all of them; DLRISK that is not taken in 10 µs is posted to the
status page; waiting raises a candidate's level by one each millisecond. -/
def Obligations.StepEnds : Prop :=
  ∀ (s : State) (job gi : Nat) (g : Gang), s.gang job gi = some g →
    (s.stepOver job g = true → s.seats job g ≠ [] →
      (∀ c ∈ s.seats job g, (s.cluster c).task.flush = [] ∧ (s.cluster c).usedMo = [] ∧ (s.cluster c).usedHost = false
        ∧ s.zeroOut c = false) → Yields s (.superstepEnd job gi) fun t =>
      t.mem = s.mem ∧ t.host = s.host
        ∧ (∃ h, t.gang job gi = some h ∧ h.step = g.step + 1 ∧ h.stepStart = s.now ∧ h.deadline = none ∧ h.deadlineSet = false
            ∧ h.dlRaised = false ∧ h.dlPosted = false ∧ h.clusters = g.clusters)
        ∧ (∀ c ∈ s.seats job g,
            let x := (t.cluster c).task
            x.arrived = false ∧ x.prog = 0 ∧ x.stepClk = (s.cluster c).clk ∧ x.noReplay = false
              ∧ (x.ckpt.isSome = (s.cluster c).task.reexec) ∧ (t.cluster c).seqC.dlrisk = none
              ∧ ∀ q, (t.seq c q).sleeping = false ∧ (t.seq c q).regs = (s.seq c q).regs)
        ∧ ∀ c, c ∉ s.seats job g → t.cluster c = s.cluster c)
    ∧ (s.stepOver job g = false → exec (.superstepEnd job gi) s = .next s)
    ∧ ((∃ c ∈ s.seats job g, (s.cluster c).task.flush ≠ []) → Yields s (.superstepEnd job gi) fun t => t.gang job gi = some g)
    ∧ (∀ j c l slack, s.job job = some j → g.clusters = c :: l →
      (if g.retired.contains 0 then g.dlPend = some slack else s.sits job gi c = true ∧ (s.cluster c).seqC.dlrisk = some slack) →
      g.dlRaised = true →
      g.dlPosted = false → g.dlAt + 10000 ≤ s.now → s.MemOk → Yields s (.dlriskPost job gi) fun t =>
        let n := ((s.ctx j.ctx).dlrc + 1) % 2 ^ 64
        (t.ctx j.ctx).dlrc = n ∧ (t.ctx j.ctx).dlrp = w64 (g.step % 2 ^ 32 + slack.toNat % 2 ^ 32 * 2 ^ 32) ∧ t.mem = s.mem
          ∧ (s.links.hostUp = true → t.host.read (s.statusPage j.ctx + 0x20) 8 = leBytes 8 n)
          ∧ (s.links.hostUp = false → t.host = s.host))
    ∧ (g.ready = true → Yields s (.gangLevelRaise job gi) fun t => ({ t with jobs := s.jobs } : State) = s
        ∧ t.gang job gi = some { g with bonus := Nat.max g.bonus ((s.now - g.readyAt) / 1000000) })

/-- R35, R38, R313, R324, R332 to R334, R390: a task that may retire adds its status to its gang and leaves its cluster, and
the last one completes the gang; a job whose gangs are over writes its record, piece by piece within lines, and then counts in
DONE with LASTJOB and is gone; a launch write that passes its checks becomes a job under the context's next number, and one
that fails is counted. -/
def Obligations.Completion : Prop :=
  (∀ (s : State) (c : Nat) (g : Gang), s.mayRetire c = true →
    let k := s.cluster c
    k.task.st = .exiting → s.gang k.task.job k.task.gi = some g → g.colls = [] → c ∈ g.clusters → k.task.flush = [] →
    k.usedSy = [] → k.usedHost = false → s.zeroOut c = false →
    (g.retired.length + 1 < g.size → Yields s (.taskRetire c) fun t => t.mem = s.mem
        ∧ (t.cluster c).task = .reset ∧ (∀ d, d ≠ c → t.cluster d = s.cluster d)
        ∧ ∃ h, t.gang k.task.job k.task.gi = some h ∧ h.retired = k.task.rank :: g.retired ∧ h.flags = g.flags ||| k.task.flags
            ∧ h.disc = g.disc + k.task.disc ∧ (g.st ≠ .preempting → h.st = g.st))
    ∧ (g.size ≤ g.retired.length + 1 → Yields s (.taskRetire c) fun t => t.mem = s.mem ∧ (t.cluster c).task = .reset
        ∧ ∃ h, t.gang k.task.job k.task.gi = some h ∧ h.st = .done))
  ∧ (∀ (s : State) (j : Job), s.job j.num = some j → j.live = true → j.over = true →
    let p := s.partOfCtx j.ctx
    (j.crec = 0 ∨ j.recLeft = some [] → j.recHost = false → s.recordOut p j.ctx = false → s.silos = [] → s.MemOk →
      Yields s (.jobComplete j.num) fun t =>
      let n := ((s.ctx j.ctx).done + 1) % 2 ^ 64
      t.mem = s.mem ∧ t.clusters = s.clusters ∧ t.jobs = s.jobs.filter (fun i => i.num != j.num) ∧ (t.ctx j.ctx).done = n
        ∧ (t.ctx j.ctx).lastjob = j.num + j.status * 2 ^ 48
        ∧ (s.links.hostUp = true → t.host.read (s.statusPage j.ctx) 8 = leBytes 8 n)
        ∧ ∀ w ∈ j.recIds, w ∈ t.links.syDone ∧ w ∈ t.links.rKnown)
    ∧ (j.recLeft = none → j.crec ≠ 0 → (j.pieces s.now).map (fun e => (e.1, e.2.length)) = linesOf j.crec.toNat 64
        ∧ ((j.pieces s.now).map (·.2)).flatten = j.record s.now)
    ∧ ∀ u ids va bs rest, j.pieces s.now = (va, bs) :: rest → s.ctxHeld p j.ctx va bs.length = false →
        s.ctxPut p { p.who j.ctx with view := union j.knew j.recIds } [⟨j.knew, .sy, 64 * p.first, []⟩] va bs = .ok u ids →
        u.job j.num = some j → Yields s (.jobComplete j.num) fun t => t.mem = u.mem
          ∧ (∀ w ∈ j.knew, w ∈ t.links.syDone ∧ w ∈ t.links.rKnown)
          ∧ ∃ k, t.job j.num = some k ∧ k.recLeft = some rest ∧ ∀ w ∈ ids, w ∈ k.recIds)
  ∧ ∀ (s : State) (fn off : Nat) (bs : List Byte) (a : InboundAttr), a.rootPort = true → fn < 256 → off < 0x40000 →
    s.boot.st = 5 → s.inboundOut a.requester = false →
    let ctx := 64 * fn + off / 4096
    let l := launchOf bs
    let rejected (n : Nat) : Prop := Yields s (.launchWrite fn off bs a) fun t => t.jobs = s.jobs ∧ t.mem = s.mem
      ∧ (t.ctx ctx).rej = ((s.ctx ctx).rej + 1) % 2 ^ 56 ∧ (t.ctx ctx).rejReason = n
    let whole : Prop := a.oneTlp = true ∧ bs.length = 64 ∧ off % 64 = 0 ∧ a.poisoned = false
    (descValid (s.descOf (s.partOfFn fn) ctx) = true →
      (¬whole → rejected 1) ∧ (whole → a.relaxed = true ∨ a.idOrdered = true → rejected 2)
      ∧ (whole → a.relaxed = false → a.idOrdered = false → s.badLaunch ctx l false = false → ∀ p, s.room ctx false = some p →
        Yields s (.launchWrite fn off bs a) fun t => (p = true → t.mem = s.mem)
          ∧ (t.ctx ctx).seqHost = ((s.ctx ctx).seqHost + 1) % 2 ^ 33
          ∧ ∃ j, t.jobs = s.jobs ++ [j] ∧ j.num = ctx * 2 ^ 34 + ((s.ctx ctx).seqHost + 1) % 2 ^ 33 ∧ j.ctx = ctx ∧ j.inPool = p
              ∧ j.code = 0 ∧ j.gangs.length = l.ngm1 + 1 ∧ j.live = true))
    ∧ (descValid (s.descOf (s.partOfFn fn) ctx) = false → Yields s (.launchWrite fn off bs a) fun t => t.jobs = s.jobs
        ∧ (∀ n, ({ t.ctx n with desc := (s.ctx n).desc } : Ctx) = s.ctx n) ∧ t.mem = s.mem)

/-- R30, R144, R319, R328 to R332, R363, R369: a scheduler cycle that finds every entry read, and every candidate in its
function's world already, admits the candidate of highest precedence onto its clusters when it fits, and otherwise none; a
gang admitted for the first time starts in all its clusters with its arguments in s1 to s7 at ENTRY, and one that was saved
resumes with its registers and its tiles. -/
def Obligations.Scheduling : Prop :=
  (∀ (s : State) (part : Nat) (p : Partition) (j : Job) (g : Gang), s.partAt part = some p → p.switching = none →
    (∀ i ∈ s.jobs, ∀ x ∈ i.gangs, x.st ≠ .waiting ∧ x.st ≠ .entered ∧ x.st ≠ .checking) → s.reworldAll p = s → s.first p = some (j, g) →
    s.gang j.num g.gi = some g →
    (s.fits p g = true → g.st = .candidate → Yields s (.schedulerCycle part) fun t => t.mem = s.mem
      ∧ (∃ h, t.gang j.num g.gi = some h ∧ h.st = .admitted ∧ h.clusters = s.clustersFor p g ∧ h.resumed = false)
      ∧ (∀ c ∈ s.clustersFor p g, let x := (t.cluster c).task
          x.resident = true ∧ x.st = .starting ∧ x.ctx = j.ctx ∧ x.job = j.num ∧ x.gi = g.gi ∧ x.n = g.size ∧ x.image = g.image)
      ∧ ∀ c, c ∉ s.clustersFor p g → (t.cluster c).task = (s.cluster c).task)
    ∧ (s.fits p g = false → Yields s (.schedulerCycle part) fun t => t.mem = s.mem ∧ t.jobs = s.jobs
      ∧ ∀ c, (t.cluster c).task = (s.cluster c).task))
  ∧ ∀ (s : State) (job gi : Nat) (j : Job) (g : Gang), s.job job = some j → s.gang job gi = some g → g.st = .admitted →
    let p := s.partOfCtx j.ctx
    (s.part (64 * p.first)).switching = none → j.num = job → g.gi = gi →
    (∀ args recs s1 s2, g.resumed = false → s.startArgs p j.ctx g.argp.toNat = .ok s1 args →
      s1.startRecords p j.ctx g.thrp.toNat g.thrn (List.range g.size) [] = .ok s2 recs → g.clusters.length ≤ recs.length →
      s2.jobs = s.jobs → s2.parts = s.parts →
      Yields s (.gangStart job gi) fun t => t.mem = s2.mem
        ∧ (∃ h, t.gang job gi = some h ∧ h.st = .resident ∧ h.step = 0 ∧ h.stepStart = s2.now)
        ∧ ∀ c ∈ g.clusters, (s2.cluster c).task.st = .starting →
            let k := t.cluster c
            k.task.st = .running ∧ k.seqC.pc = (s2.cluster c).task.image + w64 (s2.cluster c).task.entry
              ∧ (∀ r : Reg, k.seqC.reg r = if 1 ≤ r.val ∧ r.val ≤ 7 then args.getD (r.val - 1) 0 else 0)
              ∧ (∀ n, k.seqC.pred n = decide (n = 0)) ∧ k.seqC.idle = false ∧ k.seqY.idle = true ∧ k.seqM.idle = true
              ∧ k.seqC.pl = false ∧ k.events = 0 ∧ k.rings = [] ∧ k.mat.acc = []
              ∧ ((s2.cluster c).staged = none → k.slots = []) ∧ (∀ i, (k.slot i).st = .empty ∨ (k.slot i).st = .idle)
              ∧ k.tiles = (s2.cluster c).tiles ∧ k.power.thr = 8)
    ∧ (g.resumed = true → Yields s (.gangResume job gi) fun t =>
        (∃ h, t.gang job gi = some h ∧ h.st = .resident ∧ h.resumed = false
          ∧ h.deadline = g.deadline.map (· + (s.now - g.preAt)))
        ∧ ∀ c ∈ g.held, (s.cluster c).task.st = .saved →
            let x := s.savedCl.get (16 * c + g.world) .reset
            let k := t.cluster c
            k.tiles = x.tiles ∧ k.mat.acc = x.mat.acc ∧ k.events = x.events ∧ k.rings = x.rings ∧ k.task.rank = x.task.rank
              ∧ k.task.flags = x.task.flags
              ∧ ∀ q, (x.seq q).waits = [] → (k.seq q).regs = (x.seq q).regs ∧ (k.seq q).preds = (x.seq q).preds
                  ∧ (k.seq q).pc = (((x.seq q).outstanding.find? (·.kind == .command)).map (·.pc)).getD (x.seq q).pc
                  ∧ (k.seq q).outstanding
                      = ((x.seq q).outstanding.filter (·.kind != .command)).map fun o => { o with phase := .unsent })

/-! ### Bins, slots and regions (R10 to R28, R213 to R221, R422) -/

/-- R9 to R13, R24, R26, R28, R245: a record whose bin has room enters it with HOPS counted, and leaves the push slot or the
port that held it; a full group of sixteen, or after the delay a partial one, leaves in order through BDEQ with its lane
mask, unless the quota is met and another bin waits; a bin of age 4,096 is aged; and 65,536 blocked clks end the task with
BINDEADLOCK. -/
def Obligations.Bins : Prop :=
  ∀ (s : State) (c : Nat),
    let k := s.cluster c
    let enters (i : Instr) (r : Record) (P : Cluster → Prop) : Prop := ∀ n, k.saving = false → k.task.resident = true →
      k.blockOf r = .inl n → n ≠ 0xFFF → (k.bin n).recs.length < k.binCap n → Yields s i fun t => OnlyCluster s t c
        ∧ ((t.cluster c).bin n).recs = (k.bin n).recs ++ [r.hop] ∧ (∀ m, m ≠ n → (t.cluster c).bin m = k.bin m) ∧ P (t.cluster c)
    let groupOf (rs : List Record) : List Token :=
      (rs.map fun (r : Record) => Token.word (r.hdr.truncate 32) :: .word ((r.hdr >>> 32).truncate 32) :: r.vals.map .word).flatten
    (∀ r, k.pushSlot = some r → enters (.binEnqueue c 128) r fun u => u.pushSlot = none)
    ∧ (∀ r l slot tile, slot < 4 → tile < 32 → (k.port slot tile).heldRec = r :: l → k.task.st ≠ .abandoning →
        k.task.st ≠ .failing →
        enters (.binEnqueue c (32 * slot + tile)) r fun u => (u.port slot tile).heldRec = l)
    ∧ (k.blocked < 65536 → exec (.bindeadlock c) s = .next s)
    ∧ (65536 ≤ k.blocked → k.Alive → Yields s (.bindeadlock c) fun t => (t.cluster c).Failed 9 0 0)
    ∧ (∀ slot e, k.mayDispatch slot = true → k.binTile slot = some e →
      let b := (k.slot slot).blk
      let rs := (k.bin b).recs
      let sends (i : Instr) (n : Nat) : Prop := Yields s i fun t => OnlyCluster s t c
        ∧ ((t.cluster c).bin b).recs = rs.drop n ∧ ((t.cluster c).bin b).since = k.clk
        ∧ ((t.cluster c).port slot e.1).coQ = [.ctl (BitVec.ofNat 16 (2 ^ n - 1))]
        ∧ ((t.cluster c).port slot e.1).outQ = groupOf (rs.take n) ∧ ((t.cluster c).slot slot).groups = (k.slot slot).groups + 1
      let stops (i : Instr) : Prop := Yields s i fun t => OnlyCluster s t c
        ∧ (t.cluster c).slot slot = { k.slot slot with st := .draining, dispatching := false } ∧ (t.cluster c).bin b = k.bin b
      (k.quotaMet slot = false → 16 ≤ rs.length → sends (.binDispatch c slot) 16)
      ∧ (k.quotaMet slot = true → stops (.binDispatch c slot) ∧ stops (.partialDispatch c slot))
      ∧ (k.quotaMet slot = false → rs ≠ [] → rs.length < 16 → k.binDelay slot ≤ k.clk - (k.bin b).newest →
          sends (.partialDispatch c slot) rs.length)
      ∧ (k.quotaMet slot = false → rs = [] → k.binDelay slot ≤ k.clk - Nat.max (k.bin b).since (k.slot slot).startClk →
          stops (.partialDispatch c slot)))
    ∧ ∀ b, 0 < k.binCount b → 4096 ≤ k.clk - (k.bin b).since → Yields s (.binAged c b) fun t => OnlyCluster s t c
        ∧ (t.cluster c).bin b = { k.bin b with aged := true } ∧ ∀ m, m ≠ b → (t.cluster c).bin m = k.bin m

/-- R17 to R19, R26, R27, R130 to R132, R215, R220, R221, R422: the first open scheduler slot takes the candidate no other
is better than; a READY one starts; the configuration bus takes an image frame by frame, and an illegal header empties the
slot with its detail; a DRAINING region that is quiet, and a RUNNING pinned one that has ended its work, goes IDLE. -/
def Obligations.Slots : Prop :=
  ∀ (s : State) (c : Nat),
    let k := s.cluster c
    (∀ b, k.choose = some b → b ∈ k.candidates ∧ ∀ a ∈ k.candidates, k.better a b = false)
    ∧ (∀ i b, k.schedules = true → (List.range 4).find? k.openSlot = some i → k.choose = some b →
      (∀ e, ¬((k.slot i).st = .idle ∧ (k.slot i).blk = b) → k.holder b = none → k.task.dir.find? (·.1 == b) = some e →
        Yields s (.schedulerChoose c) fun t => OnlyCluster s t c ∧ ((t.cluster c).slot i).st = .loading
          ∧ ((t.cluster c).slot i).blk = b ∧ (∀ n, n ≠ i → (t.cluster c).slot n = k.slot n)
          ∧ (t.cluster c).loads = addLoad ⟨i, b, k.task.image + w64 e.2.2, true, k.task.ctx,
              union (k.seqC.seenBy 0) k.seqC.own, k.clk, 0, 0, 0xFFFFFFFF#32⟩ k.loads)
      ∧ ((k.slot i).st = .idle → (k.slot i).blk = b → Yields s (.schedulerChoose c) fun t => OnlyCluster s t c
          ∧ (t.cluster c).slot i = { k.slot i with st := .ready, readyClk := k.clk } ∧ (t.cluster c).loads = k.loads))
    ∧ (∀ i, i < 4 → k.sched i = true → (k.slot i).st = .ready → (k.slot i).halted = false → k.schedules = true →
      Yields s (.slotStart c i) fun t => OnlyCluster s t c ∧ ((t.cluster c).slot i).st = .running
        ∧ ((t.cluster c).slot i).dispatching = true ∧ ((t.cluster c).slot i).startClk = k.clk
        ∧ ((t.cluster c).slot i).groups = 0 ∧ ∀ n, n ≠ i → (t.cluster c).slot n = k.slot n)
    ∧ (∀ l ls u bs, k.loads = l :: ls → k.saving = false → l.sched = false →
      (k.seqC.outstanding ++ k.seqC.frame.replay).any (s.blocksRecord c .control (l.img.toNat + 32 * l.next) 32) = false →
      s.vread (l.who k c) (l.img.toNat + 32 * l.next) 32 = .ok u bs → (u.cluster c).task.st ≠ .failing →
      let v := u.dropLines (l.who k c).agent
      let y := v.cluster c
      let rest := y.loads.drop 1
      let f := leNat bs
      let fs := (y.slot l.slot).frames
      let e := frameError f (fs.map fun g => g % 2 ^ 230 + g / 2 ^ 232 * 2 ^ 232)
      let empty (detail : Nat) (t : State) : Prop := OnlyCluster v t c ∧ ((t.cluster c).slot l.slot).st = .empty
        ∧ ((t.cluster c).slot l.slot).lasterr = detail ∧ (t.cluster c).loads = rest
      (l.next = 0 → headerError f l.blk = 0 → Yields s (.configFrameWrite c) fun t => OnlyCluster v t c
        ∧ (t.cluster c).slot l.slot = { y.slot l.slot with ver := hVer f }
        ∧ (t.cluster c).loads = { l with header := f, next := 1, crc := crcBytes l.crc (crcHeader f) } :: rest)
      ∧ (l.next = 0 → headerError f l.blk ≠ 0 → Yields s (.configFrameWrite c) (empty (headerError f l.blk)))
      ∧ (l.next ≠ 0 → e ≠ 0 → Yields s (.configFrameWrite c) (empty e))
      ∧ (l.next ≠ 0 → e = 0 → l.next < hNfr l.header → Yields s (.configFrameWrite c) fun t => OnlyCluster v t c
        ∧ (t.cluster c).slot l.slot = { y.slot l.slot with frames := fs ++ [withSlot f l.slot] }
        ∧ (t.cluster c).loads = { l with next := l.next + 1, crc := crcBytes l.crc bs } :: rest)
      ∧ (l.next ≠ 0 → e = 0 → hNfr l.header ≤ l.next → lastError (fs ++ [withSlot f l.slot]) false = 0 →
          ((~~~crcBytes l.crc bs).toNat = hCrc l.header → Yields s (.configFrameWrite c) fun t => OnlyCluster v t c
            ∧ (t.cluster c).slot l.slot
                = { y.slot l.slot with frames := fs ++ [withSlot f l.slot], st := .ready, readyClk := y.clk }
            ∧ (t.cluster c).loads = rest)
          ∧ ((~~~crcBytes l.crc bs).toNat ≠ hCrc l.header → Yields s (.configFrameWrite c) (empty 6))))
    ∧ ∀ i, (k.slot i).haltPending = false → bit s.dbg.tren 1 = false →
      let idles (e : Instr) : Prop := Yields s e fun t => OnlyCluster s t c
        ∧ (t.cluster c).slot i = { k.slot i with st := .idle, dispatching := false } ∧ ∀ n, n ≠ i → (t.cluster c).slot n = k.slot n
      ((k.slot i).st = .draining → k.sched i = true → s.regionQuiet c i = true → idles (.regionDrained c i))
      ∧ (s.regionQuiet c i = false → exec (.regionDrained c i) s = .next s ∧ exec (.pinnedRegionEnd c i) s = .next s)
      ∧ ((k.slot i).st = .running → k.sched i = false → k.portsDone c i = true → s.regionQuiet c i = true →
          idles (.pinnedRegionEnd c i))

/-! ### The fabric (R15, R16, R189 to R255) -/

/-- R16, R191, R193 to R196: an element's running slot emits its next beat on X against a REQ and counts its firing; one
that cannot fire gives way to the first ready slot after it; a KILL whose value has ended is dropped, and one that stands
stops the value. -/
def Obligations.Elements : Prop :=
  (∀ (s : State) (c slot pos n f : Nat) (tok : Token) (o : OutVal), pos < 64 → n < 4 →
    let k := s.cluster c
    let x := k.elem slot pos n
    k.runs slot = true → k.saving = false → k.runningSlot pos n = slot → k.frame slot 1 (pos + 64 * n) = some f →
    deEnX f = true → deEnY f = false → deEnCo f = false → deEnB f = false → deEnC f = false →
    k.ready (elX slot pos n) = true → (Cell.mk f x).beat false x.x = some (tok, o) →
    Yields s (.elementFire c slot pos n) fun t => OnlyCluster s t c
      ∧ (t.cluster c).carried (elX slot pos n) = (k.chan (elX slot pos n)).push tok
      ∧ ((t.cluster c).slot slot).fired = (k.slot slot).fired ++ [(unitKey 1 (pos + 64 * n), 0)] ∧ (t.cluster c).events10[2] = k.events10[2] + 1)
  ∧ (∀ (s : State) (c slot pos n : Nat),
    let k := s.cluster c
    let cur := k.runningSlot pos n
    k.canFire cur pos n = false → ((List.range 3).map fun i => (cur + 1 + i) % 4).find? (fun j => k.canFire j pos n) = some slot →
    Yields s (.slotSwitch c slot pos n) fun t => OnlyCluster s t c ∧ (t.cluster c).runningSlot pos n = slot
      ∧ ((t.cluster c).slot slot).fired = (k.slot slot).fired ++ [(unitKey 1 (pos + 64 * n), 1)] ∧ (t.cluster c).fab.elems = k.fab.elems)
  ∧ ∀ (s : State) (c n : Nat) (d : Kill), (s.cluster c).fab.kills[n]? = some d →
    let k := s.cluster c
    (∀ e ∈ k.fab.kills.take n, e.chan ≠ d.chan) → k.saving = false →
    ((k.chan d.chan).produced ≠ d.ordinal → Yields s (.killArrival c n) fun t => OnlyCluster s t c
      ∧ (t.cluster c).fab = { k.fab with kills := dropNth k.fab.kills n })
    ∧ ((k.chan d.chan).produced = d.ordinal → k.producer c d.chan = .nothing → Yields s (.killArrival c n) fun t =>
        OnlyCluster s t c ∧ (t.cluster c).fab.kills = dropNth k.fab.kills n
          ∧ (t.cluster c).chan d.chan = { k.chan d.chan with produced := d.ordinal + 1, req := 0 })

/-- R222 to R228: a leg of a box passes the next beat of its value from its source to every port that still receives it,
when each asks; ROUTE and BCAST begin a value towards all their ports, IDX towards the port its index names, or the lowest
with ERR when there is none, STEER towards the one its predicate names, and MERGE from SRC2 when SRC has nothing; HOLD
stores a beat as it passes the first time. -/
def Obligations.Legs : Prop :=
  ∀ (s : State) (c slot net pos leg : Nat) (l : LegAt),
    let k := s.cluster c
    let x := k.leg l
    let ev (op : Nat) : Instr := match op with
      | 1 => .legRoute c slot net pos leg
      | 2 => .legIdx c slot net pos leg
      | 3 => .legBcast c slot net pos leg
      | 4 => .legMerge c slot net pos leg
      | 5 => .legSteer c slot net pos leg
      | _ => .legHold c slot net pos leg
    let outs := l.c.ports.map l.out
    k.legAt slot net pos leg = some l → k.runs slot = true → k.saving = false → outs.Nodup → l.src ∉ outs → l.src2 ∉ outs →
    l.c.ports ≠ [] → (l.c.op = 4 → l.src ≠ l.src2) → 1 ≤ l.c.op → l.c.op ≤ 6 →
    (l.c.op ≠ 6 → x.inVal = true → x.asErr = 0 → x.nulTo = [] → x.from2 = false → (∀ p ∈ x.live, p ∈ l.c.ports) → x.live.Nodup →
      (∀ p ∈ x.live, k.ready (l.out p) = true) → ∀ tok r, s.beats c l.src = tok :: r → (l.shared = true → tok ≠ .eos) →
      Yields s (ev l.c.op) fun t => OnlyCluster s t c ∧ t.beats c l.src = r
        ∧ (∀ p ∈ x.live, (t.cluster c).carried (l.out p) = (k.chan (l.out p)).push tok)
          ∧ ∀ p ∈ l.c.ports, p ∉ x.live → (t.cluster c).chan (l.out p) = k.chan (l.out p))
    ∧ (x.inVal = false → x.nulTo = [] → x.eosA = false → x.eosB = false → x.credit = [] →
      let begins (live : List Nat) (code : Nat) (from2 : Bool) : Prop := Yields s (ev l.c.op) fun t => OnlyCluster s t c
        ∧ ((t.cluster c).leg l).inVal = true ∧ ((t.cluster c).leg l).live = live ∧ ((t.cluster c).leg l).asErr = code
        ∧ ((t.cluster c).leg l).from2 = from2 ∧ ∀ p ∈ l.c.ports, (t.cluster c).chan (l.out p) = k.chan (l.out p)
      (∀ tok r, s.beats c l.src = tok :: r → tok ≠ .eos →
        (l.c.op = 1 ∨ l.c.op = 3 ∨ l.c.op = 4 → begins l.c.ports 0 false)
        ∧ (l.c.op = 2 → ∀ (w : W32) u, s.beats c l.src2 = .word w :: u →
            (∀ p, l.c.ports[w.toNat]? = some p → begins [p] 0 false)
            ∧ (l.c.ports.length ≤ w.toNat → begins (l.c.ports.take 1) 8 false))
        ∧ (l.c.op = 5 → ∀ (w : W32) u a b, s.beats c l.src2 = .word w :: u → l.c.ports = [a, b] →
            begins (if w.getLsbD 0 then [a] else [b]) 0 false))
      ∧ (l.c.op = 4 → s.beats c l.src = [] → ∀ tok r, s.beats c l.src2 = tok :: r → tok ≠ .eos → begins l.c.ports 0 true))
    ∧ (l.c.op = 6 → x.hold = [] → x.pos = 0 → x.copies = 0 → l.c.par ≠ 0 → ∀ p tok r, l.c.ports = [p] → k.ready (l.out p) = true →
        s.beats c l.src = tok :: r → tok ≠ .eos → Yields s (ev 6) fun t => OnlyCluster s t c ∧ t.beats c l.src = r
          ∧ (t.cluster c).carried (l.out p) = (k.chan (l.out p)).push tok ∧ ((t.cluster c).leg l).hold = [tok])

/-- R231 to R241: against demand WRD and DRD take an index from SA and issue a read, locally through the requester of their
slot at the tile's array port; an index outside the buffer gives ADDRRANGE; a read whose data have returned gives a word or
the beats of a value; WWR writes the word on SB at an index, an ERR writing nothing; DWR takes its value beat by beat,
writes its lanes' words, and nothing for a NUL. -/
def Obligations.PortReadsAndWrites : Prop :=
  ∀ (s : State) (q : PortAt),
    let c := q.cl
    let k := s.cluster c
    let p := k.portOf q
    let port (t : State) : Port := (t.cluster c).portOf q
    let at_ := 8 * q.tile + 3 + q.slot
    let queued (t : State) (kind : ReqKind) (off : Nat) (ret : RetTo) : Prop :=
      ∃ e, (t.cluster c).tileQ.get at_ [] = k.tileQ.get at_ [] ++ [e] ∧ e.kind = kind ∧ e.key = tileKey c off ∧ e.ret = ret
    let room (off : Nat) : Prop := off < 65536 * q.tile + 65536 ∧ (k.tileQ.get at_ []).length < 16 ∧ q.tile < 32 ∧ c < 512
    let moves : Prop := (k.slot q.slot).keep = false
    let fn (id : Nat) : RetTo := .portRead c q.slot q.tile id
    let reads (e : Instr) (op key : Nat) : Prop := s.PortReady q op → k.ready key = true → ∀ (w : W32) r,
      s.beats c q.sa = .word w :: r → mtAgr q.f = 0 → p.readQ = [] → p.skips = 0 → moves →
      (mtGlob q.f = false → ∀ off, q.local_ p w.toNat q.elem = some off → room off → Yields s e fun t =>
        OnlyCluster s { t with counter := s.counter } c ∧ t.beats c q.sa = r
          ∧ (port t).readQ = [⟨s.counter, none, 0, false⟩] ∧ queued t (.read q.elem) off (fn s.counter))
      ∧ (mtGlob q.f = false → q.local_ p w.toNat q.elem = none → Yields s e fun t =>
        OnlyCluster s t c ∧ t.beats c q.sa = r ∧ (port t).readQ = [⟨0, some [], 0x101, false⟩])
      ∧ (mtGlob q.f = true → ∀ v, (s.setCl c (k.pop q.sa)).portAccess q w.toNat needR (.read q.elem) fn = .ok v →
        Yields s e fun t => OnlyCluster v t c
          ∧ (port t).readQ = (v.cluster c |>.portOf q).readQ ++ [⟨v.counter - 1, none, 0, false⟩])
    reads (.portWrd c q.slot q.tile) 1 q.sx ∧ reads (.portDrd c q.slot q.tile) 3 q.vx
    ∧ (∀ id code bs r, p.readQ = ⟨id, some bs, code, false⟩ :: r → (q.opr = 1 → bs.length = 4) → (q.opr = 3 → bs.length = 64) →
      (s.PortReady q 1 → Yields s (.portReadReturn c q.slot q.tile) fun t => OnlyCluster s t c ∧ (port t).readQ = r
        ∧ (port t).outQ = [if code = 0 then .word (BitVec.ofNat 32 (leNat bs)) else .serr code])
      ∧ (s.PortReady q 3 → Yields s (.portReadReturn c q.slot q.tile) fun t => OnlyCluster s t c ∧ (port t).readQ = r
        ∧ (port t).outQ = valueBeats (mtNd q.f) (if code = 0 then (wordsOf bs).map (laneOf (mtWfmt q.f) (mtNd q.f))
            else List.replicate 16 (.err code))))
    ∧ (s.PortReady q 2 → moves → mtAgw q.f = 0 → mtGlob q.f = false → ∀ (i : W32) u off, s.beats c q.sa = .word i :: u →
        q.local_ p i.toNat 4 = some off → room off →
        (∀ (v : W32) r, s.beats c q.sb = .word v :: r → Yields s (.portWwr c q.slot q.tile) fun t =>
          OnlyCluster s { t with counter := s.counter } c ∧ t.beats c q.sb = r ∧ t.beats c q.sa = u ∧ (port t).reqs = p.reqs
            ∧ queued t (.write (leBytes 4 v.toNat)) off .nowhere)
        ∧ ∀ code r, s.beats c q.sb = .serr code :: r → Yields s (.portWwr c q.slot q.tile) fun t =>
          OnlyCluster s t c ∧ t.beats c q.sb = r ∧ t.beats c q.sa = u ∧ (t.cluster c).tileQ = k.tileQ
            ∧ (t.cluster c).task.flags = k.task.flags ||| w64 fET)
    ∧ (s.PortReady q 4 →
      (∀ e r, moves → s.beats c q.va = .head e :: r → p.inVal = .reset → Yields s (.portDwr c q.slot q.tile) fun t => OnlyCluster s t c
        ∧ t.beats c q.va = r ∧ (port t).inVal = { InVal.reset with active := true, headed := true, head := e })
      ∧ ∀ (i : W32) u, s.beats c q.sa = .word i :: u → mtAgw q.f = 0 →
        (p.inVal = { InVal.reset with active := true, done := true, nul := true } →
          Yields s (.portDwr c q.slot q.tile) fun t => OnlyCluster s t c
            ∧ t.beats c q.sa = u ∧ (port t).inVal = .reset ∧ (t.cluster c).tileQ = k.tileQ)
        ∧ ∀ off, p.inVal.done = true → mtGlob q.f = false → q.local_ p i.toNat 64 = some off → room off →
          let ws := (List.range 16).filterMap fun j =>
            match laneWord p.inVal (mtWfmt q.f) (mtNd q.f) j with | .word w _ => some (j, w) | _ => none
          ws ≠ [] → Yields s (.portDwr c q.slot q.tile) fun t => OnlyCluster s { t with counter := s.counter } c
            ∧ t.beats c q.sa = u ∧ (port t).inVal = .reset
            ∧ queued t ((PortAct.words ws).kind (tileKey c off) true) off .nowhere)

/-- R237, R238, R242, R244, R249: a word function answers its word on SX against demand, and passes an error on; CVD and
BENQ take a lane mask and then words, a BENQ record of sixteen words being held for its bin; CVW takes a value beat by
beat; MOVE, once no access to its tile is pending, reads elements of its buffer, by offsets and a length or by the pairs of two
patterns, before it writes any, and then writes them one after another and gives the bytes it has moved. -/
def Obligations.PortFunctions : Prop :=
  ∀ (s : State) (q : PortAt),
    let c := q.cl
    let k := s.cluster c
    let p := k.portOf q
    let port (t : State) : Port := (t.cluster c).portOf q
    let fn (e : Instr) (op : Nat) (f : Fp → Nat × Nat) : Prop := s.PortReady q op → k.ready q.sx = true →
      (∀ (w : W32) r, s.beats c q.sb = .word w :: r → Yields s e fun t => OnlyCluster s t c ∧ t.beats c q.sb = r
        ∧ (port t).outQ = [.word (BitVec.ofNat 32 (f (fmt32.decode w.toNat)).1)]
        ∧ (t.cluster c).task.flags = k.task.flags ||| w64 (f (fmt32.decode w.toNat)).2)
      ∧ ∀ code r, s.beats c q.sb = .serr code :: r → Yields s e fun t => OnlyCluster s t c ∧ t.beats c q.sb = r
        ∧ (port t).outQ = [.serr code] ∧ (t.cluster c).task = k.task
    fn (.portExp2 c q.slot q.tile) 7 exp2W ∧ fn (.portLog2 c q.slot q.tile) 8 log2W ∧ fn (.portRcp c q.slot q.tile) 9 rcpW
    ∧ fn (.portRsqrt c q.slot q.tile) 0xA rsqrtW ∧ fn (.portTanh c q.slot q.tile) 0xB tanhW
    ∧ (s.PortReady q 0xC → k.ready q.vx = true →
      (∀ m r, p.lanes = none → s.beats c q.ci = .ctl m :: r → m ≠ 0 → (s.beats c q.sb).head? ≠ some .eos → Yields s (.portCvd c q.slot q.tile) fun t =>
        OnlyCluster s t c ∧ t.beats c q.ci = r ∧ (port t).lanes = some m ∧ (port t).words = [])
      ∧ (∀ r, p.lanes = none → p.skips = 0 → s.beats c q.sb = .eos :: r → Yields s (.portCvd c q.slot q.tile) fun t =>
        t.beats c q.ci = s.beats c q.ci ∧ (port t).lanes = none)
      ∧ ∀ m tok r, p.lanes = some m → s.beats c q.sb = tok :: r → tok ≠ .eos → p.words.length + 1 < (maskLanes m).length →
        Yields s (.portCvd c q.slot q.tile) fun t => OnlyCluster s t c ∧ t.beats c q.sb = r
          ∧ (port t).words = p.words ++ [tok] ∧ (port t).lanes = some m)
    ∧ (s.PortReady q 0xD → ∀ e r, s.beats c q.va = .head e :: r → p.inVal = .reset → Yields s (.portCvw c q.slot q.tile) fun t =>
        OnlyCluster s t c ∧ t.beats c q.va = r ∧ (port t).inVal = { InVal.reset with active := true, headed := true, head := e })
    ∧ (s.PortReady q 0xE →
      (∀ m r, p.lanes = none → s.beats c q.ci = .ctl m :: r → m ≠ 0 → Yields s (.portBenq c q.slot q.tile) fun t =>
        OnlyCluster s t c ∧ t.beats c q.ci = r ∧ (port t).lanes = some m ∧ (port t).words = [])
      ∧ ∀ m (w : W32) (ws : List W32) r, p.lanes = some m → p.words = ws.map .word → ws.length = 15 → p.heldRec.length < 16 →
        s.beats c q.sb = .word w :: r → (maskLanes m).length = 1 → Yields s (.portBenq c q.slot q.tile) fun t =>
          OnlyCluster s t c ∧ t.beats c q.sb = r ∧ (port t).lanes = none ∧ (port t).words = []
            ∧ (port t).heldRec = p.heldRec
                ++ [⟨w64 ((ws.getD 0 0).toNat + (ws.getD 1 0).toNat * 2 ^ 32), ws.drop 2 ++ [w]⟩])
    ∧ (s.PortReady q 0x10 →
      let base := 65536 * q.tile + 64 * mtBase q.f + p.buf * q.bufLen
      let due (l : List (Nat × Nat)) : List (Nat × List Byte) :=
        l.map fun e => (tileKey c (base + e.2), s.rawRead (tileKey c (base + e.1)) 4)
      let turn (l : List (Nat × Nat)) : Prop := (s.engineTurn c (3 + q.slot) (l.map fun e => (winBase + base + e.1, 4)) []).isSome = true
      let reads (l : List (Nat × Nat)) (n : Nat) : Prop := turn l → Yields s (.portMove c q.slot q.tile) fun t =>
        OnlyCluster s t c ∧ (t.cluster c).tiles = k.tiles ∧ (port t).words = []
          ∧ (port t).moving = some (due l, .word (BitVec.ofNat 32 n))
      let quiet : Prop := p.moving = none ∧ s.tilePending (tileKey c (65536 * q.tile)) (union (k.portView q) p.own) = false
      (quiet → ∀ g h w, mtAgr q.f ≠ 0 → k.genFrame q (mtAgr q.f) = some g → k.genFrame q (mtAgw q.f) = some h → agPat g = 1 →
        agPat h = 1 → p.genEnd[0] = false → p.genEnd[1] = false → p.words = [.word w] →
        (∀ e ∈ movePairs g h [], 0 ≤ e.1 ∧ e.1 + 4 ≤ q.bufLen ∧ 0 ≤ e.2 ∧ e.2 + 4 ≤ q.bufLen) →
        reads ((movePairs g h []).map fun e => (e.1.toNat, e.2.toNat)) (4 * Nat.min (agTotal g) (agTotal h)))
      ∧ (quiet → mtAgr q.f = 0 → ∀ a b n : W32, p.words = [.word a, .word b, .word n] →
        (n = 0 → Yields s (.portMove c q.slot q.tile) fun t => OnlyCluster s t c ∧ (port t).outQ = [.word 0]
          ∧ (t.cluster c).tiles = k.tiles)
        ∧ (n ≠ 0 → a.toNat % 4 = 0 → b.toNat % 4 = 0 → n.toNat % 4 = 0 → a.toNat + n.toNat ≤ q.bufLen →
            b.toNat + n.toNat ≤ q.bufLen →
            reads ((List.range (n.toNat / 4)).map fun i => (a.toNat + 4 * i, b.toNat + 4 * i)) n.toNat)
        ∧ (n ≠ 0 → (q.bufLen < a.toNat + n.toNat ∨ q.bufLen < b.toNat + n.toNat ∨ a.toNat % 4 ≠ 0 ∨ b.toNat % 4 ≠ 0
            ∨ n.toNat % 4 ≠ 0) → Yields s (.portMove c q.slot q.tile) fun t =>
            OnlyCluster s t c ∧ (port t).outQ = [.serr 0x101] ∧ (t.cluster c).tiles = k.tiles))
      ∧ (∀ off bs r tok, p.moving = some ((tileKey c off, bs) :: r, tok) → 65536 * q.tile ≤ off →
          off < 65536 * q.tile + 65536 → q.tile < 32 → c < 512 → (k.tileQ.get (8 * q.tile + 3 + q.slot) []).length < 16 →
          Yields s (.portMove c q.slot q.tile) fun t => (port t).moving = some (r, tok)
            ∧ ∃ e, (t.cluster c).tileQ.get (8 * q.tile + 3 + q.slot) [] = k.tileQ.get (8 * q.tile + 3 + q.slot) [] ++ [e]
              ∧ e.kind = .write bs ∧ e.key = tileKey c off)
      ∧ ∀ tok, p.moving = some ([], tok) → Yields s (.portMove c q.slot q.tile) fun t =>
          OnlyCluster s t c ∧ (port t).moving = none ∧ (port t).outQ = [tok])

/-- R240, R246 to R248, R253: AMO and RED send their operation through the tile's write queue at the index on SA; the FIFOs
and the line buffer take tokens in order and give them out in order against demand; EOS on the governing input ends an
operation; a RING generator takes a slot of its ring when one is full, and gives it back after its accesses. -/
def Obligations.PortStreams : Prop :=
  ∀ (s : State) (q : PortAt),
    let c := q.cl
    let k := s.cluster c
    let p := k.portOf q
    let port (t : State) : Port := (t.cluster c).portOf q
    let at_ := 8 * q.tile + 3 + q.slot
    let sends (e : Instr) (ret : RetTo) (kind : Nat → Nat → Word → ReqKind) (out : Nat) : Prop :=
      ∀ (ws : List Token) y (i : W32) u off, c < 512 → mtGlob q.f = false → mtAgw q.f = 0 → ws.length = (if mtW64 q.f then 2 else 1) →
      p.words = ws → operandOf ws = .inl y → p.reqs = 0 → s.beats c q.sa = .word i :: u → q.local_ p i.toNat q.elem = some off →
      q.tile < 32 → off < 65536 * q.tile + 65536 → (k.tileQ.get at_ []).length < 16 →
      (∀ x ∈ k.tileQ.get at_ [], x.key / 64 ≠ tileKey c off / 64) → Yields s e fun t =>
        OnlyCluster s { t with counter := s.counter } c ∧ t.beats c q.sa = u ∧ (port t).words = [] ∧ (port t).reqs = out
          ∧ ∃ r, (t.cluster c).tileQ.get at_ [] = k.tileQ.get at_ [] ++ [r] ∧ r.key = tileKey c off ∧ r.ret = ret
              ∧ r.kind = kind r.key (mtRed q.f) (w64 y)
    let takes (e : Instr) (key : Nat) : Prop := ∀ tok r, p.fifo = [] → p.drainOn = false → s.beats c key = tok :: r → tok ≠ .eos →
      1 ≤ mtLen q.f → Yields s e fun t => OnlyCluster s t c ∧ t.beats c key = r ∧ (port t).fifo = [tok]
    let gives (e : Instr) : Prop := ∀ tok l, p.fifo = tok :: l → tok ≠ .eos → k.ready q.out = true → p.drainOn = false →
      s.beats c q.sb = [] → s.beats c q.va = [] → Yields s e fun t => OnlyCluster s t c ∧ (port t).fifo = l
        ∧ (t.cluster c).carried q.out = (k.chan q.out).push tok
    (s.PortReady q 5 → sends (.portAmo c q.slot q.tile) (.port c q.slot q.tile) (fun _ o y => .amo o (mtW64 q.f) y true) 1)
    ∧ (s.PortReady q 6 → sends (.portRed c q.slot q.tile) .nowhere (fun key o y => .reds [(key, o, mtW64 q.f, y)]) 0)
    ∧ (s.PortReady q 0x11 → takes (.portFifov c q.slot q.tile) q.va ∧ gives (.portFifov c q.slot q.tile))
    ∧ (s.PortReady q 0x12 → takes (.portFifos c q.slot q.tile) q.sb ∧ gives (.portFifos c q.slot q.tile))
    ∧ (s.PortReady q 0x13 → takes (.portLbuf c q.slot q.tile) q.sb
      ∧ (16 * mtLen q.f < p.fifo.length → gives (.portLbuf c q.slot q.tile))
      ∧ (p.fifo.length ≤ 16 * mtLen q.f → s.beats c q.sb = [] → Yields s (.portLbuf c q.slot q.tile) fun t =>
          (port t).fifo = p.fifo))
    ∧ (∀ r, s.PortReady q 1 → mtAgr q.f = 0 → s.beats c q.sa = .eos :: r →
        (mtEosev q.f = true → ∀ e ∈ p.readQ, e.data.isSome = true) → Yields s (.portEos c q.slot q.tile) fun t =>
        OnlyCluster s t c ∧ t.beats c q.sa = r ∧ (port t).ended = true ∧ (port t).eosDue = true
          ∧ (mtEosev q.f = true → (t.cluster c).events.getLsbD (mtEvt q.f) = true))
    ∧ (∀ r, s.PortReady q 2 → s.beats c q.sb = .eos :: r →
        ((mtEosev q.f = true → p.reqs = 0) → Yields s (.portEos c q.slot q.tile) fun t =>
          OnlyCluster s t c ∧ t.beats c q.sb = r ∧ (port t).ended = true ∧ (port t).eosDue = false
            ∧ (port t).buf = (p.buf + 1) % (mtNbuf q.f + 1)
            ∧ (mtEosev q.f = true → (t.cluster c).events.getLsbD (mtEvt q.f) = true))
        ∧ (mtEosev q.f = true → p.reqs ≠ 0 → Yields s (.portEos c q.slot q.tile) fun t =>
          OnlyCluster s t c ∧ t.beats c q.sb = .eos :: r ∧ (port t).ended = false))
    ∧ ∀ (gen : Fin 2) (g : Nat), k.portAt c q.slot q.tile = some q → k.ringGen q gen.val = some g →
      let r := k.ring (agHnd g)
      (k.runs q.slot = true → (k.slot q.slot).keep = false → k.saving = false → p.slotIn[gen] = false → p.genEnd[gen] = false → p.ended = false →
        (agScnt g = 0 ∨ p.slotsDone[gen] < agScnt g) → r.defined = true → r.tmask = 2 ^ q.tile → agRdir g = false → r.full ≠ 0 →
        Yields s (.ringGeneratorSlot c q.slot q.tile gen.val) fun t => OnlyCluster s t c ∧ (port t).slotIn[gen] = true
          ∧ (port t).genPos[gen] = 0 ∧ (t.cluster c).ring (agHnd g) = r)
      ∧ (p.slotIn[gen] = true → q.perSlot r ≤ p.genPos[gen] → p.readQ = [] →
        Yields s (.ringGeneratorAdvance c q.slot q.tile gen.val) fun t => OnlyCluster s t c ∧ (port t).slotIn[gen] = false
          ∧ (port t).slotsDone[gen] = p.slotsDone[gen] + 1
          ∧ (if agRdir g then ((t.cluster c).ring (agHnd g)).p = r.p + 1 ∧ ((t.cluster c).ring (agHnd g)).c = r.c
             else ((t.cluster c).ring (agHnd g)).c = r.c + 1 ∧ ((t.cluster c).ring (agHnd g)).p = r.p))

/-! ### The copy engine and the matrix array (R256 to R291) -/

/-- R257, R264 to R266, R274 to R277, R288: the copy engine begins its commands in queue order, at most four at a time; one
with a ring side claims its slots once enough are free or full; a command makes its accesses run by run, the reads of a run
before its writes, and raises their flags, and then its writes one by one, none before another of the same bytes; once its
last run is made and its writes are acknowledged it advances its ring, sets its event, fires its arm slot, and an index out of
range gives ENGFAULT 4; one that fails gives the ENGFAULT of its failure. -/
def Obligations.CopyEngine : Prop :=
  ∀ (s : State) (c : Nat),
    let k := s.cluster c
    (∀ x rest, k.copy.queue = x :: rest → k.copy.stopped = false → k.saving = false →
      (k.copy.begun.length < 4 → Yields s (.copyCommandBegin c) fun t => OnlyCluster s t c ∧ (t.cluster c).copy
        = { k.copy with queue := rest, begun := k.copy.begun ++ [{ x with claimed := x.ringSide.isNone }] })
      ∧ (4 ≤ k.copy.begun.length → exec (.copyCommandBegin c) s = .next s))
    ∧ ∀ n x, n < 4 → k.copy.begun[n]? = some x →
      (∀ h produce q, x.ringSide = some (h, produce, q) → x.claimed = false → k.copy.stopped = false →
        (∀ y ∈ k.copy.begun.take n, ∀ b u, y.ringSide = some (h, b, u) → y.claimed = true) →
        let r := k.ring h
        let slots := if produce then r.free else r.full
        (x.ns ≤ slots → Yields s (.copyRingClaim c n) fun t => OnlyCluster s t c
          ∧ (t.cluster c).ring h = { r with claims := r.claims ++ [⟨x.id, produce, x.ns, false, false⟩] }
          ∧ (∃ y, (t.cluster c).copy.begun[n]? = some y ∧ y.claimed = true ∧ y.op = x.op ∧ y.src = x.src ∧ y.dst = x.dst)
          ∧ ∀ m, m ≠ n → (t.cluster c).copy.begun[m]? = k.copy.begun[m]?)
        ∧ (slots < x.ns → exec (.copyRingClaim c n) s = .next s))
      ∧ (k.copyMay x = true → x.fault = none → x.due = [] → x.pos < x.runs → ∀ s1 p s2 l,
          s.copyPlan c x (k.nextRuns x) = .ok s1 p → s1.engineTurn c 1 p.reads [] = some (s2, l) →
          let due := (p.writes.map (·.split)).flatten
          ∀ ch, ∃ s3 y, s.copyStep c x ch = .ok s3 y
            ∧ y = { x with pos := x.pos + (k.nextRuns x).length, bad := x.bad.orElse fun _ => p.bad, due := due, going := !due.isEmpty }
            ∧ s3.mem = s2.mem ∧ (s3.cluster c).tiles = (s2.cluster c).tiles
            ∧ (s3.cluster c).task.flags = (s2.cluster c).task.flags ||| w64 p.flags
            ∧ (y.made = false → exec (.copyCommandComplete c (n + 4 * ch)) s = .next s3))
      ∧ (k.copyMay x = true → x.fault = none → x.due ≠ [] → ∀ ch,
          let j := dueIndex x.due ch
          let w := k.copyWho c x
          ∃ d, x.due[j]? = some d ∧ (∀ e ∈ x.due.take j, e.run = d.run ∧ d.meets e = false)
            ∧ (∀ s1 ids, s.vwrite { w with view := union w.view x.ids } d.va d.bytes = .ok s1 ids → ∃ s3 y,
              s.copyStep c x ch = .ok s3 y
                ∧ y = { x with due := dropNth x.due j, ids := union x.ids ids, going := midRun x.due (dropNth x.due j) }
                ∧ s3.mem = s1.mem ∧ (s3.cluster c).tiles = (s1.cluster c).tiles
                ∧ (y.made = false → exec (.copyCommandComplete c (n + 4 * ch)) s = .next s3))
            ∧ ∀ s1 cause e a, s.vwrite { w with view := union w.view x.ids } d.va d.bytes = .fail s1 cause e a →
              ∃ s3 y, s.copyStep c x ch = .ok s3 y ∧ y.fault = some (engDetail cause e, a) ∧ y.due = [] ∧ s3.mem = s1.mem)
      ∧ (k.copyMay x = true → ∀ (s1 : State) (y : CopyCmd),
        (s1 = s ∧ y = x ∧ (x.fault = none → x.made = true)) ∨
          (x.fault = none ∧ x.made = false ∧ s.copyStep c x 0 = .ok s1 y ∧ (y.fault = none → y.made = true)) →
        s1.copyEnds c y = true → (s1.cluster c).seqY.idle = false → (s1.cluster c).seqY.exited = false →
        let u := s1.cluster c
        let ended (failed : Bool) (t : State) : Prop := t.mem = s1.mem ∧ (t.cluster c).tiles = u.tiles
          ∧ (t.cluster c).task.flags = u.task.flags ∧ (t.cluster c).copy.begun = u.copy.begun.filter (·.id != y.id)
          ∧ (t.cluster c).events = (match y.opts.evt with | some e => u.events ||| w64 (2 ^ e.val) | none => u.events)
          ∧ (y.ringSide = none → (t.cluster c).rings = u.rings)
          ∧ ∀ h produce q, y.ringSide = some (h, produce, q) →
              let r := u.ring h
              let v := (t.cluster c).ring h
              let rest := r.claims.filter (·.cmd != y.id)
              v.claims = rest
              ∧ (failed = true ∧ rest = [] → v.p = r.p ∧ v.c = r.c)
              ∧ (failed = false ∨ rest ≠ [] →
                  v.p = r.p + (if produce then y.ns else 0) ∧ v.c = r.c + (if produce then 0 else y.ns))
              ∧ v.ended = (r.ended || (!failed && y.opts.endr))
        let faults (l : List (Nat × Word)) (t : State) : Prop := (t.cluster c).seqY.engFaults = u.seqY.engFaults ++ l
        (y.fault = none →
          (y.op ≠ .cpyF → Yields s (.copyCommandComplete c n) fun t => ended false t ∧ (t.cluster c).mat = u.mat
            ∧ faults (match y.bad with | some i => [(4, w64 i)] | none => []) t)
          ∧ ∀ a : Fin 4, y.op = .cpyF → y.arm = a.val → y.bad = none →
            (u.mat.arms.find? (fun (e : Nat × MatCmd) => e.1 == a.val) = none → u.mat.pending[a] < 15 →
              Yields s (.copyCommandComplete c n) fun t => ended false t ∧ faults [] t
                ∧ (t.cluster c).mat.pending[a] = u.mat.pending[a] + 1 ∧ (t.cluster c).mat.fired = u.mat.fired)
            ∧ (u.mat.arms.find? (fun (e : Nat × MatCmd) => e.1 == a.val) = none → u.mat.pending[a] = 15 →
              ∃ v, Yields s (.copyCommandComplete c n) fun t => ended false t ∧ faults [(5, v)] t ∧ (t.cluster c).mat = u.mat)
            ∧ ∀ e, u.mat.arms.find? (fun (e : Nat × MatCmd) => e.1 == a.val) = some e → u.mat.fired.contains a.val = false →
              Yields s (.copyCommandComplete c n) fun t => ended false t ∧ faults [] t
                ∧ u.mat.Lines u.clk a.val (t.cluster c).mat.fired ∧ (t.cluster c).mat.pending = u.mat.pending)
        ∧ ∀ detail va, y.fault = some (detail, va) → Yields s (.copyAccessFailure c n) fun t => ended true t
            ∧ (t.cluster c).mat = u.mat ∧ faults [(detail, w64 va)] t)

/-- R278, R283, R285 to R291: the array takes a fired arm slot before its queue, and a queued command under the shape and
operands in force; an arm slot stores its command once it is empty; a compute command takes a full slot of each operand ring;
an MMP fetches one plane of one k-group for the group rows still open, and settles outputs after the last plane of its step; a
dense product takes one k-block after another, a drain writes one piece of its row after another; a command that completes
leaves its results in the accumulators, raises its flags, advances its rings and sets its event, and one that fails gives
ENGFAULT too. -/
def Obligations.MatrixArray : Prop :=
  ∀ (s : State) (c : Nat),
    let k := s.cluster c
    let m := k.mat
    (m.cur = none → m.stopped = false → k.saving = false →
      let next (P : Matrix → Prop) : Prop := Yields s (.matrixNextCommand c) fun t => OnlyCluster s t c
        ∧ (t.cluster c).mat.acc = m.acc ∧ (t.cluster c).tiles = k.tiles ∧ P (t.cluster c).mat
      let begins (x : MatCmd) (u : Matrix) : Prop := ∃ r, u.cur = some r ∧ r.cmd = x ∧ r.planes = 0 ∧ r.kb = 0 ∧ r.low = []
        ∧ r.slotA = none ∧ r.slotB = none
      (∀ slot rest e, m.fired = slot :: rest → m.arms.find? (fun (e : Nat × MatCmd) => e.1 == slot) = some e →
        next fun u => begins { e.2 with armed := some slot } u ∧ u.fired = rest ∧ u.queue = m.queue)
      ∧ ∀ x rest, m.fired = [] → m.armWait = none → m.queue = x :: rest →
        let x1 : MatCmd := { x with shape := m.shape, a := m.a, b := m.b }
        ((∀ a b d e, x.op ≠ .drainD a b d e) → next fun u => u.queue = rest
          ∧ (∀ a b d, x.op = .shape a b d → u.shape = some (a, b, d) ∧ u.a = m.a ∧ u.b = m.b ∧ u.cur = none)
          ∧ (∀ o, x.op = .opa o → u.a = some o ∧ u.b = m.b ∧ u.shape = m.shape ∧ u.cur = none)
          ∧ (∀ o, x.op = .opb o → u.b = some o ∧ u.a = m.a ∧ u.shape = m.shape ∧ u.cur = none)
          ∧ (∀ a b d e f, x.op = .arm a b d e f → u.armWait = some x ∧ u.cur = none)
          ∧ (x.op.computes = true ∨ (∃ a b d e f g, x.op = .drain a b d e f g) → begins x1 u))
        ∧ ∀ tile slot nd f, x.op = .drainD tile slot nd f →
          (∀ q, k.portAt c slot tile = some q → q.opr = 0x11 → (k.slot slot).st = .running →
            next fun u => begins x1 u ∧ u.queue = rest)
          ∧ (k.portAt c slot tile = none → k.seqM.idle = false → k.seqM.exited = false →
            ∃ v, Yields s (.matrixNextCommand c) fun t => (t.cluster c).mat.cur = none ∧ (t.cluster c).mat.queue = rest
              ∧ (t.cluster c).mat.acc = m.acc ∧ (t.cluster c).seqM.engFaults = k.seqM.engFaults ++ [(6, v)]))
    ∧ (∀ (x : MatCmd) (slot : Fin 4) opc th p o, m.armWait = some x → x.op = .arm slot.val opc th p o → m.stopped = false →
      k.saving = false → m.arms.any (fun e => e.1 == slot.val) = false → Yields s (.armSlotStore c) fun t => OnlyCluster s t c
        ∧ (t.cluster c).mat.armWait = none ∧ (t.cluster c).mat.pending[slot] = m.pending[slot] - 1
        ∧ (m.pending[slot] = 0 → (t.cluster c).mat.fired = m.fired)
        ∧ (m.pending[slot] ≠ 0 → m.Lines k.clk slot.val (t.cluster c).mat.fired)
        ∧ ∃ y, (t.cluster c).mat.arms.find? (fun (e : Nat × MatCmd) => e.1 == slot.val) = some (slot.val, y)
            ∧ y.shape = m.shape ∧ y.a = m.a ∧ y.b = m.b ∧ y.op = (if opc = 0 then .mma else if opc = 1 then .mmz else .mmp th p o))
    ∧ ∀ r, m.cur = some r → m.stopped = false → k.saving = false →
      (∀ h, r.cmd.op.computes = true → r.slotA = none → r.cmd.a.bind (·.ring) = some h → (k.ring h).defined = true →
        1 ≤ (k.ring h).full → Yields s (.matrixRingSlot c) fun t => OnlyCluster s t c ∧ (t.cluster c).rings = k.rings
          ∧ ∃ u, (t.cluster c).mat.cur = some u ∧ u.slotA = some (k.ring h).c ∧ u.slotB = r.slotB)
      ∧ (∀ h, r.cmd.op.computes = true → (∀ g, r.slotA = none → r.cmd.a.bind (·.ring) = some g →
          (k.ring g).defined = false ∨ (k.ring g).full = 0) → r.slotB = none →
        r.cmd.b.bind (·.ring) = some h → (k.ring h).defined = true →
        1 ≤ (k.ring h).full → Yields s (.matrixRingSlot c) fun t => OnlyCluster s t c ∧ (t.cluster c).rings = k.rings
          ∧ ∃ u, (t.cluster c).mat.cur = some u ∧ u.slotB = some (k.ring h).c ∧ u.slotA = r.slotA)
      ∧ (r.ready = true → r.fault = none →
        (∀ th pmax o x y z a b w, r.cmd.op = .mmp th pmax o → k.mmpOperands r = some (x, y, z, a, b, w) → r.mmpGoes pmax = true →
          let nb := (z + 31) / 32
          let g := Nat.min (2 ^ o.g.val) (pmax - r.planes)
          let who := k.matWho c r.cmd
          let step (u : State) (P : MatRun → Prop) : Prop := Yields s (.mmpEvaluation c) fun t => t.mem = u.mem
            ∧ (t.cluster c).tiles = (u.cluster c).tiles ∧ (t.cluster c).mat.acc = m.acc
            ∧ ∃ v, (t.cluster c).mat.cur = some v ∧ v.cmd = r.cmd ∧ P v
          let settled (v : MatRun) : Prop := v.planes = r.planes + g ∧ v.kb = 0 ∧ (∀ i ∈ v.open_, i ∈ r.open_)
            ∧ (∀ i ∈ r.low, i ∈ v.low) ∧ (∀ i ∈ v.low, i ∈ r.low ∨ i ∈ r.open_)
            ∧ ∀ i ∈ r.openRows, v.rows.get i 0 = r.planes + g
          (r.cols = [] → z ≠ 0 → ∀ s1 cols u, s.planeCols who b w z (List.range y) = .ok s1 cols →
            s1.matTurn c ((List.range y).map fun j => ((w + w64 j * b.stride).toNat, z)) = some u →
            step u fun v => v = { r with going := false, cols := cols })
          ∧ ((r.cols ≠ [] ∨ z = 0) → (o.scaled = true → r.scales ≠ [] ∨ z = 0) →
            (nb * g ≤ r.kb → step s settled)
            ∧ (r.kb < nb * g → ∀ s1 known u,
              s.slabs who a x z (r.kb / g) (r.planes + r.kb % g) r.openRows r.known = .ok s1 known →
              s1.matTurn c (r.openRows.map fun gr => slabPiece a x gr (r.kb / g) (r.planes + r.kb % g)) = some u →
              step u fun v => v.known = known ∧ (r.kb + 1 < nb * g → v = { r with going := false, known := known, kb := r.kb + 1 })
                ∧ (r.kb + 1 = nb * g → settled v))))
        ∧ (∀ x y z a b, r.cmd.op = .mma ∨ r.cmd.op = .mmz → r.cmd.shape = some (x, y, z) → r.cmd.a = some a → r.cmd.b = some b →
          let who := k.matWho c r.cmd
          let cnt := Nat.min 32 (z - 32 * r.kb)
          let ba := k.opBase a r.slotA
          let bb := k.opBase b r.slotB
          ∀ s1 xs s2 ys s3, s.blockRows who a ba r.kb cnt (List.range x) = .ok s1 xs →
            s1.blockRows who b bb r.kb cnt (List.range y) = .ok s2 ys →
            s2.matTurn c (((List.range x).map (blockPieces a ba r.kb cnt)).flatten
              ++ ((List.range y).map (blockPieces b bb r.kb cnt)).flatten) = some s3 →
            let old := if r.cmd.op = .mmz ∧ r.kb = 0 then fillAcc m.acc x y 0 else m.acc
            let d := denseBlock old a.ty b.ty x y xs ys
            ∀ ch, ∃ t, s.matStep c r ch = .ok t { r with kb := r.kb + 1, going := false } ∧ t.mem = s3.mem ∧ (t.cluster c).tiles = (s3.cluster c).tiles
              ∧ (t.cluster c).mat.acc = d.1 ∧ (t.cluster c).task.flags = (s3.cluster c).task.flags ||| w64 d.2)
        ∧ (∀ base stride ty acci ef satf x y z ch, r.cmd.op = .drain base stride ty acci ef satf → r.cmd.shape = some (x, y, z) →
          let who := k.matWho c r.cmd
          let d := if r.due.isEmpty then k.drainWrites r.kb y base stride ty acci ef satf else ([], 0)
          let due := if r.due.isEmpty then ((dueOf r.kb d.1).map (·.split)).flatten else r.due
          let left := dropNth due (dueIndex due ch)
          ∀ e s1 ids, due[dueIndex due ch]? = some e →
            s.vwrite { who with view := union who.view r.ids } e.va e.bytes = .ok s1 ids →
            ∃ t, s.matStep c r ch = .ok t { r with
                kb := if left.isEmpty then r.kb + 1 else r.kb, due := left, going := !left.isEmpty, ids := union r.ids ids }
              ∧ t.mem = s1.mem ∧ (t.cluster c).tiles = (s1.cluster c).tiles ∧ (t.cluster c).mat.acc = m.acc
              ∧ (t.cluster c).task.flags = (s1.cluster c).task.flags ||| w64 d.2)
        ∧ (∀ t v, (∀ a b d e, r.cmd.op ≠ .drainD a b d e) → (∀ a b d, r.cmd.op ≠ .mmp a b d) → r.stepsDone = false →
          s.matStep c r 0 = .ok t v → v.fault = none → v.stepsDone = false → exec (.matrixCommandComplete c) s = .next t)
        ∧ ∀ tile slot nd f, r.cmd.op = .drainD tile slot nd f → k.drainOver c r tile slot = true →
          Yields s (.matrixCommandComplete c) fun t => OnlyCluster s t c ∧ (t.cluster c).mat.cur = none
            ∧ (t.cluster c).mat.acc = m.acc ∧ ∀ q, k.portAt c slot tile = some q → ((t.cluster c).portOf q).drainOn = false)
      ∧ (r.ready = true → (∀ a b d e, r.cmd.op ≠ .drainD a b d e) → ∀ (s1 : State) (v : MatRun),
        let steps : Got MatRun := match r.cmd.op with | .mmp _ _ _ => s.mmpStep c r | _ => s.matStep c r 0
        let mmp : Prop := ∃ a b d, r.cmd.op = .mmp a b d
        (s1 = s ∧ v = r ∧ (r.fault = none → r.stepsDone = true)) ∨
          (r.fault = none ∧ r.stepsDone = false ∧ steps = .ok s1 v ∧ (v.fault = none → v.stepsDone = true ∧ ¬mmp)) →
        s1.unacked c 3 v.cmd.id = false →
        let u := s1.cluster c
        let over_ (t : State) (acc : Table W32) (flags : Nat) : Prop :=
          t.mem = s1.mem ∧ (t.cluster c).tiles = u.tiles ∧ (t.cluster c).mat.cur = none
            ∧ (t.cluster c).mat.acc = acc ∧ (t.cluster c).task.flags = u.task.flags ||| w64 flags
            ∧ (t.cluster c).events = (match v.cmd.evt with | some e => u.events ||| w64 (2 ^ e) | none => u.events)
            ∧ (∀ h, v.slotA ≠ none → v.cmd.a.bind (·.ring) = some h → v.cmd.b.bind (·.ring) ≠ some h →
                ((t.cluster c).ring h).c = (u.ring h).c + 1 ∧ ((t.cluster c).ring h).p = (u.ring h).p)
            ∧ (∀ h, v.slotB ≠ none → v.cmd.b.bind (·.ring) = some h → v.cmd.a.bind (·.ring) ≠ some h →
                ((t.cluster c).ring h).c = (u.ring h).c + 1 ∧ ((t.cluster c).ring h).p = (u.ring h).p)
        (v.fault = none →
          (∀ th p o x y z, v.cmd.op = .mmp th p o → v.cmd.shape = some (x, y, z) → Yields s (.matrixCommandComplete c) fun t =>
            over_ t (s1.mmpResults c v o th x y).1 (s1.mmpResults c v o th x y).2)
          ∧ (∀ x y z, v.cmd.op = .mmz → v.cmd.shape = some (x, y, z) → Yields s (.matrixCommandComplete c) fun t =>
            over_ t (if v.kb = 0 then fillAcc u.mat.acc x y 0 else u.mat.acc) 0)
          ∧ (v.cmd.op = .mma ∨ (∃ a b d e f g, v.cmd.op = .drain a b d e f g) →
            Yields s (.matrixCommandComplete c) fun t => over_ t u.mat.acc 0))
        ∧ ∀ detail va, v.fault = some (detail, va) → u.seqM.idle = false → u.seqM.exited = false →
          Yields s (.matrixAccessFailure c) fun t => over_ t u.mat.acc 0
            ∧ (t.cluster c).seqM.engFaults = u.seqM.engFaults ++ [(detail, w64 va)])

/-! ### Power and upkeep (R44, R371 to R387, R406, R408 to R410, R417) -/

/-- R372 to R375, R378 to R381, R383, R385 to R387: the clock takes its target's point when the rail has come to its
voltage; a report each 500 ns counts the energy and moves the limiter one step; an evaluation gives an idle cluster
point 16, one without a deadline the point of DEFN, and one past its deadline the top point with DLRISK; a canary trip
ends undervolting; a correctable error is counted; and a read of ENLO latches the high half for its requester alone. -/
def Obligations.PowerEvents : Prop :=
  ∀ (s : State) (c : Nat),
    let k := s.cluster c
    let x := k.power
    let powers (e : Instr) (p : Power) : Prop := Yields s e fun t => OnlyCluster s t c ∧ t.cluster c = { k with power := p }
    (x.mv s.now = 5 * x.vset → Yields s (.railSlewDone c) fun t => OnlyCluster s t c ∧ (t.cluster c).power.n = x.target
        ∧ (t.cluster c).power.target = x.target ∧ (t.cluster c).power.thr = x.thr
        ∧ (t.cluster c).power.vset = Nat.min 170 (Nat.max 90 (Nat.max (x.volt x.target) (almVf (x.entry x.target)))))
    ∧ (x.mv s.now ≠ 5 * x.vset → powers (.railSlewDone c) x)
    ∧ (∀ code, s.now % 500 = 0 → x.reported ≠ some s.now →
      let i := Nat.min code 1023
      let limit := if k.task.resident then Nat.min k.task.peak x.icap else x.icap
      let sum := x.energy + x.vset * i * 2 ^ 36 / 25600000000
      powers (.currentReport c code) { x with
        energy := sum % 2 ^ 80, wrap := x.wrap || decide (2 ^ 80 ≤ sum), code := i, seq := (x.seq + 1) % 2 ^ 22,
        thr := if 15 * limit ≤ 16 * i then Nat.max (x.thr - 1) 1
          else if 4 * i < 3 * limit ∧ 4 * x.code < 3 * limit then Nat.min (x.thr + 1) 8 else x.thr,
        reported := some s.now, recent := (x.vset * i :: x.recent).take 8, errSeen := x.errSeen && x.interval != 9,
        interval := if x.interval = 9 then 0 else if x.interval = 8 then 1 else x.interval + 1 })
    ∧ (∀ code, s.now % 500 ≠ 0 → exec (.currentReport c code) s = .next s)
    ∧ (s.evaluated c = [c] → x.interval = 8 → x.thr = 8 → s.dieOver (c / 64) = false →
      let goes (n : Nat) (late : Bool) (t : State) : Prop := (t.cluster c).power.target = n ∧ (t.cluster c).power.interval = 0
        ∧ (t.cluster c).power.short = late ∧ t.mem = s.mem ∧ (∀ d, d ≠ c → t.cluster d = s.cluster d)
        ∧ (∀ r, (t.seq c .control).reg r = (s.seq c .control).reg r)
      (k.task.resident = false → x.short = false → Yields s (.governorEvaluation c) fun t => OnlyCluster s t c ∧ goes 16 false t)
      ∧ ∀ g, k.task.resident = true → s.gang k.task.job k.task.gi = some g →
        (g.deadline = none → x.short = false → Yields s (.governorEvaluation c) fun t => OnlyCluster s t c
          ∧ goes (x.replan.defPoint (bits s.govctl 5 0)) false t)
        ∧ ∀ d, g.deadline = some d → d ≤ s.now → g.st = .resident → g.resumed = false → g.clusters = [c] → g.dlRaised = false → g.retired = [] → k.task.prog = 0 →
          k.task.prevClk = 0 → Yields s (.governorEvaluation c) fun t => goes x.replan.top true t
            ∧ (t.seq c .control).dlrisk = some (BitVec.ofInt 64 ((d : Int) - s.now)) ∧ (t.seq c .control).sleeping = false
            ∧ ∃ h, t.gang k.task.job k.task.gi = some h ∧ h.dlRaised = true)
    ∧ (let e := x.entry (Nat.max x.left (Nat.max x.n x.target))
      Yields s (.canaryTrip c) fun t => OnlyCluster s t c ∧ (t.cluster c).power.moff = 0 ∧ (t.cluster c).power.n = x.n
        ∧ (t.cluster c).power.target = x.target
        ∧ (t.cluster c).power.vset = Nat.min 170 (Nat.max 90 (Nat.max (Nat.max (almVq e) (almVf e)) (almVf (x.entry x.n)))))
    ∧ powers (.correctableError c) { x with errSeen := true, cec := Nat.min (x.cec + 1) (2 ^ 32 - 1) }
    ∧ (∀ ppm, s.now % 1000000 = 0 → powers (.ageingRead c ppm) { x with drift := ppm })
    ∧ (∀ ppm, s.now % 1000000 ≠ 0 → exec (.ageingRead c ppm) s = .next s)
    ∧ ∀ req, Yields s (.enloRead c req) fun t => OnlyCluster s t c
        ∧ (t.cluster c).power.enhi.get req 0 = x.energy / 2 ^ 16 % 2 ^ 64 / 2 ^ 32
        ∧ (∀ r, r ≠ req → (t.cluster c).power.enhi.get r 0 = x.enhi.get r 0) ∧ (t.cluster c).power.energy = x.energy
        ∧ (c < 512 → t.readBar0 req (0x201004 + 0x40 * c) = BitVec.ofNat 64 (x.energy / 2 ^ 16 % 2 ^ 64 / 2 ^ 32))

/-- R359, R360, R377, R384, R385, R406, R409, R410, R417: a plan that is due takes a cluster out of service and, once it
holds no task, gives it its new Almanac, or withdraws it; an uncorrectable error replays the step of a margin event and
ends any other task with MCHK; a cluster's counts go to its context's counters; and a region that has not fired for the
watchdog's time is reported. -/
def Obligations.Upkeep : Prop :=
  ∀ (s : State) (c : Nat),
    let k := s.cluster c
    let x := k.power
    (∀ a, x.withdrawn = false → (x.insvc = false ∨ s.planDue x = true) →
      (k.holdsTask = true → Yields s (.replan c a) fun t => OnlyCluster s t c
        ∧ t.cluster c = { k with power := { x with insvc := false } })
      ∧ (k.holdsTask = false → a.any almEn = false → Yields s (.replan c a) fun t => t.boot.ncl = s.boot.ncl - 1
          ∧ t.cluster c = { k with power := { x with insvc := false, withdrawn := true } } ∧ t.mem = s.mem)
      ∧ (k.holdsTask = false → a.any almEn = true → Yields s (.replan c a) fun t => t.mem = s.mem
          ∧ (∀ d, d ≠ c → t.cluster d = s.cluster d)
          ∧ t.boot.almanacs.get c [] = (if almanacValid a then a else s.boot.almanacs.get c [])
          ∧ t.cluster c = { k with power := { x with
              planned := some (if almanacValid a then a else x.planned.getD x.almanac), insvc := true, moff := 0, mevt := 0,
              cec := 0, drift := 0, quiet := 0, planAt := s.boot.powered + s.now } }))
    ∧ (k.holdsTask = true → exec (.clusterWithdraw c) s = .next s)
    ∧ (k.holdsTask = false → x.withdrawn = false → Yields s (.clusterWithdraw c) fun t => t.boot.ncl = s.boot.ncl - 1
        ∧ t.mem = s.mem ∧ t.cluster c = { k with power := { x with insvc := false, withdrawn := true } }
        ∧ ∀ d, d ≠ c → t.cluster d = s.cluster d)
    ∧ (∀ residue, x.belowMargin s.now = false → k.Alive → Yields s (.machineCheck c residue) fun t =>
        (t.cluster c).Failed 0xB 0x14 (if residue then 3 else 2) ∧ t.mem = s.mem)
    ∧ (∀ residue cp g, x.belowMargin s.now = true → k.task.ckpt = some cp → k.task.resident = true → k.task.noReplay = false →
        k.task.st = .running → s.gang k.task.job k.task.gi = some g → Yields s (.machineCheck c residue) fun t =>
          let u := t.cluster c
          u.task.st = .running ∧ u.seqC.pc = cp.pc ∧ u.seqC.regs = cp.regs ∧ u.seqC.preds = cp.preds ∧ u.seqC.idle = false
            ∧ u.seqC.mchk = some (1, w64 g.step) ∧ u.seqY.idle = true ∧ u.seqM.idle = true ∧ (g.step ≠ 0 → u.task.flags = cp.flags)
            ∧ u.tiles = k.tiles ∧ u.mat.acc = k.mat.acc ∧ u.power.mevt = Nat.min (x.mevt + 1) 65535 ∧ u.power.moff = 0
            ∧ t.mem = s.mem)
    ∧ (Yields s (.counterForward c) fun t => t.mem = s.mem ∧ t.cluster c = { k with events10 := Vector.replicate 11 0 }
        ∧ ∀ i : Fin 8, (s.ctx k.task.ctx).cnt[i] < 2 ^ 48 →
            let e := bits (s.ctx k.task.ctx).cntev (8 * i.val + 7) (8 * i.val)
            (t.ctx k.task.ctx).cnt[i] = if h : e < 11 then
                (if (s.ctx k.task.ctx).cntctl.getLsbD i.val then ((s.ctx k.task.ctx).cnt[i] + k.events10[e]) % 2 ^ 48
                 else (s.ctx k.task.ctx).cnt[i])
              else (s.ctx k.task.ctx).cnt[i])
    ∧ ∀ slot, s.dbg.wdlim ≠ 0 → k.runs slot = true → s.dbg.tren = 0 →
      (s.dbg.wdlim ≤ (k.slot slot).wdCount → Yields s (.watchdogExpiry c slot) fun t => OnlyCluster s t c
        ∧ (t.cluster c).wdog = true ∧ (t.cluster c).slot slot = { k.slot slot with wdCount := 0 })
      ∧ ((k.slot slot).wdCount < s.dbg.wdlim → exec (.watchdogExpiry c slot) s = .next s)

/-! ### Debug, worlds and pre-emption (R188, R319, R361 to R370, R400 to R403) -/

/-- R351, R400 to R402: a write of DHALT that names a cluster with a task of an armed context halts the sequencers and slots it
names, a sequencer with its replay queue frozen once what it has sent has returned and an engine command has its place, a
RUNNING region once it has drained, and resumes them; any other does nothing. -/
def Obligations.Halts : Prop :=
  ∀ (s : State) (v : Word),
    let c := bits v 8 0
    let k := s.cluster c
    (s.dhaltActs v false = false → exec (.dhaltHalt v) s = .next s)
    ∧ (s.dhaltActs v true = false → exec (.dhaltResume v) s = .next s)
    ∧ (s.dhaltActs v false = true → s.dbg.tren = 0 → Yields s (.dhaltHalt v) fun t =>
        OnlyCluster s { t with links := s.links } c
        ∧ (∀ q, let x := s.seq c q
            let y := t.seq c q
            let stands : Bool := x.waitAt != some .placing && !x.outstanding.any (·.isSent)
            ((dhaltSeqs v).contains q = false ∨ x.halted = true ∨ x.haltWant = true → y = x)
            ∧ ((dhaltSeqs v).contains q = true → x.halted = false → x.haltWant = false →
                (stands = false → y = { x with haltWant := true })
                ∧ (stands = true → y.halted = true ∧ y.haltWant = false ∧ y.regs = x.settle.regs ∧ y.preds = x.preds
                    ∧ y.pc = (s.boundary c q).1 ∧ y.outstanding = x.settle.outstanding ++ (s.boundary c q).2)))
        ∧ ∀ i, i < 4 → v.getLsbD (9 + i) = true → (k.slot i).halted = false → (k.slot i).haltPending = false →
            ((k.slot i).st = .running → ((t.cluster c).slot i).st = .draining ∧ ((t.cluster c).slot i).haltPending = true)
            ∧ ((k.slot i).st ≠ .running → ((t.cluster c).slot i).st = (k.slot i).st ∧ ((t.cluster c).slot i).halted = true))
    ∧ (s.dhaltActs v true = true → s.dbg.tren = 0 → Yields s (.dhaltResume v) fun t => OnlyCluster s t c
        ∧ (∀ q, (dhaltSeqs v).contains q = true → (s.seq c q).halted = true → (t.seq c q).halted = false
            ∧ (t.seq c q).regs = (s.seq c q).regs ∧ (t.seq c q).outstanding = (s.seq c q).thaw.outstanding
            ∧ (t.seq c q).pc = (if (s.seq c q).haltAtBkpt then (s.seq c q).pc + 4 else (s.seq c q).thaw.pc))
        ∧ (∀ q, (dhaltSeqs v).contains q = true → (s.seq c q).halted = false → t.seq c q = { s.seq c q with haltWant := false })
        ∧ ∀ i, i < 4 → v.getLsbD (9 + i) = true → ((t.cluster c).slot i).halted = false
            ∧ ((t.cluster c).slot i).haltPending = false
            ∧ ((k.slot i).haltPending = true → ((t.cluster c).slot i).st
                = if (k.slot i).wasRunning then .running else (k.slot i).st)
            ∧ ((k.slot i).haltPending = false → ((k.slot i).halted = true ∧ (k.slot i).wasRunning = true ∧ k.sched i = false
                ∧ (k.slot i).st = .idle) → ((t.cluster c).slot i).st = .running)
            ∧ ((k.slot i).haltPending = false → ((k.slot i).halted = false ∨ (k.slot i).wasRunning = false ∨ k.sched i = true
                ∨ (k.slot i).st ≠ .idle) → ((t.cluster c).slot i).st = (k.slot i).st))

/-- R319, R361 to R364, R367: a quantum that ends begins a switch to the next world with a ready gang, or begins again; a
switch completes when no gang of the old world is placed; an engine acknowledges once it has stopped; with every
acknowledgement the record is written, and then the cluster is free; and a gang that has not stopped in time fails
with PREEMPTLIMIT. -/
def Obligations.WorldsAndPreemption : Prop :=
  (∀ (s : State) (n : Nat) (p : Partition), s.partAt n = some p → s.part (64 * p.first) = p → p.wsMode = true →
    let now (t : State) : Partition := t.part (64 * p.first)
    (p.switching = none → p.wsQuant * 1000 ≤ s.now - p.quantStart →
      let ws := p.nextWorlds.getD p.worlds
      let first := ((List.range ws.length).map fun i => (p.wsCur + 1 + i) % ws.length).find? fun w =>
        w != p.wsCur && s.worldReady p ws w
      (first = none → Yields s (.quantumExpiry n) fun t => now t = { p with quantStart := s.now } ∧ t.clusters = s.clusters
        ∧ t.jobs = s.jobs ∧ t.mem = s.mem)
      ∧ ∀ w, first = some w → Yields s (.quantumExpiry n) fun t => now t = { p with switching := some w } ∧ t.mem = s.mem
        ∧ (∀ c, p.holds c = true → (t.cluster c).staged = none)
        ∧ ∀ j ∈ s.jobsOf p, ∀ g ∈ j.gangs, s.gang j.num g.gi = some g → g.st = .resident →
            ∃ h, t.gang j.num g.gi = some h ∧ h.st = .preempting ∧ h.preAt = s.now)
    ∧ (s.now - p.quantStart < p.wsQuant * 1000 → exec (.quantumExpiry n) s = .next s)
    ∧ ∀ w, p.switching = some w → (∀ j ∈ s.jobsOf p, ∀ g ∈ j.gangs, g.placed = false) →
      (∀ key, s.placeOf p (p.wtbl.toNat + 256 * p.wsCur + 96) = .mem key → key + 64 ≤ 2 ^ 60) →
      Yields s (.worldSwitchComplete n) fun t => (now t).wsCur = w ∧ (now t).switching = none ∧ (now t).quantStart = s.now
        ∧ (now t).nextWorlds = none
        ∧ (p.nextWorlds = none → p.pendingRct = [] → w ≠ p.wsCur → ∀ x, p.worlds[w]? = some x → (now t).rct = x.table)
        ∧ t.clusters = s.clusters ∧ t.jobs = s.jobs
        ∧ ∀ key, s.placeOf p (p.wtbl.toNat + 256 * p.wsCur + 96) = .mem key → s.MemOk →
            s.mem.Stores t.mem key ((p.rct.toList.map (toBytes 8)).flatten))
  ∧ (∀ (s : State) (c : Nat),
    let k := s.cluster c
    let base := (s.part c).recordKey c k.task.world
    (∀ e, k.task.st = .preempting → k.task.acks.contains e = false → e < 7 →
      let s1 := s.mapCl c (·.stopEngine e)
      Yields s (.enginePreemptStop c e) fun t => OnlyCluster s { t with links := s.links } c
        ∧ (t.cluster c).task.acks = (if s1.engineStops c e then e :: k.task.acks else k.task.acks)
        ∧ (t.cluster c).task = { k.task with acks := (t.cluster c).task.acks }
        ∧ (e = 3 → (t.cluster c).copy = { k.copy with stopped := true }) ∧ (e = 4 → (t.cluster c).mat = { k.mat with stopped := true })
        ∧ ∀ q, seqOfNo e = some q → s1.engineStops c e = true → (t.seq c q).regs = (s.seq c q).settle.regs
            ∧ (t.seq c q).outstanding = (s.seq c q).settle.outstanding ++ (s.boundary c q).2 ∧ (t.seq c q).pc = (s.boundary c q).1)
    ∧ (k.task.st = .preempting → k.saving = false → (∀ e, e < 7 → k.task.acks.contains e = true) → s.MemOk →
      (∀ a ∈ k.mat.acc, a.1 < 65536) → Yields s (.preemptSave c) fun t =>
        OnlyCluster s { t with mem := s.mem, hist := s.hist } c ∧ t.cluster c = { k with saving := true }
          ∧ (∀ i, i < 2 ^ 21 → t.mem.readByte (base + 0x100000 + i) = k.tiles.readByte i)
          ∧ t.mem.read (base + 0x40) 8 = toBytes 8 k.task.flags
          ∧ t.mem.read (base + 0x3000) 8 = toBytes 8 k.events
          ∧ ∀ x, x < base ∨ base + 2 ^ 22 ≤ x → t.mem.readByte x = s.mem.readByte x)
    ∧ ((∃ e, e < 7 ∧ k.task.acks.contains e = false) → exec (.preemptSave c) s = .next s)
    ∧ (k.saving = true → k.task.st = .preempting → s.MemOk → (∀ d, (s.cluster d).task.world < 16) → Yields s (.preemptSaveDone c) fun t =>
        (t.cluster c).task = .reset ∧ t.mem.readByte base = 2
          ∧ let x := t.savedCl.get (16 * c + k.task.world) .reset
            x.task = { k.task with st := .saved, resident := false } ∧ x.tiles = k.tiles ∧ x.seqC = k.seqC ∧ x.mat = k.mat))
  ∧ ∀ (s : State) (job gi : Nat) (j : Job) (g : Gang), s.job job = some j → s.gang job gi = some g → g.st = .preempting →
    let plim := s.ctxField j.ctx 12 4
    1000 * (if plim = 0 then 200 else plim) ≤ s.now - g.preAt → ∀ c ∈ s.seats job g, (s.cluster c).task.st = .preempting →
      (∃ e, e < 7 ∧ (s.cluster c).task.acks.contains e = false) →
      Yields s (.preemptLimitExpiry job gi) fun t => (t.cluster c).Failed 0xA 0 0
        ∧ ∃ h, t.gang job gi = some h ∧ h.st = .resident

/-! ### The host, the domain and the start (R5, R79, R97, R376 to R398, R408, R411 to R420) -/

/-- R5, R386 to R393, R400, R408: an inbound write that its context's page tables allow is performed, one that they do not is
discarded; an inbound read is completed, or ends with Completer Abort; a zero-length read completes behind the writes
before it; translations come and go; a host-window access fails with BADPA after 50 ms or with the link; and a register
takes a write of its owner with every reserved bit 0. -/
def Obligations.HostAccesses : Prop :=
  (∀ (s : State) (fn ctx off req : Nat) (pasid : Option Nat), fn < 256 → pasid.getD 0 < 64 → ctx = 64 * fn + pasid.getD 0 →
    let p := s.partOfFn fn
    let w := s.inbound p ctx req
    let quiet : Prop := bit s.dbg.lf[2].toNat 30 = false ∧ bit s.dbg.lf[6].toNat 30 = false ∧ p.first < 8
    (∀ bs : List Byte, 1 ≤ bs.length → off + bs.length ≤ 2 ^ 46 → off / 64 = (off + bs.length - 1) / 64 → s.boot.st = 5 →
      s.inboundOut req = false →
      (∀ u key pa r, s.ctxTarget p ctx off bs.length needW = .ok u (.mem key pa r) → key + 64 ≤ 2 ^ 60 → s.MemOk → quiet →
        Yields s (.inboundWrite fn pasid off bs req) fun t => s.mem.Stores t.mem key bs ∧ t.host = s.host
          ∧ t.clusters = s.clusters ∧ t.jobs = s.jobs
          ∧ ({ t.links with hAgents := s.links.hAgents, moDone := s.links.moDone } : Links) = s.links)
      ∧ ∀ u cause d a, s.ctxTarget p ctx off bs.length needW = .fail u cause d a →
        exec (.inboundWrite fn pasid off bs req) s = .next s)
    ∧ (∀ bs, s.boot.st ≠ 5 ∨ s.inboundOut req = true → exec (.inboundWrite fn pasid off bs req) s = .next s)
    ∧ (∀ len, 1 ≤ len → off + len ≤ 2 ^ 46 → off / 64 = (off + len - 1) / 64 → s.boot.st = 5 →
      (∀ u key pa r, s.ctxTarget p ctx off len needR = .ok u (.mem key pa r) → key + 64 ≤ 2 ^ 60 → quiet →
        let own := u.ownOf w.agent
        let x := u.readAll (union w.view own.1) (union w.floor (union own.2 [])) (partsOf key len)
        (Yields s (.inboundRead fn pasid off len req) fun t => t.links.hostTlps = s.links.hostTlps ++ [(req, x.1)]
          ∧ t.mem = s.mem ∧ t.host = s.host ∧ t.clusters = s.clusters ∧ t.jobs = s.jobs ∧ t.parts = s.parts ∧ t.hist = s.hist)
        ∧ ((∀ v ∈ s.hist, v.overlaps key len = false) → x.1 = s.mem.read key len))
      ∧ ∀ u cause d a, s.ctxTarget p ctx off len needR = .fail u cause d a → Yields s (.inboundRead fn pasid off len req) fun t =>
          t = { u with links := { u.links with aborts := u.links.aborts + 1 } } ∧ u.links = s.links ∧ t.mem = s.mem
            ∧ t.clusters = s.clusters)
    ∧ (∀ len, s.boot.st = 5 → 2 ^ 46 < off + len → exec (.inboundRead fn pasid off len req) s
        = .next { s with links := { s.links with hostTlps := s.links.hostTlps ++ [(req, List.replicate len 0)] } })
    ∧ ∀ len, s.boot.st ≠ 5 → exec (.inboundRead fn pasid off len req) s
        = .next { s with links := { s.links with aborts := s.links.aborts + 1 } })
  ∧ (∀ (s : State) (req fn page : Nat),
    (s.inboundOut req = false → exec (.zeroLengthRead req) s
      = .next { s with links := { s.links with zeroReads := s.links.zeroReads ++ [req] } })
    ∧ (s.inboundOut req = true → exec (.zeroLengthRead req) s = .next s)
    ∧ exec (.unsupportedRequest req) s = .next { s with links := { s.links with unsupported := s.links.unsupported + 1 } }
    ∧ (Yields s (.atsInvalidate fn page) fun t =>
      let out := s.links.hostReqs.filter fun h => !h.needAts && fnOf h.ctx == fn && h.addr / 4096 == page
      (fn, page) ∉ t.links.ats ∧ t.links.hostReqs = s.links.hostReqs
      ∧ (∀ e, e ≠ (fn, page) → (e ∈ t.links.ats ↔ e ∈ s.links.ats))
      ∧ (out = [] → t.links.atsDone = s.links.atsDone + 1)
      ∧ (out ≠ [] → t.links.atsDone = s.links.atsDone ∧ t.links.atsOpen = s.links.atsOpen ++ [out.map (·.id)]) ∧ t.mem = s.mem))
  ∧ (∀ (s : State) (h : HostReq), s.links.hostReqs.find? (·.id == h.id) = some h →
    (h.needAts = true → Yields s (.atsTranslationCompletion h.id) fun t =>
      (fnOf h.ctx, h.addr / 4096) ∈ t.links.ats ∧ t.mem = s.mem
        ∧ t.links.hostReqs.find? (·.id == h.id) = some { h with needAts := false, issued := s.now })
    ∧ ∀ (c : Nat) (q : SeqId) (k : Nat) (o : LongOp), h.ret = .seqOp c q k → (s.seq c q).outstanding.find? (·.serial == k) = some o →
      o.isFaulted = false →
      let failed (t : State) : Prop := (t.seq c q).outstanding.find? (·.serial == k) = some { o with phase := .faulted 6 0 o.ea }
      (∀ n, h.kind = .read n →
        (50000000 ≤ s.now - h.issued → Yields s (.hostReadTimeout h.id) fun t => failed t
          ∧ t.links.hostReqs = s.links.hostReqs.filter (·.id != h.id) ∧ t.mem = s.mem)
        ∧ (s.now - h.issued < 50000000 → exec (.hostReadTimeout h.id) s = .next s))
      ∧ ((∀ g ∈ s.links.hostReqs, ∀ hi, g.ret ≠ .seqHalf c q k hi) → Yields s .hostLinkDown fun t => failed t ∧ t.links.hostUp = false ∧ t.links.hostReqs = [] ∧ t.mem = s.mem))
  ∧ ∀ (s : State) (v : Word) (off : Nat) (w : Writer),
    (s.boot.st ≠ 6 → v.toNat < 2 ^ 12 → 16 ≤ v.toNat % 64 → v.toNat % 64 ≤ 48 →
      exec (.registerWrite 0x200000 v .firmware) s = .next { s with govctl := v })
    ∧ (2 ^ 12 ≤ v.toNat → exec (.registerWrite 0x200000 v .firmware) s = .next s)
    ∧ (0x200000 ≤ off → off < 0x300000 → exec (.registerWrite off v (.host 0 0)) s = .next s)
    ∧ (∀ fn bar, 256 ≤ fn ∨ (fn ≠ 0 ∧ bar = 0) → exec (.registerWrite off v (.host fn bar)) s = .next s)
    ∧ (s.boot.st = 6 → exec (.registerWrite off v .firmware) s = .next s)
    ∧ (∀ fn bar, exec (.registerWrite off v (.peer fn bar)) s
        = .next { s with links := { s.links with unsupported := s.links.unsupported + 1 } })
    ∧ (∀ fn, fn < 256 → s.boot.st ≠ 6 ∨ fn = 0 → Yields s (.registerWrite 6 v (.config fn)) fun t =>
        (fn ∈ t.links.atsOn ↔ v.getLsbD 15 = true) ∧ (∀ f, f ≠ fn → (f ∈ t.links.atsOn ↔ f ∈ s.links.atsOn))
          ∧ (v.getLsbD 15 = false → ∀ page, (fn, page) ∉ t.links.ats)
          ∧ ({ t with links := { t.links with atsOn := s.links.atsOn, ats := s.links.ats } } : State) = s)
    ∧ (w = .firmware ∧ s.boot.st ≠ 6 ∨ w = .host 0 0 →
      (∀ i : Fin 16, v.toNat < 2 ^ 16 → exec (.registerWrite (0x300000 + 8 * i.val) v w) s
        = .next { s with dbg := { s.dbg with darm := s.dbg.darm.set i v } })
      ∧ (∀ i : Fin 16, 2 ^ 16 ≤ v.toNat → exec (.registerWrite (0x300000 + 8 * i.val) v w) s = .next s)
      ∧ exec (.registerWrite 0x100008 v w) s = .next { s with boot := { s.boot with imgaddr := v } })
    ∧ (∀ fn, s.boot.st = 6 → exec (.registerWrite off v (.host fn 2)) s = .next s)
    ∧ ∀ (fn j : Nat) (i : Fin 8), fn < 256 → j < 64 → s.boot.st ≠ 6 →
      (v.toNat < 2 ^ 48 → Yields s (.registerWrite (0x48010 + 128 * j + 8 * i.val) v (.host fn 2)) fun t =>
        t.ctx (64 * fn + j) = { s.ctx (64 * fn + j) with cnt := (s.ctx (64 * fn + j)).cnt.set i v.toNat }
          ∧ (∀ n, n ≠ 64 * fn + j → t.ctx n = s.ctx n) ∧ ({ t with ctxs := s.ctxs } : State) = s)
      ∧ (2 ^ 48 ≤ v.toNat → Yields s (.registerWrite (0x48010 + 128 * j + 8 * i.val) v (.host fn 2)) fun t =>
          (∀ n, t.ctx n = s.ctx n) ∧ ({ t with ctxs := s.ctxs } : State) = s)

/-- R79, R93, R97, R102, R394 to R398: a packet for a partition of this module becomes a request at its home, with its answer
due to its sender, one between partitions of this module behind those before it on its path; a flush marker is acknowledged
with the last of its paths; an answer completes the operation that waits for it; any other packet is passed on or, when
illegal, discarded; and a port whose link does not come back fails the accesses on its paths with BADPA. A packet here is one
whose fields fit their places in the header of R397 (flitNorm). -/
def Obligations.Domain : Prop :=
  (∀ (s : State) (f : Flit), flitNorm f = f → f.kind < 9 → f.path < 18 →
    let c := 512 * (1 + f.smod) + f.scl
    let ev : Instr := match f.kind with
      | 0 => .yilsinRd f | 1 => .yilsinWr f | 2 => .yilsinAmo f | 3 => .yilsinRdrsp f | 4 => .yilsinWrack f
      | 5 => .yilsinAmorsp f | 6 => .yilsinFlush f | 7 => .yilsinFlushack f | _ => .yilsinCas f
    let mine (h : Sheaf) : Prop := f.kind = 5 ∧ h.old = none
      ∧ ∃ g, h.pkt = some g ∧ g.smod = f.dmod ∧ g.dmod = f.smod ∧ g.tag = f.tag
    (s.partNumbered f.dmod = none → (∀ h ∈ s.sheaves, ¬mine h) →
      exec ev s = .next { s with links := { s.links with yQ := s.links.yQ ++ [f] } })
    ∧ (s.partNumbered f.dmod = none → ∀ h ∈ s.sheaves, mine h → Yields s ev fun t => t.links = s.links ∧ t.mem = s.mem
        ∧ { h with old := some (w64 f.opnd) } ∈ t.sheaves)
    ∧ ((s.partNumbered f.dmod).isSome = true → (s.partNumbered f.smod).isSome = true → s.takeTurned f = none →
        exec ev s = .next s)
    ∧ ∀ p u, s.partNumbered f.dmod = some p → (if (s.partNumbered f.smod).isSome then s.takeTurned f else some s) = some u →
      ({ u with links := { u.links with turned := s.links.turned } } : State) = s ∧
      let asks (key : Nat) (kind : ReqKind) : Prop := Yields s ev fun t =>
        ({ t with reqs := u.reqs, counter := u.counter } : State) = u
          ∧ ∃ r, t.reqs = u.reqs ++ [r] ∧ r.id = u.counter ∧ r.kind = kind ∧ r.key = key ∧ r.ret = .remote f
              ∧ r.agent = (match u.near f with | some q => q.agent | none => ⟨c, f.cls, 0⟩)
      (∀ key, f.kind = 0 → u.localPlace p (f.addr / 64 * 64) = .mem key → u.poisoned key = false → asks key (.read 64))
      ∧ (∀ key a n, f.kind = 1 → u.localPlace p (f.addr / 64 * 64) = .mem key → runsOf 64 f.ben 0 none = [(a, n)] →
          asks (key + a) (.write ((f.data.drop a).take n)))
      ∧ (∀ key, f.kind = 2 → u.localPlace p f.addr = .mem key → u.poisoned key = false → asks key (.amo f.op f.w64 (w64 f.opnd) (f.cls == 1)))
      ∧ (∀ key, f.kind = 8 → u.localPlace p f.addr = .mem key → u.poisoned key = false →
          asks key (.cas f.w64 (w64 f.cmpnd) (w64 f.opnd)))
      ∧ (∀ key, f.kind = 2 ∨ f.kind = 8 → u.localPlace p f.addr = .mem key → u.poisoned key = true →
          Yields s ev fun t => t.mem = s.mem ∧ t.reqs = s.reqs)
      ∧ (f.kind = 6 →
        let same (g : Gather) : Bool := g.dmod == f.dmod && g.smod == f.smod && g.scl == f.scl && g.epoch == f.epoch
        let got := (((s.links.gathers.find? same).map (·.got)).getD 0) ||| 2 ^ f.path
        let ack : Flit :=
          { kind := 7, dmod := f.smod, smod := f.dmod, scl := f.scl, cls := 0, scope := 0, op := 0, w64 := false,
            tag := 0, addr := 0, path := f.path, pmask := f.pmask, epoch := f.epoch, opnd := 0, ben := 0, cmpnd := 0, data := [] }
        let asked : Prop := ∃ r ∈ s.reqs, r.id < s.counter ∧ ∃ a ∈ s.agentsOf r,
          a.cluster = c ∨ (s.partNumbered f.smod).isSome = true ∧ a.cluster = f.scl
        Yields s ev fun t => t.mem = s.mem ∧ t.clusters = s.clusters ∧ t.reqs = s.reqs
          ∧ (f.pmask &&& got = f.pmask → ¬asked → (∀ g ∈ t.links.gathers, same g = false)
              ∧ (s.partNumbered f.smod = none → flitNorm ack ∈ t.links.yQ)
              ∧ ((s.partNumbered f.smod).isSome = true → flitNorm ack ∈ t.links.turned))
          ∧ (f.pmask &&& got ≠ f.pmask ∨ asked →
              t.links.gathers.find? same = some ⟨f.dmod, f.smod, f.scl, f.epoch, f.pmask, got, f.path, s.counter⟩))
      ∧ (f.kind = 7 → f.scl < 512 → ∀ (q : SeqId) (n : Nat) (o : LongOp) (r : Release),
          (s.seq f.scl q).outstanding[n]? = some o → o.rel = some r →
          Yields s (.yilsinFlushack f) fun t => OnlyCluster u t f.scl ∧ (t.seq f.scl q).regs = (s.seq f.scl q).regs
            ∧ (t.cluster f.scl).task.flush = (s.cluster f.scl).task.flush.filter (· != (f.smod, f.epoch))
            ∧ (t.seq f.scl q).outstanding[n]?
                = some { o with rel := some { r with markers := r.markers.filter (· != (f.smod, f.epoch)) } })
      ∧ ∀ (r : MemReq) (d : Nat) (q : SeqId) (n : Nat) (o : LongOp), s.links.yWait.find? (·.1 == f.tag) = some (f.tag, r) → r.ret = .seqOp d q n →
          (s.seq d q).outstanding.find? (·.serial == n) = some o →
          let done_ (v : Word) : Prop := Yields s ev fun t => t.mem = s.mem ∧ t.links.yWait.find? (·.1 == f.tag) = none
            ∧ (t.seq d q).outstanding.find? (·.serial == n) = some { o with phase := .done v 0 }
          (∀ m size sx, f.kind = 3 → r.kind = .read m → o.kind = .load size sx →
            done_ (extend size sx ((f.data.drop (r.pa % 64)).take m)))
          ∧ (∀ bs size, f.kind = 4 → r.kind = .write bs → o.kind = .store size → done_ 0)
          ∧ (∀ op x y red, f.kind = 5 → r.kind = .amo op x y red → (∃ sc, o.kind = .amo op x sc) →
              done_ (extOld op x (leNat (leBytes (if x then 8 else 4) f.opnd))))
          ∧ ∀ x y z, f.kind = 5 → r.kind = .cas x y z → (∃ sc, o.kind = .cas x sc) →
              done_ (extOld 0 x (leNat (leBytes (if x then 8 else 4) f.opnd))))
  ∧ (∀ (s : State) (f : Flit), 9 ≤ f.kind ∨ 18 ≤ f.path → ∀ i ∈ [Instr.yilsinRd f, .yilsinWr f, .yilsinAmo f, .yilsinCas f,
      .yilsinRdrsp f, .yilsinWrack f, .yilsinAmorsp f, .yilsinFlush f, .yilsinFlushack f, .discardedFlit f],
    exec i s = .next { s with links := { s.links with linkErrors := s.links.linkErrors + 1 } })
  ∧ (∀ (s : State) (port : Nat), port < 18 → port ∉ s.links.yDown → Yields s (.linkRetrainTimeout port) fun t =>
      port ∈ t.links.yDown ∧ t.mem = s.mem
        ∧ ∀ (tag : Nat) (r : MemReq) (d : Nat) (q : SeqId) (n path : Nat) (o : LongOp), (tag, r) ∈ s.links.yWait →
            s.partNumbered (paModule r.pa) = none → s.links.yPath.find? (·.1 == tag) = some (tag, path) →
            s.outPort (paModule r.pa) path = some port → r.ret = .seqOp d q n →
            (s.seq d q).outstanding.find? (·.serial == n) = some o → o.isFaulted = false → (tag, r) ∉ t.links.yWait
              ∧ (s.links.yWait.length = 1 →
                  (t.seq d q).outstanding.find? (·.serial == n) = some { o with phase := .faulted 6 0 o.ea }))
  ∧ (∀ (s : State) (port : Nat), exec (.yilsinPortReturn port) s
      = .next { s with links := { s.links with yDown := s.links.yDown.filter (· != port) } })
  ∧ ∀ (s : State) (port : Nat), port < 24 → port ∉ s.links.granaryBad → Yields s (.granaryLinkFailure port) fun t =>
      port ∈ t.links.granaryBad ∧ t.mem = s.mem ∧ (∀ n, n ≠ port → (n ∈ t.links.granaryBad ↔ n ∈ s.links.granaryBad))
      ∧ t.reqs = s.reqs.filter (!s.viaGranary · port)
      ∧ ((∀ r ∈ s.reqs, s.viaGranary r port = false) →
          ({ t with links := { t.links with granaryBad := s.links.granaryBad } } : State) = s)
      ∧ ∀ (r : MemReq) (d : Nat) (q : SeqId) (n : Nat) (o : LongOp), s.reqs = [r] → s.viaGranary r port = true →
          r.ret = .seqOp d q n → (s.seq d q).outstanding.find? (·.serial == n) = some o → o.isFaulted = false →
          (t.seq d q).outstanding.find? (·.serial == n) = some { o with phase := .faulted 6 0 o.ea }

/-- R314, R371, R376, R377, R395, R411 to R420: a start verifies the stored images at steps 1 and 10; a cold one zeroes every
memory and comes to READY with both counts clear; a warm one keeps the Granary; a start that fails is counted, and a second
cold failure, or one of the boot ROM, ends in recovery, which only an image that is accepted leaves, to be stored; a start that
stands at a step runs on or is ended by its watchdog; the root monitor applies what it can check and nothing else; and an
attestation carries the nonce and the digests of the stored images. -/
def Obligations.Starts : Prop :=
  ∀ (s : State),
    let rom := s.boot.accepts s.boot.stage
    let svc := s.boot.accepts s.boot.service
    (∀ warm tr fail bad, s.boot.st = 6 → exec (.moduleStart warm tr fail bad) s = .next s)
    ∧ (s.boot.st ≠ 6 → s.boot.starting = false ∨ s.boot.step = 0 →
      let parts := s.boot.store.map fun e => Partition.reset e.1 e.2.1 e.2.2.1 e.2.2.2
      let isWarm (asked : Bool) : Bool := asked && s.boot.wfail != 3 && !s.boot.starting
      let failsAt (fail : Option Nat) : Option Nat :=
        if rom = false then some 1
        else match fail with
          | some n => if svc = false ∧ 10 < n then some 10 else some n
          | none => if svc = false then some 10 else none
      let up (warm tr : Bool) (bad : List Nat) (t : State) : Prop := t.boot.st = 5 ∧ t.boot.warm = warm ∧ t.boot.wfail = 0
        ∧ t.boot.cfail = 0 ∧ t.boot.starting = false ∧ t.parts = parts ∧ t.jobs = [] ∧ t.ctxs = [] ∧ t.govctl = 0x470
        ∧ t.host = s.host ∧ t.links.hostUp = true ∧ (∀ c q, (t.seq c q).regs = Vector.replicate 32 0)
        ∧ t.boot.trained = (if warm && s.trainingFresh tr then s.boot.trained else some s.poweredAt)
        ∧ (∀ c, c < 512 → (t.cluster c).tiles = [] ∧ (t.cluster c).task.resident = false ∧ (t.cluster c).power.n = 16
            ∧ ((t.cluster c).power.insvc = true ↔ almanacValid (s.boot.almanacs.get c []) = true ∧ c ∉ bad))
        ∧ (warm = false → t.mem = [])
        ∧ (warm = true → s.MemOk → ∀ a, t.mem.readByte a = if inGranary a then s.loseL2.readByte a else 0)
      let fails (warm : Bool) (n : Nat) (t : State) : Prop := t.boot.errstep = n ∧ t.boot.starting = false
        ∧ (n = 1 → t.boot.st = 6 ∧ t.boot.cfail = 2 ∧ t.boot.romOnly = true)
        ∧ (n ≠ 1 → warm = true → t.boot.wfail = Nat.min (s.boot.wfail + 1) 3 ∧ t.boot.cfail = s.boot.cfail)
        ∧ (n ≠ 1 → warm = false → t.boot.wfail = s.boot.wfail ∧ t.boot.cfail = s.boot.cfail + 1
            ∧ (t.boot.st = 6 ↔ 1 ≤ s.boot.cfail))
      (∀ asked tr fail bad, (∀ n, fail = some n → 1 ≤ n ∧ n ≤ 11) → Yields s (.moduleStart asked tr fail bad) fun t =>
        match failsAt fail with
        | none => up (isWarm asked) tr bad t
        | some n => fails (isWarm asked) n t)
      ∧ ∀ asked tr n bad, 1 ≤ n → n ≤ 11 → rom = true ∨ n = 1 → svc = true ∨ n ≤ 10 →
          Yields s (.moduleStart asked tr (some (16 + n)) bad) fun t => t.boot.step = n ∧ t.boot.starting = true
            ∧ t.boot.st = stateOfStep n ∧ t.boot.warm = isWarm asked ∧ t.boot.wfail = s.boot.wfail ∧ t.boot.cfail = s.boot.cfail
            ∧ (4 ≤ n → ∀ c, c < 512 → (t.cluster c).power.vset = almVq ((s.boot.almanacs.get c []).getD 0 90)))
    ∧ (s.boot.st ≠ 6 → s.boot.starting = true → s.boot.step ≠ 0 → rom = true → svc = true → ∀ asked tr bad,
        Yields s (.moduleStart asked tr none bad) fun t => t.boot.st = 5 ∧ t.boot.warm = s.boot.warm ∧ t.boot.wfail = 0
          ∧ t.boot.cfail = 0 ∧ t.boot.starting = false ∧ t.now = s.now)
    ∧ (s.boot.starting = true → s.boot.step ≠ 0 →
      (30000000000 ≤ s.now - s.boot.started → Yields s .startWatchdogExpiry fun t => t.boot.errstep = s.boot.step
        ∧ t.boot.starting = false ∧ t.mem = s.mem
        ∧ t.boot.wfail = (if s.boot.warm = true then Nat.min (s.boot.wfail + 1) 3 else s.boot.wfail)
        ∧ t.boot.cfail = (if s.boot.warm = true then s.boot.cfail else s.boot.cfail + 1))
      ∧ (s.now - s.boot.started < 30000000000 → exec .startWatchdogExpiry s = .next s))
    ∧ (∀ v, s.boot.st ≠ 6 ∨ v ≠ 1 → exec (.imggo v) s = .next s)
    ∧ (s.boot.st = 6 → (s.boot.imglen = 0 ∨ 2 ^ 31 < s.boot.imglen → exec (.imggo 1) s
          = .next { s with boot := { s.boot with errstep := 0xF } })
      ∧ (1 ≤ s.boot.imglen → s.boot.imglen ≤ 2 ^ 31 →
        let image := s.host.read s.boot.imgaddr.toNat s.boot.imglen
        let good : Boot :=
          { s.boot.storeImage image with
            wfail := 0, cfail := 0, st := 0, warm := false, starting := true, step := 0, romOnly := false }
        let bad : Boot := { s.boot with errstep := 0xF }
        let b := if s.boot.accepts image then good else bad
        exec (.imggo 1) s = .next { s with boot := b }))
    ∧ (∀ image, (s.boot.accepts image = true ↔ Config.rsaVerifies s.boot.rsaKey image = true
        ∧ Config.slhVerifies s.boot.slhKey image = true ∧ s.boot.minVersion ≤ Config.imageVersion image))
    ∧ (s.boot.st = 4 ∨ s.boot.st = 5 →
      (∀ c a, c < 512 → almanacValid a = true → Yields s (.rootMonitorRequest (.almanac c a)) fun t =>
        t.boot.almanacs.get c [] = a ∧ (t.cluster c).power = { (s.cluster c).power with planned := some a } ∧ t.mem = s.mem
          ∧ t.parts = s.parts ∧ ∀ d, d ≠ c → t.cluster d = s.cluster d)
      ∧ (∀ c a, 512 ≤ c ∨ almanacValid a = false → exec (.rootMonitorRequest (.almanac c a)) s = .next s)
      ∧ (∀ t, tableLegal t = true → s.tableMay t = true → Yields s (.rootMonitorRequest (.partitions t)) fun u =>
          u.boot.store = t ∧ u.mem = s.mem ∧ u.clusters = s.clusters
            ∧ u.parts.map (fun p => (p.first, p.logsz, p.module_, p.fns)) = t)
      ∧ (∀ t, tableLegal t = false → exec (.rootMonitorRequest (.partitions t)) s = .next s)
      ∧ ∀ m valid pos, m < 8192 → pos < 8192 → exec (.rootMonitorRequest (.domainMap m valid pos)) s
          = .next { s with boot := { s.boot with dmap := s.boot.dmap.set m (valid, pos) } })
    ∧ (s.boot.st ≠ 4 → s.boot.st ≠ 5 → ∀ r, exec (.rootMonitorRequest r) s = .next s)
    ∧ (∀ nonce : List Byte, nonce.length = 48 → s.boot.st ≠ 0 → s.boot.romOnly = false → Yields s (.attestationRequest nonce) fun t =>
        (∃ r, t.links.reports = s.links.reports ++ [r] ∧ r.length = 256 + 384 + 16224 ∧ r.take 48 = nonce
          ∧ (r.drop 72).take 96 = (List.range 48).map (Config.sha384 s.boot.stage) ++ (List.range 48).map (Config.sha384 s.boot.service))
          ∧ ({ t with links := { t.links with reports := s.links.reports } } : State) = s)
    ∧ ∀ nonce : List Byte, nonce.length ≠ 48 ∨ s.boot.st = 0 → exec (.attestationRequest nonce) s = .next s

/-! ### Decoding, steps, reset and invariants -/

/-- R2, R107 to R143: every instruction that has a word decodes from its own bytes, whatever stands behind them, with every
operand at every value its encoding admits; and the decoder gives well-formed instructions alone. -/
def Obligations.RoundTrip : Prop :=
  (∀ (i : Instr) (rest : List Byte), i.wf = true → decode (encode i ++ rest) = .ok (i, rest))
  ∧ ∀ (bs rest : List Byte) (i : Instr), decode bs = .ok (i, rest) → i.wf = true

/-- R107 to R143: words the spec writes out decode to the instructions it writes beside them, and an unassigned one to none. -/
def Obligations.DecodedWords : Prop :=
  decodeTableWord 32 0x000A6387 = some (.divn ⟨0, false⟩ 5 6 7)
  ∧ decodeTableWord 32 0x05929001 = some (.addi ⟨3, false⟩ 9 9 1)
  ∧ decodeTableWord 32 0x4C067FFB = some (.cmpiLt ⟨0, false⟩ 3 7 0xFFB)
  ∧ decodeTableWord 32 0x683EC001 = some (.jrl ⟨0, false⟩ 31 12)
  ∧ decodeTableWord 32 0xC8000000 = some (.trapTerminate ⟨0, false⟩)
  ∧ decodeTableWord 32 0xFFFFFFFF = none

/-- R107, R124, R125, R145, R157, R375, R408: when the bytes at the pc of a sequencer whose turn it is decode to an instruction,
the step is that instruction's meaning in the state after the fetch, counted as event 1 once it has issued and, when it was
replayed as a whole, followed where TRAPPC said; one that an
outstanding operation holds back waits; other bytes trap with ILL; in a clk that the limiter withholds nothing issues; and an
event's turn is the event. -/
def Obligations.StepRuns : Prop :=
  (∀ (s : State) (c : Nat) (q : SeqId) (rest : List Turn), s.agenda = .issue c q :: rest → c < 512 →
    let s0 : State := { s with agenda := rest, cur := (c, q) }
    s0.here.task.moves = true → s0.me.idle = false → s0.me.halted = false → s0.me.exited = false → s0.me.sleeping = false →
    (s0.me.haltWant = true → s0.me.waitAt = some .placing) → s0.pendingAt c q = none → s0.here.throttled = false →
    (∀ s1 bs i r, s0.fetch c q s0.me.pc.toNat = .ok s1 bs → decode bs = .ok (i, r) →
      (s1.me.heldBack i = true → step s = .next s1)
      ∧ (s1.me.heldBack i = false → ∀ t, exec i s1 = .next t → step s = .next
          ((if s1.me.waitAt.isNone && (t.me.pc != s1.me.pc || jumps i || t.me.waitAt.isSome || t.me.exited)
            then t.mapCl s1.cur.1 (·.count 1 1) else t).mapSeq s1.cur.1 s1.cur.2 (·.goOn i))))
    ∧ (∀ s1 bs e, s0.fetch c q s0.me.pc.toNat = .ok s1 bs → decode bs = .error e →
        step s = .next (s1.trap 1 0 (w64 (leNat (bs.take 4)))))
    ∧ ∀ pa e key, fetchProt s0.me.pc.toNat = false → s0.here.xlat (s0.asidOf c q) s0.me.pc.toNat needX = .ok pa e →
        s0.placeOf (s0.part c) pa = .mem key →
        let n := if s0.me.pc.toNat % 8 = 0 then 8 else 4
        let u0 := s0.mapCl c (·.touch e)
        let x := u0.readAll u0.links.moDone [] (partsOf key n)
        let u := (u0.countMiss c key).touchL2 key e.cls true
        (isX64 (leNat (x.1.take 4) / 2 ^ 26) = false → s0.fetch c q s0.me.pc.toNat = .ok u (x.1.take 4))
        ∧ (isX64 (leNat (x.1.take 4) / 2 ^ 26) = true → n = 8 → s0.fetch c q s0.me.pc.toNat = .ok u x.1)
        ∧ ((∀ v ∈ s.hist, v.overlaps key n = false) → x.1 = s.rawRead key n))
  ∧ (∀ (s : State) (c : Nat) (q : SeqId) (rest : List Turn), s.agenda = .issue c q :: rest → c < 512 →
      (s.cluster c).throttled = true → step s = .next { s with agenda := rest })
  ∧ (∀ (s : State) (e : Instr) (rest : List Turn), s.agenda = .occur e :: rest → (eventCluster e).all (· < 512) = true →
      (s.holdsBack e = false → step s = exec e { s with agenda := rest })
      ∧ (s.holdsBack e = true → step s = .next { s with agenda := rest }))
  ∧ (∀ (s : State) (f : Flit) (rest : List Turn) (t : State), s.agenda = .packet f :: rest → f.kind < 9 →
      let ev : Instr := match f.kind with
        | 0 => .yilsinRd f | 1 => .yilsinWr f | 2 => .yilsinAmo f | 3 => .yilsinRdrsp f | 4 => .yilsinWrack f
        | 5 => .yilsinAmorsp f | 6 => .yilsinFlush f | 7 => .yilsinFlushack f | _ => .yilsinCas f
      exec ev { s with agenda := rest } = .next t → step s = .next t)
  ∧ (∀ (s : State) (ns : Nat) (rest : List Turn), s.agenda = .elapse ns :: rest →
      step s = .next { s with agenda := rest, now := s.now + ns })
  ∧ ∀ s : State, s.agenda = [] → step s = .next { s with agenda := s.round }

/-- R30, R144, R147, R419: reset leaves BOOTST in STATE 0 and WARM 0 with both failure counts 0, GOVCTL 0x470, no task, no job and
no context, every predicate but p0 false and every general register 0; memory lists nothing, which reads as 0 (the
model's choice, log entry 4); and the invariants hold. -/
def Obligations.ResetState : Prop :=
  let s := State.reset
  s.boot.st = 0 ∧ s.boot.warm = false ∧ s.boot.wfail = 0 ∧ s.boot.cfail = 0 ∧ s.govctl = 0x470
    ∧ s.jobs = [] ∧ s.parts = [] ∧ (∀ n, s.ctx n = .reset) ∧ (∀ a, s.mem.readByte a = 0)
    ∧ (∀ c q, (s.seq c q).pl = false ∧ (∀ r, (s.seq c q).reg r = 0) ∧ ∀ p, (s.seq c q).pred p = decide (p = 0))
    ∧ (∀ c, (s.cluster c).task.resident = false) ∧ s.MemOk ∧ s.PartsOk

/-- Every step keeps every memory of the module, its record copies among them, in the canonical form. -/
def Obligations.MemoryInvariant : Prop := ∀ s t : State, s.MemOk → step s = .next t → t.MemOk

/-- R5, R308, R311, R316, R320: every step keeps the reserved fields of every partition's registers at 0, SVASID within 14 bits and
DROPCNT within 32. -/
def Obligations.RegisterInvariant : Prop := ∀ s t : State, s.PartsOk → step s = .next t → t.PartsOk
end

