-- ==== Sys2Proof/Laws/Memory.lean ====
section
/-! SUPPORT. Memory in its canonical form: a read after a write, writes that leave other addresses, and the form kept by
every operation on memory. -/

namespace Sys2Proof.Machine

/-! ### The canonical form -/

theorem Memory.wfFrom_cons (lo : Nat) (c : Host.Cell) (r : Memory) :
    Memory.wfFrom lo (c :: r) = true ↔ lo ≤ c.1 ∧ c.2 ≠ 0 ∧ Memory.wfFrom (c.1 + 1) r = true := by
  simp [Memory.wfFrom, and_assoc]

theorem Memory.wfFrom_mono {lo lo' : Nat} {m : Memory} (h : Memory.wfFrom lo m = true) (hl : lo' ≤ lo) :
    Memory.wfFrom lo' m = true := by
  cases m with
  | nil => rfl
  | cons c r =>
    rw [Memory.wfFrom_cons] at h ⊢
    exact ⟨le_trans hl h.1, h.2⟩

theorem Memory.wfFrom_writeByte {lo : Nat} {m : Memory} (h : Memory.wfFrom lo m = true) (a : Nat) (b : Byte)
    (ha : lo ≤ a) : Memory.wfFrom lo (m.writeByte a b) = true := by
  induction m generalizing lo with
  | nil =>
    unfold Memory.writeByte
    split
    · rfl
    · rename_i hb; rw [Memory.wfFrom_cons]; exact ⟨ha, hb, rfl⟩
  | cons c r ih =>
    rw [Memory.wfFrom_cons] at h
    unfold Memory.writeByte
    split
    · rename_i hc
      split
      · exact Memory.wfFrom_mono h.2.2 (by omega)
      · rename_i hb
        rw [Memory.wfFrom_cons]
        exact ⟨ha, hb, hc ▸ h.2.2⟩
    · split
      · split
        · rw [Memory.wfFrom_cons]; exact h
        · rename_i hc hlt hb
          rw [Memory.wfFrom_cons, Memory.wfFrom_cons]
          exact ⟨ha, hb, by show a + 1 ≤ c.1; omega, h.2⟩
      · rw [Memory.wfFrom_cons]
        exact ⟨h.1, h.2.1, ih h.2.2 (by omega)⟩

/-- A byte written keeps the canonical form. -/
theorem Memory.wf_writeByte {m : Memory} (h : m.wf = true) (a : Nat) (b : Byte) : (m.writeByte a b).wf = true :=
  Memory.wfFrom_writeByte h a b (Nat.zero_le a)

/-- Bytes written keep the canonical form. -/
theorem Memory.wf_write {m : Memory} (h : m.wf = true) (a : Nat) (bs : List Byte) : (m.write a bs).wf = true := by
  induction bs generalizing m a with
  | nil => exact h
  | cons b r ih => exact ih (Memory.wf_writeByte h a b) (a + 1)

theorem Memory.wfFrom_filter {lo : Nat} {m : Memory} (h : Memory.wfFrom lo m = true) (p : Host.Cell → Bool) :
    Memory.wfFrom lo (m.filter p) = true := by
  induction m generalizing lo with
  | nil => rfl
  | cons c r ih =>
    rw [Memory.wfFrom_cons] at h
    have hr := ih h.2.2
    rw [List.filter_cons]
    split
    · rw [Memory.wfFrom_cons]; exact ⟨h.1, h.2.1, hr⟩
    · exact Memory.wfFrom_mono hr (by omega)

/-- Entries left out keep the canonical form (R414). -/
theorem Memory.wf_filter {m : Memory} (h : m.wf = true) (p : Host.Cell → Bool) : Memory.wf (m.filter p) = true :=
  Memory.wfFrom_filter h p

theorem Memory.wfFrom_append {lo mid : Nat} {m n : Memory} (hm : Memory.wfFrom lo m = true)
    (hlt : ∀ e ∈ m, e.1 < mid) (hlo : lo ≤ mid) (hn : Memory.wfFrom mid n = true) :
    Memory.wfFrom lo (m ++ n) = true := by
  induction m generalizing lo with
  | nil => exact Memory.wfFrom_mono hn hlo
  | cons c r ih =>
    rw [Memory.wfFrom_cons] at hm
    rw [List.cons_append, Memory.wfFrom_cons]
    have hc := hlt c (by simp)
    exact ⟨hm.1, hm.2.1, ih hm.2.2 (fun e he => hlt e (by simp [he])) (by omega)⟩

theorem Memory.wfFrom_shift {lo base : Nat} {m : Memory} (h : Memory.wfFrom lo m = true) :
    Memory.wfFrom (base + lo) (m.map fun e => (base + e.1, e.2)) = true := by
  induction m generalizing lo with
  | nil => rfl
  | cons c r ih =>
    rw [Memory.wfFrom_cons] at h
    rw [List.map_cons, Memory.wfFrom_cons]
    exact ⟨by show base + lo ≤ base + c.1; omega, h.2.1, by have := ih h.2.2; rwa [Nat.add_assoc]⟩

/-- Bytes of one memory laid over another keep the canonical form (R363, R367). -/
theorem Memory.wf_overlay {m src : Memory} (hm : m.wf = true) (hs : src.wf = true) (base len : Nat) :
    (m.overlay base len src).wf = true := by
  unfold Memory.overlay
  rw [List.append_assoc]
  have low := Memory.wfFrom_filter hm fun e => decide (e.1 < base)
  have hi0 := Memory.wfFrom_filter hm fun e => decide (base + len ≤ e.1)
  have hi : Memory.wfFrom (base + len) (m.filter fun e => decide (base + len ≤ e.1)) = true := by
    generalize hg : m.filter (fun e => decide (base + len ≤ e.1)) = l at hi0
    have hall : ∀ e ∈ l, base + len ≤ e.1 := by
      intro e he; rw [← hg] at he; simpa using (List.mem_filter.mp he).2
    cases l with
    | nil => rfl
    | cons c r =>
      rw [Memory.wfFrom_cons] at hi0 ⊢
      exact ⟨hall c (by simp), hi0.2⟩
  have mid := Memory.wfFrom_shift (base := base) (Memory.wfFrom_filter hs fun e => decide (e.1 < len))
  refine Memory.wfFrom_append low ?_ (Nat.zero_le base)
    (Memory.wfFrom_append (by simpa using mid) ?_ (Nat.le_add_right base len) hi)
  · intro e he; simpa using (List.mem_filter.mp he).2
  · intro e he
    obtain ⟨x, hx, rfl⟩ := List.mem_map.mp he
    have := (List.mem_filter.mp hx).2
    simp at this
    show base + x.1 < base + len
    omega

/-! ### Reading after a write -/

theorem Memory.readByte_below {lo : Nat} {m : Memory} (h : Memory.wfFrom lo m = true) {a : Nat} (ha : a < lo) :
    m.readByte a = 0 := by
  cases m with
  | nil => rfl
  | cons c r =>
    rw [Memory.wfFrom_cons] at h
    unfold Memory.readByte
    rw [if_neg (by omega), if_pos (by omega)]

/-- The byte written is the byte read. -/
theorem Memory.readByte_writeByte_same {m : Memory} (h : m.wf = true) (a : Nat) (b : Byte) :
    (m.writeByte a b).readByte a = b := by
  suffices ∀ lo, Memory.wfFrom lo m = true → (m.writeByte a b).readByte a = b from this 0 h
  clear h
  induction m with
  | nil => intro _ _; unfold Memory.writeByte; split <;> simp_all [Memory.readByte]
  | cons c r ih =>
    intro lo h
    rw [Memory.wfFrom_cons] at h
    unfold Memory.writeByte
    split
    · rename_i hc
      split
      · rename_i hb; rw [hb]; exact Memory.readByte_below h.2.2 (by omega)
      · simp [Memory.readByte]
    · rename_i hc
      split
      · rename_i hlt
        split
        · rename_i hb; simp [Memory.readByte, hc, hlt, hb]
        · simp [Memory.readByte]
      · rename_i hlt
        simp [Memory.readByte, hc, hlt, ih _ h.2.2]

/-- A byte written leaves every other address. -/
theorem Memory.readByte_writeByte_ne {m : Memory} (h : m.wf = true) (a x : Nat) (b : Byte) (hx : x ≠ a) :
    (m.writeByte a b).readByte x = m.readByte x := by
  suffices ∀ lo, Memory.wfFrom lo m = true → (m.writeByte a b).readByte x = m.readByte x from this 0 h
  clear h
  induction m with
  | nil =>
    intro _ _; unfold Memory.writeByte
    split
    · rfl
    · simp [Memory.readByte, Ne.symm hx]
  | cons c r ih =>
    intro lo h
    rw [Memory.wfFrom_cons] at h
    unfold Memory.writeByte
    split
    · rename_i hc
      have hcx : ¬ c.1 = x := fun e => hx (by omega)
      split
      · by_cases hlt : x < c.1
        · rw [Memory.readByte_below h.2.2 (by omega)]; simp [Memory.readByte, hcx, hlt]
        · simp [Memory.readByte, hcx, hlt]
      · simp [Memory.readByte, Ne.symm hx, hc]
    · rename_i hc
      split
      · rename_i hlt
        split
        · rfl
        · by_cases hxa : x < a
          · have : x < c.1 := by omega
            simp [Memory.readByte, Ne.symm hx, hxa, this, show ¬ c.1 = x by omega]
          · simp [Memory.readByte, Ne.symm hx, hxa]
      · by_cases hcx : c.1 = x
        · simp [Memory.readByte, hcx]
        · by_cases hlt : x < c.1
          · simp [Memory.readByte, hcx, hlt]
          · simp [Memory.readByte, hcx, hlt, ih _ h.2.2]

/-- A write leaves every byte outside it. -/
theorem Memory.readByte_write_out {m : Memory} (h : m.wf = true) (a x : Nat) (bs : List Byte)
    (hx : x < a ∨ a + bs.length ≤ x) : (m.write a bs).readByte x = m.readByte x := by
  induction bs generalizing m a with
  | nil => rfl
  | cons b r ih =>
    unfold Memory.write
    rw [ih (Memory.wf_writeByte h a b) (a + 1) (by simp at hx; omega)]
    exact Memory.readByte_writeByte_ne h a x b (by simp at hx; omega)

/-- A write leaves what it wrote at each of its addresses. -/
theorem Memory.readByte_write_in {m : Memory} (h : m.wf = true) (a : Nat) (bs : List Byte) (i : Nat)
    (hi : i < bs.length) : (m.write a bs).readByte (a + i) = bs[i] := by
  induction bs generalizing m a i with
  | nil => exact absurd hi (by simp)
  | cons b r ih =>
    unfold Memory.write
    cases i with
    | zero =>
      rw [Memory.readByte_write_out (Memory.wf_writeByte h a b) _ _ _ (by omega)]
      simpa using Memory.readByte_writeByte_same h a b
    | succ j =>
      have := ih (Memory.wf_writeByte h a b) (a + 1) j (by simpa using hi)
      simpa [Nat.add_comm, Nat.add_left_comm, Nat.add_assoc] using this

/-- The bytes written are the bytes read. -/
theorem Memory.read_write {m : Memory} (h : m.wf = true) (a : Nat) (bs : List Byte) :
    (m.write a bs).read a bs.length = bs := by
  apply List.ext_getElem
  · simp [Memory.read]
  · intro i h1 h2
    simp only [Memory.read, List.getElem_map, List.getElem_range]
    exact Memory.readByte_write_in h a bs i h2

end Sys2Proof.Machine
end

