-- ==== Sys2Proof/Laws/PerInstr.lean ====
section
/-! SUPPORT. The per-instruction family Guarded: a well-formed instruction has a guard, and a legal one (R107, R108); an
event has no word and is not well-formed. -/

namespace Sys2Proof

/-- A well-formed instruction has a legal guard (R108). -/
def Laws.Guarded.Statement (i : Instr) : Prop := i.wf = true → ∃ g, i.guard = some g ∧ g.ok = true

theorem Laws.Guarded.of_guard {i : Instr} {g : Guard} (e : i.guard = some g) : Laws.Guarded.Statement i := by
  intro h
  simp only [Instr.wf, e, Bool.and_eq_true] at h
  exact ⟨g, e, h.1⟩

theorem Laws.Guarded.of_event {i : Instr} (e : i.guard = none) : Laws.Guarded.Statement i := by
  intro h
  simp [Instr.wf, e] at h

theorem Laws.Guarded.add (g : Guard) (d a b : Reg) :
    Laws.Guarded.Statement (.add g d a b) := Laws.Guarded.of_guard rfl
theorem Laws.Guarded.sub (g : Guard) (d a b : Reg) :
    Laws.Guarded.Statement (.sub g d a b) := Laws.Guarded.of_guard rfl
theorem Laws.Guarded.mul (g : Guard) (d a b : Reg) :
    Laws.Guarded.Statement (.mul g d a b) := Laws.Guarded.of_guard rfl
theorem Laws.Guarded.mulh (g : Guard) (d a b : Reg) :
    Laws.Guarded.Statement (.mulh g d a b) := Laws.Guarded.of_guard rfl
theorem Laws.Guarded.mulhn (g : Guard) (d a b : Reg) :
    Laws.Guarded.Statement (.mulhn g d a b) := Laws.Guarded.of_guard rfl
theorem Laws.Guarded.div (g : Guard) (d a b : Reg) :
    Laws.Guarded.Statement (.div g d a b) := Laws.Guarded.of_guard rfl
theorem Laws.Guarded.divn (g : Guard) (d a b : Reg) :
    Laws.Guarded.Statement (.divn g d a b) := Laws.Guarded.of_guard rfl
theorem Laws.Guarded.rem (g : Guard) (d a b : Reg) :
    Laws.Guarded.Statement (.rem g d a b) := Laws.Guarded.of_guard rfl
theorem Laws.Guarded.remn (g : Guard) (d a b : Reg) :
    Laws.Guarded.Statement (.remn g d a b) := Laws.Guarded.of_guard rfl
theorem Laws.Guarded.and (g : Guard) (d a b : Reg) :
    Laws.Guarded.Statement (.and g d a b) := Laws.Guarded.of_guard rfl
theorem Laws.Guarded.or (g : Guard) (d a b : Reg) : Laws.Guarded.Statement (.or g d a b) := Laws.Guarded.of_guard rfl
theorem Laws.Guarded.xor (g : Guard) (d a b : Reg) :
    Laws.Guarded.Statement (.xor g d a b) := Laws.Guarded.of_guard rfl
theorem Laws.Guarded.andn (g : Guard) (d a b : Reg) :
    Laws.Guarded.Statement (.andn g d a b) := Laws.Guarded.of_guard rfl
theorem Laws.Guarded.shl (g : Guard) (d a b : Reg) :
    Laws.Guarded.Statement (.shl g d a b) := Laws.Guarded.of_guard rfl
theorem Laws.Guarded.shr (g : Guard) (d a b : Reg) :
    Laws.Guarded.Statement (.shr g d a b) := Laws.Guarded.of_guard rfl
theorem Laws.Guarded.sra (g : Guard) (d a b : Reg) :
    Laws.Guarded.Statement (.sra g d a b) := Laws.Guarded.of_guard rfl
theorem Laws.Guarded.min (g : Guard) (d a b : Reg) :
    Laws.Guarded.Statement (.min g d a b) := Laws.Guarded.of_guard rfl
theorem Laws.Guarded.max (g : Guard) (d a b : Reg) :
    Laws.Guarded.Statement (.max g d a b) := Laws.Guarded.of_guard rfl
theorem Laws.Guarded.minn (g : Guard) (d a b : Reg) :
    Laws.Guarded.Statement (.minn g d a b) := Laws.Guarded.of_guard rfl
theorem Laws.Guarded.maxn (g : Guard) (d a b : Reg) :
    Laws.Guarded.Statement (.maxn g d a b) := Laws.Guarded.of_guard rfl
theorem Laws.Guarded.clz (g : Guard) (d a : Reg) : Laws.Guarded.Statement (.clz g d a) := Laws.Guarded.of_guard rfl
theorem Laws.Guarded.ctz (g : Guard) (d a : Reg) : Laws.Guarded.Statement (.ctz g d a) := Laws.Guarded.of_guard rfl
theorem Laws.Guarded.popc (g : Guard) (d a : Reg) : Laws.Guarded.Statement (.popc g d a) := Laws.Guarded.of_guard rfl
theorem Laws.Guarded.addi (g : Guard) (d a : Reg) (imm : BitVec 12) :
    Laws.Guarded.Statement (.addi g d a imm) := Laws.Guarded.of_guard rfl
theorem Laws.Guarded.andi (g : Guard) (d a : Reg) (imm : BitVec 12) :
    Laws.Guarded.Statement (.andi g d a imm) := Laws.Guarded.of_guard rfl
theorem Laws.Guarded.ori (g : Guard) (d a : Reg) (imm : BitVec 12) :
    Laws.Guarded.Statement (.ori g d a imm) := Laws.Guarded.of_guard rfl
theorem Laws.Guarded.xori (g : Guard) (d a : Reg) (imm : BitVec 12) :
    Laws.Guarded.Statement (.xori g d a imm) := Laws.Guarded.of_guard rfl
theorem Laws.Guarded.shli (g : Guard) (d a : Reg) (n : Fin 64) :
    Laws.Guarded.Statement (.shli g d a n) := Laws.Guarded.of_guard rfl
theorem Laws.Guarded.shri (g : Guard) (d a : Reg) (n : Fin 64) :
    Laws.Guarded.Statement (.shri g d a n) := Laws.Guarded.of_guard rfl
theorem Laws.Guarded.srai (g : Guard) (d a : Reg) (n : Fin 64) :
    Laws.Guarded.Statement (.srai g d a n) := Laws.Guarded.of_guard rfl
theorem Laws.Guarded.bfx (g : Guard) (d a : Reg) (pos wm1 : Fin 64) :
    Laws.Guarded.Statement (.bfx g d a pos wm1) := Laws.Guarded.of_guard rfl
theorem Laws.Guarded.bfi (g : Guard) (d a : Reg) (pos wm1 : Fin 64) :
    Laws.Guarded.Statement (.bfi g d a pos wm1) := Laws.Guarded.of_guard rfl
theorem Laws.Guarded.movi (g : Guard) (d : Reg) (imm : BitVec 17) :
    Laws.Guarded.Statement (.movi g d imm) := Laws.Guarded.of_guard rfl
theorem Laws.Guarded.movs (g : Guard) (d : Reg) (imm : BitVec 16) :
    Laws.Guarded.Statement (.movs g d imm) := Laws.Guarded.of_guard rfl
theorem Laws.Guarded.addpc (g : Guard) (d : Reg) (imm : BitVec 17) :
    Laws.Guarded.Statement (.addpc g d imm) := Laws.Guarded.of_guard rfl
theorem Laws.Guarded.cmpEq (g : Guard) (pd : PReg) (a b : Reg) :
    Laws.Guarded.Statement (.cmpEq g pd a b) := Laws.Guarded.of_guard rfl
theorem Laws.Guarded.cmpNe (g : Guard) (pd : PReg) (a b : Reg) :
    Laws.Guarded.Statement (.cmpNe g pd a b) := Laws.Guarded.of_guard rfl
theorem Laws.Guarded.cmpLt (g : Guard) (pd : PReg) (a b : Reg) :
    Laws.Guarded.Statement (.cmpLt g pd a b) := Laws.Guarded.of_guard rfl
theorem Laws.Guarded.cmpGe (g : Guard) (pd : PReg) (a b : Reg) :
    Laws.Guarded.Statement (.cmpGe g pd a b) := Laws.Guarded.of_guard rfl
theorem Laws.Guarded.cmpLtn (g : Guard) (pd : PReg) (a b : Reg) :
    Laws.Guarded.Statement (.cmpLtn g pd a b) := Laws.Guarded.of_guard rfl
theorem Laws.Guarded.cmpGen (g : Guard) (pd : PReg) (a b : Reg) :
    Laws.Guarded.Statement (.cmpGen g pd a b) := Laws.Guarded.of_guard rfl
theorem Laws.Guarded.cmpiEq (g : Guard) (pd : PReg) (a : Reg) (imm : BitVec 12) :
    Laws.Guarded.Statement (.cmpiEq g pd a imm) := Laws.Guarded.of_guard rfl
theorem Laws.Guarded.cmpiNe (g : Guard) (pd : PReg) (a : Reg) (imm : BitVec 12) :
    Laws.Guarded.Statement (.cmpiNe g pd a imm) := Laws.Guarded.of_guard rfl
theorem Laws.Guarded.cmpiLt (g : Guard) (pd : PReg) (a : Reg) (imm : BitVec 12) :
    Laws.Guarded.Statement (.cmpiLt g pd a imm) := Laws.Guarded.of_guard rfl
theorem Laws.Guarded.cmpiGe (g : Guard) (pd : PReg) (a : Reg) (imm : BitVec 12) :
    Laws.Guarded.Statement (.cmpiGe g pd a imm) := Laws.Guarded.of_guard rfl
theorem Laws.Guarded.cmpiLtn (g : Guard) (pd : PReg) (a : Reg) (imm : BitVec 12) :
    Laws.Guarded.Statement (.cmpiLtn g pd a imm) := Laws.Guarded.of_guard rfl
theorem Laws.Guarded.cmpiGen (g : Guard) (pd : PReg) (a : Reg) (imm : BitVec 12) :
    Laws.Guarded.Statement (.cmpiGen g pd a imm) := Laws.Guarded.of_guard rfl
theorem Laws.Guarded.pand (g : Guard) (pd pa pb : PReg) :
    Laws.Guarded.Statement (.pand g pd pa pb) := Laws.Guarded.of_guard rfl
theorem Laws.Guarded.por (g : Guard) (pd pa pb : PReg) :
    Laws.Guarded.Statement (.por g pd pa pb) := Laws.Guarded.of_guard rfl
theorem Laws.Guarded.pxor (g : Guard) (pd pa pb : PReg) :
    Laws.Guarded.Statement (.pxor g pd pa pb) := Laws.Guarded.of_guard rfl
theorem Laws.Guarded.pnot (g : Guard) (pd pa : PReg) :
    Laws.Guarded.Statement (.pnot g pd pa) := Laws.Guarded.of_guard rfl
theorem Laws.Guarded.pmov (g : Guard) (pd pa : PReg) :
    Laws.Guarded.Statement (.pmov g pd pa) := Laws.Guarded.of_guard rfl
theorem Laws.Guarded.br (g : Guard) (off : BitVec 22) :
    Laws.Guarded.Statement (.br g off) := Laws.Guarded.of_guard rfl
theorem Laws.Guarded.brl (g : Guard) (off : BitVec 22) :
    Laws.Guarded.Statement (.brl g off) := Laws.Guarded.of_guard rfl
theorem Laws.Guarded.jr (g : Guard) (a : Reg) : Laws.Guarded.Statement (.jr g a) := Laws.Guarded.of_guard rfl
theorem Laws.Guarded.jrl (g : Guard) (d a : Reg) : Laws.Guarded.Statement (.jrl g d a) := Laws.Guarded.of_guard rfl
theorem Laws.Guarded.nop (g : Guard) : Laws.Guarded.Statement (.nop g) := Laws.Guarded.of_guard rfl
theorem Laws.Guarded.loop (g : Guard) (d : Reg) (imm : BitVec 17) :
    Laws.Guarded.Statement (.loop g d imm) := Laws.Guarded.of_guard rfl
theorem Laws.Guarded.ldB (g : Guard) (d a : Reg) (off : BitVec 9) :
    Laws.Guarded.Statement (.ldB g d a off) := Laws.Guarded.of_guard rfl
theorem Laws.Guarded.ldH (g : Guard) (d a : Reg) (off : BitVec 9) :
    Laws.Guarded.Statement (.ldH g d a off) := Laws.Guarded.of_guard rfl
theorem Laws.Guarded.ldW (g : Guard) (d a : Reg) (off : BitVec 9) :
    Laws.Guarded.Statement (.ldW g d a off) := Laws.Guarded.of_guard rfl
theorem Laws.Guarded.ldBn (g : Guard) (d a : Reg) (off : BitVec 9) :
    Laws.Guarded.Statement (.ldBn g d a off) := Laws.Guarded.of_guard rfl
theorem Laws.Guarded.ldHn (g : Guard) (d a : Reg) (off : BitVec 9) :
    Laws.Guarded.Statement (.ldHn g d a off) := Laws.Guarded.of_guard rfl
theorem Laws.Guarded.ldWn (g : Guard) (d a : Reg) (off : BitVec 9) :
    Laws.Guarded.Statement (.ldWn g d a off) := Laws.Guarded.of_guard rfl
theorem Laws.Guarded.ldD (g : Guard) (d a : Reg) (off : BitVec 9) :
    Laws.Guarded.Statement (.ldD g d a off) := Laws.Guarded.of_guard rfl
theorem Laws.Guarded.stB (g : Guard) (d a : Reg) (off : BitVec 9) :
    Laws.Guarded.Statement (.stB g d a off) := Laws.Guarded.of_guard rfl
theorem Laws.Guarded.stH (g : Guard) (d a : Reg) (off : BitVec 9) :
    Laws.Guarded.Statement (.stH g d a off) := Laws.Guarded.of_guard rfl
theorem Laws.Guarded.stW (g : Guard) (d a : Reg) (off : BitVec 9) :
    Laws.Guarded.Statement (.stW g d a off) := Laws.Guarded.of_guard rfl
theorem Laws.Guarded.stD (g : Guard) (d a : Reg) (off : BitVec 9) :
    Laws.Guarded.Statement (.stD g d a off) := Laws.Guarded.of_guard rfl
theorem Laws.Guarded.ldp (g : Guard) (dh : Fin 16) (a : Reg) (off : BitVec 9) :
    Laws.Guarded.Statement (.ldp g dh a off) := Laws.Guarded.of_guard rfl
theorem Laws.Guarded.stp (g : Guard) (dh : Fin 16) (a : Reg) (off : BitVec 9) :
    Laws.Guarded.Statement (.stp g dh a off) := Laws.Guarded.of_guard rfl
theorem Laws.Guarded.pref (g : Guard) (write : Bool) (a : Reg) (off : BitVec 9) :
    Laws.Guarded.Statement (.pref g write a off) := Laws.Guarded.of_guard rfl
theorem Laws.Guarded.amoAddW (g : Guard) (d a b : Reg) (sc : Scope) :
    Laws.Guarded.Statement (.amoAddW g d a b sc) := Laws.Guarded.of_guard rfl
theorem Laws.Guarded.amoAndW (g : Guard) (d a b : Reg) (sc : Scope) :
    Laws.Guarded.Statement (.amoAndW g d a b sc) := Laws.Guarded.of_guard rfl
theorem Laws.Guarded.amoOrW (g : Guard) (d a b : Reg) (sc : Scope) :
    Laws.Guarded.Statement (.amoOrW g d a b sc) := Laws.Guarded.of_guard rfl
theorem Laws.Guarded.amoXorW (g : Guard) (d a b : Reg) (sc : Scope) :
    Laws.Guarded.Statement (.amoXorW g d a b sc) := Laws.Guarded.of_guard rfl
theorem Laws.Guarded.amoMinW (g : Guard) (d a b : Reg) (sc : Scope) :
    Laws.Guarded.Statement (.amoMinW g d a b sc) := Laws.Guarded.of_guard rfl
theorem Laws.Guarded.amoMaxW (g : Guard) (d a b : Reg) (sc : Scope) :
    Laws.Guarded.Statement (.amoMaxW g d a b sc) := Laws.Guarded.of_guard rfl
theorem Laws.Guarded.amoMinnW (g : Guard) (d a b : Reg) (sc : Scope) :
    Laws.Guarded.Statement (.amoMinnW g d a b sc) := Laws.Guarded.of_guard rfl
theorem Laws.Guarded.amoMaxnW (g : Guard) (d a b : Reg) (sc : Scope) :
    Laws.Guarded.Statement (.amoMaxnW g d a b sc) := Laws.Guarded.of_guard rfl
theorem Laws.Guarded.amoSwapW (g : Guard) (d a b : Reg) (sc : Scope) :
    Laws.Guarded.Statement (.amoSwapW g d a b sc) := Laws.Guarded.of_guard rfl
theorem Laws.Guarded.amoFaddRxW (g : Guard) (d a b : Reg) (sc : Scope) :
    Laws.Guarded.Statement (.amoFaddRxW g d a b sc) := Laws.Guarded.of_guard rfl
theorem Laws.Guarded.amoAddD (g : Guard) (d a b : Reg) (sc : Scope) :
    Laws.Guarded.Statement (.amoAddD g d a b sc) := Laws.Guarded.of_guard rfl
theorem Laws.Guarded.amoAndD (g : Guard) (d a b : Reg) (sc : Scope) :
    Laws.Guarded.Statement (.amoAndD g d a b sc) := Laws.Guarded.of_guard rfl
theorem Laws.Guarded.amoOrD (g : Guard) (d a b : Reg) (sc : Scope) :
    Laws.Guarded.Statement (.amoOrD g d a b sc) := Laws.Guarded.of_guard rfl
theorem Laws.Guarded.amoXorD (g : Guard) (d a b : Reg) (sc : Scope) :
    Laws.Guarded.Statement (.amoXorD g d a b sc) := Laws.Guarded.of_guard rfl
theorem Laws.Guarded.amoMinD (g : Guard) (d a b : Reg) (sc : Scope) :
    Laws.Guarded.Statement (.amoMinD g d a b sc) := Laws.Guarded.of_guard rfl
theorem Laws.Guarded.amoMaxD (g : Guard) (d a b : Reg) (sc : Scope) :
    Laws.Guarded.Statement (.amoMaxD g d a b sc) := Laws.Guarded.of_guard rfl
theorem Laws.Guarded.amoMinnD (g : Guard) (d a b : Reg) (sc : Scope) :
    Laws.Guarded.Statement (.amoMinnD g d a b sc) := Laws.Guarded.of_guard rfl
theorem Laws.Guarded.amoMaxnD (g : Guard) (d a b : Reg) (sc : Scope) :
    Laws.Guarded.Statement (.amoMaxnD g d a b sc) := Laws.Guarded.of_guard rfl
theorem Laws.Guarded.amoSwapD (g : Guard) (d a b : Reg) (sc : Scope) :
    Laws.Guarded.Statement (.amoSwapD g d a b sc) := Laws.Guarded.of_guard rfl
theorem Laws.Guarded.casW (g : Guard) (d a b : Reg) (sc : Scope) :
    Laws.Guarded.Statement (.casW g d a b sc) := Laws.Guarded.of_guard rfl
theorem Laws.Guarded.casD (g : Guard) (d a b : Reg) (sc : Scope) :
    Laws.Guarded.Statement (.casD g d a b sc) := Laws.Guarded.of_guard rfl
theorem Laws.Guarded.fenceP (g : Guard) (k1 k2 : Mask) (sc : Scope) :
    Laws.Guarded.Statement (.fenceP g k1 k2 sc) := Laws.Guarded.of_guard rfl
theorem Laws.Guarded.acqLd (g : Guard) (d a : Reg) (size : Fin 4) (sext : Bool) (mask : Mask) (sc : Scope) (off : BitVec 16) :
    Laws.Guarded.Statement (.acqLd g d a size sext mask sc off) := Laws.Guarded.of_guard rfl
theorem Laws.Guarded.relSt (g : Guard) (d a : Reg) (size : Fin 4) (mask : Mask) (sc : Scope) (off : BitVec 16) :
    Laws.Guarded.Statement (.relSt g d a size mask sc off) := Laws.Guarded.of_guard rfl
theorem Laws.Guarded.sete (g : Guard) (e : Fin 64) (mask : Mask) :
    Laws.Guarded.Statement (.sete g e mask) := Laws.Guarded.of_guard rfl
theorem Laws.Guarded.clre (g : Guard) (e : Fin 64) : Laws.Guarded.Statement (.clre g e) := Laws.Guarded.of_guard rfl
theorem Laws.Guarded.waite (g : Guard) (e : Fin 64) (mask : Mask) :
    Laws.Guarded.Statement (.waite g e mask) := Laws.Guarded.of_guard rfl
theorem Laws.Guarded.ringDef (g : Guard) (a : Reg) (h : Fin 16) :
    Laws.Guarded.Statement (.ringDef g a h) := Laws.Guarded.of_guard rfl
theorem Laws.Guarded.rwaitF (g : Guard) (a : Reg) (h : Fin 16) (mask : Mask) (imm : BitVec 16) :
    Laws.Guarded.Statement (.rwaitF g a h mask imm) := Laws.Guarded.of_guard rfl
theorem Laws.Guarded.rwaitE (g : Guard) (a : Reg) (h : Fin 16) (mask : Mask) (imm : BitVec 16) :
    Laws.Guarded.Statement (.rwaitE g a h mask imm) := Laws.Guarded.of_guard rfl
theorem Laws.Guarded.radvP (g : Guard) (a : Reg) (h : Fin 16) (mask : Mask) (imm : BitVec 16) :
    Laws.Guarded.Statement (.radvP g a h mask imm) := Laws.Guarded.of_guard rfl
theorem Laws.Guarded.radvC (g : Guard) (a : Reg) (h : Fin 16) (mask : Mask) (imm : BitVec 16) :
    Laws.Guarded.Statement (.radvC g a h mask imm) := Laws.Guarded.of_guard rfl
theorem Laws.Guarded.rstat (g : Guard) (d : Reg) (h : Fin 16) :
    Laws.Guarded.Statement (.rstat g d h) := Laws.Guarded.of_guard rfl
theorem Laws.Guarded.stepBegin (g : Guard) (a : Reg) :
    Laws.Guarded.Statement (.stepBegin g a) := Laws.Guarded.of_guard rfl
theorem Laws.Guarded.stepProg (g : Guard) (a : Reg) :
    Laws.Guarded.Statement (.stepProg g a) := Laws.Guarded.of_guard rfl
theorem Laws.Guarded.stepEnd (g : Guard) : Laws.Guarded.Statement (.stepEnd g) := Laws.Guarded.of_guard rfl
theorem Laws.Guarded.fork (g : Guard) (a : Reg) (mask : BitVec 4) :
    Laws.Guarded.Statement (.fork g a mask) := Laws.Guarded.of_guard rfl
theorem Laws.Guarded.join (g : Guard) (mask : BitVec 4) :
    Laws.Guarded.Statement (.join g mask) := Laws.Guarded.of_guard rfl
theorem Laws.Guarded.exit (g : Guard) : Laws.Guarded.Statement (.exit g) := Laws.Guarded.of_guard rfl
theorem Laws.Guarded.exitA (g : Guard) : Laws.Guarded.Statement (.exitA g) := Laws.Guarded.of_guard rfl
theorem Laws.Guarded.rdv (g : Guard) (mask : BitVec 4) (id : BitVec 8) :
    Laws.Guarded.Statement (.rdv g mask id) := Laws.Guarded.of_guard rfl
theorem Laws.Guarded.spawn (g : Guard) (d a : Reg) :
    Laws.Guarded.Statement (.spawn g d a) := Laws.Guarded.of_guard rfl
theorem Laws.Guarded.spawnC (g : Guard) (d a : Reg) :
    Laws.Guarded.Statement (.spawnC g d a) := Laws.Guarded.of_guard rfl
theorem Laws.Guarded.cfgLoad (g : Guard) (d a b : Reg) :
    Laws.Guarded.Statement (.cfgLoad g d a b) := Laws.Guarded.of_guard rfl
theorem Laws.Guarded.cfgStat (g : Guard) (d a : Reg) :
    Laws.Guarded.Statement (.cfgStat g d a) := Laws.Guarded.of_guard rfl
theorem Laws.Guarded.fabGo (g : Guard) (a : Reg) : Laws.Guarded.Statement (.fabGo g a) := Laws.Guarded.of_guard rfl
theorem Laws.Guarded.binPush (g : Guard) (a : Reg) :
    Laws.Guarded.Statement (.binPush g a) := Laws.Guarded.of_guard rfl
theorem Laws.Guarded.binCnt (g : Guard) (d a : Reg) :
    Laws.Guarded.Statement (.binCnt g d a) := Laws.Guarded.of_guard rfl
theorem Laws.Guarded.fabQuiet (g : Guard) (a : Reg) :
    Laws.Guarded.Statement (.fabQuiet g a) := Laws.Guarded.of_guard rfl
theorem Laws.Guarded.collRed (g : Guard) (dh : Fin 16) (a b : Reg) (op : Fin 9) (w64 : Bool) (base size : Fin 512) (tag : BitVec 8) :
    Laws.Guarded.Statement (.collRed g dh a b op w64 base size tag) := Laws.Guarded.of_guard rfl
theorem Laws.Guarded.collBcast (g : Guard) (dh : Fin 16) (a b : Reg) (w64 : Bool) (base size : Fin 512) (tag : BitVec 8) :
    Laws.Guarded.Statement (.collBcast g dh a b w64 base size tag) := Laws.Guarded.of_guard rfl
theorem Laws.Guarded.trap (g : Guard) (code : BitVec 16) :
    Laws.Guarded.Statement (.trap g code) := Laws.Guarded.of_guard rfl
theorem Laws.Guarded.trapTerminate (g : Guard) :
    Laws.Guarded.Statement (.trapTerminate g) := Laws.Guarded.of_guard rfl
theorem Laws.Guarded.trapTerminateGang (g : Guard) :
    Laws.Guarded.Statement (.trapTerminateGang g) := Laws.Guarded.of_guard rfl
theorem Laws.Guarded.trapPreempt (g : Guard) : Laws.Guarded.Statement (.trapPreempt g) := Laws.Guarded.of_guard rfl
theorem Laws.Guarded.sysc (g : Guard) (code : BitVec 16) :
    Laws.Guarded.Statement (.sysc g code) := Laws.Guarded.of_guard rfl
theorem Laws.Guarded.retr (g : Guard) : Laws.Guarded.Statement (.retr g) := Laws.Guarded.of_guard rfl
theorem Laws.Guarded.idle (g : Guard) : Laws.Guarded.Statement (.idle g) := Laws.Guarded.of_guard rfl
theorem Laws.Guarded.bkpt (g : Guard) : Laws.Guarded.Statement (.bkpt g) := Laws.Guarded.of_guard rfl
theorem Laws.Guarded.tlbiAll (g : Guard) : Laws.Guarded.Statement (.tlbiAll g) := Laws.Guarded.of_guard rfl
theorem Laws.Guarded.tlbiAsid (g : Guard) (a : Reg) :
    Laws.Guarded.Statement (.tlbiAsid g a) := Laws.Guarded.of_guard rfl
theorem Laws.Guarded.tlbiVa (g : Guard) (a : Reg) : Laws.Guarded.Statement (.tlbiVa g a) := Laws.Guarded.of_guard rfl
theorem Laws.Guarded.tlbiVaAsid (g : Guard) (a : Reg) :
    Laws.Guarded.Statement (.tlbiVaAsid g a) := Laws.Guarded.of_guard rfl
theorem Laws.Guarded.cflush (g : Guard) (a : Reg) : Laws.Guarded.Statement (.cflush g a) := Laws.Guarded.of_guard rfl
theorem Laws.Guarded.cinv (g : Guard) (a : Reg) : Laws.Guarded.Statement (.cinv g a) := Laws.Guarded.of_guard rfl
theorem Laws.Guarded.mfs (g : Guard) (d : Reg) (r : BitVec 12) :
    Laws.Guarded.Statement (.mfs g d r) := Laws.Guarded.of_guard rfl
theorem Laws.Guarded.mts (g : Guard) (a : Reg) (r : BitVec 12) :
    Laws.Guarded.Statement (.mts g a r) := Laws.Guarded.of_guard rfl
theorem Laws.Guarded.mtsFlags (g : Guard) (a : Reg) :
    Laws.Guarded.Statement (.mtsFlags g a) := Laws.Guarded.of_guard rfl
theorem Laws.Guarded.mtsReplaycnt (g : Guard) (a : Reg) :
    Laws.Guarded.Statement (.mtsReplaycnt g a) := Laws.Guarded.of_guard rfl
theorem Laws.Guarded.mtsCtxinv (g : Guard) (a : Reg) :
    Laws.Guarded.Statement (.mtsCtxinv g a) := Laws.Guarded.of_guard rfl
theorem Laws.Guarded.mtsWsctl (g : Guard) (a : Reg) :
    Laws.Guarded.Statement (.mtsWsctl g a) := Laws.Guarded.of_guard rfl
theorem Laws.Guarded.mtsWsctlSwreq (g : Guard) (a : Reg) :
    Laws.Guarded.Statement (.mtsWsctlSwreq g a) := Laws.Guarded.of_guard rfl
theorem Laws.Guarded.mtsWtbl (g : Guard) (a : Reg) :
    Laws.Guarded.Statement (.mtsWtbl g a) := Laws.Guarded.of_guard rfl
theorem Laws.Guarded.cpy (g : Guard) (d a b : Reg) (o : CopyOpts) :
    Laws.Guarded.Statement (.cpy g d a b o) := Laws.Guarded.of_guard rfl
theorem Laws.Guarded.cpyF (g : Guard) (d a b : Reg) (o : CopyOpts) (arm : Fin 4) :
    Laws.Guarded.Statement (.cpyF g d a b o arm) := Laws.Guarded.of_guard rfl
theorem Laws.Guarded.cpyR (g : Guard) (a b : Reg) (o : CopyOpts) (rop : Fin 3) :
    Laws.Guarded.Statement (.cpyR g a b o rop) := Laws.Guarded.of_guard rfl
theorem Laws.Guarded.cpyG (g : Guard) (d a b : Reg) (o : CopyOpts) :
    Laws.Guarded.Statement (.cpyG g d a b o) := Laws.Guarded.of_guard rfl
theorem Laws.Guarded.cpyS (g : Guard) (d a b : Reg) (o : CopyOpts) :
    Laws.Guarded.Statement (.cpyS g d a b o) := Laws.Guarded.of_guard rfl
theorem Laws.Guarded.cpyMx (g : Guard) (d a b : Reg) (o : CopyOpts) :
    Laws.Guarded.Statement (.cpyMx g d a b o) := Laws.Guarded.of_guard rfl
theorem Laws.Guarded.cpyPl (g : Guard) (a b : Reg) (o : CopyOpts) :
    Laws.Guarded.Statement (.cpyPl g a b o) := Laws.Guarded.of_guard rfl
theorem Laws.Guarded.cpyFill (g : Guard) (a b : Reg) (o : CopyOpts) :
    Laws.Guarded.Statement (.cpyFill g a b o) := Laws.Guarded.of_guard rfl
theorem Laws.Guarded.cpyWait (g : Guard) (a : Reg) (imm : BitVec 16) :
    Laws.Guarded.Statement (.cpyWait g a imm) := Laws.Guarded.of_guard rfl
theorem Laws.Guarded.mxcShape (g : Guard) (d a b : Reg) :
    Laws.Guarded.Statement (.mxcShape g d a b) := Laws.Guarded.of_guard rfl
theorem Laws.Guarded.mxcOpa (g : Guard) (d a b : Reg) (ty : BitVec 8) (ring : Option (Fin 16)) :
    Laws.Guarded.Statement (.mxcOpa g d a b ty ring) := Laws.Guarded.of_guard rfl
theorem Laws.Guarded.mxcOpb (g : Guard) (d a b : Reg) (ty : BitVec 8) (ring : Option (Fin 16)) :
    Laws.Guarded.Statement (.mxcOpb g d a b ty ring) := Laws.Guarded.of_guard rfl
theorem Laws.Guarded.mxcArm (g : Guard) (a b : Reg) (slot : Fin 4) (opc : Fin 3) (o : MmpOpts) :
    Laws.Guarded.Statement (.mxcArm g a b slot opc o) := Laws.Guarded.of_guard rfl
theorem Laws.Guarded.mma (g : Guard) (evt : Option (Fin 64)) :
    Laws.Guarded.Statement (.mma g evt) := Laws.Guarded.of_guard rfl
theorem Laws.Guarded.mmz (g : Guard) (evt : Option (Fin 64)) :
    Laws.Guarded.Statement (.mmz g evt) := Laws.Guarded.of_guard rfl
theorem Laws.Guarded.mmp (g : Guard) (a b : Reg) (o : MmpOpts) :
    Laws.Guarded.Statement (.mmp g a b o) := Laws.Guarded.of_guard rfl
theorem Laws.Guarded.mxcDrain (g : Guard) (a b : Reg) (ty : BitVec 8) (acci ef satf : Bool) (evt : Option (Fin 64)) :
    Laws.Guarded.Statement (.mxcDrain g a b ty acci ef satf evt) := Laws.Guarded.of_guard rfl
theorem Laws.Guarded.mxcDrainD (g : Guard) (a : Reg) (ndm1 : Fin 16) (acci : Bool) (evt : Option (Fin 64)) :
    Laws.Guarded.Statement (.mxcDrainD g a ndm1 acci evt) := Laws.Guarded.of_guard rfl
theorem Laws.Guarded.longOpComplete (cl : Nat) (q : SeqId) (k : Nat) :
    Laws.Guarded.Statement (.longOpComplete cl q k) := Laws.Guarded.of_event rfl
theorem Laws.Guarded.releasePerformed (cl : Nat) (q : SeqId) (k : Nat) :
    Laws.Guarded.Statement (.releasePerformed cl q k) := Laws.Guarded.of_event rfl
theorem Laws.Guarded.trapDelivery (cl : Nat) (q : SeqId) :
    Laws.Guarded.Statement (.trapDelivery cl q) := Laws.Guarded.of_event rfl
theorem Laws.Guarded.machineCheck (cl : Nat) (residue : Bool) :
    Laws.Guarded.Statement (.machineCheck cl residue) := Laws.Guarded.of_event rfl
theorem Laws.Guarded.superstepEnd (job gi : Nat) :
    Laws.Guarded.Statement (.superstepEnd job gi) := Laws.Guarded.of_event rfl
theorem Laws.Guarded.dlriskPost (job gi : Nat) :
    Laws.Guarded.Statement (.dlriskPost job gi) := Laws.Guarded.of_event rfl
theorem Laws.Guarded.taskRetire (cl : Nat) : Laws.Guarded.Statement (.taskRetire cl) := Laws.Guarded.of_event rfl
theorem Laws.Guarded.jobComplete (job : Nat) : Laws.Guarded.Statement (.jobComplete job) := Laws.Guarded.of_event rfl
theorem Laws.Guarded.binEnqueue (cl src : Nat) :
    Laws.Guarded.Statement (.binEnqueue cl src) := Laws.Guarded.of_event rfl
theorem Laws.Guarded.bindeadlock (cl : Nat) : Laws.Guarded.Statement (.bindeadlock cl) := Laws.Guarded.of_event rfl
theorem Laws.Guarded.binDispatch (cl slot : Nat) :
    Laws.Guarded.Statement (.binDispatch cl slot) := Laws.Guarded.of_event rfl
theorem Laws.Guarded.partialDispatch (cl slot : Nat) :
    Laws.Guarded.Statement (.partialDispatch cl slot) := Laws.Guarded.of_event rfl
theorem Laws.Guarded.binAged (cl blk : Nat) : Laws.Guarded.Statement (.binAged cl blk) := Laws.Guarded.of_event rfl
theorem Laws.Guarded.schedulerChoose (cl : Nat) :
    Laws.Guarded.Statement (.schedulerChoose cl) := Laws.Guarded.of_event rfl
theorem Laws.Guarded.configFrameWrite (cl : Nat) :
    Laws.Guarded.Statement (.configFrameWrite cl) := Laws.Guarded.of_event rfl
theorem Laws.Guarded.slotStart (cl slot : Nat) :
    Laws.Guarded.Statement (.slotStart cl slot) := Laws.Guarded.of_event rfl
theorem Laws.Guarded.regionDrained (cl slot : Nat) :
    Laws.Guarded.Statement (.regionDrained cl slot) := Laws.Guarded.of_event rfl
theorem Laws.Guarded.pinnedRegionEnd (cl slot : Nat) :
    Laws.Guarded.Statement (.pinnedRegionEnd cl slot) := Laws.Guarded.of_event rfl
theorem Laws.Guarded.slotSwitch (cl slot pos n : Nat) :
    Laws.Guarded.Statement (.slotSwitch cl slot pos n) := Laws.Guarded.of_event rfl
theorem Laws.Guarded.elementFire (cl slot pos n : Nat) :
    Laws.Guarded.Statement (.elementFire cl slot pos n) := Laws.Guarded.of_event rfl
theorem Laws.Guarded.killArrival (cl k : Nat) :
    Laws.Guarded.Statement (.killArrival cl k) := Laws.Guarded.of_event rfl
theorem Laws.Guarded.legRoute (cl slot net pos leg : Nat) :
    Laws.Guarded.Statement (.legRoute cl slot net pos leg) := Laws.Guarded.of_event rfl
theorem Laws.Guarded.legBcast (cl slot net pos leg : Nat) :
    Laws.Guarded.Statement (.legBcast cl slot net pos leg) := Laws.Guarded.of_event rfl
theorem Laws.Guarded.legIdx (cl slot net pos leg : Nat) :
    Laws.Guarded.Statement (.legIdx cl slot net pos leg) := Laws.Guarded.of_event rfl
theorem Laws.Guarded.legMerge (cl slot net pos leg : Nat) :
    Laws.Guarded.Statement (.legMerge cl slot net pos leg) := Laws.Guarded.of_event rfl
theorem Laws.Guarded.legSteer (cl slot net pos leg : Nat) :
    Laws.Guarded.Statement (.legSteer cl slot net pos leg) := Laws.Guarded.of_event rfl
theorem Laws.Guarded.legHold (cl slot net pos leg : Nat) :
    Laws.Guarded.Statement (.legHold cl slot net pos leg) := Laws.Guarded.of_event rfl
theorem Laws.Guarded.portWrd (cl slot tile : Nat) :
    Laws.Guarded.Statement (.portWrd cl slot tile) := Laws.Guarded.of_event rfl
theorem Laws.Guarded.portWwr (cl slot tile : Nat) :
    Laws.Guarded.Statement (.portWwr cl slot tile) := Laws.Guarded.of_event rfl
theorem Laws.Guarded.portDrd (cl slot tile : Nat) :
    Laws.Guarded.Statement (.portDrd cl slot tile) := Laws.Guarded.of_event rfl
theorem Laws.Guarded.portReadReturn (cl slot tile : Nat) :
    Laws.Guarded.Statement (.portReadReturn cl slot tile) := Laws.Guarded.of_event rfl
theorem Laws.Guarded.portDwr (cl slot tile : Nat) :
    Laws.Guarded.Statement (.portDwr cl slot tile) := Laws.Guarded.of_event rfl
theorem Laws.Guarded.portAmo (cl slot tile : Nat) :
    Laws.Guarded.Statement (.portAmo cl slot tile) := Laws.Guarded.of_event rfl
theorem Laws.Guarded.portRed (cl slot tile : Nat) :
    Laws.Guarded.Statement (.portRed cl slot tile) := Laws.Guarded.of_event rfl
theorem Laws.Guarded.portExp2 (cl slot tile : Nat) :
    Laws.Guarded.Statement (.portExp2 cl slot tile) := Laws.Guarded.of_event rfl
theorem Laws.Guarded.portLog2 (cl slot tile : Nat) :
    Laws.Guarded.Statement (.portLog2 cl slot tile) := Laws.Guarded.of_event rfl
theorem Laws.Guarded.portRcp (cl slot tile : Nat) :
    Laws.Guarded.Statement (.portRcp cl slot tile) := Laws.Guarded.of_event rfl
theorem Laws.Guarded.portRsqrt (cl slot tile : Nat) :
    Laws.Guarded.Statement (.portRsqrt cl slot tile) := Laws.Guarded.of_event rfl
theorem Laws.Guarded.portTanh (cl slot tile : Nat) :
    Laws.Guarded.Statement (.portTanh cl slot tile) := Laws.Guarded.of_event rfl
theorem Laws.Guarded.portCvd (cl slot tile : Nat) :
    Laws.Guarded.Statement (.portCvd cl slot tile) := Laws.Guarded.of_event rfl
theorem Laws.Guarded.portCvw (cl slot tile : Nat) :
    Laws.Guarded.Statement (.portCvw cl slot tile) := Laws.Guarded.of_event rfl
theorem Laws.Guarded.portBenq (cl slot tile : Nat) :
    Laws.Guarded.Statement (.portBenq cl slot tile) := Laws.Guarded.of_event rfl
theorem Laws.Guarded.portMove (cl slot tile : Nat) :
    Laws.Guarded.Statement (.portMove cl slot tile) := Laws.Guarded.of_event rfl
theorem Laws.Guarded.portFifov (cl slot tile : Nat) :
    Laws.Guarded.Statement (.portFifov cl slot tile) := Laws.Guarded.of_event rfl
theorem Laws.Guarded.portFifos (cl slot tile : Nat) :
    Laws.Guarded.Statement (.portFifos cl slot tile) := Laws.Guarded.of_event rfl
theorem Laws.Guarded.portLbuf (cl slot tile : Nat) :
    Laws.Guarded.Statement (.portLbuf cl slot tile) := Laws.Guarded.of_event rfl
theorem Laws.Guarded.portEos (cl slot tile : Nat) :
    Laws.Guarded.Statement (.portEos cl slot tile) := Laws.Guarded.of_event rfl
theorem Laws.Guarded.ringGeneratorSlot (cl slot tile gen : Nat) :
    Laws.Guarded.Statement (.ringGeneratorSlot cl slot tile gen) := Laws.Guarded.of_event rfl
theorem Laws.Guarded.ringGeneratorAdvance (cl slot tile gen : Nat) :
    Laws.Guarded.Statement (.ringGeneratorAdvance cl slot tile gen) := Laws.Guarded.of_event rfl
theorem Laws.Guarded.arrayPortServe (cl tile : Nat) :
    Laws.Guarded.Statement (.arrayPortServe cl tile) := Laws.Guarded.of_event rfl
theorem Laws.Guarded.copyCommandBegin (cl : Nat) :
    Laws.Guarded.Statement (.copyCommandBegin cl) := Laws.Guarded.of_event rfl
theorem Laws.Guarded.copyRingClaim (cl k : Nat) :
    Laws.Guarded.Statement (.copyRingClaim cl k) := Laws.Guarded.of_event rfl
theorem Laws.Guarded.copyCommandComplete (cl k : Nat) :
    Laws.Guarded.Statement (.copyCommandComplete cl k) := Laws.Guarded.of_event rfl
theorem Laws.Guarded.copyAccessFailure (cl k : Nat) :
    Laws.Guarded.Statement (.copyAccessFailure cl k) := Laws.Guarded.of_event rfl
theorem Laws.Guarded.matrixNextCommand (cl : Nat) :
    Laws.Guarded.Statement (.matrixNextCommand cl) := Laws.Guarded.of_event rfl
theorem Laws.Guarded.armSlotStore (cl : Nat) : Laws.Guarded.Statement (.armSlotStore cl) := Laws.Guarded.of_event rfl
theorem Laws.Guarded.matrixRingSlot (cl : Nat) :
    Laws.Guarded.Statement (.matrixRingSlot cl) := Laws.Guarded.of_event rfl
theorem Laws.Guarded.mmpEvaluation (cl : Nat) :
    Laws.Guarded.Statement (.mmpEvaluation cl) := Laws.Guarded.of_event rfl
theorem Laws.Guarded.matrixCommandComplete (cl : Nat) :
    Laws.Guarded.Statement (.matrixCommandComplete cl) := Laws.Guarded.of_event rfl
theorem Laws.Guarded.matrixAccessFailure (cl : Nat) :
    Laws.Guarded.Statement (.matrixAccessFailure cl) := Laws.Guarded.of_event rfl
theorem Laws.Guarded.homeAccess (id choice : Nat) :
    Laws.Guarded.Statement (.homeAccess id choice) := Laws.Guarded.of_event rfl
theorem Laws.Guarded.l2Fill (line set cls : Nat) :
    Laws.Guarded.Statement (.l2Fill line set cls) := Laws.Guarded.of_event rfl
theorem Laws.Guarded.combineRequest (first second : Nat) :
    Laws.Guarded.Statement (.combineRequest first second) := Laws.Guarded.of_event rfl
theorem Laws.Guarded.sheafReturn (id : Nat) : Laws.Guarded.Statement (.sheafReturn id) := Laws.Guarded.of_event rfl
theorem Laws.Guarded.pageWalkStart (cl k : Nat) :
    Laws.Guarded.Statement (.pageWalkStart cl k) := Laws.Guarded.of_event rfl
theorem Laws.Guarded.pageWalkComplete (cl k : Nat) :
    Laws.Guarded.Statement (.pageWalkComplete cl k) := Laws.Guarded.of_event rfl
theorem Laws.Guarded.schedulerCycle (part : Nat) :
    Laws.Guarded.Statement (.schedulerCycle part) := Laws.Guarded.of_event rfl
theorem Laws.Guarded.gangLevelRaise (job gi : Nat) :
    Laws.Guarded.Statement (.gangLevelRaise job gi) := Laws.Guarded.of_event rfl
theorem Laws.Guarded.gangStart (job gi : Nat) :
    Laws.Guarded.Statement (.gangStart job gi) := Laws.Guarded.of_event rfl
theorem Laws.Guarded.watchdogExpiry (cl slot : Nat) :
    Laws.Guarded.Statement (.watchdogExpiry cl slot) := Laws.Guarded.of_event rfl
theorem Laws.Guarded.counterForward (cl : Nat) :
    Laws.Guarded.Statement (.counterForward cl) := Laws.Guarded.of_event rfl
theorem Laws.Guarded.governorEvaluation (cl : Nat) :
    Laws.Guarded.Statement (.governorEvaluation cl) := Laws.Guarded.of_event rfl
theorem Laws.Guarded.railSlewDone (cl : Nat) : Laws.Guarded.Statement (.railSlewDone cl) := Laws.Guarded.of_event rfl
theorem Laws.Guarded.launchWrite (fn off : Nat) (bytes : List Byte) (at_ : InboundAttr) :
    Laws.Guarded.Statement (.launchWrite fn off bytes at_) := Laws.Guarded.of_event rfl
theorem Laws.Guarded.quantumExpiry (part : Nat) :
    Laws.Guarded.Statement (.quantumExpiry part) := Laws.Guarded.of_event rfl
theorem Laws.Guarded.enginePreemptStop (cl engine : Nat) :
    Laws.Guarded.Statement (.enginePreemptStop cl engine) := Laws.Guarded.of_event rfl
theorem Laws.Guarded.preemptSave (cl : Nat) : Laws.Guarded.Statement (.preemptSave cl) := Laws.Guarded.of_event rfl
theorem Laws.Guarded.preemptSaveDone (cl : Nat) :
    Laws.Guarded.Statement (.preemptSaveDone cl) := Laws.Guarded.of_event rfl
theorem Laws.Guarded.preemptLimitExpiry (job gi : Nat) :
    Laws.Guarded.Statement (.preemptLimitExpiry job gi) := Laws.Guarded.of_event rfl
theorem Laws.Guarded.worldSwitchComplete (part : Nat) :
    Laws.Guarded.Statement (.worldSwitchComplete part) := Laws.Guarded.of_event rfl
theorem Laws.Guarded.gangResume (job gi : Nat) :
    Laws.Guarded.Statement (.gangResume job gi) := Laws.Guarded.of_event rfl
theorem Laws.Guarded.currentReport (cl code : Nat) :
    Laws.Guarded.Statement (.currentReport cl code) := Laws.Guarded.of_event rfl
theorem Laws.Guarded.canaryTrip (cl : Nat) : Laws.Guarded.Statement (.canaryTrip cl) := Laws.Guarded.of_event rfl
theorem Laws.Guarded.correctableError (cl : Nat) :
    Laws.Guarded.Statement (.correctableError cl) := Laws.Guarded.of_event rfl
theorem Laws.Guarded.ageingRead (cl driftPpm : Nat) :
    Laws.Guarded.Statement (.ageingRead cl driftPpm) := Laws.Guarded.of_event rfl
theorem Laws.Guarded.replan (cl : Nat) (almanac : List Nat) :
    Laws.Guarded.Statement (.replan cl almanac) := Laws.Guarded.of_event rfl
theorem Laws.Guarded.inboundWrite (fn : Nat) (pasid : Option Nat) (off : Nat) (bytes : List Byte) (requester : Nat) :
    Laws.Guarded.Statement (.inboundWrite fn pasid off bytes requester) := Laws.Guarded.of_event rfl
theorem Laws.Guarded.inboundRead (fn : Nat) (pasid : Option Nat) (off len : Nat) (requester : Nat) :
    Laws.Guarded.Statement (.inboundRead fn pasid off len requester) := Laws.Guarded.of_event rfl
theorem Laws.Guarded.zeroLengthRead (requester : Nat) :
    Laws.Guarded.Statement (.zeroLengthRead requester) := Laws.Guarded.of_event rfl
theorem Laws.Guarded.atsInvalidate (fn page : Nat) :
    Laws.Guarded.Statement (.atsInvalidate fn page) := Laws.Guarded.of_event rfl
theorem Laws.Guarded.hostReadTimeout (id : Nat) :
    Laws.Guarded.Statement (.hostReadTimeout id) := Laws.Guarded.of_event rfl
theorem Laws.Guarded.yilsinRd (f : Flit) : Laws.Guarded.Statement (.yilsinRd f) := Laws.Guarded.of_event rfl
theorem Laws.Guarded.yilsinWr (f : Flit) : Laws.Guarded.Statement (.yilsinWr f) := Laws.Guarded.of_event rfl
theorem Laws.Guarded.yilsinAmo (f : Flit) : Laws.Guarded.Statement (.yilsinAmo f) := Laws.Guarded.of_event rfl
theorem Laws.Guarded.yilsinCas (f : Flit) : Laws.Guarded.Statement (.yilsinCas f) := Laws.Guarded.of_event rfl
theorem Laws.Guarded.yilsinRdrsp (f : Flit) : Laws.Guarded.Statement (.yilsinRdrsp f) := Laws.Guarded.of_event rfl
theorem Laws.Guarded.yilsinWrack (f : Flit) : Laws.Guarded.Statement (.yilsinWrack f) := Laws.Guarded.of_event rfl
theorem Laws.Guarded.yilsinAmorsp (f : Flit) : Laws.Guarded.Statement (.yilsinAmorsp f) := Laws.Guarded.of_event rfl
theorem Laws.Guarded.yilsinFlush (f : Flit) : Laws.Guarded.Statement (.yilsinFlush f) := Laws.Guarded.of_event rfl
theorem Laws.Guarded.yilsinFlushack (f : Flit) :
    Laws.Guarded.Statement (.yilsinFlushack f) := Laws.Guarded.of_event rfl
theorem Laws.Guarded.linkRetrainTimeout (port : Nat) :
    Laws.Guarded.Statement (.linkRetrainTimeout port) := Laws.Guarded.of_event rfl
theorem Laws.Guarded.dhaltHalt (value : Word) : Laws.Guarded.Statement (.dhaltHalt value) := Laws.Guarded.of_event rfl
theorem Laws.Guarded.dhaltResume (value : Word) :
    Laws.Guarded.Statement (.dhaltResume value) := Laws.Guarded.of_event rfl
theorem Laws.Guarded.enloRead (cl requester : Nat) :
    Laws.Guarded.Statement (.enloRead cl requester) := Laws.Guarded.of_event rfl
theorem Laws.Guarded.registerWrite (off : Nat) (value : Word) (w : Writer) :
    Laws.Guarded.Statement (.registerWrite off value w) := Laws.Guarded.of_event rfl
theorem Laws.Guarded.imggo (value : Word) : Laws.Guarded.Statement (.imggo value) := Laws.Guarded.of_event rfl
theorem Laws.Guarded.moduleStart (warm : Bool) (training : Bool) (failStep : Option Nat) (bad : List Nat) :
    Laws.Guarded.Statement (.moduleStart warm training failStep bad) := Laws.Guarded.of_event rfl
theorem Laws.Guarded.startWatchdogExpiry : Laws.Guarded.Statement .startWatchdogExpiry := Laws.Guarded.of_event rfl
theorem Laws.Guarded.rootMonitorRequest (r : RootRequest) :
    Laws.Guarded.Statement (.rootMonitorRequest r) := Laws.Guarded.of_event rfl
theorem Laws.Guarded.attestationRequest (nonce : List Byte) :
    Laws.Guarded.Statement (.attestationRequest nonce) := Laws.Guarded.of_event rfl
theorem Laws.Guarded.clusterWithdraw (cl : Nat) :
    Laws.Guarded.Statement (.clusterWithdraw cl) := Laws.Guarded.of_event rfl
theorem Laws.Guarded.hostLinkDown : Laws.Guarded.Statement .hostLinkDown := Laws.Guarded.of_event rfl
theorem Laws.Guarded.granaryLinkFailure (port : Nat) :
    Laws.Guarded.Statement (.granaryLinkFailure port) := Laws.Guarded.of_event rfl
theorem Laws.Guarded.yilsinPortReturn (port : Nat) :
    Laws.Guarded.Statement (.yilsinPortReturn port) := Laws.Guarded.of_event rfl
theorem Laws.Guarded.discardedFlit (f : Flit) : Laws.Guarded.Statement (.discardedFlit f) := Laws.Guarded.of_event rfl
theorem Laws.Guarded.unsupportedRequest (requester : Nat) :
    Laws.Guarded.Statement (.unsupportedRequest requester) := Laws.Guarded.of_event rfl
theorem Laws.Guarded.atsTranslationCompletion (id : Nat) :
    Laws.Guarded.Statement (.atsTranslationCompletion id) := Laws.Guarded.of_event rfl

end Sys2Proof
end

