-- ==== Sys2Proof/Laws/State.lean ====
section
/-! SUPPORT. Each update of the state leaves every other field as it was: one lemma per update and field, true by
definition, so that no proof unfolds an update; and what the accessors read after an update. -/

namespace Sys2Proof.Machine

/-! ### State: updates and the fields they leave -/

@[simp] theorem State.setCl_cur (s : State) (c : Nat) (k : Cluster) : (s.setCl c k).cur = s.cur := rfl
@[simp] theorem State.setCl_agenda (s : State) (c : Nat) (k : Cluster) : (s.setCl c k).agenda = s.agenda := rfl
@[simp] theorem State.setCl_now (s : State) (c : Nat) (k : Cluster) : (s.setCl c k).now = s.now := rfl
@[simp] theorem State.setCl_counter (s : State) (c : Nat) (k : Cluster) : (s.setCl c k).counter = s.counter := rfl
@[simp] theorem State.setCl_savedCl (s : State) (c : Nat) (k : Cluster) : (s.setCl c k).savedCl = s.savedCl := rfl
@[simp] theorem State.setCl_mem (s : State) (c : Nat) (k : Cluster) : (s.setCl c k).mem = s.mem := rfl
@[simp] theorem State.setCl_host (s : State) (c : Nat) (k : Cluster) : (s.setCl c k).host = s.host := rfl
@[simp] theorem State.setCl_hist (s : State) (c : Nat) (k : Cluster) : (s.setCl c k).hist = s.hist := rfl
@[simp] theorem State.setCl_reqs (s : State) (c : Nat) (k : Cluster) : (s.setCl c k).reqs = s.reqs := rfl
@[simp] theorem State.setCl_sheaves (s : State) (c : Nat) (k : Cluster) : (s.setCl c k).sheaves = s.sheaves := rfl
@[simp] theorem State.setCl_l2Fills (s : State) (c : Nat) (k : Cluster) : (s.setCl c k).l2Fills = s.l2Fills := rfl
@[simp] theorem State.setCl_staging (s : State) (c : Nat) (k : Cluster) : (s.setCl c k).staging = s.staging := rfl
@[simp] theorem State.setCl_l2 (s : State) (c : Nat) (k : Cluster) : (s.setCl c k).l2 = s.l2 := rfl
@[simp] theorem State.setCl_dies (s : State) (c : Nat) (k : Cluster) : (s.setCl c k).dies = s.dies := rfl
@[simp] theorem State.setCl_parts (s : State) (c : Nat) (k : Cluster) : (s.setCl c k).parts = s.parts := rfl
@[simp] theorem State.setCl_ctxs (s : State) (c : Nat) (k : Cluster) : (s.setCl c k).ctxs = s.ctxs := rfl
@[simp] theorem State.setCl_jobs (s : State) (c : Nat) (k : Cluster) : (s.setCl c k).jobs = s.jobs := rfl
@[simp] theorem State.setCl_silos (s : State) (c : Nat) (k : Cluster) : (s.setCl c k).silos = s.silos := rfl
@[simp] theorem State.setCl_govctl (s : State) (c : Nat) (k : Cluster) : (s.setCl c k).govctl = s.govctl := rfl
@[simp] theorem State.setCl_debug (s : State) (c : Nat) (k : Cluster) : (s.setCl c k).dbg = s.dbg := rfl
@[simp] theorem State.setCl_boot (s : State) (c : Nat) (k : Cluster) : (s.setCl c k).boot = s.boot := rfl
@[simp] theorem State.setCl_links (s : State) (c : Nat) (k : Cluster) : (s.setCl c k).links = s.links := rfl

@[simp] theorem State.mapCl_cur (s : State) (c : Nat) (f : Cluster → Cluster) : (s.mapCl c f).cur = s.cur := rfl
@[simp] theorem State.mapCl_agenda (s : State) (c : Nat) (f : Cluster → Cluster) : (s.mapCl c f).agenda = s.agenda := rfl
@[simp] theorem State.mapCl_now (s : State) (c : Nat) (f : Cluster → Cluster) : (s.mapCl c f).now = s.now := rfl
@[simp] theorem State.mapCl_counter (s : State) (c : Nat) (f : Cluster → Cluster) : (s.mapCl c f).counter = s.counter := rfl
@[simp] theorem State.mapCl_savedCl (s : State) (c : Nat) (f : Cluster → Cluster) : (s.mapCl c f).savedCl = s.savedCl := rfl
@[simp] theorem State.mapCl_mem (s : State) (c : Nat) (f : Cluster → Cluster) : (s.mapCl c f).mem = s.mem := rfl
@[simp] theorem State.mapCl_host (s : State) (c : Nat) (f : Cluster → Cluster) : (s.mapCl c f).host = s.host := rfl
@[simp] theorem State.mapCl_hist (s : State) (c : Nat) (f : Cluster → Cluster) : (s.mapCl c f).hist = s.hist := rfl
@[simp] theorem State.mapCl_reqs (s : State) (c : Nat) (f : Cluster → Cluster) : (s.mapCl c f).reqs = s.reqs := rfl
@[simp] theorem State.mapCl_sheaves (s : State) (c : Nat) (f : Cluster → Cluster) : (s.mapCl c f).sheaves = s.sheaves := rfl
@[simp] theorem State.mapCl_l2Fills (s : State) (c : Nat) (f : Cluster → Cluster) : (s.mapCl c f).l2Fills = s.l2Fills := rfl
@[simp] theorem State.mapCl_staging (s : State) (c : Nat) (f : Cluster → Cluster) : (s.mapCl c f).staging = s.staging := rfl
@[simp] theorem State.mapCl_l2 (s : State) (c : Nat) (f : Cluster → Cluster) : (s.mapCl c f).l2 = s.l2 := rfl
@[simp] theorem State.mapCl_dies (s : State) (c : Nat) (f : Cluster → Cluster) : (s.mapCl c f).dies = s.dies := rfl
@[simp] theorem State.mapCl_parts (s : State) (c : Nat) (f : Cluster → Cluster) : (s.mapCl c f).parts = s.parts := rfl
@[simp] theorem State.mapCl_ctxs (s : State) (c : Nat) (f : Cluster → Cluster) : (s.mapCl c f).ctxs = s.ctxs := rfl
@[simp] theorem State.mapCl_jobs (s : State) (c : Nat) (f : Cluster → Cluster) : (s.mapCl c f).jobs = s.jobs := rfl
@[simp] theorem State.mapCl_silos (s : State) (c : Nat) (f : Cluster → Cluster) : (s.mapCl c f).silos = s.silos := rfl
@[simp] theorem State.mapCl_govctl (s : State) (c : Nat) (f : Cluster → Cluster) : (s.mapCl c f).govctl = s.govctl := rfl
@[simp] theorem State.mapCl_debug (s : State) (c : Nat) (f : Cluster → Cluster) : (s.mapCl c f).dbg = s.dbg := rfl
@[simp] theorem State.mapCl_boot (s : State) (c : Nat) (f : Cluster → Cluster) : (s.mapCl c f).boot = s.boot := rfl
@[simp] theorem State.mapCl_links (s : State) (c : Nat) (f : Cluster → Cluster) : (s.mapCl c f).links = s.links := rfl

@[simp] theorem State.mapSeq_cur (s : State) (c : Nat) (q : SeqId) (f : Sequencer → Sequencer) : (s.mapSeq c q f).cur = s.cur := rfl
@[simp] theorem State.mapSeq_agenda (s : State) (c : Nat) (q : SeqId) (f : Sequencer → Sequencer) : (s.mapSeq c q f).agenda = s.agenda := rfl
@[simp] theorem State.mapSeq_now (s : State) (c : Nat) (q : SeqId) (f : Sequencer → Sequencer) : (s.mapSeq c q f).now = s.now := rfl
@[simp] theorem State.mapSeq_counter (s : State) (c : Nat) (q : SeqId) (f : Sequencer → Sequencer) : (s.mapSeq c q f).counter = s.counter := rfl
@[simp] theorem State.mapSeq_savedCl (s : State) (c : Nat) (q : SeqId) (f : Sequencer → Sequencer) : (s.mapSeq c q f).savedCl = s.savedCl := rfl
@[simp] theorem State.mapSeq_mem (s : State) (c : Nat) (q : SeqId) (f : Sequencer → Sequencer) : (s.mapSeq c q f).mem = s.mem := rfl
@[simp] theorem State.mapSeq_host (s : State) (c : Nat) (q : SeqId) (f : Sequencer → Sequencer) : (s.mapSeq c q f).host = s.host := rfl
@[simp] theorem State.mapSeq_hist (s : State) (c : Nat) (q : SeqId) (f : Sequencer → Sequencer) : (s.mapSeq c q f).hist = s.hist := rfl
@[simp] theorem State.mapSeq_reqs (s : State) (c : Nat) (q : SeqId) (f : Sequencer → Sequencer) : (s.mapSeq c q f).reqs = s.reqs := rfl
@[simp] theorem State.mapSeq_sheaves (s : State) (c : Nat) (q : SeqId) (f : Sequencer → Sequencer) : (s.mapSeq c q f).sheaves = s.sheaves := rfl
@[simp] theorem State.mapSeq_l2Fills (s : State) (c : Nat) (q : SeqId) (f : Sequencer → Sequencer) : (s.mapSeq c q f).l2Fills = s.l2Fills := rfl
@[simp] theorem State.mapSeq_staging (s : State) (c : Nat) (q : SeqId) (f : Sequencer → Sequencer) : (s.mapSeq c q f).staging = s.staging := rfl
@[simp] theorem State.mapSeq_l2 (s : State) (c : Nat) (q : SeqId) (f : Sequencer → Sequencer) : (s.mapSeq c q f).l2 = s.l2 := rfl
@[simp] theorem State.mapSeq_dies (s : State) (c : Nat) (q : SeqId) (f : Sequencer → Sequencer) : (s.mapSeq c q f).dies = s.dies := rfl
@[simp] theorem State.mapSeq_parts (s : State) (c : Nat) (q : SeqId) (f : Sequencer → Sequencer) : (s.mapSeq c q f).parts = s.parts := rfl
@[simp] theorem State.mapSeq_ctxs (s : State) (c : Nat) (q : SeqId) (f : Sequencer → Sequencer) : (s.mapSeq c q f).ctxs = s.ctxs := rfl
@[simp] theorem State.mapSeq_jobs (s : State) (c : Nat) (q : SeqId) (f : Sequencer → Sequencer) : (s.mapSeq c q f).jobs = s.jobs := rfl
@[simp] theorem State.mapSeq_silos (s : State) (c : Nat) (q : SeqId) (f : Sequencer → Sequencer) : (s.mapSeq c q f).silos = s.silos := rfl
@[simp] theorem State.mapSeq_govctl (s : State) (c : Nat) (q : SeqId) (f : Sequencer → Sequencer) : (s.mapSeq c q f).govctl = s.govctl := rfl
@[simp] theorem State.mapSeq_debug (s : State) (c : Nat) (q : SeqId) (f : Sequencer → Sequencer) : (s.mapSeq c q f).dbg = s.dbg := rfl
@[simp] theorem State.mapSeq_boot (s : State) (c : Nat) (q : SeqId) (f : Sequencer → Sequencer) : (s.mapSeq c q f).boot = s.boot := rfl
@[simp] theorem State.mapSeq_links (s : State) (c : Nat) (q : SeqId) (f : Sequencer → Sequencer) : (s.mapSeq c q f).links = s.links := rfl

@[simp] theorem State.mapMe_cur (s : State) (f : Sequencer → Sequencer) : (s.mapMe f).cur = s.cur := rfl
@[simp] theorem State.mapMe_agenda (s : State) (f : Sequencer → Sequencer) : (s.mapMe f).agenda = s.agenda := rfl
@[simp] theorem State.mapMe_now (s : State) (f : Sequencer → Sequencer) : (s.mapMe f).now = s.now := rfl
@[simp] theorem State.mapMe_counter (s : State) (f : Sequencer → Sequencer) : (s.mapMe f).counter = s.counter := rfl
@[simp] theorem State.mapMe_savedCl (s : State) (f : Sequencer → Sequencer) : (s.mapMe f).savedCl = s.savedCl := rfl
@[simp] theorem State.mapMe_mem (s : State) (f : Sequencer → Sequencer) : (s.mapMe f).mem = s.mem := rfl
@[simp] theorem State.mapMe_host (s : State) (f : Sequencer → Sequencer) : (s.mapMe f).host = s.host := rfl
@[simp] theorem State.mapMe_hist (s : State) (f : Sequencer → Sequencer) : (s.mapMe f).hist = s.hist := rfl
@[simp] theorem State.mapMe_reqs (s : State) (f : Sequencer → Sequencer) : (s.mapMe f).reqs = s.reqs := rfl
@[simp] theorem State.mapMe_sheaves (s : State) (f : Sequencer → Sequencer) : (s.mapMe f).sheaves = s.sheaves := rfl
@[simp] theorem State.mapMe_l2Fills (s : State) (f : Sequencer → Sequencer) : (s.mapMe f).l2Fills = s.l2Fills := rfl
@[simp] theorem State.mapMe_staging (s : State) (f : Sequencer → Sequencer) : (s.mapMe f).staging = s.staging := rfl
@[simp] theorem State.mapMe_l2 (s : State) (f : Sequencer → Sequencer) : (s.mapMe f).l2 = s.l2 := rfl
@[simp] theorem State.mapMe_dies (s : State) (f : Sequencer → Sequencer) : (s.mapMe f).dies = s.dies := rfl
@[simp] theorem State.mapMe_parts (s : State) (f : Sequencer → Sequencer) : (s.mapMe f).parts = s.parts := rfl
@[simp] theorem State.mapMe_ctxs (s : State) (f : Sequencer → Sequencer) : (s.mapMe f).ctxs = s.ctxs := rfl
@[simp] theorem State.mapMe_jobs (s : State) (f : Sequencer → Sequencer) : (s.mapMe f).jobs = s.jobs := rfl
@[simp] theorem State.mapMe_silos (s : State) (f : Sequencer → Sequencer) : (s.mapMe f).silos = s.silos := rfl
@[simp] theorem State.mapMe_govctl (s : State) (f : Sequencer → Sequencer) : (s.mapMe f).govctl = s.govctl := rfl
@[simp] theorem State.mapMe_debug (s : State) (f : Sequencer → Sequencer) : (s.mapMe f).dbg = s.dbg := rfl
@[simp] theorem State.mapMe_boot (s : State) (f : Sequencer → Sequencer) : (s.mapMe f).boot = s.boot := rfl
@[simp] theorem State.mapMe_links (s : State) (f : Sequencer → Sequencer) : (s.mapMe f).links = s.links := rfl

@[simp] theorem State.mapHere_cur (s : State) (f : Cluster → Cluster) : (s.mapHere f).cur = s.cur := rfl
@[simp] theorem State.mapHere_agenda (s : State) (f : Cluster → Cluster) : (s.mapHere f).agenda = s.agenda := rfl
@[simp] theorem State.mapHere_now (s : State) (f : Cluster → Cluster) : (s.mapHere f).now = s.now := rfl
@[simp] theorem State.mapHere_counter (s : State) (f : Cluster → Cluster) : (s.mapHere f).counter = s.counter := rfl
@[simp] theorem State.mapHere_savedCl (s : State) (f : Cluster → Cluster) : (s.mapHere f).savedCl = s.savedCl := rfl
@[simp] theorem State.mapHere_mem (s : State) (f : Cluster → Cluster) : (s.mapHere f).mem = s.mem := rfl
@[simp] theorem State.mapHere_host (s : State) (f : Cluster → Cluster) : (s.mapHere f).host = s.host := rfl
@[simp] theorem State.mapHere_hist (s : State) (f : Cluster → Cluster) : (s.mapHere f).hist = s.hist := rfl
@[simp] theorem State.mapHere_reqs (s : State) (f : Cluster → Cluster) : (s.mapHere f).reqs = s.reqs := rfl
@[simp] theorem State.mapHere_sheaves (s : State) (f : Cluster → Cluster) : (s.mapHere f).sheaves = s.sheaves := rfl
@[simp] theorem State.mapHere_l2Fills (s : State) (f : Cluster → Cluster) : (s.mapHere f).l2Fills = s.l2Fills := rfl
@[simp] theorem State.mapHere_staging (s : State) (f : Cluster → Cluster) : (s.mapHere f).staging = s.staging := rfl
@[simp] theorem State.mapHere_l2 (s : State) (f : Cluster → Cluster) : (s.mapHere f).l2 = s.l2 := rfl
@[simp] theorem State.mapHere_dies (s : State) (f : Cluster → Cluster) : (s.mapHere f).dies = s.dies := rfl
@[simp] theorem State.mapHere_parts (s : State) (f : Cluster → Cluster) : (s.mapHere f).parts = s.parts := rfl
@[simp] theorem State.mapHere_ctxs (s : State) (f : Cluster → Cluster) : (s.mapHere f).ctxs = s.ctxs := rfl
@[simp] theorem State.mapHere_jobs (s : State) (f : Cluster → Cluster) : (s.mapHere f).jobs = s.jobs := rfl
@[simp] theorem State.mapHere_silos (s : State) (f : Cluster → Cluster) : (s.mapHere f).silos = s.silos := rfl
@[simp] theorem State.mapHere_govctl (s : State) (f : Cluster → Cluster) : (s.mapHere f).govctl = s.govctl := rfl
@[simp] theorem State.mapHere_debug (s : State) (f : Cluster → Cluster) : (s.mapHere f).dbg = s.dbg := rfl
@[simp] theorem State.mapHere_boot (s : State) (f : Cluster → Cluster) : (s.mapHere f).boot = s.boot := rfl
@[simp] theorem State.mapHere_links (s : State) (f : Cluster → Cluster) : (s.mapHere f).links = s.links := rfl

@[simp] theorem State.mapTask_cur (s : State) (c : Nat) (f : Task → Task) : (s.mapTask c f).cur = s.cur := rfl
@[simp] theorem State.mapTask_agenda (s : State) (c : Nat) (f : Task → Task) : (s.mapTask c f).agenda = s.agenda := rfl
@[simp] theorem State.mapTask_now (s : State) (c : Nat) (f : Task → Task) : (s.mapTask c f).now = s.now := rfl
@[simp] theorem State.mapTask_counter (s : State) (c : Nat) (f : Task → Task) : (s.mapTask c f).counter = s.counter := rfl
@[simp] theorem State.mapTask_savedCl (s : State) (c : Nat) (f : Task → Task) : (s.mapTask c f).savedCl = s.savedCl := rfl
@[simp] theorem State.mapTask_mem (s : State) (c : Nat) (f : Task → Task) : (s.mapTask c f).mem = s.mem := rfl
@[simp] theorem State.mapTask_host (s : State) (c : Nat) (f : Task → Task) : (s.mapTask c f).host = s.host := rfl
@[simp] theorem State.mapTask_hist (s : State) (c : Nat) (f : Task → Task) : (s.mapTask c f).hist = s.hist := rfl
@[simp] theorem State.mapTask_reqs (s : State) (c : Nat) (f : Task → Task) : (s.mapTask c f).reqs = s.reqs := rfl
@[simp] theorem State.mapTask_sheaves (s : State) (c : Nat) (f : Task → Task) : (s.mapTask c f).sheaves = s.sheaves := rfl
@[simp] theorem State.mapTask_l2Fills (s : State) (c : Nat) (f : Task → Task) : (s.mapTask c f).l2Fills = s.l2Fills := rfl
@[simp] theorem State.mapTask_staging (s : State) (c : Nat) (f : Task → Task) : (s.mapTask c f).staging = s.staging := rfl
@[simp] theorem State.mapTask_l2 (s : State) (c : Nat) (f : Task → Task) : (s.mapTask c f).l2 = s.l2 := rfl
@[simp] theorem State.mapTask_dies (s : State) (c : Nat) (f : Task → Task) : (s.mapTask c f).dies = s.dies := rfl
@[simp] theorem State.mapTask_parts (s : State) (c : Nat) (f : Task → Task) : (s.mapTask c f).parts = s.parts := rfl
@[simp] theorem State.mapTask_ctxs (s : State) (c : Nat) (f : Task → Task) : (s.mapTask c f).ctxs = s.ctxs := rfl
@[simp] theorem State.mapTask_jobs (s : State) (c : Nat) (f : Task → Task) : (s.mapTask c f).jobs = s.jobs := rfl
@[simp] theorem State.mapTask_silos (s : State) (c : Nat) (f : Task → Task) : (s.mapTask c f).silos = s.silos := rfl
@[simp] theorem State.mapTask_govctl (s : State) (c : Nat) (f : Task → Task) : (s.mapTask c f).govctl = s.govctl := rfl
@[simp] theorem State.mapTask_debug (s : State) (c : Nat) (f : Task → Task) : (s.mapTask c f).dbg = s.dbg := rfl
@[simp] theorem State.mapTask_boot (s : State) (c : Nat) (f : Task → Task) : (s.mapTask c f).boot = s.boot := rfl
@[simp] theorem State.mapTask_links (s : State) (c : Nat) (f : Task → Task) : (s.mapTask c f).links = s.links := rfl

@[simp] theorem State.raise_cur (s : State) (c f : Nat) : (s.raise c f).cur = s.cur := rfl
@[simp] theorem State.raise_agenda (s : State) (c f : Nat) : (s.raise c f).agenda = s.agenda := rfl
@[simp] theorem State.raise_now (s : State) (c f : Nat) : (s.raise c f).now = s.now := rfl
@[simp] theorem State.raise_counter (s : State) (c f : Nat) : (s.raise c f).counter = s.counter := rfl
@[simp] theorem State.raise_savedCl (s : State) (c f : Nat) : (s.raise c f).savedCl = s.savedCl := rfl
@[simp] theorem State.raise_mem (s : State) (c f : Nat) : (s.raise c f).mem = s.mem := rfl
@[simp] theorem State.raise_host (s : State) (c f : Nat) : (s.raise c f).host = s.host := rfl
@[simp] theorem State.raise_hist (s : State) (c f : Nat) : (s.raise c f).hist = s.hist := rfl
@[simp] theorem State.raise_reqs (s : State) (c f : Nat) : (s.raise c f).reqs = s.reqs := rfl
@[simp] theorem State.raise_sheaves (s : State) (c f : Nat) : (s.raise c f).sheaves = s.sheaves := rfl
@[simp] theorem State.raise_l2Fills (s : State) (c f : Nat) : (s.raise c f).l2Fills = s.l2Fills := rfl
@[simp] theorem State.raise_staging (s : State) (c f : Nat) : (s.raise c f).staging = s.staging := rfl
@[simp] theorem State.raise_l2 (s : State) (c f : Nat) : (s.raise c f).l2 = s.l2 := rfl
@[simp] theorem State.raise_dies (s : State) (c f : Nat) : (s.raise c f).dies = s.dies := rfl
@[simp] theorem State.raise_parts (s : State) (c f : Nat) : (s.raise c f).parts = s.parts := rfl
@[simp] theorem State.raise_ctxs (s : State) (c f : Nat) : (s.raise c f).ctxs = s.ctxs := rfl
@[simp] theorem State.raise_jobs (s : State) (c f : Nat) : (s.raise c f).jobs = s.jobs := rfl
@[simp] theorem State.raise_silos (s : State) (c f : Nat) : (s.raise c f).silos = s.silos := rfl
@[simp] theorem State.raise_govctl (s : State) (c f : Nat) : (s.raise c f).govctl = s.govctl := rfl
@[simp] theorem State.raise_debug (s : State) (c f : Nat) : (s.raise c f).dbg = s.dbg := rfl
@[simp] theorem State.raise_boot (s : State) (c f : Nat) : (s.raise c f).boot = s.boot := rfl
@[simp] theorem State.raise_links (s : State) (c f : Nat) : (s.raise c f).links = s.links := rfl

@[simp] theorem State.skip_cur (s : State) (n : Nat) : (s.skip n).cur = s.cur := rfl
@[simp] theorem State.skip_agenda (s : State) (n : Nat) : (s.skip n).agenda = s.agenda := rfl
@[simp] theorem State.skip_now (s : State) (n : Nat) : (s.skip n).now = s.now := rfl
@[simp] theorem State.skip_counter (s : State) (n : Nat) : (s.skip n).counter = s.counter := rfl
@[simp] theorem State.skip_savedCl (s : State) (n : Nat) : (s.skip n).savedCl = s.savedCl := rfl
@[simp] theorem State.skip_mem (s : State) (n : Nat) : (s.skip n).mem = s.mem := rfl
@[simp] theorem State.skip_host (s : State) (n : Nat) : (s.skip n).host = s.host := rfl
@[simp] theorem State.skip_hist (s : State) (n : Nat) : (s.skip n).hist = s.hist := rfl
@[simp] theorem State.skip_reqs (s : State) (n : Nat) : (s.skip n).reqs = s.reqs := rfl
@[simp] theorem State.skip_sheaves (s : State) (n : Nat) : (s.skip n).sheaves = s.sheaves := rfl
@[simp] theorem State.skip_l2Fills (s : State) (n : Nat) : (s.skip n).l2Fills = s.l2Fills := rfl
@[simp] theorem State.skip_staging (s : State) (n : Nat) : (s.skip n).staging = s.staging := rfl
@[simp] theorem State.skip_l2 (s : State) (n : Nat) : (s.skip n).l2 = s.l2 := rfl
@[simp] theorem State.skip_dies (s : State) (n : Nat) : (s.skip n).dies = s.dies := rfl
@[simp] theorem State.skip_parts (s : State) (n : Nat) : (s.skip n).parts = s.parts := rfl
@[simp] theorem State.skip_ctxs (s : State) (n : Nat) : (s.skip n).ctxs = s.ctxs := rfl
@[simp] theorem State.skip_jobs (s : State) (n : Nat) : (s.skip n).jobs = s.jobs := rfl
@[simp] theorem State.skip_silos (s : State) (n : Nat) : (s.skip n).silos = s.silos := rfl
@[simp] theorem State.skip_govctl (s : State) (n : Nat) : (s.skip n).govctl = s.govctl := rfl
@[simp] theorem State.skip_debug (s : State) (n : Nat) : (s.skip n).dbg = s.dbg := rfl
@[simp] theorem State.skip_boot (s : State) (n : Nat) : (s.skip n).boot = s.boot := rfl
@[simp] theorem State.skip_links (s : State) (n : Nat) : (s.skip n).links = s.links := rfl

@[simp] theorem State.put_cur (s : State) (d : Reg) (v : Word) : (s.put d v).cur = s.cur := rfl
@[simp] theorem State.put_agenda (s : State) (d : Reg) (v : Word) : (s.put d v).agenda = s.agenda := rfl
@[simp] theorem State.put_now (s : State) (d : Reg) (v : Word) : (s.put d v).now = s.now := rfl
@[simp] theorem State.put_counter (s : State) (d : Reg) (v : Word) : (s.put d v).counter = s.counter := rfl
@[simp] theorem State.put_savedCl (s : State) (d : Reg) (v : Word) : (s.put d v).savedCl = s.savedCl := rfl
@[simp] theorem State.put_mem (s : State) (d : Reg) (v : Word) : (s.put d v).mem = s.mem := rfl
@[simp] theorem State.put_host (s : State) (d : Reg) (v : Word) : (s.put d v).host = s.host := rfl
@[simp] theorem State.put_hist (s : State) (d : Reg) (v : Word) : (s.put d v).hist = s.hist := rfl
@[simp] theorem State.put_reqs (s : State) (d : Reg) (v : Word) : (s.put d v).reqs = s.reqs := rfl
@[simp] theorem State.put_sheaves (s : State) (d : Reg) (v : Word) : (s.put d v).sheaves = s.sheaves := rfl
@[simp] theorem State.put_l2Fills (s : State) (d : Reg) (v : Word) : (s.put d v).l2Fills = s.l2Fills := rfl
@[simp] theorem State.put_staging (s : State) (d : Reg) (v : Word) : (s.put d v).staging = s.staging := rfl
@[simp] theorem State.put_l2 (s : State) (d : Reg) (v : Word) : (s.put d v).l2 = s.l2 := rfl
@[simp] theorem State.put_dies (s : State) (d : Reg) (v : Word) : (s.put d v).dies = s.dies := rfl
@[simp] theorem State.put_parts (s : State) (d : Reg) (v : Word) : (s.put d v).parts = s.parts := rfl
@[simp] theorem State.put_ctxs (s : State) (d : Reg) (v : Word) : (s.put d v).ctxs = s.ctxs := rfl
@[simp] theorem State.put_jobs (s : State) (d : Reg) (v : Word) : (s.put d v).jobs = s.jobs := rfl
@[simp] theorem State.put_silos (s : State) (d : Reg) (v : Word) : (s.put d v).silos = s.silos := rfl
@[simp] theorem State.put_govctl (s : State) (d : Reg) (v : Word) : (s.put d v).govctl = s.govctl := rfl
@[simp] theorem State.put_debug (s : State) (d : Reg) (v : Word) : (s.put d v).dbg = s.dbg := rfl
@[simp] theorem State.put_boot (s : State) (d : Reg) (v : Word) : (s.put d v).boot = s.boot := rfl
@[simp] theorem State.put_links (s : State) (d : Reg) (v : Word) : (s.put d v).links = s.links := rfl

@[simp] theorem State.putPred_cur (s : State) (p : PReg) (v : Bool) : (s.putPred p v).cur = s.cur := rfl
@[simp] theorem State.putPred_agenda (s : State) (p : PReg) (v : Bool) : (s.putPred p v).agenda = s.agenda := rfl
@[simp] theorem State.putPred_now (s : State) (p : PReg) (v : Bool) : (s.putPred p v).now = s.now := rfl
@[simp] theorem State.putPred_counter (s : State) (p : PReg) (v : Bool) : (s.putPred p v).counter = s.counter := rfl
@[simp] theorem State.putPred_savedCl (s : State) (p : PReg) (v : Bool) : (s.putPred p v).savedCl = s.savedCl := rfl
@[simp] theorem State.putPred_mem (s : State) (p : PReg) (v : Bool) : (s.putPred p v).mem = s.mem := rfl
@[simp] theorem State.putPred_host (s : State) (p : PReg) (v : Bool) : (s.putPred p v).host = s.host := rfl
@[simp] theorem State.putPred_hist (s : State) (p : PReg) (v : Bool) : (s.putPred p v).hist = s.hist := rfl
@[simp] theorem State.putPred_reqs (s : State) (p : PReg) (v : Bool) : (s.putPred p v).reqs = s.reqs := rfl
@[simp] theorem State.putPred_sheaves (s : State) (p : PReg) (v : Bool) : (s.putPred p v).sheaves = s.sheaves := rfl
@[simp] theorem State.putPred_l2Fills (s : State) (p : PReg) (v : Bool) : (s.putPred p v).l2Fills = s.l2Fills := rfl
@[simp] theorem State.putPred_staging (s : State) (p : PReg) (v : Bool) : (s.putPred p v).staging = s.staging := rfl
@[simp] theorem State.putPred_l2 (s : State) (p : PReg) (v : Bool) : (s.putPred p v).l2 = s.l2 := rfl
@[simp] theorem State.putPred_dies (s : State) (p : PReg) (v : Bool) : (s.putPred p v).dies = s.dies := rfl
@[simp] theorem State.putPred_parts (s : State) (p : PReg) (v : Bool) : (s.putPred p v).parts = s.parts := rfl
@[simp] theorem State.putPred_ctxs (s : State) (p : PReg) (v : Bool) : (s.putPred p v).ctxs = s.ctxs := rfl
@[simp] theorem State.putPred_jobs (s : State) (p : PReg) (v : Bool) : (s.putPred p v).jobs = s.jobs := rfl
@[simp] theorem State.putPred_silos (s : State) (p : PReg) (v : Bool) : (s.putPred p v).silos = s.silos := rfl
@[simp] theorem State.putPred_govctl (s : State) (p : PReg) (v : Bool) : (s.putPred p v).govctl = s.govctl := rfl
@[simp] theorem State.putPred_debug (s : State) (p : PReg) (v : Bool) : (s.putPred p v).dbg = s.dbg := rfl
@[simp] theorem State.putPred_boot (s : State) (p : PReg) (v : Bool) : (s.putPred p v).boot = s.boot := rfl
@[simp] theorem State.putPred_links (s : State) (p : PReg) (v : Bool) : (s.putPred p v).links = s.links := rfl

@[simp] theorem State.mapPart_cur (s : State) (c : Nat) (f : Partition → Partition) : (s.mapPart c f).cur = s.cur := rfl
@[simp] theorem State.mapPart_agenda (s : State) (c : Nat) (f : Partition → Partition) : (s.mapPart c f).agenda = s.agenda := rfl
@[simp] theorem State.mapPart_now (s : State) (c : Nat) (f : Partition → Partition) : (s.mapPart c f).now = s.now := rfl
@[simp] theorem State.mapPart_counter (s : State) (c : Nat) (f : Partition → Partition) : (s.mapPart c f).counter = s.counter := rfl
@[simp] theorem State.mapPart_clusters (s : State) (c : Nat) (f : Partition → Partition) : (s.mapPart c f).clusters = s.clusters := rfl
@[simp] theorem State.mapPart_savedCl (s : State) (c : Nat) (f : Partition → Partition) : (s.mapPart c f).savedCl = s.savedCl := rfl
@[simp] theorem State.mapPart_mem (s : State) (c : Nat) (f : Partition → Partition) : (s.mapPart c f).mem = s.mem := rfl
@[simp] theorem State.mapPart_host (s : State) (c : Nat) (f : Partition → Partition) : (s.mapPart c f).host = s.host := rfl
@[simp] theorem State.mapPart_hist (s : State) (c : Nat) (f : Partition → Partition) : (s.mapPart c f).hist = s.hist := rfl
@[simp] theorem State.mapPart_reqs (s : State) (c : Nat) (f : Partition → Partition) : (s.mapPart c f).reqs = s.reqs := rfl
@[simp] theorem State.mapPart_sheaves (s : State) (c : Nat) (f : Partition → Partition) : (s.mapPart c f).sheaves = s.sheaves := rfl
@[simp] theorem State.mapPart_l2Fills (s : State) (c : Nat) (f : Partition → Partition) : (s.mapPart c f).l2Fills = s.l2Fills := rfl
@[simp] theorem State.mapPart_staging (s : State) (c : Nat) (f : Partition → Partition) : (s.mapPart c f).staging = s.staging := rfl
@[simp] theorem State.mapPart_l2 (s : State) (c : Nat) (f : Partition → Partition) : (s.mapPart c f).l2 = s.l2 := rfl
@[simp] theorem State.mapPart_dies (s : State) (c : Nat) (f : Partition → Partition) : (s.mapPart c f).dies = s.dies := rfl
@[simp] theorem State.mapPart_ctxs (s : State) (c : Nat) (f : Partition → Partition) : (s.mapPart c f).ctxs = s.ctxs := rfl
@[simp] theorem State.mapPart_jobs (s : State) (c : Nat) (f : Partition → Partition) : (s.mapPart c f).jobs = s.jobs := rfl
@[simp] theorem State.mapPart_silos (s : State) (c : Nat) (f : Partition → Partition) : (s.mapPart c f).silos = s.silos := rfl
@[simp] theorem State.mapPart_govctl (s : State) (c : Nat) (f : Partition → Partition) : (s.mapPart c f).govctl = s.govctl := rfl
@[simp] theorem State.mapPart_debug (s : State) (c : Nat) (f : Partition → Partition) : (s.mapPart c f).dbg = s.dbg := rfl
@[simp] theorem State.mapPart_boot (s : State) (c : Nat) (f : Partition → Partition) : (s.mapPart c f).boot = s.boot := rfl
@[simp] theorem State.mapPart_links (s : State) (c : Nat) (f : Partition → Partition) : (s.mapPart c f).links = s.links := rfl

@[simp] theorem State.mapCtx_cur (s : State) (n : Nat) (f : Ctx → Ctx) : (s.mapCtx n f).cur = s.cur := rfl
@[simp] theorem State.mapCtx_agenda (s : State) (n : Nat) (f : Ctx → Ctx) : (s.mapCtx n f).agenda = s.agenda := rfl
@[simp] theorem State.mapCtx_now (s : State) (n : Nat) (f : Ctx → Ctx) : (s.mapCtx n f).now = s.now := rfl
@[simp] theorem State.mapCtx_counter (s : State) (n : Nat) (f : Ctx → Ctx) : (s.mapCtx n f).counter = s.counter := rfl
@[simp] theorem State.mapCtx_clusters (s : State) (n : Nat) (f : Ctx → Ctx) : (s.mapCtx n f).clusters = s.clusters := rfl
@[simp] theorem State.mapCtx_savedCl (s : State) (n : Nat) (f : Ctx → Ctx) : (s.mapCtx n f).savedCl = s.savedCl := rfl
@[simp] theorem State.mapCtx_mem (s : State) (n : Nat) (f : Ctx → Ctx) : (s.mapCtx n f).mem = s.mem := rfl
@[simp] theorem State.mapCtx_host (s : State) (n : Nat) (f : Ctx → Ctx) : (s.mapCtx n f).host = s.host := rfl
@[simp] theorem State.mapCtx_hist (s : State) (n : Nat) (f : Ctx → Ctx) : (s.mapCtx n f).hist = s.hist := rfl
@[simp] theorem State.mapCtx_reqs (s : State) (n : Nat) (f : Ctx → Ctx) : (s.mapCtx n f).reqs = s.reqs := rfl
@[simp] theorem State.mapCtx_sheaves (s : State) (n : Nat) (f : Ctx → Ctx) : (s.mapCtx n f).sheaves = s.sheaves := rfl
@[simp] theorem State.mapCtx_l2Fills (s : State) (n : Nat) (f : Ctx → Ctx) : (s.mapCtx n f).l2Fills = s.l2Fills := rfl
@[simp] theorem State.mapCtx_staging (s : State) (n : Nat) (f : Ctx → Ctx) : (s.mapCtx n f).staging = s.staging := rfl
@[simp] theorem State.mapCtx_l2 (s : State) (n : Nat) (f : Ctx → Ctx) : (s.mapCtx n f).l2 = s.l2 := rfl
@[simp] theorem State.mapCtx_dies (s : State) (n : Nat) (f : Ctx → Ctx) : (s.mapCtx n f).dies = s.dies := rfl
@[simp] theorem State.mapCtx_parts (s : State) (n : Nat) (f : Ctx → Ctx) : (s.mapCtx n f).parts = s.parts := rfl
@[simp] theorem State.mapCtx_jobs (s : State) (n : Nat) (f : Ctx → Ctx) : (s.mapCtx n f).jobs = s.jobs := rfl
@[simp] theorem State.mapCtx_silos (s : State) (n : Nat) (f : Ctx → Ctx) : (s.mapCtx n f).silos = s.silos := rfl
@[simp] theorem State.mapCtx_govctl (s : State) (n : Nat) (f : Ctx → Ctx) : (s.mapCtx n f).govctl = s.govctl := rfl
@[simp] theorem State.mapCtx_debug (s : State) (n : Nat) (f : Ctx → Ctx) : (s.mapCtx n f).dbg = s.dbg := rfl
@[simp] theorem State.mapCtx_boot (s : State) (n : Nat) (f : Ctx → Ctx) : (s.mapCtx n f).boot = s.boot := rfl
@[simp] theorem State.mapCtx_links (s : State) (n : Nat) (f : Ctx → Ctx) : (s.mapCtx n f).links = s.links := rfl

@[simp] theorem State.mapDie_cur (s : State) (d : Nat) (f : Die → Die) : (s.mapDie d f).cur = s.cur := rfl
@[simp] theorem State.mapDie_agenda (s : State) (d : Nat) (f : Die → Die) : (s.mapDie d f).agenda = s.agenda := rfl
@[simp] theorem State.mapDie_now (s : State) (d : Nat) (f : Die → Die) : (s.mapDie d f).now = s.now := rfl
@[simp] theorem State.mapDie_counter (s : State) (d : Nat) (f : Die → Die) : (s.mapDie d f).counter = s.counter := rfl
@[simp] theorem State.mapDie_clusters (s : State) (d : Nat) (f : Die → Die) : (s.mapDie d f).clusters = s.clusters := rfl
@[simp] theorem State.mapDie_savedCl (s : State) (d : Nat) (f : Die → Die) : (s.mapDie d f).savedCl = s.savedCl := rfl
@[simp] theorem State.mapDie_mem (s : State) (d : Nat) (f : Die → Die) : (s.mapDie d f).mem = s.mem := rfl
@[simp] theorem State.mapDie_host (s : State) (d : Nat) (f : Die → Die) : (s.mapDie d f).host = s.host := rfl
@[simp] theorem State.mapDie_hist (s : State) (d : Nat) (f : Die → Die) : (s.mapDie d f).hist = s.hist := rfl
@[simp] theorem State.mapDie_reqs (s : State) (d : Nat) (f : Die → Die) : (s.mapDie d f).reqs = s.reqs := rfl
@[simp] theorem State.mapDie_sheaves (s : State) (d : Nat) (f : Die → Die) : (s.mapDie d f).sheaves = s.sheaves := rfl
@[simp] theorem State.mapDie_l2Fills (s : State) (d : Nat) (f : Die → Die) : (s.mapDie d f).l2Fills = s.l2Fills := rfl
@[simp] theorem State.mapDie_staging (s : State) (d : Nat) (f : Die → Die) : (s.mapDie d f).staging = s.staging := rfl
@[simp] theorem State.mapDie_l2 (s : State) (d : Nat) (f : Die → Die) : (s.mapDie d f).l2 = s.l2 := rfl
@[simp] theorem State.mapDie_parts (s : State) (d : Nat) (f : Die → Die) : (s.mapDie d f).parts = s.parts := rfl
@[simp] theorem State.mapDie_ctxs (s : State) (d : Nat) (f : Die → Die) : (s.mapDie d f).ctxs = s.ctxs := rfl
@[simp] theorem State.mapDie_jobs (s : State) (d : Nat) (f : Die → Die) : (s.mapDie d f).jobs = s.jobs := rfl
@[simp] theorem State.mapDie_silos (s : State) (d : Nat) (f : Die → Die) : (s.mapDie d f).silos = s.silos := rfl
@[simp] theorem State.mapDie_govctl (s : State) (d : Nat) (f : Die → Die) : (s.mapDie d f).govctl = s.govctl := rfl
@[simp] theorem State.mapDie_debug (s : State) (d : Nat) (f : Die → Die) : (s.mapDie d f).dbg = s.dbg := rfl
@[simp] theorem State.mapDie_boot (s : State) (d : Nat) (f : Die → Die) : (s.mapDie d f).boot = s.boot := rfl
@[simp] theorem State.mapDie_links (s : State) (d : Nat) (f : Die → Die) : (s.mapDie d f).links = s.links := rfl

@[simp] theorem State.mapJob_cur (s : State) (n : Nat) (f : Job → Job) : (s.mapJob n f).cur = s.cur := rfl
@[simp] theorem State.mapJob_agenda (s : State) (n : Nat) (f : Job → Job) : (s.mapJob n f).agenda = s.agenda := rfl
@[simp] theorem State.mapJob_now (s : State) (n : Nat) (f : Job → Job) : (s.mapJob n f).now = s.now := rfl
@[simp] theorem State.mapJob_counter (s : State) (n : Nat) (f : Job → Job) : (s.mapJob n f).counter = s.counter := rfl
@[simp] theorem State.mapJob_clusters (s : State) (n : Nat) (f : Job → Job) : (s.mapJob n f).clusters = s.clusters := rfl
@[simp] theorem State.mapJob_savedCl (s : State) (n : Nat) (f : Job → Job) : (s.mapJob n f).savedCl = s.savedCl := rfl
@[simp] theorem State.mapJob_mem (s : State) (n : Nat) (f : Job → Job) : (s.mapJob n f).mem = s.mem := rfl
@[simp] theorem State.mapJob_host (s : State) (n : Nat) (f : Job → Job) : (s.mapJob n f).host = s.host := rfl
@[simp] theorem State.mapJob_hist (s : State) (n : Nat) (f : Job → Job) : (s.mapJob n f).hist = s.hist := rfl
@[simp] theorem State.mapJob_reqs (s : State) (n : Nat) (f : Job → Job) : (s.mapJob n f).reqs = s.reqs := rfl
@[simp] theorem State.mapJob_sheaves (s : State) (n : Nat) (f : Job → Job) : (s.mapJob n f).sheaves = s.sheaves := rfl
@[simp] theorem State.mapJob_l2Fills (s : State) (n : Nat) (f : Job → Job) : (s.mapJob n f).l2Fills = s.l2Fills := rfl
@[simp] theorem State.mapJob_staging (s : State) (n : Nat) (f : Job → Job) : (s.mapJob n f).staging = s.staging := rfl
@[simp] theorem State.mapJob_l2 (s : State) (n : Nat) (f : Job → Job) : (s.mapJob n f).l2 = s.l2 := rfl
@[simp] theorem State.mapJob_dies (s : State) (n : Nat) (f : Job → Job) : (s.mapJob n f).dies = s.dies := rfl
@[simp] theorem State.mapJob_parts (s : State) (n : Nat) (f : Job → Job) : (s.mapJob n f).parts = s.parts := rfl
@[simp] theorem State.mapJob_ctxs (s : State) (n : Nat) (f : Job → Job) : (s.mapJob n f).ctxs = s.ctxs := rfl
@[simp] theorem State.mapJob_silos (s : State) (n : Nat) (f : Job → Job) : (s.mapJob n f).silos = s.silos := rfl
@[simp] theorem State.mapJob_govctl (s : State) (n : Nat) (f : Job → Job) : (s.mapJob n f).govctl = s.govctl := rfl
@[simp] theorem State.mapJob_debug (s : State) (n : Nat) (f : Job → Job) : (s.mapJob n f).dbg = s.dbg := rfl
@[simp] theorem State.mapJob_boot (s : State) (n : Nat) (f : Job → Job) : (s.mapJob n f).boot = s.boot := rfl
@[simp] theorem State.mapJob_links (s : State) (n : Nat) (f : Job → Job) : (s.mapJob n f).links = s.links := rfl

@[simp] theorem State.mapGang_cur (s : State) (n gi : Nat) (f : Gang → Gang) : (s.mapGang n gi f).cur = s.cur := rfl
@[simp] theorem State.mapGang_agenda (s : State) (n gi : Nat) (f : Gang → Gang) : (s.mapGang n gi f).agenda = s.agenda := rfl
@[simp] theorem State.mapGang_now (s : State) (n gi : Nat) (f : Gang → Gang) : (s.mapGang n gi f).now = s.now := rfl
@[simp] theorem State.mapGang_counter (s : State) (n gi : Nat) (f : Gang → Gang) : (s.mapGang n gi f).counter = s.counter := rfl
@[simp] theorem State.mapGang_clusters (s : State) (n gi : Nat) (f : Gang → Gang) : (s.mapGang n gi f).clusters = s.clusters := rfl
@[simp] theorem State.mapGang_savedCl (s : State) (n gi : Nat) (f : Gang → Gang) : (s.mapGang n gi f).savedCl = s.savedCl := rfl
@[simp] theorem State.mapGang_mem (s : State) (n gi : Nat) (f : Gang → Gang) : (s.mapGang n gi f).mem = s.mem := rfl
@[simp] theorem State.mapGang_host (s : State) (n gi : Nat) (f : Gang → Gang) : (s.mapGang n gi f).host = s.host := rfl
@[simp] theorem State.mapGang_hist (s : State) (n gi : Nat) (f : Gang → Gang) : (s.mapGang n gi f).hist = s.hist := rfl
@[simp] theorem State.mapGang_reqs (s : State) (n gi : Nat) (f : Gang → Gang) : (s.mapGang n gi f).reqs = s.reqs := rfl
@[simp] theorem State.mapGang_sheaves (s : State) (n gi : Nat) (f : Gang → Gang) : (s.mapGang n gi f).sheaves = s.sheaves := rfl
@[simp] theorem State.mapGang_l2Fills (s : State) (n gi : Nat) (f : Gang → Gang) : (s.mapGang n gi f).l2Fills = s.l2Fills := rfl
@[simp] theorem State.mapGang_staging (s : State) (n gi : Nat) (f : Gang → Gang) : (s.mapGang n gi f).staging = s.staging := rfl
@[simp] theorem State.mapGang_l2 (s : State) (n gi : Nat) (f : Gang → Gang) : (s.mapGang n gi f).l2 = s.l2 := rfl
@[simp] theorem State.mapGang_dies (s : State) (n gi : Nat) (f : Gang → Gang) : (s.mapGang n gi f).dies = s.dies := rfl
@[simp] theorem State.mapGang_parts (s : State) (n gi : Nat) (f : Gang → Gang) : (s.mapGang n gi f).parts = s.parts := rfl
@[simp] theorem State.mapGang_ctxs (s : State) (n gi : Nat) (f : Gang → Gang) : (s.mapGang n gi f).ctxs = s.ctxs := rfl
@[simp] theorem State.mapGang_silos (s : State) (n gi : Nat) (f : Gang → Gang) : (s.mapGang n gi f).silos = s.silos := rfl
@[simp] theorem State.mapGang_govctl (s : State) (n gi : Nat) (f : Gang → Gang) : (s.mapGang n gi f).govctl = s.govctl := rfl
@[simp] theorem State.mapGang_debug (s : State) (n gi : Nat) (f : Gang → Gang) : (s.mapGang n gi f).dbg = s.dbg := rfl
@[simp] theorem State.mapGang_boot (s : State) (n gi : Nat) (f : Gang → Gang) : (s.mapGang n gi f).boot = s.boot := rfl
@[simp] theorem State.mapGang_links (s : State) (n gi : Nat) (f : Gang → Gang) : (s.mapGang n gi f).links = s.links := rfl

@[simp] theorem State.fresh_cur (s : State) : s.fresh.cur = s.cur := rfl
@[simp] theorem State.fresh_agenda (s : State) : s.fresh.agenda = s.agenda := rfl
@[simp] theorem State.fresh_now (s : State) : s.fresh.now = s.now := rfl
@[simp] theorem State.fresh_clusters (s : State) : s.fresh.clusters = s.clusters := rfl
@[simp] theorem State.fresh_savedCl (s : State) : s.fresh.savedCl = s.savedCl := rfl
@[simp] theorem State.fresh_mem (s : State) : s.fresh.mem = s.mem := rfl
@[simp] theorem State.fresh_host (s : State) : s.fresh.host = s.host := rfl
@[simp] theorem State.fresh_hist (s : State) : s.fresh.hist = s.hist := rfl
@[simp] theorem State.fresh_reqs (s : State) : s.fresh.reqs = s.reqs := rfl
@[simp] theorem State.fresh_sheaves (s : State) : s.fresh.sheaves = s.sheaves := rfl
@[simp] theorem State.fresh_l2Fills (s : State) : s.fresh.l2Fills = s.l2Fills := rfl
@[simp] theorem State.fresh_staging (s : State) : s.fresh.staging = s.staging := rfl
@[simp] theorem State.fresh_l2 (s : State) : s.fresh.l2 = s.l2 := rfl
@[simp] theorem State.fresh_dies (s : State) : s.fresh.dies = s.dies := rfl
@[simp] theorem State.fresh_parts (s : State) : s.fresh.parts = s.parts := rfl
@[simp] theorem State.fresh_ctxs (s : State) : s.fresh.ctxs = s.ctxs := rfl
@[simp] theorem State.fresh_jobs (s : State) : s.fresh.jobs = s.jobs := rfl
@[simp] theorem State.fresh_silos (s : State) : s.fresh.silos = s.silos := rfl
@[simp] theorem State.fresh_govctl (s : State) : s.fresh.govctl = s.govctl := rfl
@[simp] theorem State.fresh_debug (s : State) : s.fresh.dbg = s.dbg := rfl
@[simp] theorem State.fresh_boot (s : State) : s.fresh.boot = s.boot := rfl
@[simp] theorem State.fresh_links (s : State) : s.fresh.links = s.links := rfl

@[simp] theorem State.hostWrite_cur (s : State) (a : Nat) (bs : List Byte) : (s.hostWrite a bs).cur = s.cur := rfl
@[simp] theorem State.hostWrite_agenda (s : State) (a : Nat) (bs : List Byte) : (s.hostWrite a bs).agenda = s.agenda := rfl
@[simp] theorem State.hostWrite_now (s : State) (a : Nat) (bs : List Byte) : (s.hostWrite a bs).now = s.now := rfl
@[simp] theorem State.hostWrite_counter (s : State) (a : Nat) (bs : List Byte) : (s.hostWrite a bs).counter = s.counter := rfl
@[simp] theorem State.hostWrite_clusters (s : State) (a : Nat) (bs : List Byte) : (s.hostWrite a bs).clusters = s.clusters := rfl
@[simp] theorem State.hostWrite_savedCl (s : State) (a : Nat) (bs : List Byte) : (s.hostWrite a bs).savedCl = s.savedCl := rfl
@[simp] theorem State.hostWrite_mem (s : State) (a : Nat) (bs : List Byte) : (s.hostWrite a bs).mem = s.mem := rfl
@[simp] theorem State.hostWrite_hist (s : State) (a : Nat) (bs : List Byte) : (s.hostWrite a bs).hist = s.hist := rfl
@[simp] theorem State.hostWrite_reqs (s : State) (a : Nat) (bs : List Byte) : (s.hostWrite a bs).reqs = s.reqs := rfl
@[simp] theorem State.hostWrite_sheaves (s : State) (a : Nat) (bs : List Byte) : (s.hostWrite a bs).sheaves = s.sheaves := rfl
@[simp] theorem State.hostWrite_l2Fills (s : State) (a : Nat) (bs : List Byte) : (s.hostWrite a bs).l2Fills = s.l2Fills := rfl
@[simp] theorem State.hostWrite_staging (s : State) (a : Nat) (bs : List Byte) : (s.hostWrite a bs).staging = s.staging := rfl
@[simp] theorem State.hostWrite_l2 (s : State) (a : Nat) (bs : List Byte) : (s.hostWrite a bs).l2 = s.l2 := rfl
@[simp] theorem State.hostWrite_dies (s : State) (a : Nat) (bs : List Byte) : (s.hostWrite a bs).dies = s.dies := rfl
@[simp] theorem State.hostWrite_parts (s : State) (a : Nat) (bs : List Byte) : (s.hostWrite a bs).parts = s.parts := rfl
@[simp] theorem State.hostWrite_ctxs (s : State) (a : Nat) (bs : List Byte) : (s.hostWrite a bs).ctxs = s.ctxs := rfl
@[simp] theorem State.hostWrite_jobs (s : State) (a : Nat) (bs : List Byte) : (s.hostWrite a bs).jobs = s.jobs := rfl
@[simp] theorem State.hostWrite_silos (s : State) (a : Nat) (bs : List Byte) : (s.hostWrite a bs).silos = s.silos := rfl
@[simp] theorem State.hostWrite_govctl (s : State) (a : Nat) (bs : List Byte) : (s.hostWrite a bs).govctl = s.govctl := rfl
@[simp] theorem State.hostWrite_debug (s : State) (a : Nat) (bs : List Byte) : (s.hostWrite a bs).dbg = s.dbg := rfl
@[simp] theorem State.hostWrite_boot (s : State) (a : Nat) (bs : List Byte) : (s.hostWrite a bs).boot = s.boot := rfl
@[simp] theorem State.hostWrite_links (s : State) (a : Nat) (bs : List Byte) : (s.hostWrite a bs).links = s.links := rfl

@[simp] theorem State.mapPartCls_cur (s : State) (p : Partition) (f : Cluster → Cluster) : (s.mapPartCls p f).cur = s.cur := rfl
@[simp] theorem State.mapPartCls_agenda (s : State) (p : Partition) (f : Cluster → Cluster) : (s.mapPartCls p f).agenda = s.agenda := rfl
@[simp] theorem State.mapPartCls_now (s : State) (p : Partition) (f : Cluster → Cluster) : (s.mapPartCls p f).now = s.now := rfl
@[simp] theorem State.mapPartCls_counter (s : State) (p : Partition) (f : Cluster → Cluster) : (s.mapPartCls p f).counter = s.counter := rfl
@[simp] theorem State.mapPartCls_savedCl (s : State) (p : Partition) (f : Cluster → Cluster) : (s.mapPartCls p f).savedCl = s.savedCl := rfl
@[simp] theorem State.mapPartCls_mem (s : State) (p : Partition) (f : Cluster → Cluster) : (s.mapPartCls p f).mem = s.mem := rfl
@[simp] theorem State.mapPartCls_host (s : State) (p : Partition) (f : Cluster → Cluster) : (s.mapPartCls p f).host = s.host := rfl
@[simp] theorem State.mapPartCls_hist (s : State) (p : Partition) (f : Cluster → Cluster) : (s.mapPartCls p f).hist = s.hist := rfl
@[simp] theorem State.mapPartCls_reqs (s : State) (p : Partition) (f : Cluster → Cluster) : (s.mapPartCls p f).reqs = s.reqs := rfl
@[simp] theorem State.mapPartCls_sheaves (s : State) (p : Partition) (f : Cluster → Cluster) : (s.mapPartCls p f).sheaves = s.sheaves := rfl
@[simp] theorem State.mapPartCls_l2Fills (s : State) (p : Partition) (f : Cluster → Cluster) : (s.mapPartCls p f).l2Fills = s.l2Fills := rfl
@[simp] theorem State.mapPartCls_staging (s : State) (p : Partition) (f : Cluster → Cluster) : (s.mapPartCls p f).staging = s.staging := rfl
@[simp] theorem State.mapPartCls_l2 (s : State) (p : Partition) (f : Cluster → Cluster) : (s.mapPartCls p f).l2 = s.l2 := rfl
@[simp] theorem State.mapPartCls_dies (s : State) (p : Partition) (f : Cluster → Cluster) : (s.mapPartCls p f).dies = s.dies := rfl
@[simp] theorem State.mapPartCls_parts (s : State) (p : Partition) (f : Cluster → Cluster) : (s.mapPartCls p f).parts = s.parts := rfl
@[simp] theorem State.mapPartCls_ctxs (s : State) (p : Partition) (f : Cluster → Cluster) : (s.mapPartCls p f).ctxs = s.ctxs := rfl
@[simp] theorem State.mapPartCls_jobs (s : State) (p : Partition) (f : Cluster → Cluster) : (s.mapPartCls p f).jobs = s.jobs := rfl
@[simp] theorem State.mapPartCls_silos (s : State) (p : Partition) (f : Cluster → Cluster) : (s.mapPartCls p f).silos = s.silos := rfl
@[simp] theorem State.mapPartCls_govctl (s : State) (p : Partition) (f : Cluster → Cluster) : (s.mapPartCls p f).govctl = s.govctl := rfl
@[simp] theorem State.mapPartCls_debug (s : State) (p : Partition) (f : Cluster → Cluster) : (s.mapPartCls p f).dbg = s.dbg := rfl
@[simp] theorem State.mapPartCls_boot (s : State) (p : Partition) (f : Cluster → Cluster) : (s.mapPartCls p f).boot = s.boot := rfl
@[simp] theorem State.mapPartCls_links (s : State) (p : Partition) (f : Cluster → Cluster) : (s.mapPartCls p f).links = s.links := rfl

/-! ### Reading a cluster or sequencer -/

@[simp] theorem State.cluster_setCl_same (s : State) (c : Nat) (k : Cluster) : (s.setCl c k).cluster c = k :=
  Table.get_set_same _ _ _ _

theorem State.cluster_setCl_ne (s : State) (c d : Nat) (k : Cluster) (h : d ≠ c) :
    (s.setCl c k).cluster d = s.cluster d := Table.get_set_ne _ _ _ _ _ h

@[simp] theorem State.cluster_mapCl_same (s : State) (c : Nat) (f : Cluster → Cluster) :
    (s.mapCl c f).cluster c = f (s.cluster c) := Table.get_set_same _ _ _ _

theorem State.cluster_mapCl_ne (s : State) (c d : Nat) (f : Cluster → Cluster) (h : d ≠ c) :
    (s.mapCl c f).cluster d = s.cluster d := Table.get_set_ne _ _ _ _ _ h

theorem State.setCl_setCl (s : State) (c : Nat) (k l : Cluster) : (s.setCl c k).setCl c l = s.setCl c l := by
  simp [State.setCl, Table.set_set]

@[simp] theorem Cluster.seq_setSeq_same (k : Cluster) (q : SeqId) (x : Sequencer) : (k.setSeq q x).seq q = x := by
  cases q <;> rfl

theorem Cluster.seq_setSeq_ne (k : Cluster) (q r : SeqId) (x : Sequencer) (h : r ≠ q) :
    (k.setSeq q x).seq r = k.seq r := by
  cases q <;> cases r <;> first | rfl | exact absurd rfl h

@[simp] theorem Cluster.setSeq_setSeq (k : Cluster) (q : SeqId) (x y : Sequencer) :
    (k.setSeq q x).setSeq q y = k.setSeq q y := by
  cases q <;> rfl

@[simp] theorem State.seq_mapSeq_same (s : State) (c : Nat) (q : SeqId) (f : Sequencer → Sequencer) :
    (s.mapSeq c q f).seq c q = f (s.seq c q) := by
  simp [State.seq, State.mapSeq]

@[simp] theorem State.me_mapMe (s : State) (f : Sequencer → Sequencer) : (s.mapMe f).me = f s.me :=
  State.seq_mapSeq_same _ _ _ _

theorem State.seq_mapSeq_ne (s : State) (c d : Nat) (q r : SeqId) (f : Sequencer → Sequencer)
    (h : d ≠ c ∨ r ≠ q) : (s.mapSeq c q f).seq d r = s.seq d r := by
  unfold State.seq State.mapSeq
  by_cases hd : d = c
  · subst hd
    simp [Cluster.seq_setSeq_ne _ _ _ _ (h.resolve_left (fun e => e rfl))]
  · rw [State.cluster_mapCl_ne _ _ _ _ hd]

@[simp] theorem State.mapMe_mapMe (s : State) (f g : Sequencer → Sequencer) :
    (s.mapMe f).mapMe g = s.mapMe fun x => g (f x) := by
  simp [State.mapMe, State.mapSeq, State.mapCl, State.setCl, State.cluster, Table.get_set_same, Table.set_set]

/-! ### Cluster: a sequencer changed leaves every other field -/

@[simp] theorem Cluster.setSeq_task (k : Cluster) (q : SeqId) (x : Sequencer) : (k.setSeq q x).task = k.task := by cases q <;> rfl
@[simp] theorem Cluster.setSeq_staged (k : Cluster) (q : SeqId) (x : Sequencer) : (k.setSeq q x).staged = k.staged := by cases q <;> rfl
@[simp] theorem Cluster.setSeq_events (k : Cluster) (q : SeqId) (x : Sequencer) : (k.setSeq q x).events = k.events := by cases q <;> rfl
@[simp] theorem Cluster.setSeq_evRel (k : Cluster) (q : SeqId) (x : Sequencer) : (k.setSeq q x).evRel = k.evRel := by cases q <;> rfl
@[simp] theorem Cluster.setSeq_evAt (k : Cluster) (q : SeqId) (x : Sequencer) : (k.setSeq q x).evAt = k.evAt := by cases q <;> rfl
@[simp] theorem Cluster.setSeq_rings (k : Cluster) (q : SeqId) (x : Sequencer) : (k.setSeq q x).rings = k.rings := by cases q <;> rfl
@[simp] theorem Cluster.setSeq_tiles (k : Cluster) (q : SeqId) (x : Sequencer) : (k.setSeq q x).tiles = k.tiles := by cases q <;> rfl
@[simp] theorem Cluster.setSeq_tileQ (k : Cluster) (q : SeqId) (x : Sequencer) : (k.setSeq q x).tileQ = k.tileQ := by cases q <;> rfl
@[simp] theorem Cluster.setSeq_tilePtr (k : Cluster) (q : SeqId) (x : Sequencer) : (k.setSeq q x).tilePtr = k.tilePtr := by cases q <;> rfl
@[simp] theorem Cluster.setSeq_tileAt (k : Cluster) (q : SeqId) (x : Sequencer) : (k.setSeq q x).tileAt = k.tileAt := by cases q <;> rfl
@[simp] theorem Cluster.setSeq_slots (k : Cluster) (q : SeqId) (x : Sequencer) : (k.setSeq q x).slots = k.slots := by cases q <;> rfl
@[simp] theorem Cluster.setSeq_fab (k : Cluster) (q : SeqId) (x : Sequencer) : (k.setSeq q x).fab = k.fab := by cases q <;> rfl
@[simp] theorem Cluster.setSeq_bins (k : Cluster) (q : SeqId) (x : Sequencer) : (k.setSeq q x).bins = k.bins := by cases q <;> rfl
@[simp] theorem Cluster.setSeq_pushSlot (k : Cluster) (q : SeqId) (x : Sequencer) : (k.setSeq q x).pushSlot = k.pushSlot := by cases q <;> rfl
@[simp] theorem Cluster.setSeq_startQ (k : Cluster) (q : SeqId) (x : Sequencer) : (k.setSeq q x).startQ = k.startQ := by cases q <;> rfl
@[simp] theorem Cluster.setSeq_loads (k : Cluster) (q : SeqId) (x : Sequencer) : (k.setSeq q x).loads = k.loads := by cases q <;> rfl
@[simp] theorem Cluster.setSeq_copy (k : Cluster) (q : SeqId) (x : Sequencer) : (k.setSeq q x).copy = k.copy := by cases q <;> rfl
@[simp] theorem Cluster.setSeq_mat (k : Cluster) (q : SeqId) (x : Sequencer) : (k.setSeq q x).mat = k.mat := by cases q <;> rfl
@[simp] theorem Cluster.setSeq_fWrites (k : Cluster) (q : SeqId) (x : Sequencer) : (k.setSeq q x).fWrites = k.fWrites := by cases q <;> rfl
@[simp] theorem Cluster.setSeq_fSeen (k : Cluster) (q : SeqId) (x : Sequencer) : (k.setSeq q x).fSeen = k.fSeen := by cases q <;> rfl
@[simp] theorem Cluster.setSeq_tlb (k : Cluster) (q : SeqId) (x : Sequencer) : (k.setSeq q x).tlb = k.tlb := by cases q <;> rfl
@[simp] theorem Cluster.setSeq_misses (k : Cluster) (q : SeqId) (x : Sequencer) : (k.setSeq q x).misses = k.misses := by cases q <;> rfl
@[simp] theorem Cluster.setSeq_clk (k : Cluster) (q : SeqId) (x : Sequencer) : (k.setSeq q x).clk = k.clk := by cases q <;> rfl
@[simp] theorem Cluster.setSeq_blocked (k : Cluster) (q : SeqId) (x : Sequencer) : (k.setSeq q x).blocked = k.blocked := by cases q <;> rfl
@[simp] theorem Cluster.setSeq_power (k : Cluster) (q : SeqId) (x : Sequencer) : (k.setSeq q x).power = k.power := by cases q <;> rfl
@[simp] theorem Cluster.setSeq_events10 (k : Cluster) (q : SeqId) (x : Sequencer) : (k.setSeq q x).events10 = k.events10 := by cases q <;> rfl
@[simp] theorem Cluster.setSeq_wdog (k : Cluster) (q : SeqId) (x : Sequencer) : (k.setSeq q x).wdog = k.wdog := by cases q <;> rfl
@[simp] theorem Cluster.setSeq_saving (k : Cluster) (q : SeqId) (x : Sequencer) : (k.setSeq q x).saving = k.saving := by cases q <;> rfl
@[simp] theorem Cluster.setSeq_usedMo (k : Cluster) (q : SeqId) (x : Sequencer) : (k.setSeq q x).usedMo = k.usedMo := by cases q <;> rfl
@[simp] theorem Cluster.setSeq_usedDo (k : Cluster) (q : SeqId) (x : Sequencer) : (k.setSeq q x).usedDo = k.usedDo := by cases q <;> rfl
@[simp] theorem Cluster.setSeq_usedSy (k : Cluster) (q : SeqId) (x : Sequencer) : (k.setSeq q x).usedSy = k.usedSy := by cases q <;> rfl
@[simp] theorem Cluster.setSeq_usedHost (k : Cluster) (q : SeqId) (x : Sequencer) : (k.setSeq q x).usedHost = k.usedHost := by cases q <;> rfl

/-! ### Sequencer: registers, predicates and the pc -/

@[simp] theorem Sequencer.setReg_preds (x : Sequencer) (r : Reg) (v : Word) : (x.setReg r v).preds = x.preds := by
  unfold Sequencer.setReg; split <;> rfl
@[simp] theorem Sequencer.setReg_pc (x : Sequencer) (r : Reg) (v : Word) : (x.setReg r v).pc = x.pc := by
  unfold Sequencer.setReg; split <;> rfl
@[simp] theorem Sequencer.setReg_pl (x : Sequencer) (r : Reg) (v : Word) : (x.setReg r v).pl = x.pl := by
  unfold Sequencer.setReg; split <;> rfl
@[simp] theorem Sequencer.setReg_ppl (x : Sequencer) (r : Reg) (v : Word) : (x.setReg r v).ppl = x.ppl := by
  unfold Sequencer.setReg; split <;> rfl
@[simp] theorem Sequencer.setReg_amask (x : Sequencer) (r : Reg) (v : Word) : (x.setReg r v).amask = x.amask := by
  unfold Sequencer.setReg; split <;> rfl
@[simp] theorem Sequencer.setReg_svscr (x : Sequencer) (r : Reg) (v : Word) : (x.setReg r v).svscr = x.svscr := by
  unfold Sequencer.setReg; split <;> rfl
@[simp] theorem Sequencer.setReg_frame (x : Sequencer) (r : Reg) (v : Word) : (x.setReg r v).frame = x.frame := by
  unfold Sequencer.setReg; split <;> rfl
@[simp] theorem Sequencer.setReg_shadow (x : Sequencer) (r : Reg) (v : Word) : (x.setReg r v).shadow = x.shadow := by
  unfold Sequencer.setReg; split <;> rfl
@[simp] theorem Sequencer.setReg_inProg (x : Sequencer) (r : Reg) (v : Word) : (x.setReg r v).inProg = x.inProg := by
  unfold Sequencer.setReg; split <;> rfl
@[simp] theorem Sequencer.setReg_inSup (x : Sequencer) (r : Reg) (v : Word) : (x.setReg r v).inSup = x.inSup := by
  unfold Sequencer.setReg; split <;> rfl
@[simp] theorem Sequencer.setReg_idle (x : Sequencer) (r : Reg) (v : Word) : (x.setReg r v).idle = x.idle := by
  unfold Sequencer.setReg; split <;> rfl
@[simp] theorem Sequencer.setReg_exited (x : Sequencer) (r : Reg) (v : Word) : (x.setReg r v).exited = x.exited := by
  unfold Sequencer.setReg; split <;> rfl
@[simp] theorem Sequencer.setReg_sleeping (x : Sequencer) (r : Reg) (v : Word) : (x.setReg r v).sleeping = x.sleeping := by
  unfold Sequencer.setReg; split <;> rfl
@[simp] theorem Sequencer.setReg_halted (x : Sequencer) (r : Reg) (v : Word) : (x.setReg r v).halted = x.halted := by
  unfold Sequencer.setReg; split <;> rfl
@[simp] theorem Sequencer.setReg_haltWant (x : Sequencer) (r : Reg) (v : Word) : (x.setReg r v).haltWant = x.haltWant := by
  unfold Sequencer.setReg; split <;> rfl
@[simp] theorem Sequencer.setReg_haltAtBkpt (x : Sequencer) (r : Reg) (v : Word) : (x.setReg r v).haltAtBkpt = x.haltAtBkpt := by
  unfold Sequencer.setReg; split <;> rfl
@[simp] theorem Sequencer.setReg_outstanding (x : Sequencer) (r : Reg) (v : Word) : (x.setReg r v).outstanding = x.outstanding := by
  unfold Sequencer.setReg; split <;> rfl
@[simp] theorem Sequencer.setReg_waits (x : Sequencer) (r : Reg) (v : Word) : (x.setReg r v).waits = x.waits := by
  unfold Sequencer.setReg; split <;> rfl
@[simp] theorem Sequencer.setReg_serial (x : Sequencer) (r : Reg) (v : Word) : (x.setReg r v).serial = x.serial := by
  unfold Sequencer.setReg; split <;> rfl
@[simp] theorem Sequencer.setReg_engFaults (x : Sequencer) (r : Reg) (v : Word) : (x.setReg r v).engFaults = x.engFaults := by
  unfold Sequencer.setReg; split <;> rfl
@[simp] theorem Sequencer.setReg_engPage (x : Sequencer) (r : Reg) (v : Word) : (x.setReg r v).engPage = x.engPage := by
  unfold Sequencer.setReg; split <;> rfl
@[simp] theorem Sequencer.setReg_dlrisk (x : Sequencer) (r : Reg) (v : Word) : (x.setReg r v).dlrisk = x.dlrisk := by
  unfold Sequencer.setReg; split <;> rfl
@[simp] theorem Sequencer.setReg_mchk (x : Sequencer) (r : Reg) (v : Word) : (x.setReg r v).mchk = x.mchk := by
  unfold Sequencer.setReg; split <;> rfl
@[simp] theorem Sequencer.setReg_own (x : Sequencer) (r : Reg) (v : Word) : (x.setReg r v).own = x.own := by
  unfold Sequencer.setReg; split <;> rfl
@[simp] theorem Sequencer.setReg_seen (x : Sequencer) (r : Reg) (v : Word) : (x.setReg r v).seen = x.seen := by
  unfold Sequencer.setReg; split <;> rfl
@[simp] theorem Sequencer.setReg_past (x : Sequencer) (r : Reg) (v : Word) : (x.setReg r v).past = x.past := by
  unfold Sequencer.setReg; split <;> rfl
@[simp] theorem Sequencer.setReg_obs (x : Sequencer) (r : Reg) (v : Word) : (x.setReg r v).obs = x.obs := by
  unfold Sequencer.setReg; split <;> rfl
@[simp] theorem Sequencer.setReg_acqAt (x : Sequencer) (r : Reg) (v : Word) : (x.setReg r v).acqAt = x.acqAt := by
  unfold Sequencer.setReg; split <;> rfl
@[simp] theorem Sequencer.setReg_resume (x : Sequencer) (r : Reg) (v : Word) : (x.setReg r v).resume = x.resume := by
  unfold Sequencer.setReg; split <;> rfl
@[simp] theorem Sequencer.setReg_floor (x : Sequencer) (r : Reg) (v : Word) : (x.setReg r v).floor = x.floor := by
  unfold Sequencer.setReg; split <;> rfl
@[simp] theorem Sequencer.setPred_regs (x : Sequencer) (p : PReg) (v : Bool) : (x.setPred p v).regs = x.regs := by
  unfold Sequencer.setPred; split <;> rfl
@[simp] theorem Sequencer.setPred_pc (x : Sequencer) (p : PReg) (v : Bool) : (x.setPred p v).pc = x.pc := by
  unfold Sequencer.setPred; split <;> rfl
@[simp] theorem Sequencer.setPred_pl (x : Sequencer) (p : PReg) (v : Bool) : (x.setPred p v).pl = x.pl := by
  unfold Sequencer.setPred; split <;> rfl
@[simp] theorem Sequencer.setPred_ppl (x : Sequencer) (p : PReg) (v : Bool) : (x.setPred p v).ppl = x.ppl := by
  unfold Sequencer.setPred; split <;> rfl
@[simp] theorem Sequencer.setPred_amask (x : Sequencer) (p : PReg) (v : Bool) : (x.setPred p v).amask = x.amask := by
  unfold Sequencer.setPred; split <;> rfl
@[simp] theorem Sequencer.setPred_svscr (x : Sequencer) (p : PReg) (v : Bool) : (x.setPred p v).svscr = x.svscr := by
  unfold Sequencer.setPred; split <;> rfl
@[simp] theorem Sequencer.setPred_frame (x : Sequencer) (p : PReg) (v : Bool) : (x.setPred p v).frame = x.frame := by
  unfold Sequencer.setPred; split <;> rfl
@[simp] theorem Sequencer.setPred_shadow (x : Sequencer) (p : PReg) (v : Bool) : (x.setPred p v).shadow = x.shadow := by
  unfold Sequencer.setPred; split <;> rfl
@[simp] theorem Sequencer.setPred_inProg (x : Sequencer) (p : PReg) (v : Bool) : (x.setPred p v).inProg = x.inProg := by
  unfold Sequencer.setPred; split <;> rfl
@[simp] theorem Sequencer.setPred_inSup (x : Sequencer) (p : PReg) (v : Bool) : (x.setPred p v).inSup = x.inSup := by
  unfold Sequencer.setPred; split <;> rfl
@[simp] theorem Sequencer.setPred_idle (x : Sequencer) (p : PReg) (v : Bool) : (x.setPred p v).idle = x.idle := by
  unfold Sequencer.setPred; split <;> rfl
@[simp] theorem Sequencer.setPred_exited (x : Sequencer) (p : PReg) (v : Bool) : (x.setPred p v).exited = x.exited := by
  unfold Sequencer.setPred; split <;> rfl
@[simp] theorem Sequencer.setPred_sleeping (x : Sequencer) (p : PReg) (v : Bool) : (x.setPred p v).sleeping = x.sleeping := by
  unfold Sequencer.setPred; split <;> rfl
@[simp] theorem Sequencer.setPred_halted (x : Sequencer) (p : PReg) (v : Bool) : (x.setPred p v).halted = x.halted := by
  unfold Sequencer.setPred; split <;> rfl
@[simp] theorem Sequencer.setPred_haltWant (x : Sequencer) (p : PReg) (v : Bool) : (x.setPred p v).haltWant = x.haltWant := by
  unfold Sequencer.setPred; split <;> rfl
@[simp] theorem Sequencer.setPred_haltAtBkpt (x : Sequencer) (p : PReg) (v : Bool) : (x.setPred p v).haltAtBkpt = x.haltAtBkpt := by
  unfold Sequencer.setPred; split <;> rfl
@[simp] theorem Sequencer.setPred_outstanding (x : Sequencer) (p : PReg) (v : Bool) : (x.setPred p v).outstanding = x.outstanding := by
  unfold Sequencer.setPred; split <;> rfl
@[simp] theorem Sequencer.setPred_waits (x : Sequencer) (p : PReg) (v : Bool) : (x.setPred p v).waits = x.waits := by
  unfold Sequencer.setPred; split <;> rfl
@[simp] theorem Sequencer.setPred_serial (x : Sequencer) (p : PReg) (v : Bool) : (x.setPred p v).serial = x.serial := by
  unfold Sequencer.setPred; split <;> rfl
@[simp] theorem Sequencer.setPred_engFaults (x : Sequencer) (p : PReg) (v : Bool) : (x.setPred p v).engFaults = x.engFaults := by
  unfold Sequencer.setPred; split <;> rfl
@[simp] theorem Sequencer.setPred_engPage (x : Sequencer) (p : PReg) (v : Bool) : (x.setPred p v).engPage = x.engPage := by
  unfold Sequencer.setPred; split <;> rfl
@[simp] theorem Sequencer.setPred_dlrisk (x : Sequencer) (p : PReg) (v : Bool) : (x.setPred p v).dlrisk = x.dlrisk := by
  unfold Sequencer.setPred; split <;> rfl
@[simp] theorem Sequencer.setPred_mchk (x : Sequencer) (p : PReg) (v : Bool) : (x.setPred p v).mchk = x.mchk := by
  unfold Sequencer.setPred; split <;> rfl
@[simp] theorem Sequencer.setPred_own (x : Sequencer) (p : PReg) (v : Bool) : (x.setPred p v).own = x.own := by
  unfold Sequencer.setPred; split <;> rfl
@[simp] theorem Sequencer.setPred_seen (x : Sequencer) (p : PReg) (v : Bool) : (x.setPred p v).seen = x.seen := by
  unfold Sequencer.setPred; split <;> rfl
@[simp] theorem Sequencer.setPred_past (x : Sequencer) (p : PReg) (v : Bool) : (x.setPred p v).past = x.past := by
  unfold Sequencer.setPred; split <;> rfl
@[simp] theorem Sequencer.setPred_obs (x : Sequencer) (p : PReg) (v : Bool) : (x.setPred p v).obs = x.obs := by
  unfold Sequencer.setPred; split <;> rfl
@[simp] theorem Sequencer.setPred_acqAt (x : Sequencer) (p : PReg) (v : Bool) : (x.setPred p v).acqAt = x.acqAt := by
  unfold Sequencer.setPred; split <;> rfl
@[simp] theorem Sequencer.setPred_resume (x : Sequencer) (p : PReg) (v : Bool) : (x.setPred p v).resume = x.resume := by
  unfold Sequencer.setPred; split <;> rfl
@[simp] theorem Sequencer.setPred_floor (x : Sequencer) (p : PReg) (v : Bool) : (x.setPred p v).floor = x.floor := by
  unfold Sequencer.setPred; split <;> rfl
@[simp] theorem Sequencer.skip_regs (x : Sequencer) (n : Nat) : (x.skip n).regs = x.regs := rfl
@[simp] theorem Sequencer.skip_preds (x : Sequencer) (n : Nat) : (x.skip n).preds = x.preds := rfl
@[simp] theorem Sequencer.skip_pl (x : Sequencer) (n : Nat) : (x.skip n).pl = x.pl := rfl
@[simp] theorem Sequencer.skip_ppl (x : Sequencer) (n : Nat) : (x.skip n).ppl = x.ppl := rfl
@[simp] theorem Sequencer.skip_amask (x : Sequencer) (n : Nat) : (x.skip n).amask = x.amask := rfl
@[simp] theorem Sequencer.skip_svscr (x : Sequencer) (n : Nat) : (x.skip n).svscr = x.svscr := rfl
@[simp] theorem Sequencer.skip_frame (x : Sequencer) (n : Nat) : (x.skip n).frame = x.frame := rfl
@[simp] theorem Sequencer.skip_shadow (x : Sequencer) (n : Nat) : (x.skip n).shadow = x.shadow := rfl
@[simp] theorem Sequencer.skip_inProg (x : Sequencer) (n : Nat) : (x.skip n).inProg = x.inProg := rfl
@[simp] theorem Sequencer.skip_inSup (x : Sequencer) (n : Nat) : (x.skip n).inSup = x.inSup := rfl
@[simp] theorem Sequencer.skip_idle (x : Sequencer) (n : Nat) : (x.skip n).idle = x.idle := rfl
@[simp] theorem Sequencer.skip_exited (x : Sequencer) (n : Nat) : (x.skip n).exited = x.exited := rfl
@[simp] theorem Sequencer.skip_sleeping (x : Sequencer) (n : Nat) : (x.skip n).sleeping = x.sleeping := rfl
@[simp] theorem Sequencer.skip_halted (x : Sequencer) (n : Nat) : (x.skip n).halted = x.halted := rfl
@[simp] theorem Sequencer.skip_haltWant (x : Sequencer) (n : Nat) : (x.skip n).haltWant = x.haltWant := rfl
@[simp] theorem Sequencer.skip_haltAtBkpt (x : Sequencer) (n : Nat) : (x.skip n).haltAtBkpt = x.haltAtBkpt := rfl
@[simp] theorem Sequencer.skip_outstanding (x : Sequencer) (n : Nat) : (x.skip n).outstanding = x.outstanding := rfl
@[simp] theorem Sequencer.skip_waits (x : Sequencer) (n : Nat) : (x.skip n).waits = x.waits := rfl
@[simp] theorem Sequencer.skip_serial (x : Sequencer) (n : Nat) : (x.skip n).serial = x.serial := rfl
@[simp] theorem Sequencer.skip_engFaults (x : Sequencer) (n : Nat) : (x.skip n).engFaults = x.engFaults := rfl
@[simp] theorem Sequencer.skip_engPage (x : Sequencer) (n : Nat) : (x.skip n).engPage = x.engPage := rfl
@[simp] theorem Sequencer.skip_dlrisk (x : Sequencer) (n : Nat) : (x.skip n).dlrisk = x.dlrisk := rfl
@[simp] theorem Sequencer.skip_mchk (x : Sequencer) (n : Nat) : (x.skip n).mchk = x.mchk := rfl
@[simp] theorem Sequencer.skip_own (x : Sequencer) (n : Nat) : (x.skip n).own = x.own := rfl
@[simp] theorem Sequencer.skip_seen (x : Sequencer) (n : Nat) : (x.skip n).seen = x.seen := rfl
@[simp] theorem Sequencer.skip_past (x : Sequencer) (n : Nat) : (x.skip n).past = x.past := rfl
@[simp] theorem Sequencer.skip_obs (x : Sequencer) (n : Nat) : (x.skip n).obs = x.obs := rfl
@[simp] theorem Sequencer.skip_acqAt (x : Sequencer) (n : Nat) : (x.skip n).acqAt = x.acqAt := rfl
@[simp] theorem Sequencer.skip_resume (x : Sequencer) (n : Nat) : (x.skip n).resume = x.resume := rfl
@[simp] theorem Sequencer.skip_floor (x : Sequencer) (n : Nat) : (x.skip n).floor = x.floor := rfl

@[simp] theorem Sequencer.skip_pc (x : Sequencer) (n : Nat) : (x.skip n).pc = x.pc + w64 n := rfl

@[simp] theorem Sequencer.skip_reg (x : Sequencer) (n : Nat) (r : Reg) : (x.skip n).reg r = x.reg r := rfl

@[simp] theorem Sequencer.skip_pred (x : Sequencer) (n : Nat) (p : PReg) : (x.skip n).pred p = x.pred p := rfl

/-- s0 reads as zero in every state (R144). -/
@[simp] theorem Sequencer.reg_zero (x : Sequencer) : x.reg 0 = 0 := rfl

/-- p0 reads as true in every state (R144). -/
@[simp] theorem Sequencer.pred_zero (x : Sequencer) : x.pred 0 = true := rfl

/-- A register after a write: the value where it is the destination and not s0 (R110, R144). -/
theorem Sequencer.reg_setReg (x : Sequencer) (d r : Reg) (v : Word) :
    (x.setReg d v).reg r = if r = d ∧ r ≠ 0 then v else x.reg r := by
  unfold Sequencer.setReg Sequencer.reg
  by_cases hd : d = 0
  · subst hd; by_cases hr : r = 0 <;> simp [hr]
  · by_cases hr : r = 0
    · subst hr; simp
    · by_cases h : r = d
      · subst h; simp [hd]
      · have hn : d.val ≠ r.val := fun e => h (Fin.ext e.symm)
        simp [hd, hr, h, hn]

/-- A predicate after a write: the value where it is the destination and not p0 (R144). -/
theorem Sequencer.pred_setPred (x : Sequencer) (d p : PReg) (v : Bool) :
    (x.setPred d v).pred p = if p = d ∧ p ≠ 0 then v else x.pred p := by
  unfold Sequencer.setPred Sequencer.pred
  by_cases hd : d = 0
  · subst hd; by_cases hr : p = 0 <;> simp [hr]
  · by_cases hr : p = 0
    · subst hr; simp
    · by_cases h : p = d
      · subst h; simp [hd]
      · have hn : d.val ≠ p.val := fun e => h (Fin.ext e.symm)
        simp [hd, hr, h, hn]

end Sys2Proof.Machine
end

