-- ==== Sys2Proof/Laws/Shared.lean ====
section
/-! SUPPORT. What each shared operation can do, said once: the frames of an update of one sequencer or one cluster, the
completion of an instruction that writes one result, an operation as it issues, a trap, and a release with nothing on its
way. -/

namespace Sys2Proof.Machine

/-! ### Frames -/

theorem State.here_mapMe (s : State) (f : Sequencer → Sequencer) : (s.mapMe f).here = s.here.setSeq s.cur.2 (f s.me) := by
  simp [State.here, State.mapMe, State.mapSeq, State.me, State.seq]

theorem onlySeq_mapMe (s : State) (f : Sequencer → Sequencer) : OnlySeq s (s.mapMe f) := by
  refine ⟨rfl, ?_, ?_, ?_, fun _ => rfl⟩
  · intro c hc; exact State.cluster_mapCl_ne _ _ _ _ hc
  · intro x
    show ((s.mapMe f).cluster s.cur.1).setSeq s.cur.2 x = _
    simp [State.mapMe, State.mapSeq, State.here]
  · intro key n
    unfold State.rawRead
    split
    · by_cases h : (key - 2 ^ 60) / 2 ^ 21 = s.cur.1
      · rw [h]; simp [State.mapMe, State.mapSeq]
      · rw [show (s.mapMe f).cluster ((key - 2 ^ 60) / 2 ^ 21) = s.cluster ((key - 2 ^ 60) / 2 ^ 21) from
          State.cluster_mapCl_ne _ _ _ _ h]
    · rfl

theorem onlyCluster_refl (s : State) (c : Nat) : OnlyCluster s s c := ⟨rfl, fun _ _ => rfl, fun _ _ _ => rfl, fun _ => rfl⟩

/-- The frame of an update of clusters alone. -/
theorem onlyCluster_of {s t : State} {c : Nat} (h : ({ t with clusters := s.clusters } : State) = s)
    (ho : ∀ d, d ≠ c → t.cluster d = s.cluster d) : OnlyCluster s t c := by
  have hm : t.mem = s.mem := by rw [← h]
  have hh : t.host = s.host := by rw [← h]
  refine ⟨h, ho, fun key n hk => ?_, fun a => by rw [hh]⟩
  unfold State.rawRead
  rw [if_neg (by omega), if_neg (by omega), hm]

theorem onlyCluster_mapCl (s : State) (c : Nat) (f : Cluster → Cluster) : OnlyCluster s (s.mapCl c f) c :=
  onlyCluster_of rfl fun _ hd => State.cluster_mapCl_ne _ _ _ _ hd

theorem onlyCluster_setCl (s : State) (c : Nat) (k : Cluster) : OnlyCluster s (s.setCl c k) c :=
  onlyCluster_of rfl fun _ hd => State.cluster_setCl_ne _ _ _ _ hd

theorem onlyCluster_trans {s t u : State} {c : Nat} (h1 : OnlyCluster s t c) (h2 : OnlyCluster t u c) : OnlyCluster s u c where
  module_ := by
    have a := h1.module_; have b := h2.module_
    rw [← a]; rw [← b]
  others := fun d hd => (h2.others d hd).trans (h1.others d hd)
  bytes := fun key n hk => (h2.bytes key n hk).trans (h1.bytes key n hk)
  hostBytes := fun a => (h2.hostBytes a).trans (h1.hostBytes a)

theorem OnlySeq.only {s t : State} (h : OnlySeq s t) : OnlyCluster s t s.cur.1 :=
  onlyCluster_of h.module_ h.others

/-! ### One result -/

theorem writes_put (s : State) (i : Instr) (d : Reg) (v : Word) (h : exec i s = .next (s.put d v)) : Writes s i d v := by
  refine ⟨_, h, onlySeq_mapMe _ _, ?_, ?_, ?_, ?_⟩
  · simp [Sequencer.OnlyRegs, State.put, Sequencer.setReg]; split <;> rfl
  · simp [State.put]; rfl
  · intro r; simp [State.put, Sequencer.reg_setReg]
  · intro p; simp [State.put, Sequencer.pred, Sequencer.setReg]; split <;> rfl

theorem writesPred_putPred (s : State) (i : Instr) (d : PReg) (v : Bool) (h : exec i s = .next (s.putPred d v)) :
    WritesPred s i d v := by
  refine ⟨_, h, onlySeq_mapMe _ _, ?_, ?_, ?_, ?_⟩
  · simp [Sequencer.OnlyRegs, State.putPred, Sequencer.setPred]; split <;> rfl
  · simp [State.putPred]; rfl
  · intro p; simp [State.putPred, Sequencer.pred_setPred]
  · intro r; simp [State.putPred, Sequencer.reg, Sequencer.setPred]; split <;> (try rfl); split <;> rfl

/-! ### Operations as they issue (R145, R158) -/

theorem checkEa_ok {ea : Word} {al n : Nat} (h : EaOk ea al n) : checkEa ea al n = none := by
  obtain ⟨h1, h2, h3⟩ := h
  unfold checkEa bits touchesHole winEnd winHole
  have : ea.toNat / 2 ^ 55 % 2 ^ (63 + 1 - 55) = 0 := by rw [Nat.div_eq_of_lt h1, Nat.zero_mod]
  rw [this]
  simp [h2]; omega

theorem issues_issueOp {s : State} {i i' : Instr} {len kind ea al n d1 d2 dst} {rel : Option Release}
    {acq : Option (Mask × Scope)} (hok : EaOk ea al n)
    (h : exec i s = .next (s.issueOp i' len kind ea al n d1 d2 dst rel acq)) :
    Issues s i len { s.op i' kind ea d1 d2 dst with rel := rel, acq := acq } := by
  refine ⟨_, h, ?_, ?_⟩ <;> simp only [State.issueOp, checkEa_ok hok]
  · exact onlySeq_mapMe _ _
  · simp [State.op]; try rfl

/-! ### Traps (R350 to R354) -/

theorem State.mapSeq_mapMe (s : State) (f g : Sequencer → Sequencer) :
    (s.mapMe f).mapSeq s.cur.1 s.cur.2 g = s.mapMe (g ∘ f) := by
  simp [State.mapMe, State.mapSeq, State.mapCl, State.setCl, Table.set_set, State.cluster, Table.get_set_same]

/-- Writing a register changes registers alone. -/
theorem Sequencer.setReg_regs (x : Sequencer) (d : Reg) (v : Word) : ∃ r, x.setReg d v = { x with regs := r } := by
  unfold Sequencer.setReg; split
  · exact ⟨x.regs, rfl⟩
  · exact ⟨_, rfl⟩

/-- Writing back an operation's result changes registers alone (R145). -/
theorem Sequencer.writeBack_regs (x : Sequencer) (o : LongOp) : ∃ r, x.writeBack o = { x with regs := r } := by
  unfold Sequencer.writeBack
  split
  · split <;> (try exact Sequencer.setReg_regs _ _ _) <;> (try exact ⟨x.regs, rfl⟩)
    rename_i v _ _ _ _
    obtain ⟨r1, h1⟩ := x.setReg_regs (Fin.ofNat 32 o.dst) v
    rw [h1]
    exact Sequencer.setReg_regs { x with regs := r1 } _ _
  · exact ⟨x.regs, rfl⟩

theorem Sequencer.foldl_writeBack (l : List LongOp) : ∀ x : Sequencer, ∃ r,
    l.foldl (fun y o => if o.isDone then y.writeBack o else y) x = { x with regs := r } := by
  induction l with
  | nil => intro x; exact ⟨x.regs, rfl⟩
  | cons o r ih =>
    intro x
    rw [List.foldl_cons]
    split
    · obtain ⟨r1, h1⟩ := x.writeBack_regs o
      rw [h1]
      obtain ⟨r2, h2⟩ := ih { x with regs := r1 }
      exact ⟨r2, h2⟩
    · exact ih x

/-- The operations that have performed write their results; the others stay, the faulted one first (R171). -/
theorem Sequencer.settle_regs (x : Sequencer) : ∃ r l, x.settle = { x with regs := r, outstanding := l } := by
  obtain ⟨r, h⟩ := Sequencer.foldl_writeBack x.outstanding x
  unfold Sequencer.settle
  rw [h]
  exact ⟨r, _, rfl⟩

theorem Sequencer.settle_pl (x : Sequencer) : x.settle.pl = x.pl := by
  obtain ⟨r, l, h⟩ := x.settle_regs; rw [h]
theorem Sequencer.settle_pc (x : Sequencer) : x.settle.pc = x.pc := by
  obtain ⟨r, l, h⟩ := x.settle_regs; rw [h]
theorem Sequencer.settle_inProg (x : Sequencer) : x.settle.inProg = x.inProg := by
  obtain ⟨r, l, h⟩ := x.settle_regs; rw [h]
theorem Sequencer.settle_frame (x : Sequencer) : x.settle.frame = x.frame := by
  obtain ⟨r, l, h⟩ := x.settle_regs; rw [h]
theorem Sequencer.settle_pred (x : Sequencer) (p : PReg) : x.settle.pred p = x.pred p := by
  obtain ⟨r, l, h⟩ := x.settle_regs; rw [h]; rfl

theorem State.handler_mapMe (s : State) (f : Sequencer → Sequencer) (h : (f s.me).inProg = s.me.inProg) (cause detail : Nat) :
    (s.mapMe f).handler s.cur.1 s.cur.2 cause detail = s.handler s.cur.1 s.cur.2 cause detail := by
  have ht : ((s.mapMe f).cluster s.cur.1).task = (s.cluster s.cur.1).task := by
    show ((s.mapMe f).here).task = s.here.task
    rw [State.here_mapMe]; cases s.cur.2 <;> rfl
  have hs : ((s.mapMe f).seq s.cur.1 s.cur.2).inProg = (s.seq s.cur.1 s.cur.2).inProg := by
    show ((s.mapMe f).me).inProg = s.me.inProg
    simpa using h
  have hp : (s.mapMe f).part s.cur.1 = s.part s.cur.1 := rfl
  unfold State.handler
  rw [ht, hs, hp]

theorem Cluster.dropReports_setSeq (k : Cluster) (q : SeqId) (x : Sequencer) :
    (k.setSeq q x).dropReports = k.dropReports.setSeq q x := by cases q <;> rfl

theorem Cluster.seq_dropReports (k : Cluster) (q : SeqId) : k.dropReports.seq q = k.seq q := by cases q <;> rfl

theorem State.me_dropReports (s : State) : (s.mapHere (·.dropReports)).me = s.me := by
  simp [State.me, State.seq, State.mapHere, Cluster.seq_dropReports]

/-- An update of the sequencer and the reports dropped, in either order. -/
theorem State.mapMe_dropReports (s : State) (f : Sequencer → Sequencer) :
    (s.mapMe f).mapCl s.cur.1 (·.dropReports) = (s.mapHere (·.dropReports)).mapMe f := by
  simp [State.mapMe, State.mapHere, State.mapSeq, State.mapCl, State.setCl, Table.set_set, State.cluster,
    Table.get_set_same, Cluster.dropReports_setSeq, Cluster.seq_dropReports]

theorem State.dropAsks_cur (s : State) (a : Agent) : (s.dropAsks a).cur = s.cur := rfl

theorem State.dropAsks_clusters (s : State) (a : Agent) : (s.dropAsks a).clusters = s.clusters := rfl

/-- An update of the sequencer and the reads it has sent let go, in either order. -/
theorem State.dropAsks_mapMe (s : State) (f : Sequencer → Sequencer) (a : Agent) :
    (s.mapMe f).dropAsks a = (s.dropAsks a).mapMe f := rfl

theorem State.me_unasked (s : State) : s.unasked.me = s.me := by
  show (State.mapHere _ _).me = s.me
  rw [State.me_dropReports]
  show ((State.dropAsks s _).clusters.get _ _).seq _ = _
  rw [State.dropAsks_clusters, State.dropAsks_cur]
  rfl

theorem State.unasked_cur (s : State) : s.unasked.cur = s.cur := rfl

/-- A delivery at PL 0, after the operations that have performed wrote their results. -/
theorem State.deliver_settled (s : State) (cause detail : Nat) (arg pc : Word) (done : Bool) (replay : List LongOp)
    (h : s.me.pl = false) :
    (s.mapMe (·.settle)).deliver s.cur.1 s.cur.2 cause detail arg pc done replay
      = s.unasked.mapMe fun x => x.settle.enter (s.handler s.cur.1 s.cur.2 cause detail).1
          (s.handler s.cur.1 s.cur.2 cause detail).2 ⟨pc, causeWord cause detail done, arg, replay⟩ := by
  have hp : ((s.mapMe (·.settle)).seq s.cur.1 s.cur.2).pl = false := by
    show ((s.mapMe (·.settle)).me).pl = false
    simp [Sequencer.settle_pl, h]
  unfold State.deliver
  rw [hp, State.handler_mapMe _ _ (Sequencer.settle_inProg _)]
  simp only [Bool.false_eq_true, if_false, State.dropAsks_mapMe]
  have hd := State.mapMe_dropReports (s.dropAsks s.myAgent) (·.settle)
  rw [State.dropAsks_cur] at hd
  have hm := State.mapSeq_mapMe s.unasked (·.settle) fun x => x.enter (s.handler s.cur.1 s.cur.2 cause detail).1
    (s.handler s.cur.1 s.cur.2 cause detail).2 ⟨pc, causeWord cause detail done, arg, replay⟩
  rw [State.unasked_cur] at hm
  exact (congrArg (fun u => State.mapSeq u _ _ _) hd).trans hm

theorem not_any_sent {s : State} (h : s.CanTrap) : s.me.outstanding.any (·.isSent) = false := by
  simpa using h.2

/-- A delivery at PL 0 leaves what a trap leaves. -/
theorem traps_enter {s : State} {i : Instr} {cause detail : Nat} {arg pc : Word} {done : Bool} (hp : s.me.pl = false)
    (h : exec i s = .next (s.unasked.mapMe fun x => x.settle.enter (s.handler s.cur.1 s.cur.2 cause detail).1
          (s.handler s.cur.1 s.cur.2 cause detail).2 ⟨pc, causeWord cause detail done, arg, s.me.settle.outstanding⟩)) :
    Traps s i cause detail arg pc done := by
  refine ⟨_, h, onlySeq_mapMe _ _, ?_, ?_, ?_, ?_, ?_, ?_, ?_⟩ <;>
    simp only [State.me_mapMe, State.me_unasked, Sequencer.enter]
  · split <;> rfl
  · split <;> rfl
  · split
    · rename_i h1; exact h1.symm
    · rename_i h1
      have h2 : (s.handler s.cur.1 s.cur.2 cause detail).1 = false := by simpa using h1
      show s.me.settle.pl = _
      rw [Sequencer.settle_pl, hp]; exact h2.symm
  · intro hi
    have : s.me.settle.inProg = true := by rw [Sequencer.settle_inProg, hi]
    simp only [this, if_true]
    split <;> exact congrArg some (Sequencer.settle_frame _)
  · split <;> rfl
  · intro r; split <;> rfl
  · intro p
    have := Sequencer.settle_pred s.me p
    split <;> exact this

/-- A precise trap (R125, R170, R171). -/
theorem traps_trap {s : State} {i : Instr} {cause detail : Nat} {arg : Word} (hc : s.CanTrap)
    (h : exec i s = .next (s.trap cause detail arg)) : Traps s i cause detail arg s.me.pc false := by
  apply traps_enter hc.1
  rw [h]
  unfold State.trap
  rw [not_any_sent hc]
  simp only [Bool.false_eq_true, if_false, State.me_mapMe]
  rw [State.deliver_settled _ _ _ _ _ _ _ hc.1, Sequencer.settle_pc]

/-- A trap by an instruction that completes (R165). -/
theorem traps_trapDone {s : State} {i : Instr} {cause : Nat} {arg : Word} (hc : s.CanTrap)
    (h : exec i s = .next (s.trapDone cause arg)) : Traps s i cause 0 arg (s.me.pc + 4) true := by
  apply traps_enter hc.1
  rw [h]
  unfold State.trapDone
  rw [not_any_sent hc]
  simp only [Bool.false_eq_true, if_false, State.me_mapMe]
  rw [State.deliver_settled _ _ _ _ _ _ _ hc.1, Sequencer.settle_pc]

/-! ### Releases with nothing on their way (R91, R97) -/

/-- With no path used there is no marker to send (R97). -/
theorem State.sendMarkers_quiet {s : State} {c : Nat} (h4 : (s.cluster c).usedMo = []) (h5 : (s.cluster c).usedDo = [])
    (h6 : (s.cluster c).usedSy = []) (sc : Scope) : s.sendMarkers c sc = (s, []) := by
  unfold State.sendMarkers
  cases sc <;> simp [Cluster.takePaths, h4, h5, h6]

theorem State.beginRelease_quiet {s : State} (h : s.Quiet) (m : Mask) (sc : Scope) :
    (s.beginRelease s.cur.1 s.cur.2 m sc).1 = s ∧ (s.beginRelease s.cur.1 s.cur.2 m sc).2.mask = m
      ∧ s.releaseReady s.cur.1 s.cur.2 (s.beginRelease s.cur.1 s.cur.2 m sc).2 = true := by
  obtain ⟨h1, h2, h3, h4, h5, h6, h8, h7, h9⟩ := h
  have h8' : (s.cluster s.cur.1).usedHost = false := h8
  have h7' : s.postedOut s.cur.1 false = false := by
    unfold State.postedOut at h7 ⊢
    simp at h7 ⊢
    exact ⟨h7.1, fun h hm hk ha => absurd ha (by simpa using h7.2 h hm hk)⟩
  have h1' : (s.seq s.cur.1 s.cur.2).outstanding = [] := h1
  have h1'' : ((s.cluster s.cur.1).seq s.cur.2).outstanding = [] := h1
  have h3' : (s.cluster s.cur.1).openCmds s.cur.2 = [] := h3
  have h4' : (s.cluster s.cur.1).usedMo = [] := h4
  have h5' : (s.cluster s.cur.1).usedDo = [] := h5
  have h6' : (s.cluster s.cur.1).usedSy = [] := h6
  have hr : ∀ r : Release, r.markers = [] → r.cmds = [] → s.releaseReady s.cur.1 s.cur.2 r = true := by
    intro r hm hc
    unfold State.releaseReady State.releaseDrained State.owesZero
    cases hsc : r.scope <;> simp [h1'', hm, hc, h7, h7', h8', h9, show (Scope.mo == Scope.sy) = false from rfl, show (Scope.do_ == Scope.sy) = false from rfl]
  have hcm : (match engineCls s.cur.2 with
      | some e => if m.getLsbD e = true then (s.cluster s.cur.1).openCmds s.cur.2 else []
      | none => []) = [] := by
    split
    · split <;> simp [h3']
    · rfl
  unfold State.beginRelease
  rw [State.sendMarkers_quiet h4' h5' h6']
  exact ⟨rfl, rfl, hr _ rfl hcm⟩

end Sys2Proof.Machine
end

