-- ==== Sys2Proof/Tests/Slice0.lean ====
section
/-! SUPPORT. Tests: what the well-formedness check refuses, words of the spec with the instructions it writes beside them,
single steps, and for every statement a state and operands that meet its hypotheses. The words and the values come from
the spec's examples and tables, or are worked out by hand from them. -/

namespace Sys2Proof.Tests

open Sys2Proof.Machine

set_option Elab.async false

/-! ### Helpers -/

/-- Unguarded. -/
def on : Guard := ⟨0, false⟩

/-- (!p1), which holds where p1 is false. -/
def notP1 : Guard := ⟨1, true⟩

/-- No option of a copy command. -/
def plain : CopyOpts := ⟨none, .none, false⟩

/-- The answer is a next state with a property. -/
def after (r : Result) (p : State → Bool) : Bool :=
  match r with
  | .next t => p t
  | _ => false

/-- The answer is this very state. -/
def stays (i : Instr) (s : State) : Bool := after (exec i s) fun t => t == s

/-- A sequencer that has started at 0x1000, with these values in s1, s2, … -/
def seqWith (vs : List Nat) : Sequencer :=
  { Sequencer.reset with
    regs := Vector.ofFn fun (r : Fin 32) => if r.val = 0 then 0 else w64 (vs.getD (r.val - 1) 0), pc := 0x1000, idle := false }

/-- A resident, running task of context 5, job 1, gang 0. -/
def task1 : Task := { Task.reset with resident := true, st := .running, ctx := 5, job := 1, n := 1 }

/-- A cluster that runs task1. -/
def cluster1 (x : Sequencer) : Cluster := { Cluster.reset with task := task1, seqC := x }

/-- Cluster 0 of the module, its control sequencer next. -/
def stateOf (k : Cluster) : State := { State.reset with clusters := [(0, k)] }

/-- A running task whose control sequencer holds these values in s1, s2, … -/
def st (vs : List Nat) : State := stateOf (cluster1 (seqWith vs))

/-- The same for the copy and the matrix sequencer. -/
def stY (vs : List Nat) : State :=
  { stateOf { cluster1 (seqWith []) with seqY := seqWith vs } with cur := (0, .copy) }

def stM (vs : List Nat) : State :=
  { stateOf { cluster1 (seqWith []) with seqM := seqWith vs } with cur := (0, .matrix) }

/-- The issuing sequencer changed. -/
def withMe (s : State) (f : Sequencer → Sequencer) : State := s.mapMe f

/-- At PL 1. -/
def super (s : State) : State := s.mapMe fun x => { x with pl := true, inSup := true }

/-- A gang of n clusters that runs. -/
def gang1 (n : Nat) : Gang :=
  { gi := 0, st := .resident, image := 0x10000, argp := 0, thrp := 0, depg := 0, ptvec := 0, thrn := 0, size := n, hdr := [],
    dir := [], readyAt := 0, bonus := 0, clusters := List.range n, world := 0, step := 3, stepStart := 50, deadline := none,
    deadlineSet := false, dlRaised := false, dlPosted := false, dlAt := 0, dlPend := none, colls := [], code := 0, detail := 0, cause := 0,
    errBlk := 0, rankFail := 0, abandoned := false, flags := 0, retired := [], dead := [], knew := [], disc := 0, preAt := 0,
    resumed := false }

/-- Job 1 of context 5 with that gang. -/
def job1 (g : Gang) : Job :=
  { num := 1, ctx := 5, gtab := 0, crec := 0, dep0 := 0, dep1 := 0, parent := 0, dlhint := 0, base := 0, accepted := 0,
    cont := false, inPool := false, live := true, recLeft := none, recIds := [], recHost := false, recZero := none,
    gangs := [g], code := 0, detail := 0, cause := 0, errBlk := 0,
    failGang := 0, failRank := 0, abandoned := false, flags := 0, disc := 0 }

/-- With job 1 of one gang. -/
def withGang (g : Gang) (s : State) : State := { s with jobs := [job1 g] }

/-- A bare long operation with a serial. -/
def op1 (i : Instr) (kind : OpKind) (ea d1 : Word) (dst : Nat) (p : Phase) : LongOp :=
  ⟨i, 0xFFC, kind, ea, d1, 0, dst, none, none, p, 0, [], none⟩

/-! ### Well-formedness: a term each check refuses -/

theorem test_wf_guard : (Instr.nop ⟨0, true⟩).wf = false ∧ (Instr.nop ⟨1, true⟩).wf = true := by decide

theorem test_wf_bitfield : (Instr.bfx on 1 2 40 24).wf = false ∧ (Instr.bfx on 1 2 40 23).wf = true
    ∧ (Instr.bfi on 1 2 1 63).wf = false := by decide

theorem test_wf_predicate_destination :
    ([Instr.cmpEq on 0 1 2, .cmpNe on 0 1 2, .cmpLt on 0 1 2, .cmpGe on 0 1 2, .cmpLtn on 0 1 2, .cmpGen on 0 1 2,
      .cmpiEq on 0 1 2, .cmpiNe on 0 1 2, .cmpiLt on 0 1 2, .cmpiGe on 0 1 2, .cmpiLtn on 0 1 2, .cmpiGen on 0 1 2,
      .pand on 0 1 2, .por on 0 1 2, .pxor on 0 1 2, .pnot on 0 1, .pmov on 0 1].any (·.wf)) = false := by decide

theorem test_wf_loop : (Instr.loop on 0 0).wf = false ∧ (Instr.loop on 1 0).wf = true := by decide

theorem test_wf_ordered_access : (Instr.acqLd on 1 2 3 true 0 .cl 0).wf = false ∧ (Instr.acqLd on 1 2 2 true 0 .cl 2).wf = false
    ∧ (Instr.relSt on 1 2 3 0 .cl 4).wf = false ∧ (Instr.relSt on 1 2 3 0 .cl 8).wf = true := by decide

theorem test_wf_collective_fadd : (Instr.collRed on 0 1 2 8 true 0 0 0).wf = false
    ∧ (Instr.collRed on 0 1 2 8 false 0 0 0).wf = true := by decide

theorem test_wf_trap : (Instr.trap on 2).wf = false ∧ (Instr.trap on 3).wf = true := by decide

theorem test_wf_special_registers : (Instr.mfs on 1 5).wf = false ∧ (Instr.mts on 1 9).wf = false
    ∧ (Instr.mts on 1 0x419).wf = false ∧ (Instr.mtsWsctlSwreq on 1).wf = false := by decide

theorem test_wf_copy_options :
    (Instr.cpyR on 1 2 ⟨none, .dst 3, false⟩ 0).wf = false ∧ (Instr.cpyG on 1 2 3 ⟨none, .src 3, false⟩).wf = false
    ∧ (Instr.cpyS on 1 2 3 ⟨none, .dst 3, false⟩).wf = false ∧ (Instr.cpyMx on 1 2 3 ⟨none, .dst 3, false⟩).wf = false
    ∧ (Instr.cpyPl on 1 2 ⟨none, .src 3, false⟩).wf = false ∧ (Instr.cpyFill on 1 2 ⟨none, .src 3, false⟩).wf = false
    ∧ (Instr.cpy on 1 2 3 ⟨none, .none, true⟩).wf = false ∧ (Instr.cpyF on 1 2 3 ⟨none, .src 3, true⟩ 0).wf = false := by
  decide

theorem test_wf_operand_ring : (Instr.mxcOpa on 1 0 2 0 (some 3)).wf = false ∧ (Instr.mxcOpb on 0 1 2 0 (some 3)).wf = false
    := by decide

theorem test_wf_arm : (Instr.mxcArm on 1 0 0 1 ⟨none, 0, 0, false, false⟩).wf = false
    ∧ (Instr.mxcArm on 1 0 0 2 ⟨none, 0, 0, false, false⟩).wf = true := by decide

theorem test_wf_drain_digits : (Instr.mxcDrainD on 1 2 false none).wf = false ∧ (Instr.mxcDrainD on 1 3 false none).wf = true
    := by decide

theorem test_wf_event : (Instr.taskRetire 0).wf = false := by decide

/-! ### Decoding: words the spec writes out (R107 to R123 and the examples of the families' chapters) -/

theorem test_decode_integer :
    decodeTableWord 32 0x010A6381 = some (.add ⟨2, false⟩ 5 6 7) ∧ decodeTableWord 32 0x000A6387 = some (.divn on 5 6 7)
    ∧ decodeTableWord 32 0x05929001 = some (.addi ⟨3, false⟩ 9 9 1) ∧ decodeTableWord 32 0x200A62C8 = some (.bfx on 5 6 8 11)
    ∧ decodeTableWord 32 0x28087FF0 = some (.movi on 4 0x7FF0) ∧ decodeTableWord 32 0x2C08000D = some (.movs on 4 0xD)
    ∧ decodeTableWord 32 0x30080010 = some (.addpc on 4 16) := by decide

theorem test_decode_predicates :
    decodeTableWord 32 0x4C067FFB = some (.cmpiLt on 3 7 0xFFB) ∧ decodeTableWord 32 0x5C040003 = some (.pnot on 2 0) := by
  decide

theorem test_decode_control :
    decodeTableWord 32 0x60FFFFFD = some (.br ⟨1, true⟩ 0x3FFFFD) ∧ decodeTableWord 32 0x683EC001 = some (.jrl on 31 12)
    ∧ decodeTableWord 32 0x68000002 = some (.nop on) ∧ decodeTableWord 32 0x6C0BFFFD = some (.loop on 5 0x1FFFD) := by decide

theorem test_decode_memory :
    decodeTableWord 32 0x70104A04 = some (.ldW on 8 4 4) ∧ decodeTableWord 32 0x740C4800 = some (.stW on 6 4 0)
    ∧ decodeTableWord 32 0x7C0C2C02 = some (.stp on 3 2 2) := by decide

theorem test_decode_atomics :
    decodeTableWord 32 0x840A4302 = some (.amoAddW on 5 4 6 .mo) ∧ decodeTableWord 32 0x840E9449 = some (.amoFaddRxW on 7 9 8 .di)
    ∧ decodeTableWord 32 0x8C0E440B = some (.casD on 7 4 8 .do_) := by decide

theorem test_decode_ordering :
    decodeTableWord 32 0x90002044 = some (.fenceP on 4 1 .mo)
    ∧ decodeTableWord 64 0x00080081940A4006 = some (.acqLd on 5 4 2 true 1 .mo 8)
    ∧ decodeTableWord 64 0x00000085980C2003 = some (.relSt on 6 2 3 5 .mo 0)
    ∧ decodeTableWord 32 0x9C000105 = some (.sete on 5 4) ∧ decodeTableWord 32 0x9C001005 = some (.clre on 5)
    ∧ decodeTableWord 32 0x9C002105 = some (.waite on 5 4) := by decide

theorem test_decode_rings :
    decodeTableWord 64 0x00000003A0004000 = some (.ringDef on 4 3)
    ∧ decodeTableWord 64 0x00010083A0000001 = some (.rwaitF on 0 3 8 1)
    ∧ decodeTableWord 64 0x00010083A0000004 = some (.radvC on 0 3 8 1)
    ∧ decodeTableWord 64 0x00000003A0120005 = some (.rstat on 9 3) := by decide

theorem test_decode_steps_and_sequencers :
    decodeTableWord 32 0xA4004000 = some (.stepBegin on 4) ∧ decodeTableWord 32 0xA4004001 = some (.stepProg on 4)
    ∧ decodeTableWord 32 0xA4000002 = some (.stepEnd on) ∧ decodeTableWord 32 0xB000C300 = some (.fork on 12 6)
    ∧ decodeTableWord 32 0xB0000301 = some (.join on 6) ∧ decodeTableWord 32 0xB4000707 = some (.rdv on 7 7)
    ∧ decodeTableWord 32 0xB0000002 = some (.exit on) ∧ decodeTableWord 32 0xB0000003 = some (.exitA on)
    ∧ decodeTableWord 32 0xB8124000 = some (.spawn on 9 4) ∧ decodeTableWord 32 0xB8124001 = some (.spawnC on 9 4) := by decide

theorem test_decode_system :
    decodeTableWord 32 0xC8000021 = some (.trap on 0x21) ∧ decodeTableWord 32 0xC8000000 = some (.trapTerminate on)
    ∧ decodeTableWord 32 0xD4060001 = some (.mfs on 3 1) := by decide

theorem test_decode_fabric_control :
    decodeTableWord 32 0xBC0A4300 = some (.cfgLoad on 5 4 6) ∧ decodeTableWord 32 0xBC0E6001 = some (.cfgStat on 7 6)
    ∧ decodeTableWord 32 0xBC006002 = some (.fabGo on 6) ∧ decodeTableWord 32 0xBC004003 = some (.binPush on 4)
    ∧ decodeTableWord 32 0xBC109004 = some (.binCnt on 8 9) ∧ decodeTableWord 32 0xBC006005 = some (.fabQuiet on 6) := by decide

theorem test_decode_copy :
    decodeTableWord 64 0x00000049E0004280 = some (.cpy on 0 4 5 ⟨some 9, .none, false⟩)
    ∧ decodeTableWord 64 0x000006C4E0004281 = some (.cpyF on 0 4 5 ⟨some 4, .dst 3, false⟩ 0)
    ∧ decodeTableWord 64 0x00000000E00C4283 = some (.cpyG on 6 4 5 plain)
    ∧ decodeTableWord 64 0x00010000E0000008 = some (.cpyWait on 0 1) := by decide

theorem test_decode_matrix :
    decodeTableWord 64 0x00000000F00A6380 = some (.mxcShape on 5 6 7)
    ∧ decodeTableWord 64 0x0000070AF0000282 = some (.mxcOpb on 0 0 5 0xA (some 3))
    ∧ decodeTableWord 64 0x00000045F0000005 = some (.mmz on (some 5))
    ∧ decodeTableWord 64 0x0002A045F0000003 = some (.mxcArm on 0 0 1 1 ⟨some 5, 0, 0, false, false⟩)
    ∧ decodeTableWord 64 0x00000443F0008486 = some (.mmp on 8 9 ⟨some 3, 0, 2, false, false⟩) := by decide

theorem test_decode_illegal : decodeTableWord 32 0xFFFFFFFF = none ∧ decodeTableWord 32 0x68400002 = none
    ∧ decodeTableWord 32 0x6C000000 = none := by decide

theorem test_step_placed_words :
    after (step (State.reset.withFetchWord 32 0x280A0004)) (fun t => t.me.reg 5 == 4 && t.me.pc == 4) = true
    ∧ after (step (State.reset.withFetchWord 32 0xFFFFFFFF)) (fun t => t.me.frame.cause == 1 && t.me.frame.arg == 0xFFFFFFFF) = true
    ∧ after (step (State.reset.withFetchWord 64 0x00010000E0000008)) (fun t => t.me.pc == 8) = true := by decide +kernel

/-! ### Registers, predicates and control flow -/

/-- The instruction completes with v in s[d] and goes on. -/
def gives (i : Instr) (s : State) (d : Reg) (v : Word) : Bool :=
  after (exec i s) fun t => t.me.reg d == v && t.me.pc == s.me.pc + 4

/-- s6 = −7, s7 = 2 (R148's example). -/
def minus7 : State := st [0, 0, 0, 0, 0, 2 ^ 64 - 7, 2]

/-- The instruction issues a division that carries v. -/
def carries (i : Instr) (s : State) (v : Word) : Bool :=
  after (exec i s) fun t => t.me.outstanding.map (·.phase) == [.done v 0]

theorem test_division_example :
    carries (.div on 5 6 7) minus7 (BitVec.ofInt 64 (-3)) = true ∧ carries (.rem on 5 6 7) minus7 (BitVec.ofInt 64 (-1)) = true
    ∧ carries (.divn on 5 6 7) minus7 0x7FFFFFFFFFFFFFFC = true ∧ carries (.remn on 5 6 7) minus7 1 = true := by decide +kernel

theorem test_division_corners :
    carries (.div on 5 6 0) minus7 0 = true ∧ carries (.rem on 5 6 0) minus7 (BitVec.ofInt 64 (-7)) = true
    ∧ carries (.div on 3 1 2) (st [2 ^ 63, 2 ^ 64 - 1]) (w64 (2 ^ 63)) = true
    ∧ carries (.rem on 3 1 2) (st [2 ^ 63, 2 ^ 64 - 1]) 0 = true := by decide +kernel

theorem test_products_example :
    gives (.mulh on 5 6 7) minus7 5 (BitVec.ofInt 64 (-1)) = true ∧ gives (.mulhn on 5 6 7) minus7 5 1 = true
    ∧ gives (.sra on 5 6 7) minus7 5 (BitVec.ofInt 64 (-2)) = true ∧ gives (.mul on 5 6 7) minus7 5 (BitVec.ofInt 64 (-14)) = true
    := by decide +kernel

theorem test_integer_forms :
    gives (.add on 3 1 2) (st [2 ^ 64 - 1, 2]) 3 1 = true ∧ gives (.sub on 3 1 2) (st [1, 2]) 3 (BitVec.ofInt 64 (-1)) = true
    ∧ gives (.and on 3 1 2) (st [0xC, 0xA]) 3 8 = true ∧ gives (.or on 3 1 2) (st [0xC, 0xA]) 3 0xE = true
    ∧ gives (.xor on 3 1 2) (st [0xC, 0xA]) 3 6 = true ∧ gives (.andn on 3 1 2) (st [0xC, 0xA]) 3 4 = true
    ∧ gives (.shl on 3 1 2) (st [3, 65]) 3 6 = true ∧ gives (.shr on 3 1 2) (st [2 ^ 63, 127]) 3 1 = true
    ∧ gives (.add on 0 1 2) (st [1, 2]) 0 0 = true := by decide +kernel

theorem test_minima_and_counts :
    gives (.min on 5 6 7) minus7 5 (BitVec.ofInt 64 (-7)) = true ∧ gives (.max on 5 6 7) minus7 5 2 = true
    ∧ gives (.minn on 5 6 7) minus7 5 2 = true ∧ gives (.maxn on 5 6 7) minus7 5 (BitVec.ofInt 64 (-7)) = true
    ∧ gives (.clz on 3 1) (st [0]) 3 64 = true ∧ gives (.clz on 3 1) (st [1]) 3 63 = true ∧ gives (.ctz on 3 1) (st [0]) 3 64 = true
    ∧ gives (.ctz on 3 1) (st [8]) 3 3 = true ∧ gives (.popc on 3 1) (st [0xFF01]) 3 9 = true := by decide +kernel

theorem test_immediate_forms :
    gives (.addi on 3 1 0xFC0) (st [64]) 3 0 = true ∧ gives (.andi on 3 1 0xFFF) (st [2 ^ 64 - 1]) 3 0xFFF = true
    ∧ gives (.ori on 3 1 0x800) (st [1]) 3 0x801 = true ∧ gives (.xori on 3 1 1) (st [1]) 3 0 = true
    ∧ gives (.shli on 3 1 63) (st [3]) 3 (w64 (2 ^ 63)) = true ∧ gives (.shri on 3 1 63) (st [2 ^ 63]) 3 1 = true
    ∧ gives (.srai on 3 1 63) (st [2 ^ 63]) 3 (BitVec.ofInt 64 (-1)) = true := by decide +kernel

theorem test_bitfields_and_constants :
    gives (.bfx on 5 6 8 11) (st [0, 0, 0, 0, 0, 0xABCD00]) 5 0xBCD = true
    ∧ gives (.bfi on 2 1 8 11) (st [0xFFFBCD, 0xF0000F]) 2 0xFBCD0F = true
    ∧ gives (.bfx on 2 1 0 63) (st [2 ^ 64 - 1]) 2 (w64 (2 ^ 64 - 1)) = true ∧ gives (.movi on 4 0x7FF0) (st []) 4 0x7FF0 = true
    ∧ gives (.movi on 4 0x1FFFF) (st []) 4 (BitVec.ofInt 64 (-1)) = true
    ∧ gives (.movs on 4 0xD) (st [0, 0, 0, 0x7FF0]) 4 0x7FF0000D = true
    ∧ gives (.movs on 4 0) (st [0, 0, 0, 0x7FF0000D]) 4 0x7FF0000D0000 = true ∧ gives (.addpc on 4 16) (st []) 4 0x1040 = true := by
  decide +kernel

/-- The instruction completes with v in pd. -/
def givesPred (i : Instr) (s : State) (pd : PReg) (v : Bool) : Bool :=
  after (exec i s) fun t => t.me.pred pd == v && t.me.pc == s.me.pc + 4

theorem test_compares :
    givesPred (.cmpLt on 1 6 7) minus7 1 true = true ∧ givesPred (.cmpLtn on 1 6 7) minus7 1 false = true
    ∧ givesPred (.cmpGe on 1 7 6) minus7 1 true = true ∧ givesPred (.cmpGen on 1 6 7) minus7 1 true = true
    ∧ givesPred (.cmpEq on 1 6 6) minus7 1 true = true ∧ givesPred (.cmpNe on 1 6 7) minus7 1 true = true := by
  decide +kernel

theorem test_immediate_compares :
    givesPred (.cmpiLt on 3 6 0xFFB) minus7 3 true = true ∧ givesPred (.cmpiGe on 3 6 0xFF9) minus7 3 true = true
    ∧ givesPred (.cmpiGen on 3 7 400) minus7 3 false = true ∧ givesPred (.cmpiLtn on 3 7 0xFFF) minus7 3 true = true
    ∧ givesPred (.cmpiEq on 3 6 0xFF9) minus7 3 true = true ∧ givesPred (.cmpiNe on 3 6 0xFF9) minus7 3 false = true := by decide +kernel

theorem test_predicate_logic :
    givesPred (.pmov on 4 0) (st []) 4 true = true ∧ givesPred (.pnot on 4 0) (st []) 4 false = true
    ∧ givesPred (.pand on 4 0 1) (st []) 4 false = true ∧ givesPred (.por on 4 0 1) (st []) 4 true = true
    ∧ givesPred (.pxor on 4 0 0) (st []) 4 false = true := by decide +kernel

/-- The instruction completes at pc. -/
def goes (i : Instr) (s : State) (pc : Word) : Bool := after (exec i s) fun t => t.me.pc == pc

theorem test_branches :
    goes (.br notP1 0x3FFFFD) (st []) 0xFF4 = true ∧ goes (.br ⟨1, false⟩ 0x3FFFFD) (st []) 0x1004 = true
    ∧ after (exec (.brl on 2) (st [])) (fun t => t.me.pc == 0x1008 && t.me.reg 31 == 0x1004) = true
    ∧ after (exec (.jrl on 31 31) (withMe (st []) (·.setReg 31 0x2000))) (fun t => t.me.pc == 0x2000 && t.me.reg 31 == 0x1004) = true
    ∧ goes (.jr on 1) (st [0x40]) 0x40 = true ∧ goes (.nop on) (st []) 0x1004 = true ∧ goes (.pref on true 1 0) (st []) 0x1004 = true
    := by decide +kernel

theorem test_loop :
    after (exec (.loop on 5 0x1FFFD) (st [0, 0, 0, 0, 4])) (fun t => t.me.pc == 0xFF4 && t.me.reg 5 == 3) = true
    ∧ after (exec (.loop on 5 0x1FFFD) (st [0, 0, 0, 0, 1])) (fun t => t.me.pc == 0x1004 && t.me.reg 5 == 0) = true
    ∧ after (exec (.loop on 5 0x1FFFD) (st [])) (fun t => t.me.pc == 0xFF4 && t.me.reg 5 == BitVec.ofInt 64 (-1)) = true := by
  decide +kernel

/-- The instruction traps with a cause, a DETAIL and an argument, at a pc. -/
def trapsWith (i : Instr) (s : State) (cause detail : Nat) (arg pc : Word) : Bool :=
  after (exec i s) fun t => t.me.frame.cause.toNat % 2 ^ 16 == cause + 256 * detail && t.me.frame.arg == arg && t.me.frame.pc == pc

theorem test_jump_alignment :
    trapsWith (.jr on 1) (st [0x42]) 3 0 0x42 0x1000 = true ∧ trapsWith (.jrl on 31 1) (st [0x41]) 3 0 0x41 0x1000 = true := by
  decide +kernel

theorem witness_RegisterForms : minus7.guardOn on = true ∧ minus7.guardOn notP1 = true := by decide +kernel

/-- Ordinary operands, a zero divisor, and −2^63 / −1. -/
theorem witness_Divisions :
    (minus7.guardOn on = true ∧ (minus7.me.reg 7) ≠ 0 ∧ ¬((minus7.me.reg 6).toInt = -2 ^ 63 ∧ (minus7.me.reg 7).toInt = -1))
    ∧ (minus7.guardOn on = true ∧ minus7.me.reg 0 = 0)
    ∧ ((st [2 ^ 63, 2 ^ 64 - 1]).guardOn on = true ∧ ((st [2 ^ 63, 2 ^ 64 - 1]).me.reg 1).toInt = -2 ^ 63
        ∧ ((st [2 ^ 63, 2 ^ 64 - 1]).me.reg 2).toInt = -1) := by decide +kernel

theorem witness_ImmediateForms : minus7.guardOn on = true ∧ ((8 : Fin 64).val + (55 : Fin 64).val + 1 ≤ 64) := by decide +kernel

theorem witness_Predicates : minus7.guardOn notP1 = true := by decide +kernel

theorem witness_ControlFlow :
    (st [0x40]).guardOn on = true ∧ ((st [0x40]).me.reg 1).toNat % 4 = 0
    ∧ ((st [0x42]).guardOn on = true ∧ ((st [0x42]).me.reg 1).toNat % 4 ≠ 0 ∧ (st [0x42]).CanTrap)
    ∧ (st []).guardOn ⟨1, false⟩ = false := by decide +kernel

/-- A control instruction, and an engine command on its own sequencer. -/
theorem witness_GuardFails :
    ((Instr.add ⟨1, false⟩ 1 2 3).guard = some ⟨1, false⟩ ∧ (st []).guardOn ⟨1, false⟩ = false
      ∧ ownSeq (.add ⟨1, false⟩ 1 2 3) = none)
    ∧ ((Instr.mma ⟨1, false⟩ none).guard = some ⟨1, false⟩ ∧ (stM []).guardOn ⟨1, false⟩ = false
      ∧ ownSeq (.mma ⟨1, false⟩ none) = some .matrix ∧ (stM []).cur.2 = .matrix ∧ (stM []).me.pl = false) := by decide +kernel

theorem test_failed_guard_length :
    goes (.mma ⟨1, false⟩ none) (stM []) 0x1008 = true ∧ goes (.exit ⟨1, false⟩) (st []) 0x1004 = true := by decide +kernel

theorem witness_EngineCommandElsewhere :
    ownSeq (.mma on none) = some .matrix ∧ (st []).cur.2 ≠ .matrix ∧ (st []).CanTrap
    ∧ trapsWith (.mma on none) (st []) 1 0 0xF0000004 0x1000 = true := by decide +kernel

/-! ### Loads, stores and atomics -/

/-- A high address, the last byte below the hole and the first above it. -/
theorem witness_LoadsAndStoresIssue :
    (st [0x7FF0001FFFF8]).guardOn on = true ∧ EaOk ((st [0x7FF0001FFFF8]).me.reg 1) 8 8 ∧ EaOk (0x7FF0001FFFF0) 8 16
    ∧ EaOk 0x7FF0001FFFFF 1 1 ∧ EaOk 0x800000000000 2 2 ∧ EaOk 0x7FFFFFFFFFFFFC 4 4 := by decide +kernel

/-- The operations outstanding after an instruction have these effective addresses, operands and destinations. -/
def issued (i : Instr) (s : State) : List (OpKind × Word × Word × Word × Nat) :=
  match exec i s with
  | .next t => t.me.outstanding.map fun o => (o.kind, o.ea, o.d1, o.d2, o.dst)
  | _ => []

def issues (i : Instr) (s : State) (x : OpKind × Word × Word × Word × Nat) : Bool := issued i s == [x]

theorem test_loads_issue :
    issues (.ldB on 3 1 0x1FF) (st [0x100]) (.load 1 true, 0xFF, 0, 0, 3) = true
    ∧ issues (.ldHn on 3 1 2) (st [0x100]) (.load 2 false, 0x104, 0, 0, 3) = true
    ∧ issues (.ldW on 8 4 4) (st [0, 0, 0, 0x100]) (.load 4 true, 0x110, 0, 0, 8) = true
    ∧ issues (.ldD on 3 1 1) (st [0x100]) (.load 8 false, 0x108, 0, 0, 3) = true
    ∧ issues (.ldp on 3 1 2) (st [0x100]) (.loadPair, 0x110, 0, 0, 6) = true
    ∧ issues (.stW on 2 1 0) (st [0x100, 7]) (.store 4, 0x100, 7, 0, 0) = true
    ∧ issues (.stp on 1 4 2) (st [0, 5, 6, 0x100]) (.storePair, 0x110, 5, 6, 0) = true := by decide +kernel

theorem witness_AddressChecks :
    (st [2 ^ 55]).guardOn on = true ∧ (st [2 ^ 55]).CanTrap ∧ 2 ^ 55 ≤ ((st [2 ^ 55]).me.reg 1).toNat
    ∧ (((st [0x101]).me.reg 1).toNat < 2 ^ 55 ∧ ((st [0x101]).me.reg 1).toNat % 4 ≠ 0)
    ∧ (0x7FF000200000 < 0x7FF0001FFFF8 + 16 ∧ 0x7FF0001FFFF8 < 0x800000000000 ∧ 0x7FF0001FFFF8 % 8 = 0) := by decide +kernel

theorem test_address_checks :
    trapsWith (.ldW on 3 1 0) (st [2 ^ 55]) 4 1 (w64 (2 ^ 55)) 0x1000 = true
    ∧ trapsWith (.stW on 3 1 0) (st [0x101]) 3 0 0x101 0x1000 = true
    ∧ trapsWith (.ldp on 3 1 0) (st [0x7FF0001FFFF8]) 4 2 0x7FF0001FFFF8 0x1000 = true
    ∧ trapsWith (.ldD on 3 1 0x1FF) (st [0]) 4 1 (BitVec.ofInt 64 (-8)) 0x1000 = true := by decide +kernel

theorem witness_AtomicsIssue : (st [0x100, 6]).guardOn on = true ∧ EaOk ((st [0x104]).me.reg 1) 4 4 ∧ EaOk ((st [0x108]).me.reg 1) 8 8
    := by decide +kernel

theorem test_atomics_issue :
    issues (.amoAddW on 5 1 2 .mo) (st [0x104, 6]) (.amo 0 false .mo, 0x104, 6, 0, 5) = true
    ∧ issues (.casD on 2 1 3 .do_) (st [0x108, 6, 7]) (.cas true .do_, 0x108, 7, 6, 2) = true
    ∧ trapsWith (.amoSwapD on 5 1 2 .cl) (st [0x104]) 3 0 0x104 0x1000 = true := by decide +kernel

theorem witness_OrderedAccessesIssue :
    (st [0x100]).guardOn on = true ∧ EaOk ((st [0x100]).me.reg 1 + 8) 4 4 ∧ (5 : Mask) ≠ 0 ∧ (st [0x100]).here.usedMo = []
    ∧ (st [0x100]).here.usedDo = [] ∧ (st [0x100]).here.usedSy = [] ∧ EaOk ((st [0x100]).me.reg 1) 1 1
    ∧ (super (st [0x100])).me.pl = true := by decide +kernel

theorem test_ordered_accesses_issue :
    after (exec (.acqLd on 5 1 2 true 1 .mo 8) (st [0x100])) (fun t =>
      t.me.outstanding.map (fun o => (o.ea, o.acq)) == [(0x108, some (1, .mo))] && t.me.pc == 0x1008) = true
    ∧ after (exec (.relSt on 2 1 3 5 .mo 0) (st [0x100, 9])) (fun t =>
      t.me.outstanding.map (fun o => (o.ea, o.d1, o.rel.map (·.mask))) == [(0x100, 9, some 5)]) = true
    ∧ issues (.cflush on 1) (st [0x100]) (.flush, 0x100, 0, 0, 0) = true
    ∧ issues (.cinv on 1) (super (st [0x100])) (.invalidate, 0x100, 0, 0, 0) = true
    ∧ trapsWith (.cinv on 1) (st [0x100]) 2 0 0 0x1000 = true := by decide +kernel

/-! ### Fences, events, rings and steps -/

theorem witness_FencesAndEvents :
    (st []).guardOn on = true ∧ (st []).Quiet ∧ (4 : Mask) ≠ 0 ∧ (1 : Mask) ≠ 0 ∧ (st []).me.waitAt = none
    ∧ ({ st [] with clusters := [(0, { cluster1 (seqWith []) with events := 0x20 })] } : State).here.events.getLsbD 5 = true
    ∧ (st []).here.events.getLsbD 5 = false ∧ (st []).here.setNow .control 5 = false
    ∧ (stateOf { cluster1 (seqWith []) with events := 0x20, evAt := [(5, 0, 3)] }).here.setNow .control 5 = true := by decide +kernel

theorem test_events :
    after (exec (.sete on 63 4) (st [])) (fun t => t.here.events == w64 (2 ^ 63) && t.me.pc == 0x1004) = true
    ∧ after (exec (.clre on 5) (stateOf { cluster1 (seqWith []) with events := 0x60 })) (fun t => t.here.events == 0x40) = true
    ∧ goes (.waite on 5 4) (stateOf { cluster1 (seqWith []) with events := 0x60 }) 0x1004 = true
    ∧ goes (.waite on 5 4) (st []) 0x1000 = true ∧ goes (.fenceP on 4 1 .mo) (st []) 0x1004 = true := by decide +kernel

/-- Ring 3 of three slots in tile 2, two of them full. -/
def ring3 : Ring := { Ring.reset with defined := true, tmask := 4, nslot := 3, slotu := 1, base := 0, init := 2, p := 2 }

def stRing (vs : List Nat) : State := stateOf { cluster1 (seqWith vs) with rings := [(3, ring3)] }

/-- A ring descriptor: NSLOT 3, SLOTU 1, INIT 2, TMASK 4 (R181). -/
def ringBytes : List Byte := [4, 0, 0, 0, 3, 0, 1, 0, 0, 0, 2, 0, 0, 0, 0, 0] ++ List.replicate 48 0

/-- With a record in memory tile 2, at offset 0 of the tile. -/
def withRecord (bs : List Byte) (s : State) : State := s.mapHere fun k => { k with tiles := Memory.write [] 0x20000 bs }

theorem witness_RingInstructions :
    (stRing [2]).guardOn on = true ∧ ((stRing [2]).here.ring 3).defined = true ∧ (stRing [2]).me.waitAt = none
    ∧ (stRing [2]).Quiet ∧ 2 ≤ ((stRing [2]).here.ring 3).full ∧ 1 ≤ ((stRing [2]).here.ring 3).free
    ∧ ((stRing [4]).CanTrap ∧ 4 > ((stRing [4]).here.ring 3).nslot) ∧ (st []).CanTrap ∧ ((st []).here.ring 3).defined = false := by
  decide +kernel

theorem test_rings :
    goes (.rwaitF on 1 3 1 0) (stRing [2]) 0x1008 = true ∧ goes (.rwaitF on 1 3 1 0) (stRing [3]) 0x1000 = true
    ∧ goes (.rwaitE on 1 3 1 0) (stRing [1]) 0x1008 = true
    ∧ after (exec (.radvC on 0 3 8 1) (stRing [])) (fun t => (t.here.ring 3).c == 1 && (t.here.ring 3).p == 2) = true
    ∧ after (exec (.radvP on 0 3 8 1) (stRing [])) (fun t => (t.here.ring 3).p == 3 && t.me.pc == 0x1008) = true
    ∧ trapsWith (.rwaitE on 1 3 1 0) (stRing [4]) 0xE 3 4 0x1000 = true
    ∧ trapsWith (.rwaitE on 1 3 1 0) (st [1]) 0xE 4 1 0x1000 = true
    ∧ after (exec (.rstat on 9 3) (stRing [])) (fun t => t.me.reg 9 == w64 (2 ^ 63 + 2 ^ 33 + 2 ^ 16 + 2)) = true := by decide +kernel

/-- A read of records and engines answered in a state with bytes. -/
def gotOk {α : Type} [DecidableEq α] (g : Got α) (s : State) (v : α) : Bool :=
  match g with
  | .ok t w => decide (t = s) && decide (w = v)
  | _ => false

theorem gotOk_spec {α : Type} [DecidableEq α] {g : Got α} {s : State} {v : α} (h : gotOk g s v = true) : g = .ok s v := by
  unfold gotOk at h
  split at h
  · simp only [Bool.and_eq_true, decide_eq_true_eq] at h
    obtain ⟨rfl, rfl⟩ := h
    rfl
  · exact absurd h (by decide)

/-- The answer is a success with a property of the state and the value it leaves. -/
def gotAny {α : Type} (g : Got α) (p : State → α → Bool) : Bool :=
  match g with
  | .ok t v => p t v
  | _ => false

theorem gotAny_spec {α : Type} {g : Got α} {p : State → α → Bool} (h : gotAny g p = true) : ∃ t v, g = .ok t v ∧ p t v = true := by
  cases g with
  | ok t v => exact ⟨t, v, rfl, h⟩
  | _ => cases h

/-- The window address of offset 0 of tile 2. -/
def inTile2 : Nat := 0x7FF000020000

/-- A state with its record in tile 2, whose address is in s1. -/
def stRec (bs : List Byte) : State := withRecord bs (stRing [inTile2])

/-- The machine once one record has been read of a tile. -/
abbrev read1 (s : State) : State := (s.mapMe (·.access)).dropLines (s.mapMe (·.access)).myAgent

/-- One record read, the machine as it was. -/
theorem reads_one {s : State} {va : Word} {bs : List Byte} (ok : EaOk va 64 64)
    (free : s.me.outstanding.any (s.blocksRecord s.cur.1 s.cur.2 va.toNat 64) = false)
    (got : gotOk (s.vread (s.seqWho s.cur.1 s.cur.2) va.toNat 64) s bs = true) : s.Record va bs (read1 s) :=
  ⟨ok, free, s, gotOk_spec got, rfl⟩

/-- A legal descriptor of a free handle. -/
theorem witness_RingInstructions_definition :
    (stRec ringBytes).Record ((stRec ringBytes).me.reg 1) ringBytes (read1 (stRec ringBytes))
    ∧ (stRec ringBytes).cur.2 = .control ∧ ringLegal ringBytes = true
    ∧ (read1 (stRec ringBytes)).here.ringBusy 3 = false :=
  ⟨reads_one (by decide +kernel) (by decide +kernel) (by decide +kernel), by decide +kernel, by decide +kernel, by decide +kernel⟩

/-- A descriptor with TMASK 0. -/
theorem witness_RingInstructions_illegal :
    (stRec (List.replicate 64 0)).Record ((stRec (List.replicate 64 0)).me.reg 1) (List.replicate 64 0)
      (read1 (stRec (List.replicate 64 0)))
    ∧ ringLegal (List.replicate 64 0) = false ∧ (read1 (stRec (List.replicate 64 0))).CanTrap :=
  ⟨reads_one (by decide +kernel) (by decide +kernel) (by decide +kernel), by decide +kernel, by decide +kernel⟩

/-- A placed CPY with an identifier, options and ring slots. -/
def cpy1 (id : Nat) (o : CopyOpts) (ns : Nat) : CopyCmd :=
  { id := id, op := .cpy, src := .zero, dst := .zero, aux := .zero, scale := 0, value := 0, opts := o, arm := 0, rop := 0, ns := ns,
    view := [], asid := 5, claimed := false, pos := 0, due := [], going := false, bad := none, ids := [], fault := none }

/-- The copy engine has begun a command of ring 3. -/
def busyCopy : CopyEngine := { CopyEngine.reset with begun := [cpy1 0 ⟨none, .src 3, false⟩ 1] }

def stBusy : State := (stRec ringBytes).mapHere fun k => { k with copy := busyCopy }

theorem witness_RingInstructions_busy : stBusy.Record (stBusy.me.reg 1) ringBytes (read1 stBusy)
    ∧ (read1 stBusy).here.ringBusy 3 = true ∧ trapsWith (.ringDef on 1 3) stBusy 0xE 2 0 0x1000 = true :=
  ⟨reads_one (by decide +kernel) (by decide +kernel) (by decide +kernel), by decide +kernel, by decide +kernel⟩

theorem test_ring_definition :
    after (exec (.ringDef on 1 4) (stRec ringBytes)) (fun t =>
      (t.here.ring 4).p == 2 && (t.here.ring 4).c == 0 && (t.here.ring 4).nslot == 3 && (t.here.ring 3).p == 2) = true
    ∧ trapsWith (.ringDef on 1 3) (stRec (List.replicate 64 0)) 0xE 1 0 0x1000 = true := by decide +kernel

/-- A gang of one cluster, at rank 0. -/
def stGang (vs : List Nat) : State := withGang (gang1 1) (st vs)

theorem witness_Steps :
    (stGang [700]).guardOn on = true ∧ (stGang [700]).gangOf (stGang [700]).cur.1 = some (gang1 1)
    ∧ (stGang [700]).cur.2 = .control ∧ (stGang [700]).me.waitAt = none
    ∧ (withMe (stGang []) (·.setWait (.stepEnd 3))).me.waitAt = some (.stepEnd (gang1 1).step)
    ∧ (2 ≠ (gang1 1).step ∧ (withMe (stGang []) (·.setWait (.stepEnd 2))).me.waitAt = some (.stepEnd 2))
    ∧ ((withGang (gang1 1) (stY [])).cur.2 ≠ .control ∧ (withGang (gang1 1) (stY [])).CanTrap) := by decide +kernel

theorem test_steps :
    after (exec (.stepBegin on 1) (stGang [2 ^ 32 + 700])) (fun t =>
      (t.gangOf 0).any (fun g => g.deadline == some 750 && g.deadlineSet)) = true
    ∧ after (exec (.stepProg on 1) (stGang [0x1FFFF])) (fun t => t.here.task.prog == 0xFFFF && t.me.pc == 0x1004) = true
    ∧ after (exec (.stepEnd on) (stGang [])) (fun t => t.here.task.arrived && t.me.pc == 0x1000) = true
    ∧ stays (.stepEnd on) (withMe (stGang []) (·.setWait (.stepEnd 3))) = true
    ∧ goes (.stepEnd on) (withMe (stGang []) (·.setWait (.stepEnd 2))) 0x1004 = true
    ∧ trapsWith (.stepEnd on) (withGang (gang1 1) (stY [])) 0xB 0 0 0x1000 = true := by decide +kernel

/-- A cluster whose copy and matrix sequencers have a program. -/
def stForked (vs : List Nat) : State :=
  stateOf { cluster1 (seqWith vs) with seqY := seqWith [], seqM := seqWith [] }

theorem witness_ForkAndJoin :
    (st [0x2000]).guardOn on = true ∧ ((st [0x2000]).cur.2 = .control ∧ (6 : BitVec 4).getLsbD 0 = false ∧ (6 : BitVec 4).getLsbD 3 = false)
    ∧ (∀ q ∈ seqsOf 6, ((st [0x2000]).here.seq q).idle = true) ∧ ((st [0x2000]).me.reg 1).toNat % 4 = 0
    ∧ (st [0x2000]).me.outstanding = [] ∧ ((st [0x2002]).me.reg 1).toNat % 4 ≠ 0 ∧ (st [0x2002]).CanTrap
    ∧ ¬(∀ q ∈ seqsOf 6, ((stForked []).here.seq q).idle = true) := by decide +kernel

theorem test_fork_and_join :
    after (exec (.fork on 1 6) (st [0x2000, 0, 0, 0, 0, 0, 9, 8])) (fun t =>
      (t.here.seq .copy).pc == 0x2000 && (t.here.seq .matrix).reg 7 == 9 && (t.here.seq .copy).reg 8 == 0
        && !(t.here.seq .copy).idle && t.me.pc == 0x1004) = true
    ∧ trapsWith (.fork on 1 6) (st [0x2002]) 3 0 0x2002 0x1000 = true
    ∧ trapsWith (.fork on 1 2) (stForked [0x2000]) 0xB 0 0 0x1000 = true ∧ trapsWith (.fork on 1 1) (st []) 0xB 0 0 0x1000 = true
    ∧ goes (.join on 6) (st []) 0x1004 = true ∧ stays (.join on 6) (stForked []) = true
    ∧ trapsWith (.join on 9) (st []) 0xB 0 0 0x1000 = true := by decide +kernel

/-- Two copy commands: one begun, one queued. -/
def twoCopies : CopyEngine := { busyCopy with queue := [cpy1 1 plain 0] }

/-- An MMA in the queue of the matrix array. -/
def oneMatrix : Matrix := { Matrix.reset with queue := [⟨2, .mma, none, [], 5, none, none, none, none⟩] }

/-- A pinned region that runs in slot 1, and a record in a bin. -/
def pinned1 : Cluster :=
  { cluster1 (seqWith []) with
    slots := [(1, { Slot.reset with st := .running, blk := 7 })], bins := [(7, { Bin.reset with recs := [⟨0x3, []⟩] })],
    copy := twoCopies, mat := oneMatrix, seqY := seqWith [], seqM := seqWith [] }

def stEngines (q : SeqId) : State := { stateOf pinned1 with cur := (0, q) }

theorem witness_Exits :
    (stEngines .control).guardOn on = true ∧ (stEngines .control).me.outstanding = [] ∧ (stEngines .control).cur.2 = .control
    ∧ (stEngines .control).here.task.st = .running ∧ (stEngines .control).here.sched 1 = false
    ∧ (stEngines .copy).cur.2 = .copy ∧ (stEngines .copy).me.outstanding = []
    ∧ (stEngines .matrix).cur.2 = .matrix ∧ (stEngines .matrix).me.outstanding = []
    ∧ ((stM []).cur.2 ≠ .control ∧ (stM []).here.openCmds (stM []).cur.2 = []) := by decide +kernel

theorem test_exits :
    after (exec (.exit on) (stEngines .control)) (fun t =>
      t.here.task.st == .exiting && (t.here.slot 1).st == .draining && t.me.exited && t.here.copy == twoCopies) = true
    ∧ after (exec (.exit on) (stM [])) (fun t => t.me.idle && t.me.exited) = true
    ∧ after (exec (.exitA on) (stEngines .copy)) (fun t => t.here.copy == busyCopy && t.here.mat == oneMatrix) = true
    ∧ after (exec (.exitA on) (stEngines .matrix)) (fun t => t.here.mat == .reset && t.here.copy == twoCopies) = true
    ∧ after (exec (.exitA on) (stEngines .control)) (fun t =>
      t.here.task.st == .abandoning && t.here.task.disc == 1 && t.here.binRecords == [] && t.here.copy == busyCopy) = true := by
  decide +kernel

/-- The matrix sequencer waits at rendezvous 7 of all three. -/
def rel0 : Release := ⟨0x3F, .cl, [], 0, [], [], [], none, false⟩

def stRdv : State :=
  stateOf { cluster1 (seqWith []) with seqM := (seqWith []).setWait (.rdv 5 7 rel0) }

theorem witness_Rendezvous :
    (st []).guardOn on = true ∧ (1 : BitVec 4).getLsbD 3 = false ∧ seqsOf 1 = [(st []).cur.2]
    ∧ ((st []).CanTrap ∧ (st []).cur.2 ∉ seqsOf 2) ∧ (8 : BitVec 4).getLsbD 3 = true
    ∧ (SeqId.matrix ≠ stRdv.cur.2 ∧ (∀ x, x ∈ seqsOf 5 ↔ x = stRdv.cur.2 ∨ x = .matrix) ∧ stRdv.Quiet
        ∧ (stRdv.here.seq .matrix).rdvAt = some (5, 7, rel0) ∧ stRdv.releaseReady stRdv.cur.1 .matrix rel0 = true
        ∧ (stRdv.here.seq .matrix).idle = false ∧ (stRdv.here.seq .matrix).exited = false
        ∧ ∀ x, x ≠ stRdv.cur.2 → x ≠ .matrix → (stRdv.here.seq x).rdvAt = none)
    ∧ (stRdv.cur.2 ∈ seqsOf 5 ∧ ((5 : BitVec 4), (7 : BitVec 8)) ≠ (5, 8) ∧ (5 : BitVec 4).getLsbD 3 = false
        ∧ seqsOf 5 ≠ [stRdv.cur.2] ∧ stRdv.me.waitAt = none ∧ stRdv.CanTrap) := by
  refine ⟨by decide +kernel, by decide +kernel, by decide +kernel, by decide +kernel, by decide +kernel, ⟨by decide +kernel, ?_,
    by decide +kernel, by decide +kernel, by decide +kernel, by decide +kernel, by decide +kernel, ?_⟩, by decide +kernel⟩ <;>
    intro x <;> cases x <;> decide +kernel

theorem test_rendezvous :
    goes (.rdv on 1 7) (st []) 0x1004 = true ∧ trapsWith (.rdv on 2 7) (st []) 0xB 0 0 0x1000 = true
    ∧ after (exec (.rdv on 5 7) stRdv) (fun t => t.me.pc == 0x1004 && (t.here.seq .matrix).waitAt == some .released) = true
    ∧ after (exec (.rdv on 5 8) stRdv) (fun t =>
      t.me.frame.cause == 0xC && (t.here.seq .matrix).waitAt == some (.failed 0xC 0 0)) = true := by decide +kernel

/-- A launch record: GTAB 0x40000, CREC 0x80, level 2, two gangs (R321). -/
def launchBytes : List Byte := leBytes 8 0x40000 ++ leBytes 8 0x80 ++ List.replicate 16 0 ++ [2, 1] ++ List.replicate 30 0

/-- A descriptor that is VALID and may spawn. -/
def descBytes (flags : Nat) : List Byte := leBytes 8 0 ++ leBytes 1 flags ++ List.replicate 55 0

def stSpawn (flags : Nat) (bs : List Byte) : State :=
  { stRec bs with ctxs := [(5, { Ctx.reset with desc := some (descBytes flags) })] }


/-- A pool with 256 free entries. -/
def stFull : State := { stSpawn 0 launchBytes with jobs := List.replicate 3840 { job1 (gang1 1) with inPool := true, num := 9 } }

theorem witness_Spawning :
    (stSpawn 0 launchBytes).guardOn on = true ∧ (stSpawn 0 launchBytes).cur.2 = .control
    ∧ (stSpawn 0 launchBytes).Record ((stSpawn 0 launchBytes).me.reg 1) launchBytes (read1 (stSpawn 0 launchBytes))
    ∧ bit ((read1 (stSpawn 0 launchBytes)).ctxField 5 8 1) 1 = false
    ∧ (read1 (stSpawn 0 launchBytes)).badLaunch 5 (launchOf launchBytes) true = false
    ∧ (read1 (stSpawn 0 launchBytes)).room 5 false = some true ∧ bit ((read1 (stSpawn 2 launchBytes)).ctxField 5 8 1) 1 = true
    ∧ (read1 stFull).room 5 false = none ∧ (read1 stFull).room 5 true = some true :=
  ⟨by decide +kernel, by decide +kernel, reads_one (by decide +kernel) (by decide +kernel) (by decide +kernel), by decide +kernel,
    by and_intros <;> decide +kernel⟩

/-- Job numbers of context 5 that it spawns begin at 5 × 2^34 + 2^33 + 1 (R323). -/
theorem test_spawn :
    after (exec (.spawn on 9 1) (stSpawn 0 launchBytes)) (fun t =>
      t.me.reg 9 == w64 (5 * 2 ^ 34 + 2 ^ 33 + 1) && t.jobs.map (fun j => (j.num, j.gangs.length, j.gtab, j.crec)) ==
        [(5 * 2 ^ 34 + 2 ^ 33 + 1, 2, 0x40000, 0x80)]) = true
    ∧ after (exec (.spawnC on 9 1) (stSpawn 0 launchBytes)) (fun t => t.jobs.map (·.cont) == [true]) = true
    ∧ after (exec (.spawn on 9 1) (stSpawn 2 launchBytes)) (fun t => t.me.reg 9 == w64 (2 * 2 ^ 48) && t.jobs == []) = true
    ∧ after (exec (.spawn on 9 1) stFull) (fun t => t.me.reg 9 == w64 (2 ^ 48)) = true := by decide +kernel

/-! ### Collectives -/

/-- Four ranks, this cluster rank 2, with value 7 in s1 and a count in s2 (R187's example). -/
def gang4 : Gang := { gang1 4 with colls := [] }

def stColl (g : Gang) (vs : List Nat) : State := withGang g ((st vs).mapTask 0 fun t => { t with rank := 2, n := 4 })

/-- Three of four have contributed 5, 0 and 2 to instance 9 of tag 2. -/
def three : Coll := ⟨9, 0, 4, 2, false, 0, true, 4, [(0, 5), (1, 0), (3, 2)], none⟩

/-- One of two has contributed 5 to instance 9. -/
def oneOfTwo : Coll := ⟨9, 0, 4, 2, false, 0, true, 2, [(0, 5)], none⟩

theorem witness_Collectives :
    (stColl gang4 [7, 4]).guardOn on = true ∧ (stColl gang4 [7, 4]).cur.2 = .control
    ∧ (stColl gang4 [7, 4]).gangOf (stColl gang4 [7, 4]).cur.1 = some gang4 ∧ (stColl gang4 [7, 4]).me.waitAt = none
    ∧ gang4.colls = [] ∧ (stColl gang4 [7, 4]).here.task.rank = 2 ∧ ((stColl gang4 [7, 4]).me.reg 2).toNat = 4
    ∧ (4 ≤ (gang4.liveMembers 0 4).length) ∧ ((gang4.liveMembers 0 2).length < 4) ∧ gang4.live 0 = true
    ∧ ((stColl gang4 [7, 1]).me.reg 2).toNat = 1 ∧ ((stColl gang4 [7, 0]).me.reg 2).toNat = 0 := by decide +kernel

theorem witness_Collectives_last :
    let g := { gang4 with colls := [three] }
    (stColl g [7, 4]).gangOf (stColl g [7, 4]).cur.1 = some g ∧ (stColl g [7, 4]).me.waitAt = none ∧ three.base = (0 : Fin 512).val
    ∧ three.size = (3 : Fin 512).val + 1 ∧ three.tag = (2 : BitVec 8).toNat ∧ three.count = ((stColl g [7, 4]).me.reg 2).toNat
    ∧ three.result = none ∧ three.contribs.length + 1 = 4 ∧ g.live 2 = true ∧ (∀ e ∈ three.contribs, e.1 ≠ 2)
    ∧ 4 ≤ (g.liveMembers 0 4).length ∧ oneOfTwo.contribs = [(0, 5)]
    ∧ (withMe (stColl g [7, 4]) (·.setWait (.coll 9 2))).me.waitAt = some (.coll three.id 2)
    ∧ ({ three with result := some (14, 4) } : Coll).result = some (14, 4) := by decide +kernel

/-- R187's example: 5 + 0 + 7 + 2 = 14 of four contributions. -/
theorem test_reduction :
    after (exec (.collRed on 2 1 2 0 true 0 3 2) (stColl { gang4 with colls := [three] } [7, 4])) (fun t =>
      (t.gangOf 0).any fun g => g.colls.map (·.result) == [some (14, 4)]) = true
    ∧ after (exec (.collRed on 2 1 2 0 true 0 3 2)
        (withMe (stColl { gang4 with colls := [{ three with result := some (14, 4) }] } [7, 4]) (·.setWait (.coll 9 2)))) (fun t =>
      t.me.reg 4 == 14 && t.me.reg 5 == 4 && t.me.pc == 0x1008) = true
    ∧ after (exec (.collRed on 2 1 2 0 true 0 3 2) (stColl gang4 [7, 1])) (fun t => t.me.reg 4 == 7 && t.me.reg 5 == 1) = true
    ∧ after (exec (.collRed on 2 1 2 0 true 3 0 2) (stColl gang4 [7, 4])) (fun t => t.me.reg 5 == 0x100000) = true
    ∧ after (exec (.collRed on 2 1 2 0 true 1 1 2) (stColl gang4 [7, 4])) (fun t => t.me.reg 5 == 0x40000) = true := by decide +kernel

theorem test_broadcast :
    after (exec (.collBcast on 2 1 2 false 0 3 2) (stColl gang4 [7, 4])) (fun t => t.me.pc == 0x1000
      && (t.gangOf 0).any fun g => g.colls.map (fun c => (c.bcast, c.contribs)) == [(true, [(2, 7)])]) = true
    ∧ after (exec (.collBcast on 2 1 2 true 0 3 2) (stColl gang4 [7, 1])) (fun t => t.me.reg 4 == 7 && t.me.reg 5 == 1) = true := by
  decide +kernel

/-! ### Traps and special registers -/

/-- A debugger has armed halting for context 5 (DARM: bit 15 enables, bit 14 arms BKPT). -/
def armed (s : State) : State := { s with dbg := { s.dbg with darm := s.dbg.darm.set 3 0xC005 } }

theorem witness_Breakpoints :
    (st []).guardOn on = true ∧ (st []).bkptArmed (st []).here.task.ctx = false ∧ (st []).CanTrap
    ∧ ((super (st [])).me.pl = true ∧ (super (st [])).here.Alive ∧ (∀ o ∈ (super (st [])).me.outstanding, o.isSent = false)
      ∧ (super (st [])).bkptArmed (super (st [])).here.task.ctx = false)
    ∧ (armed (st [])).bkptArmed (armed (st [])).here.task.ctx = true
    ∧ ∃ o ∈ (withMe (armed (st [])) fun x => { x with outstanding := [op1 (.ldD on 3 1 0) (.load 8 false) 0x40 0 3 (.sent 7)] }).me.outstanding,
        o.isSent = true := by decide +kernel

theorem test_breakpoint :
    trapsWith (.bkpt on) (st []) 0xA 0 0 0x1000 = true
    ∧ after (exec (.bkpt on) (armed (st []))) (fun t => t.me.halted && t.me.pc == 0x1000) = true
    ∧ after (exec (.bkpt on) (super (st []))) (fun t => t.here.task.st == .failing && t.here.task.cause == 0xA
        && t.here.task.detail == 0xFF && t.here.task.code == 0xC) = true := by decide +kernel

/-- A supervisor handler of cause ALIGN in a gang of one. -/
def inHandler : State :=
  withMe (super (stGang [])) fun x => { x with frame := { x.frame with cause := causeWord 3 0 false, pc := 0x5000 } }

theorem witness_TrapInstructions :
    (st []).guardOn on = true ∧ (st []).CanTrap ∧ inHandler.me.pl = true ∧ inHandler.here.Alive
    ∧ (∀ o ∈ inHandler.me.outstanding, o.isSent = false) ∧ inHandler.gangOf inHandler.cur.1 = some (gang1 1)
    ∧ (∀ c ∈ inHandler.seats inHandler.here.task.job (gang1 1), (inHandler.cluster c).Alive)
    ∧ inHandler.seats inHandler.here.task.job (gang1 1) = [0] := by decide +kernel

theorem test_trap_instructions :
    after (exec (.trap on 0x21) (st [])) (fun t =>
      t.me.frame.cause == causeWord 8 0 true && t.me.frame.arg == 0x21 && t.me.frame.pc == 0x1004) = true
    ∧ after (exec (.sysc on 7) (st [])) (fun t =>
      t.me.frame.cause == causeWord 9 0 true && t.me.frame.arg == 7 && t.me.frame.pc == 0x1004 && t.me.pl) = true
    ∧ after (exec (.trapPreempt on) (st [])) (fun t => t.me.frame.arg == 2 && t.here.task.preReq == []) = true := by decide +kernel

theorem test_trap_codes_of_the_supervisor :
    after (exec (.trapTerminate on) inHandler) (fun t => t.here.task.code == 0xC && t.here.task.cause == 3) = true
    ∧ after (exec (.trapTerminateGang on) inHandler) (fun t => t.here.task.st == .failing && t.here.task.cause == 3) = true
    ∧ after (exec (.trapPreempt on) inHandler) (fun t => t.here.task.preReq == [.control] && t.me.pc == 0x1004) = true
    ∧ after (exec (.trap on 3) inHandler) (fun t => t.here.task.cause == 1 && t.here.task.detail == 0xFF) = true
    ∧ after (exec (.sysc on 3) inHandler) (fun t => t.here.task.cause == 9 && t.here.task.detail == 0xFF) = true := by decide +kernel

/-- A program handler with one replay entry. -/
def load0 : LongOp := op1 (.ldD on 3 1 0) (.load 8 false) 0x40 0 3 .unsent

def inProgram : State :=
  withMe (st []) fun x => { x with inProg := true, frame := ⟨0x5000, causeWord 3 0 false, 0, [load0]⟩ }

theorem witness_ReturnsAndIdle :
    (st []).guardOn on = true ∧ (st []).CanTrap ∧ (st []).me.inProg = false ∧ (st []).me.inSup = false
    ∧ (inProgram.me.outstanding = [] ∧ inProgram.me.inProg = true ∧ inProgram.me.pl = false ∧ inProgram.me.waits = [])
    ∧ (inHandler.me.outstanding = [] ∧ inHandler.me.inSup = true ∧ inHandler.me.pl = true
      ∧ inHandler.here.task.preReq.contains inHandler.cur.2 = false ∧ inHandler.me.waits = [])
    ∧ ((withMe inProgram fun x => { x with outstanding := [load0] }).me.outstanding ≠ []
      ∧ (withMe inProgram fun x => { x with outstanding := [load0] }).me.inProg = true)
    ∧ ((8 : BitVec 12).toNat < 0x400 ∧ sregLegal 8 ((st [0x40]).me.reg 1) = true ∧ ((st [0x40]).me.reg 1).toNat < 256
      ∧ ((st [15]).me.reg 1).toNat < 16) := by decide +kernel

/-- A handler that returns to a STEP.END of a step that is over. -/
def afterStep : State := withGang (gang1 1) (withMe inProgram fun x => { x with waits := [⟨0x5000, .stepEnd 2⟩] })

theorem witness_ReturnsAndIdle_step :
    afterStep.guardOn on = true ∧ afterStep.me.outstanding = [] ∧ afterStep.me.inProg = true ∧ afterStep.me.pl = false
    ∧ afterStep.me.waits.length = 1
    ∧ ∃ w ∈ afterStep.me.waits, w.pc = afterStep.me.frame.pc ∧ w.kind = .stepEnd 2 ∧ 2 ≠ afterStep.stepOf afterStep.cur.1 := by
  refine ⟨?_, ?_, ?_, ?_, ?_, ⟨0x5000, .stepEnd 2⟩, ?_, ?_, ?_, ?_⟩ <;> decide +kernel

/-- Supervisor registers whose values are taken. -/
theorem witness_ReturnsAndIdle_supervisor :
    (super (st [0x100])).guardOn on = true ∧ (super (st [0x100])).me.pl = true ∧ sregLegal 0x404 ((super (st [0x100])).me.reg 1) = true
    ∧ ((super (st [0x100])).me.reg 1).toNat < 2 ^ 14 ∧ ((super (st [0x100])).me.reg 1).toNat &&& sregRz 0x41A = 0
    ∧ wsctlLegal ((super (st [0xA0203])).me.reg 1) = true
    ∧ (super (st [0xA0203])).jobsOf ((super (st [0xA0203])).part (super (st [0xA0203])).cur.1) = [] := by decide +kernel

theorem test_returns :
    trapsWith (.retr on) (st []) 0xB 0 0 0x1000 = true
    ∧ after (exec (.retr on) inProgram) (fun t => t.me.pc == 0x5000 && !t.me.inProg && t.me.outstanding == [load0]
        && t.me.frame.replay == []) = true
    ∧ after (exec (.retr on) inHandler) (fun t => t.me.pc == 0x5000 && !t.me.inSup && !t.me.pl) = true
    ∧ stays (.retr on) (withMe inProgram fun x => { x with outstanding := [load0] }) = true
    ∧ after (exec (.idle on) (st [])) (fun t => t.me.sleeping && t.me.pc == 0x1004) = true := by decide +kernel

theorem witness_SpecialReads :
    (st []).guardOn on = true ∧ (st []).CanTrap ∧ 0x400 ≤ (0x409 : BitVec 12).toNat ∧ (super (st [])).me.pl = true := by decide +kernel

theorem test_special_reads :
    gives (.mfs on 3 0) (st []) 3 0 = true ∧ gives (.mfs on 3 0) (stY []) 3 1 = true
    ∧ gives (.mfs on 3 2) (stColl gang4 []) 3 2 = true ∧ gives (.mfs on 3 3) (stColl gang4 []) 3 4 = true
    ∧ gives (.mfs on 3 0xB) inProgram 3 1 = true ∧ gives (.mfs on 3 8) inProgram 3 0x5000 = true
    ∧ gives (.mfs on 3 0x410) (super (st [])) 3 0x33FFFE = true ∧ gives (.mfs on 3 0x408) (super (st [])) 3 5 = true
    ∧ trapsWith (.mfs on 3 0x410) (st []) 2 0 0x410 0x1000 = true := by decide +kernel

theorem witness_SpecialWrites :
    (st [0x40]).guardOn on = true ∧ (st [0x40]).InPart (st [0x40]).cur.1 ∧ ((st [0x40]).me.reg 1).toNat &&& sregRz 8 = 0
    ∧ (st [0x40]).me.waits = [] ∧ (st []).me.frame.pc = (st []).me.reg 1 ∧ (super (st [6])).me.pl = true
    ∧ ((super (st [6])).me.reg 1).toNat &&& sregRz 0x400 = 0
    ∧ (((super (st [0x33FFFE])).me.reg 1).toNat &&& sregRz 0x410 = 0
      ∧ ¬(nbits ((super (st [0x33FFFE])).me.reg 1).toNat 2 16 = 0 ∧ bit ((super (st [0x33FFFE])).me.reg 1).toNat 20 = true)
      ∧ ((super (st [0x33FFFE])).part 0).switching = none)
    ∧ ((st [255]).me.reg 1).toNat < 256 ∧ ((st [15]).me.reg 1).toNat < 16 ∧ (st [1]).CanTrap
    ∧ ((st [1]).me.reg 1).toNat &&& sregRz 8 ≠ 0 ∧ 256 ≤ ((st [256]).me.reg 1).toNat ∧ 16 ≤ ((st [16]).me.reg 1).toNat := by
  decide +kernel

theorem test_special_writes :
    after (exec (.mts on 1 8) inProgram) (fun t => t.me.frame.pc == 0) = true
    ∧ after (exec (.mts on 1 0x400) (super (st [7]))) (fun t => t.me.ppl && t.me.amask && t.me.pl) = true
    ∧ after (exec (.mts on 1 0x400) (super (st [8]))) (fun t => t.here.task.cause == 1) = true
    ∧ after (exec (.mts on 1 0x404) (super (st [9]))) (fun t => t.me.svscr[2] == 9) = true
    ∧ after (exec (.mts on 1 0x412) (super (st [0x3FFFFE]))) (fun t => (t.part 0).rct[2] == 0x3FFFFE) = true
    ∧ after (exec (.mtsFlags on 1) (st [0x81])) (fun t => t.here.task.flags == 0x81) = true
    ∧ after (exec (.mtsReplaycnt on 1) inProgram) (fun t => t.me.frame.replay == [] && t.me.pc == 0x1004) = true
    ∧ trapsWith (.mtsFlags on 1) (st [256]) 1 0 0xD8001001 0x1000 = true := by decide +kernel

theorem witness_SupervisorWrites :
    (super (st [5])).guardOn on = true ∧ (super (st [5])).me.pl = true ∧ (super (st [5])).InPart (super (st [5])).cur.1
    ∧ ((super (st [5])).me.reg 1).toNat < 2 ^ 14 ∧ wsctlLegal ((super (st [0xA0003])).me.reg 1) = true
    ∧ ((super (st [0xA0003])).me.reg 1).getLsbD 9 = false ∧ wsctlLegal ((super (st [0xA0203])).me.reg 1) = true
    ∧ ((super (st [0xA0203])).me.reg 1).getLsbD 9 = true ∧ ((super (st [0xA0203])).me.reg 1).getLsbD 0 = true
    ∧ ((super (st [0xA0203])).part 0).switching = none ∧ (super (st [0xA0203])).jobsOf ((super (st [0xA0203])).part 0) = []
    ∧ ((super (st [0x100])).me.reg 1).toNat &&& sregRz 0x41A = 0 := by decide +kernel

/-- Context 5 with a cached descriptor. -/
def cached : State := { super (st [5]) with ctxs := [(5, { Ctx.reset with desc := some (descBytes 0) })] }

theorem test_supervisor_writes :
    after (exec (.mtsCtxinv on 1) cached) (fun t => (t.ctx 5).desc == none && t.me.pc == 0x1004) = true
    ∧ after (exec (.mtsWsctl on 1) (super (st [0xA0003]))) (fun t =>
      (t.part 0).wsMode && (t.part 0).wsNw == 1 && (t.part 0).wsQuant == 10 && (t.part 0).switching == none) = true
    ∧ after (exec (.mtsWsctlSwreq on 1) (super (st [0xA0203]))) (fun t => t.me.pc == 0x1004 && (t.part 0).switching == none) = true
    ∧ after (exec (.mtsWtbl on 1) (super (st [0x100]))) (fun t => (t.part 0).wtbl == 0x100) = true
    ∧ trapsWith (.mtsCtxinv on 1) (st [5]) 2 0 0x41C 0x1000 = true ∧ trapsWith (.mtsWsctl on 1) (st [5]) 2 0 0x419 0x1000 = true
    := by decide +kernel

/-- Three leaves: global, of context 5, of context 6. -/
def leaf (asid page : Nat) (global : Bool) : TlbEntry :=
  { firstPage Partition.whole with asid := asid, global := global, vbase := 65536 * page }

def stTlb (vs : List Nat) : State :=
  super ((st vs).mapHere fun k => { k with tlb := [leaf 0 1 true, leaf 5 2 false, leaf 6 2 false] })

/-- A PREF of a line that a TLB entry maps, of a class that allocates, and one of the window. -/
theorem witness_LoadsAndStoresIssue_prefetch :
    (stTlb [0x10040]).guardOn on = true ∧ (stTlb [0x10040]).prefKey ((stTlb [0x10040]).me.reg 1 + 0) = some (0x40, 0)
    ∧ allocates ((stTlb [0x10040]).rctOf 0x40 0) = true ∧ (stTlb [0x10040]).l2Fills.any (·.line == 1) = false
    ∧ (st [inTile2]).prefKey ((st [inTile2]).me.reg 1) = none := by decide +kernel

theorem test_prefetch :
    after (exec (.pref on false 1 0) (stTlb [0x10040])) (fun t => t.l2.map (fun e => e.2.filterMap (·.line)) == [[1]] && t.me.pc == 0x1004) = true
    ∧ goes (.pref on true 1 0) (st [inTile2]) 0x1004 = true := by decide +kernel

theorem witness_Tlbi :
    (stTlb [5]).guardOn on = true ∧ (stTlb [5]).me.pl = true ∧ (stTlb [5]).inFlight = []
    ∧ (stTlb [5]).me.waitAt = none ∧ (stTlb [0x20006]).me.waitAt = none
    ∧ ((stTlb [5]).me.reg 1).toNat < 2 ^ 14 ∧ bits ((stTlb [0x20006]).me.reg 1) 15 14 = 0
    ∧ ((stTlb [0x20006]).me.reg 1).toNat < 2 ^ 55 ∧ (st []).CanTrap := by decide +kernel

theorem test_tlb_invalidations :
    after (exec (.tlbiAll on) (stTlb [])) (fun t => t.here.tlb == [] && t.me.pc == 0x1004) = true
    ∧ after (exec (.tlbiAsid on 1) (stTlb [5])) (fun t => t.here.tlb == [leaf 0 1 true, leaf 6 2 false]) = true
    ∧ after (exec (.tlbiVaAsid on 1) (stTlb [0x20006])) (fun t => t.here.tlb == [leaf 0 1 true, leaf 5 2 false]) = true
    ∧ after (exec (.tlbiVa on 1) (stTlb [0x10000])) (fun t => t.here.tlb == [leaf 5 2 false, leaf 6 2 false]) = true
    ∧ trapsWith (.tlbiAll on) (st []) 2 0 0 0x1000 = true := by decide +kernel

/-! ### Configuration slots and engine commands as instructions -/

/-- Slot 1 with a region in a state; slot 0 belongs to the block scheduler. -/
def stSlot (x : SlotState) (vs : List Nat) : State :=
  (st vs).mapHere fun k =>
    { k with slots := [(1, { Slot.reset with st := x, blk := 7, ver := 3, img := 0x1000 })], task := { k.task with smask := 1 },
             fab := { k.fab with ports := [(34, { Port.reset with own := [77] })] } }

/-- A thread record of block 7 (header bits 11:0), with room for two records in its spill area. -/
def threadBytes : List Byte := leBytes 8 7 ++ (List.range 56).map (BitVec.ofNat 8)

def stPush : State :=
  (withRecord threadBytes (st [inTile2, 7])).mapHere fun k =>
    { k with task := { k.task with dir := [(7, 1, 0x800)] }, bins := [(7, { Bin.reset with spillCap := 2 })] }

theorem witness_FabricControl_load :
    let s := stSlot .idle [0x1000, 0x90001]
    s.guardOn on = true ∧ s.cur.2 = .control ∧ bits (s.me.reg 2) 15 2 = 0 ∧ bits (s.me.reg 2) 63 28 = 0
    ∧ bits (s.me.reg 2) 27 16 ≠ 0xFFF ∧ (s.me.reg 1).toNat % 64 = 0 ∧ s.here.sched 1 = false ∧ (s.here.slot 1).halted = false
    ∧ (s.here.slot 1).busy = false ∧ (∀ n, n < 4 → (s.here.slot n).st = .empty ∨ (s.here.slot n).blk ≠ 9)
    ∧ s.here.sched 0 = true ∧ bits (4 : Word) 15 2 ≠ 0 ∧ bits (0xFFF0001 : Word) 27 16 = 0xFFF ∧ (0x1020 : Word).toNat % 64 ≠ 0
    ∧ ((stSlot .running []).here.slot 1).busy = true ∧ ((stSlot .running []).here.slot 1).st ≠ .ready := by decide +kernel

theorem test_configuration_load :
    after (exec (.cfgLoad on 3 1 2) (stSlot .idle [0x1000, 0x90001])) (fun t =>
      t.me.reg 3 == 0 && (t.here.slot 1).st == .loading && (t.here.slot 1).blk == 9 && t.here.loads.length == 1) = true
    ∧ gives (.cfgLoad on 3 1 2) (stSlot .running [0x1000, 0x90001]) 3 1 = true
    ∧ gives (.cfgLoad on 3 1 2) (stSlot .idle [0x1000, 0x90000]) 3 0x802 = true
    ∧ gives (.cfgLoad on 3 1 2) (stSlot .idle [0x1000, 0xFFF0001]) 3 0x402 = true
    ∧ gives (.cfgLoad on 3 1 2) (stSlot .idle [0x1020, 0x90001]) 3 0xA02 = true := by decide +kernel

theorem witness_FabricControl_slots :
    (stSlot .running [1]).me.waitAt = none ∧ ((stSlot .running [1]).here.slot 1).st = .running
    ∧ ((stSlot .ready [1]).here.slot 1).st = .ready ∧ (stSlot .ready [1]).here.sched 1 = false
    ∧ ((stSlot .ready [1]).here.slot 1).halted = false ∧ ((stSlot .idle [1]).here.slot 1).busy = false
    ∧ ((stSlot .ready [0]).here.sched 0 = true ∧ (stSlot .ready [0]).CanTrap)
    ∧ ((stSlot .ready [1]).here.slot 1).blk < 4096 ∧ ((stSlot .ready [1]).here.slot 1).ver < 65536
    ∧ ((stY []).cur.2 ≠ .control ∧ (stY []).CanTrap) := by decide +kernel

theorem test_slots_as_instructions :
    gives (.cfgStat on 3 1) (stSlot .running [1]) 3 (w64 (3 + 8 + 7 * 2 ^ 16 + 3 * 2 ^ 32)) = true
    ∧ after (exec (.fabGo on 1) (stSlot .ready [1])) (fun t => (t.here.slot 1).st == .running && t.me.pc == 0x1004) = true
    ∧ after (exec (.fabGo on 1) (stSlot .ready [0])) (fun t => t.me.frame.cause == 0xD) = true
    ∧ after (exec (.fabQuiet on 1) (stSlot .running [1])) (fun t => (t.here.slot 1).st == .draining && t.me.pc == 0x1000) = true
    ∧ after (exec (.fabQuiet on 1) (stSlot .idle [1])) (fun t => t.me.pc == 0x1004 && (t.me.obs.get 1 []).contains 77) = true
    ∧ trapsWith (.fabGo on 1) (stY []) 0xB 0 0 0x1000 = true := by decide +kernel

theorem witness_FabricControl_records :
    stPush.Record (stPush.me.reg 1) threadBytes (read1 stPush) ∧ stPush.here.pushSlot = none
    ∧ (read1 stPush).here.blockOf (recordFrom threadBytes) = .inl 7
    ∧ ((read1 stPush).here.bin 7).recs.length < (read1 stPush).here.binCap 7 :=
  ⟨reads_one (by decide +kernel) (by decide +kernel) (by decide +kernel), by decide +kernel, by decide +kernel, by decide +kernel⟩

theorem test_records_as_instructions :
    after (exec (.binPush on 1) stPush) (fun t => (t.here.bin 7).recs.map (fun r => (r.hdr, r.vals.take 1)) ==
      [(7 + 2 ^ 56, [0x03020100])] && t.me.pc == 0x1004) = true
    ∧ after (exec (.binPush on 1) stPush) (fun t => gives (.binCnt on 3 2) t 3 1) = true
    ∧ gives (.binCnt on 3 1) (st [0xFFF]) 3 0 = true := by decide +kernel

/-- A pattern of four 32-bit words at an address (R258). -/
def patBytes (base ty : Nat) : List Byte :=
  leBytes 8 base ++ leBytes 1 ty ++ leBytes 1 1 ++ leBytes 2 0 ++ leBytes 4 0 ++ leBytes 4 4 ++ leBytes 8 4 ++ List.replicate 36 0

/-- Records A and B at the start of tiles 2 and 3, addressed by s1 and s2. -/
def stCopy (a b : List Byte) : State :=
  (stY [inTile2, inTile2 + 65536, 5]).mapHere fun k => { k with tiles := (Memory.write [] 0x20000 a).write 0x30000 b }

def recA : List Byte := patBytes 0x7FF000040000 2
def recB : List Byte := patBytes 0x7FF000050000 2

/-- A machine that holds a record in a tile, while an engine command takes its place. -/
def reading (s : State) (va : Word) (bs : List Byte) : Bool :=
  let u := s.mapMe (·.setWait .placing)
  decide (EaOk va 64 64) && !u.me.outstanding.any (u.blocksRecord u.cur.1 u.cur.2 va.toNat 64)
    && gotOk (u.vread (u.seqWho u.cur.1 u.cur.2) va.toNat 64) u bs && decide (u.mapMe (·.access) = u)

/-- Machine after those reads. -/
abbrev placing (s : State) : State := (s.mapMe (·.setWait .placing)).dropLines (s.mapMe (·.setWait .placing)).myAgent

theorem reads_all {s : State} : ∀ {l : List (Word × List Byte)}, (∀ e ∈ l, reading s e.1 e.2 = true) → s.EngineReads l (placing s)
  | [], _ => rfl
  | e :: _, h => by
    have he := h e (.head _)
    simp only [reading, Bool.and_eq_true, decide_eq_true_eq, Bool.not_eq_true'] at he
    exact ⟨he.1.1.1, he.1.1.2, _, gotOk_spec he.1.2, by rw [he.2]; exact reads_all fun f hf => h f (.tail _ hf)⟩

theorem witness_CopyCommands :
    let s := stCopy recA recB
    s.guardOn on = true ∧ s.cur.2 = .copy ∧ s.me.pl = false
    ∧ s.EngineReads [(s.me.reg 1, recA), (s.me.reg 2, recB)] (placing s) ∧ s.EngineReads [(s.me.reg 2, recB)] (placing s)
    ∧ patternLegal recA (patternOf (s.me.reg 1) recA) = true ∧ patternLegal recB (patternOf (s.me.reg 2) recB) = true
    ∧ (patternOf (s.me.reg 1) recA).conv = 0 ∧ plain.rside = .none ∧ (placing s).here.copy.queue.length < 16
    ∧ (placing s).CanTrap ∧ isMxTy (patternOf (s.me.reg 1) recA).ty = false
    ∧ ({ cpy1 0 plain 0 with src := patternOf (s.me.reg 1) recA, dst := patternOf (s.me.reg 2) recB }).check = 0 := by
  refine ⟨?_, ?_, ?_, reads_all ?_, reads_all ?_, ?_, ?_, ?_, ?_, ?_, ?_, ?_, ?_⟩ <;> decide +kernel

/-- A record of an unassigned type. -/
theorem witness_CopyCommands_illegal :
    (stCopy (patBytes 0 18) recB).EngineReads [(w64 inTile2, patBytes 0 18), (w64 (inTile2 + 65536), recB)]
      (placing (stCopy (patBytes 0 18) recB))
    ∧ ¬(patternLegal (patBytes 0 18) (patternOf (w64 inTile2) (patBytes 0 18)) = true) :=
  ⟨reads_all (by decide +kernel), by decide +kernel⟩

/-- Legal records that a handler reads again, and more open commands than CPY.WAIT lets by. -/
theorem witness_CopyCommands_others :
    (stCopy recA (patBytes 0 18)).EngineReads [(w64 inTile2, recA), (w64 (inTile2 + 65536), patBytes 0 18)]
      (placing (stCopy recA (patBytes 0 18)))
    ∧ ¬(patternLegal (patBytes 0 18) (patternOf (w64 (inTile2 + 65536)) (patBytes 0 18)) = true)
    ∧ 0 < (((stY []).mapHere fun k => { k with copy := busyCopy }).here.openCmds .copy).length :=
  ⟨reads_all (by decide +kernel), by decide +kernel, by decide +kernel⟩

/-- The operation a command placed last. -/
def placedOp (i : Instr) (s : State) (op : CopyOp) (arm rop : Nat) : Bool :=
  after (exec i s) fun t => t.me.pc == 0x1008 && t.here.copy.queue.map (fun c => (c.op, c.src.ty, c.arm, c.rop)) ==
    [(op, (if op == .cpyFill then 0 else 2), arm, rop)]

theorem test_copy_commands :
    placedOp (.cpy on 0 1 2 plain) (stCopy recA recB) .cpy 0 0 = true
    ∧ placedOp (.cpyF on 0 1 2 plain 3) (stCopy recA recB) .cpyF 3 0 = true
    ∧ placedOp (.cpyR on 1 2 plain 2) (stCopy recA recB) .cpyR 0 2 = true
    ∧ after (exec (.cpyFill on 3 2 plain) (stCopy recA recB)) (fun t => t.here.copy.queue.map (·.value) == [5]) = true
    ∧ trapsWith (.cpy on 0 1 2 plain) (stCopy (patBytes 0 18) recB) 0xF 1 (w64 inTile2) 0x1000 = true
    ∧ goes (.cpyWait on 0 1) ((stY []).mapHere fun k => { k with copy := busyCopy }) 0x1008 = true
    ∧ stays (.cpyWait on 0 1) ((stY []).mapHere fun k => { k with copy := twoCopies }) = true := by decide +kernel

/-- CPY.MX of BF16 to MX blocks, CPY.PL of INT8 to planes, and gathers with two rows indexed by two words. -/
def pat2 (base ty c0 s0 c1 s1 : Nat) : List Byte :=
  leBytes 8 base ++ leBytes 1 ty ++ leBytes 1 2 ++ leBytes 2 0 ++ leBytes 4 0 ++ leBytes 4 c0 ++ leBytes 8 s0 ++ leBytes 4 c1
    ++ leBytes 8 s1 ++ List.replicate 24 0

def idx2 : List Byte :=
  leBytes 8 0x7FF000060000 ++ leBytes 1 2 ++ leBytes 1 1 ++ leBytes 2 0 ++ leBytes 4 0 ++ leBytes 4 2 ++ leBytes 8 4
    ++ List.replicate 36 0

def stGather : State :=
  (stY [inTile2, inTile2 + 65536, inTile2 + 131072]).mapHere fun k =>
    { k with tiles := ((Memory.write [] 0x20000 (pat2 0x7FF000070000 2 4 4 8 16)).write 0x30000
      (pat2 0x7FF000080000 2 4 4 2 16)).write 0x40000 idx2 }

theorem witness_CopyCommands_gather :
    stGather.EngineReads [(stGather.me.reg 1, pat2 0x7FF000070000 2 4 4 8 16), (stGather.me.reg 2, pat2 0x7FF000080000 2 4 4 2 16),
      (stGather.me.reg 3, idx2)] (placing stGather)
    ∧ patternLegal idx2 (patternOf (stGather.me.reg 3) idx2) = true :=
  ⟨reads_all (by decide +kernel), by decide +kernel⟩

theorem test_gather_and_conversions :
    after (exec (.cpyG on 3 1 2 plain) stGather) (fun t => t.here.copy.queue.map (fun c => (c.op, c.aux.counts[0])) == [(.cpyG, 2)])
      = true
    ∧ trapsWith (.cpyS on 3 1 2 plain) stGather 0xF 2 (w64 (inTile2 + 65536)) 0x1000 = true
    ∧ after (exec (.cpyMx on 0 1 2 plain) (stCopy (pat2 0x7FF000040000 8 32 2 1 64) (pat2 0x7FF000050000 12 32 0 1 64)))
      (fun t => t.here.copy.queue.map (·.op) == [.cpyMx]) = true
    ∧ trapsWith (.cpyMx on 0 1 2 plain) (stCopy recA recB) 0xF 3 (w64 (inTile2 + 65536)) 0x1000 = true
    ∧ trapsWith (.cpyPl on 1 2 plain) (stCopy recA recB) 0xF 3 (w64 (inTile2 + 65536)) 0x1000 = true := by decide +kernel

/-- A shadow of two E4M3 operands, or of a PI operand and an INT8 one. -/
def stShadow (a b : Nat) (vs : List Nat) : State :=
  (stM vs).mapHere fun k => { k with mat := { k.mat with
    shShape := some (3, 2, 4), shA := some ⟨a, 0, 64, 0, none⟩, shB := some ⟨b, 0, 64, 0, none⟩ } }

theorem witness_MatrixCommands :
    (stM [3, 2, 4]).guardOn on = true ∧ (stM [3, 2, 4]).cur.2 = .matrix ∧ (stM [3, 2, 4]).me.pl = false
    ∧ (stM [3, 2, 4]).here.mat.queue.length < 8 ∧ (stM [3, 2, 4]).CanTrap
    ∧ (1 ≤ (256 : Word).toNat ∧ (256 : Word).toNat ≤ 256) ∧ ¬(1 ≤ (0 : Word).toNat ∧ (0 : Word).toNat ≤ 256)
    ∧ ¬(1 ≤ (257 : Word).toNat ∧ (257 : Word).toNat ≤ 256) ∧ 2 ^ 32 ≤ (w64 (2 ^ 32)).toNat
    ∧ (stShadow 0xA 0xB []).here.mat.shShape = some (3, 2, 4) ∧ matPair 0xA 0xB = true ∧ matPair 0x11 0 = true
    ∧ (1 ≤ bits (8 : Word) 3 0 ∧ bits (8 : Word) 3 0 ≤ 8) ∧ bits (0 : Word) 3 0 = 0 ∧ 8 < bits (9 : Word) 3 0
    ∧ drainType 8 = true ∧ (127 : Word).toNat < 128 ∧ 128 ≤ (128 : Word).toNat := by decide +kernel

/-- The operation queued last and the shadow's shape. -/
def queuedOp (i : Instr) (s : State) (op : MatOp) : Bool :=
  after (exec i s) fun t => t.me.pc == 0x1008 && t.here.mat.queue.map (·.op) == [op]

theorem test_shape_and_operands :
    queuedOp (.mxcShape on 1 2 3) (stM [3, 2, 4]) (.shape 3 2 4) = true
    ∧ trapsWith (.mxcShape on 1 2 3) (stM [257, 2, 4]) 0x10 1 257 0x1000 = true
    ∧ trapsWith (.mxcShape on 1 2 3) (stM [3, 0, 4]) 0x10 1 0 0x1000 = true
    ∧ trapsWith (.mxcShape on 1 2 3) (stM [3, 2, 2 ^ 32]) 0x10 1 (w64 (2 ^ 32)) 0x1000 = true
    ∧ queuedOp (.mxcOpa on 0 1 2 0xA none) (stM [0x40, 0x80]) (.opa ⟨0xA, 0x40, 0x80, 0, none⟩) = true
    ∧ queuedOp (.mxcOpb on 0 1 2 0 none) (stM [0x40, 0x80]) (.opb ⟨0, 0x40, 0x80, 0, none⟩) = true
    ∧ trapsWith (.mxcOpa on 0 1 2 1 none) (stM [0x40, 0x80]) 0x10 2 1 0x1000 = true
    ∧ trapsWith (.mxcOpb on 0 1 2 0x11 none) (stM [0x400, 0x400]) 0x10 2 0x11 0x1000 = true
    ∧ trapsWith (.mxcOpa on 0 1 2 0xA none) (stM [0x41, 0x80]) 0x10 3 0x41 0x1000 = true := by decide +kernel

/-- No option of a compute command. -/
def bare : MmpOpts := ⟨none, 0, 0, false, false⟩

theorem test_compute_commands :
    queuedOp (.mma on none) (stShadow 0xA 0xB []) .mma = true ∧ queuedOp (.mmz on (some 5)) (stShadow 0xA 0xB []) .mmz = true
    ∧ queuedOp (.mxcArm on 0 0 2 1 bare) (stShadow 0xA 0xB []) (.arm 2 1 0 0 bare) = true
    ∧ queuedOp (.mmp on 1 2 bare) (stShadow 0x11 0 [9, 0x18]) (.mmp 9 8 bare) = true
    ∧ trapsWith (.mmp on 1 2 bare) (stShadow 0x11 0 [9, 9]) 0x10 7 9 0x1000 = true
    ∧ queuedOp (.mxcDrain on 1 2 8 false false false none) (stShadow 0xA 0xB [0x40, 0x80]) (.drain 0x40 0x80 8 false false false) = true
    ∧ queuedOp (.mxcDrainD on 1 5 true none) (stShadow 0xA 0xB [0x7F]) (.drainD 31 3 5 true) = true
    ∧ trapsWith (.mxcDrainD on 1 5 true none) (stShadow 0xA 0xB [0x80]) 0x10 8 0x80 0x1000 = true := by decide +kernel

theorem witness_CopyCommands_checks :
    let p (ty c0 s0 c1 s1 : Nat) : Pattern := patternOf 0x40 (pat2 0x7FF000040000 ty c0 s0 c1 s1)
    let legal (ty c0 s0 c1 s1 : Nat) : Bool := patternLegal (pat2 0x7FF000040000 ty c0 s0 c1 s1) (p ty c0 s0 c1 s1)
    let cmd (op : CopyOp) (s d x : Pattern) : CopyCmd := { cpy1 0 plain 0 with op := op, src := s, dst := d, aux := x }
    let i := patternOf 0x40 idx2
    (cmd .cpyR (p 2 4 4 8 16) (p 2 4 4 8 16) .zero).check = 0 ∧ (cmd .cpyG (p 2 4 4 8 16) (p 2 4 4 2 16) i).check = 0
    ∧ (cmd .cpyS (p 2 4 4 2 16) (p 2 4 4 8 16) i).check = 0 ∧ (cmd .cpyMx (p 8 32 2 1 64) (p 12 32 0 1 64) .zero).check = 0
    ∧ (cmd .cpyPl (p 0 32 1 4 32) (p 17 32 0 4 0) .zero).check = 0 ∧ (cmd .cpyFill .zero (p 2 4 4 8 16) .zero).check = 0
    ∧ legal 2 4 4 8 16 = true ∧ legal 8 32 2 1 64 = true ∧ legal 12 32 0 1 64 = true ∧ legal 0 32 1 4 32 = true
    ∧ legal 17 32 0 4 0 = true := by decide +kernel

/-! ### Long operations and memory -/

/-- The window's offset 0x20008, and page 2 of context 5. -/
def stOps (os : List LongOp) : State :=
  withMe ((st [1, 2, 3, 4]).mapHere fun k => { k with tlb := [leaf 5 2 false] }) fun x =>
    { x with outstanding := os, serial := 9 }

def toTile : LongOp := op1 (.stW on 2 1 0) (.store 4) (w64 (inTile2 + 8)) 0xAABBCCDD 0 .unsent
def toHome : LongOp := op1 (.ldD on 3 1 0) (.load 8 false) 0x20010 0 3 .unsent
def toPair : LongOp := op1 (.ldp on 4 1 0) .loadPair 0x20010 0 4 .unsent
def toNowhere : LongOp := op1 (.stW on 3 1 0) (.store 4) 0x30000 0 0 .unsent

/-- Page 3 of context 5 is read-only. -/
def readOnly (s : State) : State := s.mapHere fun k => { k with tlb := { leaf 5 3 false with w := false } :: k.tlb }

theorem witness_LongOperations_send :
    (stOps [toTile]).me.outstanding[0]? = some toTile ∧ toTile.phase = .unsent ∧ (stOps [toTile]).maySend 0 .control toTile = true
    ∧ (stOps [toTile]).me.halted = false ∧ (stOps [toTile]).here.task.st ≠ .preempting
    ∧ (winBase ≤ toTile.ea.toNat ∧ toTile.ea.toNat + 4 ≤ winHole ∧ toTile.kind.isLine = false)
    ∧ toTile.ea.toNat / 64 = (toTile.ea.toNat + toTile.kind.size - 1) / 64
    ∧ ((stOps [toTile]).here.tileQ.get (8 * ((toTile.ea.toNat - winBase) / 65536)) []).length < 16
    ∧ (toHome.ea.toNat + toHome.kind.size ≤ winBase)
    ∧ ((stOps [toHome]).here.xlat 5 0x20010 toHome.kind.need = .ok 0x10 (leaf 5 2 false)
      ∧ (stOps [toHome]).placeOf ((stOps [toHome]).part 0) 0x10 = .mem 0x10 ∧ (stOps [toHome]).poisoned 0x10 = false)
    ∧ (toPair.phase = .unsent ∧ (stOps [toPair]).maySend 0 .control toPair = true ∧ toPair.kind.size = 16 ∧ toPair.half = none
      ∧ toPair.ea.toNat / 64 = (toPair.ea.toNat + 15) / 64 ∧ (stOps [toPair]).here.xlat 5 0x20010 toPair.kind.need = .ok 0x10 (leaf 5 2 false))
    ∧ (readOnly (stOps [toNowhere])).here.xlat 5 0x30000 toNowhere.kind.need = .perm := by decide +kernel

theorem test_operations_are_sent :
    after (exec (.longOpComplete 0 .control 0) (stOps [toTile])) (fun t =>
      (t.here.tileQ.get 16 []).map (fun r => (r.kind, r.key)) == [(.write [0xDD, 0xCC, 0xBB, 0xAA], 2 ^ 60 + 0x20008)]) = true
    ∧ after (exec (.longOpComplete 0 .control 0) (stOps [toHome])) (fun t =>
      t.reqs.map (fun r => (r.kind, r.key, r.ret)) == [(.read 8, 0x10, .seqOp 0 .control 0)]) = true
    ∧ after (exec (.longOpComplete 0 .control 0) (readOnly (stOps [toNowhere]))) (fun t =>
      t.me.outstanding.map (·.phase) == [.faulted 4 3 0x30000]) = true := by decide +kernel

def doneLoad : LongOp := { toHome with phase := .done 0x77 0 }
def doneStore : LongOp := { toTile with phase := .done 0 0 }
def relStore : LongOp := { toTile with rel := some rel0 }

theorem witness_LongOperations_done :
    (stOps [doneLoad]).me.outstanding[0]? = some doneLoad ∧ doneLoad.phase = .done 0x77 0 ∧ doneLoad.dst = (3 : Reg).val
    ∧ doneLoad.kind = .load 8 false ∧ doneStore.kind = .store 4 ∧ doneStore.dst = (0 : Reg).val
    ∧ (relStore.rel = some rel0 ∧ rel0.performed = false ∧ (stOps [relStore]).releaseReady 0 .control rel0 = true)
    ∧ ((withMe (stOps []) (·.setWait (.release rel0 (.setEvent 63)))).me.waitAt = some (.release rel0 (.setEvent (63 : Fin 64).val))
      ∧ (withMe (stOps []) (·.setWait (.release rel0 (.setEvent 63)))).releaseReady 0 .control rel0 = true) := by decide +kernel

theorem test_operations_complete :
    after (exec (.longOpComplete 0 .control 0) (stOps [doneLoad])) (fun t => t.me.reg 3 == 0x77 && t.me.outstanding == []) = true
    ∧ after (exec (.longOpComplete 0 .control 0) (stOps [doneStore])) (fun t => t.me.regs == (stOps []).me.regs
      && t.me.outstanding == []) = true
    ∧ after (exec (.releasePerformed 0 .control 1) (stOps [relStore])) (fun t =>
      t.me.outstanding.map (fun o => o.rel.map (·.performed)) == [some true]) = true
    ∧ after (exec (.releasePerformed 0 .control 0) (withMe (stOps []) (·.setWait (.release rel0 (.setEvent 63))))) (fun t =>
      t.here.events == w64 (2 ^ 63) && t.me.waitAt == some .released) = true := by decide +kernel

/-- A request of the control sequencer's operation 0. -/
def req1 (kind : ReqKind) (key : Nat) (ret : RetTo) : MemReq :=
  { id := 30, agent := ⟨0, 0, 0⟩, kind := kind, key := key, pa := key, asid := 5, scope := .mo, rel := none, view := [], floor := [],
    wpol := 0, rcls := 0, region := 0xFFFF, ret := ret, leaf := none }

/-- Tile 2 with the bytes of 0x11223344 at its offset 8, and one request at its requester 1. -/
def stTile (e : MemReq) (o : LongOp) : State :=
  (stOps [{ o with phase := .sent 30 }]).mapHere fun k =>
    { k with tiles := Memory.write [] 0x20008 [0x44, 0x33, 0x22, 0x11], tileQ := [(17, [e])] }

def tileLoad : LongOp := op1 (.ldW on 3 1 0) (.load 4 true) (w64 (inTile2 + 8)) 0 3 .unsent

/-- Requester 1 is the first from the pointer: the queue of requester 0 is empty. -/
theorem witness_TileService :
    let e := req1 (.read 4) (2 ^ 60 + 0x20008) (.seqOp 0 .control 0)
    let s := stTile e tileLoad
    (1 < 7) ∧ s.here.tileAt.get 2 0 ≠ s.here.clk + 1 ∧ (∀ j, j < 1 → s.here.mayServe 2 ((s.here.tilePtr.get 2 0 + j) % 7) = false)
    ∧ (∀ l ∈ s.here.tileQ, l.1 / 8 = 2 → l.1 ≠ 17 → ∀ x ∈ l.2, x.id ∉ e.view)
    ∧ s.here.tileQ.get (8 * 2 + (s.here.tilePtr.get 2 0 + 1) % 7) [] = [e] ∧ e.key = 2 ^ 60 + 2 ^ 21 * 0 + 0x20008
    ∧ s.mem.wf = true ∧ s.host.wf = true ∧ s.here.tiles.wf = true ∧ 0x20008 + 4 ≤ 2 ^ 21
    ∧ s.me.outstanding.find? (·.serial == 0) = some { tileLoad with phase := .sent 30 } := by decide +kernel

theorem memOk_of_one (s : State) (k : Cluster) (h : s.clusters = [(0, k)]) (hs : s.savedCl = []) (hm : s.mem.wf = true)
    (hh : s.host.wf = true) (hk : k.tiles.wf = true) : s.MemOk := by
  refine ⟨hm, hh, ?_, ?_⟩
  · intro c
    by_cases hc : 0 = c
    · subst hc; simp [State.cluster, h, Table.get]; exact hk
    · simp only [State.cluster, h, Table.get, if_neg hc]; rfl
  · intro c; simp only [hs, Table.get]; rfl

theorem witness_TileService_memories : (stTile (req1 (.read 4) (2 ^ 60 + 0x20008) (.seqOp 0 .control 0)) tileLoad).MemOk :=
  memOk_of_one _ _ rfl rfl (by decide +kernel) (by decide +kernel) (by decide +kernel)

theorem test_tile_service :
    after (exec (.arrayPortServe 0 2) (stTile (req1 (.read 4) (2 ^ 60 + 0x20008) (.seqOp 0 .control 0)) tileLoad)) (fun t =>
      t.me.outstanding.map (·.phase) == [.done 0x11223344 0] && t.here.tilePtr.get 2 0 == 2 && t.here.tileQ.get 17 [] == []) = true
    ∧ after (exec (.arrayPortServe 0 2) (stTile (req1 (.write [0xAA]) (2 ^ 60 + 0x20009) .nowhere) tileLoad)) (fun t =>
      t.here.tiles.read 0x20008 4 == [0x44, 0xAA, 0x22, 0x11]) = true
    ∧ after (exec (.arrayPortServe 0 2) (stTile (req1 (.amo 0 false 0xEEDDCCBC false) (2 ^ 60 + 0x20008) .nowhere) tileLoad)) (fun t =>
      t.here.tiles.read 0x20008 4 == [0, 0, 0, 0]) = true := by decide +kernel

/-- Memory with the bytes of 0x11223344 at 8, one request, and line 0, which is on its way into L2 and has been modified. -/
def stHome (e : MemReq) (o : LongOp) : State :=
  { stOps [{ o with phase := .sent 30 }] with
    mem := Memory.write [] 8 [0x44, 0x33, 0x22, 0x11], reqs := [e], l2Fills := [⟨0, 0, some (List.replicate 64 0x5A)⟩] }

def homeLoad : LongOp := op1 (.ldW on 3 1 0) (.load 4 true) 0x20008 0 3 .unsent
def homeAmo (op : Nat) : LongOp := op1 (.amoAddW on 3 1 2 .mo) (.amo op false .mo) 0x20008 0 3 .unsent
def homeCas : LongOp := op1 (.casW on 3 1 2 .mo) (.cas false .mo) 0x20008 0 3 .unsent

theorem witness_HomeService :
    let s := stHome (req1 (.read 4) 8 (.seqOp 0 .control 0)) homeLoad
    s.MemOk ∧ s.reqs.find? (·.id == 30) = some (req1 (.read 4) 8 (.seqOp 0 .control 0))
    ∧ (∀ p ∈ s.reqs.takeWhile (·.id != 30), p.key / 64 = 8 / 64 → ∀ a ∈ s.agentsOf p, a ∉ s.agentsOf (req1 (.read 4) 8 (.seqOp 0 .control 0)))
    ∧ 8 + 64 ≤ 2 ^ 60
    ∧ bit s.dbg.lf[2].toNat 30 = false ∧ bit s.dbg.lf[6].toNat 30 = false
    ∧ leNat (s.mem.read 8 4) = (0x11223344 : Word).toNat % 2 ^ 32 ∧ leNat (s.mem.read 8 4) ≠ (1 : Word).toNat % 2 ^ 32
    ∧ s.backing 0 = some (List.replicate 64 0x5A) ∧ s.backing 1 = none
    ∧ (∀ m, ReqKind.flush ≠ .read m) := by
  refine ⟨memOk_of_one _ _ rfl rfl ?_ ?_ ?_, ?_, ?_, ?_, ?_, ?_, ?_, ?_, ?_, ?_, nofun⟩ <;> decide +kernel

theorem test_home_service :
    after (exec (.homeAccess 30 0) (stHome (req1 (.read 4) 8 (.seqOp 0 .control 0)) homeLoad)) (fun t =>
      t.me.outstanding.map (·.phase) == [.done 0x11223344 0] && t.reqs == []) = true
    ∧ after (exec (.homeAccess 30 0) (stHome (req1 (.cas false 0x11223344 0x55667788) 8 (.seqOp 0 .control 0)) homeCas)) (fun t =>
      t.mem.read 8 4 == [0x88, 0x77, 0x66, 0x55] && t.me.outstanding.map (·.phase) == [.done 0x11223344 0]) = true
    ∧ after (exec (.homeAccess 30 0) (stHome (req1 .flush 8 .nowhere) homeLoad)) (fun t => t.backing 0 == none && t.mem.read 8 1 == [0x44]) = true
    ∧ after (exec (.homeAccess 30 0) (stHome (req1 .invalidate 0 .nowhere) homeLoad)) (fun t => t.mem.read 8 2 == [0x5A, 0x5A]) = true
    ∧ stays (.homeAccess 30 1) (stHome (req1 .flush 8 .nowhere) homeLoad) = true := by decide +kernel

/-- R173: the old value goes to s[d], the new one to memory. -/
theorem test_atomics_at_home :
    let at_ (op : Nat) (y new : Word) : Bool :=
      after (exec (.homeAccess 30 0) (stHome (req1 (.amo op false y false) 8 (.seqOp 0 .control 0)) (homeAmo op))) fun t =>
        t.mem.read 8 4 == toBytes 4 new && t.me.outstanding.map (·.phase) == [.done 0x11223344 0]
    at_ 0 0xFFFFFFFF 0x11223343 = true ∧ at_ 1 0xFF 0x44 = true ∧ at_ 2 0xFF 0x112233FF = true ∧ at_ 3 0x11223344 0 = true
    ∧ at_ 4 0x80000000 0x80000000 = true ∧ at_ 5 0x80000000 0x11223344 = true ∧ at_ 6 0x80000000 0x11223344 = true
    ∧ at_ 7 0x80000000 0x80000000 = true ∧ at_ 8 9 9 = true := by decide +kernel

/-- A read of line 3 has asked for it. -/
def stFill : State := { st [] with l2Fills := [⟨3, 0, none⟩] }

theorem witness_HomeService_fill :
    let rct := stFill.rctOf (64 * 3) (0 : Fin 8).val
    (stFill.l2Fills.find? fun f => f.line == 3 && f.rcls == (0 : Fin 8).val) = some ⟨3, 0, none⟩
    ∧ stFill.setOf (64 * 3) = stFill.setOf (64 * 3) ∧ bit rct 20 = true ∧ nbits rct 18 2 ≠ 2 ∧ nbits rct 2 16 ≠ 0
    ∧ stFill.l2.get (stFill.setOf (64 * 3)) [] = [] ∧ stFill.poisoned (64 * 3) = false
    ∧ ((st []).l2Fills.find? fun f => f.line == 3 && f.rcls == (0 : Fin 8).val) = none := by
  refine ⟨?_, rfl, ?_, ?_, ?_, ?_, ?_, ?_⟩ <;> decide +kernel

theorem test_l2_fill : stays (.l2Fill 3 0 0) (st []) = true ∧ stays (.l2Fill 3 0 1) stFill = true := by decide +kernel

/-! ### Traps at a boundary -/

def stCause (f : Sequencer → Sequencer) : State := withMe (st []) f

def faulted1 : LongOp := { toHome with phase := .faulted 5 0 0x20010 }

theorem witness_TrapDeliveries :
    (stCause fun x => { x with mchk := some (1, 3) }).atBoundary 0 .control = true ∧ (stCause id).me.pl = false
    ∧ ((stCause fun x => { x with outstanding := [faulted1] }).atBoundary 0 .control = true
      ∧ (stCause fun x => { x with outstanding := [faulted1] }).me.mchk = none ∧ (stCause id).here.task.left = false
      ∧ (stCause fun x => { x with outstanding := [faulted1] }).me.outstanding.find? (·.isFaulted) = some faulted1)
    ∧ ((stCause fun x => { x with engPage := true }).me.inProg = false ∧ (stCause id).me.inSup = false
      ∧ (stCause fun x => { x with engPage := true }).atBoundary 0 .control = true)
    ∧ (stCause fun x => { x with engFaults := [(4, 9)] }).atBoundary 0 .control = true
    ∧ (stCause fun x => { x with dlrisk := some 8, amask := true }).atBoundary 0 .control = true
    ∧ ((stCause fun x => { x with inProg := true, engPage := true }).atBoundary 0 .control = true) := by decide +kernel

/-- A SPAWN whose record has been asked of the host. -/
def stAsked : State :=
  { stCause fun x => { x with mchk := some (1, 3), waits := [⟨0x1000, .reading (.spawn on 9 1) 0x20000 false⟩] } with
    links := { Links.reset with
      hostReqs := [⟨40, ⟨0, 0, 0⟩, 0x3000, 5, .read 64, .line ⟨0, 0, 0⟩ 0x3000, none, false, 1000, none, none⟩] } }

/-- R351, R368: TRAPPC names the next instruction, and the ninth entry the one to be replayed. -/
theorem witness_TrapDeliveries_command :
    stAsked.atBoundary 0 .control = true ∧ stAsked.me.pl = false ∧ stAsked.me.resume = none ∧ stAsked.asks ⟨0, 0, seqNo .control⟩ = true
    ∧ stAsked.me.waitAt = some (.reading (.spawn on 9 1) 0x20000 false)
    ∧ after (exec (.trapDelivery 0 .control) stAsked) (fun t => t.me.frame.pc == 0x1004
      && t.me.frame.replay.map (fun o => (o.ins, o.pc, o.ea, o.dst)) == [(.spawn on 9 1, 0x1000, 0x20000, 9)]) = true := by
  decide +kernel

theorem test_trap_deliveries :
    let takes (f : Sequencer → Sequencer) (cause : Word) (arg : Word) : Bool :=
      after (exec (.trapDelivery 0 .control) (stCause f)) fun t =>
        t.me.frame.cause == cause && t.me.frame.arg == arg && t.me.frame.pc == 0x1000 && t.me.outstanding == []
    takes (fun x => { x with mchk := some (1, 3), engPage := true }) 0x114 3 = true
    ∧ takes (fun x => { x with outstanding := [faulted1], engPage := true }) 5 0x20010 = true
    ∧ takes (fun x => { x with engFaults := [(4, 9)], dlrisk := some 8 }) 0x411 9 = true
    ∧ takes (fun x => { x with dlrisk := some 8 }) 0x12 8 = true
    ∧ stays (.trapDelivery 0 .control) (stCause fun x => { x with dlrisk := some 8, amask := true }) = true
    ∧ stays (.trapDelivery 0 .control) (stCause fun x => { x with inProg := true, engPage := true }) = true := by decide +kernel

/-! ### Combining and page walks -/

/-- Two additions of 5 and 7 to one word, of sequencers of clusters 0 and 1. -/
def amoA : MemReq := { req1 (.amo 0 false 5 false) 8 (.seqOp 0 .control 0) with id := 30 }
def amoB : MemReq := { req1 (.amo 0 false 7 false) 8 (.seqOp 1 .control 0) with id := 31, agent := ⟨1, 0, 0⟩ }

def stTwo : State :=
  { stHome amoA (homeAmo 0) with
    reqs := [amoA, amoB],
    clusters := (stHome amoA (homeAmo 0)).clusters ++ [(1, cluster1 { seqWith [] with outstanding := [{ homeAmo 0 with phase := .sent 31 }] })] }

def sheaf1 : Sheaf := ⟨40, amoA, amoB, some 100, none, none, none⟩

theorem witness_Combining :
    stTwo.reqs.find? (·.id == 30) = some amoA ∧ stTwo.reqs.find? (·.id == 31) = some amoB ∧ (30 ≠ 31)
    ∧ amoA.kind = .amo 0 false 5 false ∧ amoB.kind = .amo 0 false 7 false ∧ amoA.key = amoB.key ∧ amoA.pa = amoB.pa
    ∧ amoA.scope = amoB.scope ∧ 30 < 2 ^ 32 ∧ (stTwo.reqs.takeWhile (·.id != 31)).any (·.id == 30) = true
    ∧ (∀ e ∈ stTwo.reqs.takeWhile (·.id != 31), e.id ≠ 30 → e.key / 64 = amoB.key / 64 →
      ∀ g ∈ stTwo.agentsOf e, g ∉ stTwo.agentsOf amoB)
    ∧ (({ stTwo with sheaves := [sheaf1] } : State).sheaves.find? (·.id == sheaf1.id) = some sheaf1 ∧ sheaf1.old = some 100
      ∧ sheaf1.first.ret = .seqOp 0 .control 0 ∧ sheaf1.second.ret = .seqOp 1 .control 0
      ∧ (stTwo.seq 0 .control).outstanding.find? (·.serial == 0) = some { homeAmo 0 with phase := .sent 30 }
      ∧ (stTwo.seq 1 .control).outstanding.find? (·.serial == 0) = some { homeAmo 0 with phase := .sent 31 })
    ∧ (3 < 2 ^ 32 ∧ 2 ^ 32 - 1 < 2 ^ 32) := by decide +kernel

theorem test_combining :
    after (exec (.combineRequest 30 31) stTwo) (fun t =>
      t.reqs.map (fun r => (r.kind, r.key)) == [(.amo 0 false 12 false, 8)] && t.sheaves.length == 1) = true
    ∧ after (exec (.sheafReturn 40) { stTwo with sheaves := [sheaf1] }) (fun t =>
      (t.seq 0 .control).outstanding.map (·.phase) == [.done 100 0] && (t.seq 1 .control).outstanding.map (·.phase) == [.done 105 0]
        && t.sheaves == []) = true := by decide +kernel

/-- A level-1 leaf for context 5 at PTROOT 0: VALID, R, W (R336, R337). -/
def miss1 (walking : Bool) : Miss := ⟨5, 2, 0x20000, 0, 0, true, [], walking, none, false⟩

def stWalk (entry : Nat) (walking : Bool) : State :=
  { (st []).mapHere fun k => { k with misses := [miss1 walking] } with
    mem := Memory.write [] 0 (leBytes 8 entry), ctxs := [(5, { Ctx.reset with desc := some (descBytes 1) })] }

theorem witness_PageWalks :
    (stWalk 0xD false).here.misses[0]? = some (miss1 false) ∧ (miss1 false).walking = false ∧ (miss1 false).failed = none
    ∧ ((stWalk 0xD false).walksOn (0 / 64)).length < 64
    ∧ (stWalk 0xD false).walkTurn 0 0 ((stWalk 0xD false).walksOn (0 / 64)) = false ∧ (miss1 true).walking = true
    ∧ (∃ e, (stWalk 0xD true).walk ((stWalk 0xD true).part 0) 0 5 0x20000 = .leaf e ∧ e.pin = false
      ∧ ∀ f ∈ (stWalk 0xD true).here.tlb, f.pin = true → (f.asid, f.vbase, f.size) ≠ (e.asid, e.vbase, e.size))
    ∧ (stWalk 0 true).walk ((stWalk 0 true).part 0) 0 5 0x20000 = .miss 1 0 ∧ (miss1 true).joined 5 2 = true ∧ (miss1 true).cls = 0
    ∧ (miss1 true).seqWants = true := by
  refine ⟨?_, ?_, ?_, ?_, ?_, ?_, ⟨{ leaf 5 0 false with x := false, size := 2 ^ 42 }, ?_, ?_, ?_⟩, ?_, ?_, ?_, ?_⟩ <;> decide +kernel

theorem test_page_walks :
    after (exec (.pageWalkStart 0 0) (stWalk 0xD false)) (fun t => t.here.misses == [miss1 true]) = true
    ∧ after (exec (.pageWalkComplete 0 0) (stWalk 0xD true)) (fun t =>
      t.here.misses == [] && t.here.tlb.map (fun e => (e.r, e.w, e.x, e.size)) == [(true, true, false, 2 ^ 42)]) = true
    ∧ after (exec (.pageWalkComplete 0 0) (stWalk 0 true)) (fun t =>
      t.here.tlb == [] && t.here.misses.map (·.failed) == [some (1, 0)]) = true := by decide +kernel

/-! ### Steps, gangs and jobs -/

/-- The gang's one task has arrived at the end of step 3, 10 µs after DLRISK was raised with a slack of 8 ns. -/
def stStep (f : Task → Task) : State :=
  { withGang { gang1 1 with dlRaised := true, dlAt := 100 } (stateOf { cluster1 { seqWith [7] with dlrisk := some 8 } with
      task := f { task1 with arrived := true, prog := 9 }, clk := 77 }) with now := 20000 }

theorem stStep_memOk : (stStep id).MemOk := memOk_of_one _ _ rfl rfl (by decide +kernel) (by decide +kernel) (by decide +kernel)

/-- The gang waits. -/
def stWaiting : State := { withGang { gang1 1 with st := .candidate, readyAt := 1000 } (st []) with now := 2001000 }

theorem witness_StepEnds :
    (∃ g, (stStep id).gang 1 0 = some g ∧ (stStep id).stepOver 1 g = true ∧ (stStep id).seats 1 g = [0]
      ∧ g.clusters = [0] ∧ g.dlRaised = true ∧ g.dlPosted = false ∧ g.dlAt + 10000 ≤ (stStep id).now)
    ∧ ((stStep id).cluster 0).seqC.dlrisk = some 8 ∧ (stStep id).sits 1 0 0 = true ∧ (∃ j, (stStep id).job 1 = some j)
    ∧ (∀ c ∈ (stStep id).seats 1 { gang1 1 with dlRaised := true, dlAt := 100 },
        ((stStep id).cluster c).task.flush = [] ∧ ((stStep id).cluster c).usedMo = [] ∧ ((stStep id).cluster c).usedHost = false
          ∧ (stStep id).zeroOut c = false)
    ∧ 0 ∈ (stStep fun t => { t with flush := [(3, 1)] }).seats 1 { gang1 1 with dlRaised := true, dlAt := 100 }
    ∧ (∃ g, (stGang []).gang 1 0 = some g ∧ (stGang []).stepOver 1 g = false)
    ∧ ∃ g, stWaiting.gang 1 0 = some g ∧ g.ready = true := by
  refine ⟨⟨{ gang1 1 with dlRaised := true, dlAt := 100 }, ?_⟩, ?_, ?_, ⟨job1 { gang1 1 with dlRaised := true, dlAt := 100 },
    ?_⟩, ?_, ?_, ⟨gang1 1, ?_⟩, ⟨{ gang1 1 with st := .candidate, readyAt := 1000 }, ?_⟩⟩ <;> decide +kernel

theorem test_step_ends :
    after (exec (.superstepEnd 1 0) (stStep id)) (fun t => (t.gang 1 0).map (fun g => (g.step, g.stepStart, g.dlRaised)) == some (4, 20000, false)
      && !t.here.task.arrived && t.here.task.stepClk == 77 && t.here.seqC.dlrisk == none && t.here.task.ckpt == none) = true
    ∧ after (exec (.superstepEnd 1 0) (stStep fun t => { t with reexec := true })) (fun t =>
      t.here.task.ckpt.map (·.pc) == some 0x1004) = true
    ∧ stays (.superstepEnd 1 0) (stGang []) = true
    ∧ after (exec (.dlriskPost 1 0) (stStep id)) (fun t => (t.ctx 5).dlrc == 1 && (t.ctx 5).dlrp == 0x800000003) = true
    ∧ after (exec (.gangLevelRaise 1 0) stWaiting) (fun t => (t.gang 1 0).map (·.bonus) == some 2) = true := by decide +kernel

/-- A task after EXIT with flags 3, in a gang of n tasks. -/
def stRetire (n : Nat) : State :=
  withGang { gang1 n with flags := 4 } (stateOf { cluster1 { seqWith [] with exited := true, idle := true } with
    task := { task1 with st := .exiting, flags := 3, n := n }, seqY := .reset, seqM := .reset })

theorem witness_Completion :
    ((stRetire 2).mayRetire 0 = true ∧ (stRetire 2).gang 1 0 = some { gang1 2 with flags := 4 }
      ∧ (stRetire 2).here.task.flush = [] ∧ (stRetire 2).here.usedSy = [] ∧ (stRetire 2).here.usedHost = false
      ∧ (stRetire 2).zeroOut 0 = false ∧ (stRetire 2).here.task.st = .exiting
      ∧ ({ gang1 2 with flags := 4 } : Gang).colls = [] ∧ (0 ∈ ({ gang1 2 with flags := 4 } : Gang).clusters))
    ∧ ((stRetire 1).mayRetire 0 = true ∧ (stRetire 1).gang 1 0 = some { gang1 1 with flags := 4 }) := by decide +kernel

theorem test_task_retirement :
    after (exec (.taskRetire 0) (stRetire 2)) (fun t => t.here.task == .reset
      && (t.gang 1 0).map (fun g => (g.flags, g.retired)) == some (7, [0])) = true
    ∧ after (exec (.taskRetire 0) (stRetire 1)) (fun t => t.here.task == .reset
      && (t.gang 1 0).map (fun g => (g.flags, g.st)) == some (7, .done)) = true := by decide +kernel

/-- Its gangs are over; status page at 0x9000. -/
def stDone (j : Job) : State :=
  { stateOf Cluster.reset with
    jobs := [{ j with gangs := [{ gang1 1 with st := .done }] }],
    ctxs := [(5, { Ctx.reset with desc := some (leBytes 8 0 ++ leBytes 8 1 ++ leBytes 8 0x9000 ++ List.replicate 40 0) })] }

theorem stDone_memOk (j : Job) : (stDone j).MemOk := memOk_of_one _ _ rfl rfl rfl rfl (by decide +kernel)

/-- With the completion record at 0x80, in a page of a level-1 leaf. -/
def stRecord : State :=
  { stDone { job1 (gang1 1) with crec := 0x80 } with
    mem := Memory.write [] 0 (leBytes 8 0xD), ctxs := [(5, { Ctx.reset with desc := some (descBytes 1) })] }

def jobDone (s : State) : Job := s.jobs.getD 0 (job1 (gang1 1))

/-- The write of a piece of its record. -/
def recordGot (s : State) : Got (List Nat) :=
  let p := s.partOfCtx 5
  let j := jobDone s
  let e := (j.pieces s.now).headD (0, [])
  s.ctxPut p { p.who 5 with view := union j.knew j.recIds } [⟨j.knew, .sy, 64 * p.first, []⟩] e.1 e.2

theorem witness_Completion_jobs :
    ((stDone (job1 (gang1 1))).job 1 = some (jobDone (stDone (job1 (gang1 1)))) ∧ (jobDone (stDone (job1 (gang1 1)))).live = true
      ∧ (jobDone (stDone (job1 (gang1 1)))).over = true ∧ (jobDone (stDone (job1 (gang1 1)))).crec = 0
      ∧ (jobDone (stDone (job1 (gang1 1)))).recHost = false
      ∧ (stDone (job1 (gang1 1))).recordOut ((stDone (job1 (gang1 1))).partOfCtx 5) 5 = false ∧ (stDone (job1 (gang1 1))).silos = [])
    ∧ (stDone (job1 (gang1 1))).MemOk
    ∧ (stRecord.job 1 = some (jobDone stRecord) ∧ (jobDone stRecord).live = true ∧ (jobDone stRecord).over = true
      ∧ (jobDone stRecord).recLeft = none ∧ (jobDone stRecord).crec ≠ 0
      ∧ ((jobDone stRecord).pieces stRecord.now).map (fun e => (e.1, e.2.length)) = [(0x80, 64)]
      ∧ stRecord.ctxHeld (stRecord.partOfCtx 5) 5 0x80 64 = false)
    ∧ ∃ u ids, recordGot stRecord = .ok u ids ∧ u.job 1 = some (jobDone stRecord) := by
  have ⟨u, v, h, e⟩ := gotAny_spec (p := fun u _ => u.job 1 == some (jobDone stRecord))
    (by decide +kernel : gotAny (recordGot stRecord) _ = true)
  exact ⟨by decide +kernel, stDone_memOk _, by decide +kernel, u, v, h, beq_iff_eq.1 e⟩

/-- The host link is up: DONE is at 0 of the status page. -/
theorem test_job_completion :
    after (exec (.jobComplete 1) { stDone (job1 (gang1 1)) with links := { Links.reset with hostUp := true } }) (fun t =>
      t.jobs == [] && (t.ctx 5).done == 1 && (t.ctx 5).lastjob == 1 && t.host.read 0x9000 8 == leBytes 8 1) = true
    ∧ after (exec (.jobComplete 1) stRecord) (fun t => t.jobs.map (·.recLeft) == [some []] && t.mem.read 0x90 8 == leBytes 8 1)
      = true := by decide +kernel

/-- A module in READY with a valid context 5. -/
def stLaunch (desc : Nat) : State :=
  { st [] with boot := { Boot.reset with st := 5 }, ctxs := [(5, { Ctx.reset with desc := some (descBytes desc) })] }

def fromRoot : InboundAttr := ⟨true, true, false, false, false, 1⟩

theorem witness_Completion_launch :
    (stLaunch 1).boot.st = 5 ∧ (stLaunch 1).inboundOut fromRoot.requester = false
    ∧ descValid ((stLaunch 1).descOf ((stLaunch 1).partOfFn 0) 5) = true
    ∧ descValid ((stLaunch 0).descOf ((stLaunch 0).partOfFn 0) 5) = false
    ∧ (launchBytes.length = 64 ∧ (stLaunch 1).badLaunch 5 (launchOf launchBytes) false = false ∧ (stLaunch 1).room 5 false = some true)
    := by decide +kernel

/-- Job numbers of context 5 from the host begin at 5 × 2^34 + 1 (R323). -/
theorem test_launch_writes :
    after (exec (.launchWrite 0 0x5000 launchBytes fromRoot) (stLaunch 1)) (fun t =>
      t.jobs.map (fun j => (j.num, j.gangs.length)) == [(5 * 2 ^ 34 + 1, 2)]) = true
    ∧ after (exec (.launchWrite 0 0x5020 launchBytes fromRoot) (stLaunch 1)) (fun t =>
      t.jobs == [] && (t.ctx 5).rej == 1 && (t.ctx 5).rejReason == 1) = true
    ∧ after (exec (.launchWrite 0 0x5000 launchBytes { fromRoot with relaxed := true }) (stLaunch 1)) (fun t =>
      (t.ctx 5).rejReason == 2) = true
    ∧ after (exec (.launchWrite 0 0x5000 launchBytes fromRoot) (stLaunch 0)) (fun t => t.jobs == [] && t.ctxs == (stLaunch 0).ctxs)
      = true := by decide +kernel

/-- A task header: code at 0x100 of 64 KiB, ENTRY 0x140, ENERGY 8 and PEAK 8 units. -/
def hdr1 : List Byte :=
  leBytes 4 0x5439444F ++ [1, 0, 0, 0] ++ leBytes 4 0x100 ++ leBytes 4 0x200 ++ leBytes 4 0x300 ++ leBytes 4 0 ++ leBytes 4 0x140
    ++ leBytes 4 8 ++ leBytes 2 8 ++ [0, 3] ++ leBytes 2 32 ++ leBytes 4 0x400 ++ List.replicate 22 0

theorem test_task_header : headerLegal hdr1 = true ∧ hdr1.length = 64 ∧ headerLegal (hdr1.set 4 2) = false
    ∧ headerLegal (hdr1.set 25 0) = false ∧ headerLegal (hdr1.set 28 0) = false := by decide +kernel

/-- A candidate of two clusters, and two free clusters in service. -/
def cand2 : Gang := { gang1 2 with st := .candidate, hdr := hdr1, clusters := [] }

def serving : Cluster := { Cluster.reset with power := { Power.reset with insvc := true } }

/-- Clusters 0, 3 and n serve; n + 3 holds a task. -/
def stSched (busy : Bool) : State :=
  { State.reset with
    clusters := [(0, { serving with task := { Task.reset with resident := busy } }), (3, serving), (9, serving)], jobs := [job1 cand2] }

theorem witness_Scheduling :
    let p := Partition.whole
    ((stSched true).partAt 0 = some p ∧ p.switching = none
      ∧ (∀ i ∈ (stSched true).jobs, ∀ x ∈ i.gangs, x.st ≠ .waiting ∧ x.st ≠ .entered ∧ x.st ≠ .checking)
      ∧ (stSched true).first p = some (job1 cand2, cand2) ∧ (stSched true).gang 1 0 = some cand2
      ∧ (stSched true).fits p cand2 = true ∧ cand2.st = .candidate)
    ∧ ({ stSched true with clusters := [(0, { serving with task := { Task.reset with resident := true } }), (3, serving)] } : State).fits p
        cand2 = false
    ∧ ({ stSched true with clusters := [(0, { serving with task := { Task.reset with resident := true } }), (3, serving)] } : State).first
        p = some (job1 cand2, cand2)
    ∧ (stSched true).reworldAll p = stSched true
    ∧ (let s : State := { stSched true with clusters := [(0, { serving with task := { Task.reset with resident := true } }), (3, serving)] }
      s.reworldAll p = s) := by decide +kernel

/-- A candidate whose function's world has become smaller completes with GANGSIZE (R318). -/
theorem test_reworld :
    (({ stSched true with jobs := [job1 { cand2 with size := 600 }] } : State).reworldAll Partition.whole).jobs.map (·.code) = [4]
    := by decide +kernel

theorem test_scheduler_cycle :
    after (exec (.schedulerCycle 0) (stSched true)) (fun t => (t.gang 1 0).map (fun g => (g.st, g.clusters)) == some (.admitted, [3, 9])
      && (t.cluster 9).task.rank == 1 && (t.cluster 9).task.st == .starting && (t.cluster 3).task.quota == 32
      && (t.cluster 0).task == ({ Task.reset with resident := true } : Task) && (t.part 0).ptr[7] == 0 && (t.part 0).ptr[0] == 6) = true
    ∧ after (exec (.schedulerCycle 0) (stSched false)) (fun t => (t.gang 1 0).map (·.clusters) == some [0, 3]) = true := by decide +kernel

/-- Cluster 0 takes a gang of one task whose image is at 0x10000, with its argument block in page 2 at 0x20040. -/
def stStarting (thrn : Nat) : State :=
  let g : Gang := { gang1 1 with st := .admitted, argp := 0x20040, thrp := 0x20000, thrn := thrn }
  { State.reset with
    clusters := [(0, { serving with task := { task1 with st := .starting, image := 0x10000, entry := 0x140, dir := [(0, 1, 0x100)] }, tiles := Memory.write [] 9 [7] })],
    jobs := [job1 g], mem := Memory.write (Memory.write [] 0 (leBytes 8 0xD)) 0x20040 (leBytes 8 41 ++ leBytes 8 42),
    ctxs := [(5, { Ctx.reset with desc := some (descBytes 1) })] }

def startGang1 (thrn : Nat) : Gang := { gang1 1 with st := .admitted, argp := 0x20040, thrp := 0x20000, thrn := thrn }

/-- The reads of a start, one after the other. -/
theorem startReads {s : State} {p : Partition} {args : List Word} {recs : List (List Record)}
    (h : gotAny (s.startArgs p 5 (startGang1 1).argp.toNat) (fun s1 a => decide (a = args)
      && gotAny (s1.startRecords p 5 (startGang1 1).thrp.toNat 1 (List.range 1) []) fun s2 r => decide (r = recs)
        && decide (s2.jobs = s.jobs) && decide (s2.parts = s.parts)) = true) :
    ∃ s1 a s2 r, s.startArgs p 5 (startGang1 1).argp.toNat = .ok s1 a
      ∧ s1.startRecords p 5 (startGang1 1).thrp.toNat 1 (List.range 1) [] = .ok s2 r
      ∧ a = args ∧ r = recs ∧ s2.jobs = s.jobs ∧ s2.parts = s.parts := by
  have ⟨s1, a, h1, e⟩ := gotAny_spec h
  simp only [Bool.and_eq_true, decide_eq_true_eq] at e
  have ⟨s2, r, h2, e2⟩ := gotAny_spec e.2
  simp only [Bool.and_eq_true, decide_eq_true_eq] at e2
  exact ⟨s1, a, s2, r, h1, h2, e.1, e2.1.1, e2.1.2, e2.2⟩

theorem witness_Scheduling_start :
    let s := stStarting 1
    let p := s.partOfCtx 5
    s.job 1 = some (job1 (startGang1 1)) ∧ s.gang 1 0 = some (startGang1 1) ∧ (s.part (64 * p.first)).switching = none
    ∧ (s.cluster 0).task.st = .starting ∧ (s.cluster 0).staged = none
    ∧ ∃ s1 args s2 recs, s.startArgs p 5 (startGang1 1).argp.toNat = .ok s1 args
      ∧ s1.startRecords p 5 (startGang1 1).thrp.toNat 1 (List.range 1) [] = .ok s2 recs
      ∧ args = [41, 42, 0, 0, 0, 0, 0] ∧ recs = [[recordFrom (List.replicate 64 0)]] ∧ s2.jobs = s.jobs ∧ s2.parts = s.parts := by
  refine ⟨?_, ?_, ?_, ?_, ?_, startReads ?_⟩ <;> decide +kernel

theorem test_gang_start :
    after (exec (.gangStart 1 0) (stStarting 1)) (fun t => (t.gang 1 0).map (fun g => (g.st, g.step)) == some (.resident, 0)
      && t.here.seqC.pc == 0x10140 && t.here.seqC.reg 1 == 41 && t.here.seqC.reg 2 == 42 && t.here.seqC.reg 8 == 0
      && t.here.seqC.pred 0 && !t.here.seqC.pred 1 && !t.here.seqC.idle && t.here.seqY.idle && t.here.tiles.read 9 1 == [7]
      && (t.here.bin 0).recs == [(recordFrom (List.replicate 64 0)).hop]) = true := by decide +kernel

/-- A saved task of cluster 0, whose matrix sequencer had s4 = 9 and a load on its way. -/
def saved1 : Cluster :=
  { cluster1 (seqWith [5]) with
    task := { task1 with st := .saved, flags := 3 }, events := 6, tiles := Memory.write [] 9 [7],
    seqM := { seqWith [0, 0, 0, 9] with outstanding := [{ load0 with phase := .sent 3 }] } }

def stSaved : State :=
  { State.reset with
    clusters := [(0, { serving with task := { task1 with st := .saved } })], savedCl := [(0, saved1)],
    jobs := [job1 { gang1 1 with st := .admitted, resumed := true, deadline := some 900, preAt := 50 }], now := 80 }

theorem witness_Scheduling_resume :
    stSaved.job 1 = some (job1 { gang1 1 with st := .admitted, resumed := true, deadline := some 900, preAt := 50 })
    ∧ stSaved.gang 1 0 = some { gang1 1 with st := .admitted, resumed := true, deadline := some 900, preAt := 50 }
    ∧ (stSaved.cluster 0).task.st = .saved ∧ (stSaved.part (64 * (stSaved.partOfCtx 5).first)).switching = none := by decide +kernel

theorem test_gang_resume :
    after (exec (.gangResume 1 0) stSaved) (fun t => (t.gang 1 0).map (fun g => (g.st, g.deadline, g.stepStart)) == some (.resident, some 930, 80)
      && t.here.task.st == .running && t.here.task.flags == 3 && t.here.tiles.read 9 1 == [7] && t.here.events == 6
      && t.here.seqC.reg 1 == 5 && t.here.seqM.reg 4 == 9 && t.here.seqM.outstanding == [load0] && t.savedCl == []) = true := by
  decide +kernel

/-! ### Bins and slots -/

/-- A frame of a memory tile: MODE and OPR, NBUF − 1 = 0, BASE 0, LEN in units of 64 bytes, and other fields added (R230). -/
def tileFrame (tile mode opr len more : Nat) : Nat :=
  2 * 2 ^ 248 + tilePos tile * 2 ^ 232 + mode * 2 ^ 227 + opr * 2 ^ 222 + len * 2 ^ 183 + more

/-- Block 7 runs in slot 0 since clk 20, its bin in tile 2 with PDLY 6; blocks 7 and 9 are the task's. -/
def stBins (now : Nat) (bins : Table Bin) : State :=
  stateOf { cluster1 (seqWith []) with
    task := { task1 with smask := 1, quota := 2, dir := [(7, 1, 0x800), (9, 1, 0xC00)] }, clk := now, bins := bins,
    slots := [(0, { Slot.reset with st := .running, blk := 7, dispatching := true, startClk := 20, frames := [tileFrame 2 4 0xF 4 (6 * 2 ^ 204)] })] }

def recs (b n : Nat) : List Record := List.replicate n ⟨w64 b, [5, 6]⟩

/-- A bin of n records, the newest of clk 40. -/
def binOf (b n : Nat) : Bin := { Bin.reset with recs := recs b n, spillCap := 32, since := 30, newest := 40 }

theorem witness_Bins :
    (let k := (stPush.mapHere fun k => { k with pushSlot := some (recordFrom threadBytes) }).here;
      k.pushSlot = some (recordFrom threadBytes) ∧ k.saving = false ∧ k.task.resident = true
      ∧ k.blockOf (recordFrom threadBytes) = .inl 7 ∧ (k.bin 7).recs.length < k.binCap 7)
    ∧ (stBins 50 []).here.blocked < 65536
    ∧ ({ (stBins 50 []).here with blocked := 65536 } : Cluster).Alive
    ∧ ((stBins 50 [(7, binOf 7 18)]).here.mayDispatch 0 = true ∧ (stBins 50 [(7, binOf 7 18)]).here.binTile 0 = some (2, tileFrame 2 4 0xF 4 (6 * 2 ^ 204))
      ∧ (stBins 50 [(7, binOf 7 18)]).here.quotaMet 0 = false ∧ 16 ≤ ((stBins 50 [(7, binOf 7 18)]).here.bin 7).recs.length)
    ∧ (((stBins 50 [(7, binOf 7 3), (9, binOf 9 1)]).mapHere (·.mapSlot 0 fun x => { x with groups := 2 })).here.quotaMet 0 = true
      ∧ ((stBins 50 [(7, binOf 7 3), (9, binOf 9 1)]).mapHere (·.mapSlot 0 fun x => { x with groups := 2 })).here.mayDispatch 0 = true)
    ∧ ((stBins 46 [(7, binOf 7 3)]).here.binDelay 0 ≤ (stBins 46 [(7, binOf 7 3)]).here.clk - ((stBins 46 [(7, binOf 7 3)]).here.bin 7).newest)
    ∧ (stBins 46 []).here.binDelay 0 ≤ (stBins 46 []).here.clk
        - Nat.max ((stBins 46 []).here.bin 7).since ((stBins 46 []).here.slot 0).startClk
    ∧ (0 < (stBins 4126 [(9, binOf 9 1)]).here.binCount 9
      ∧ 4096 ≤ (stBins 4126 [(9, binOf 9 1)]).here.clk - ((stBins 4126 [(9, binOf 9 1)]).here.bin 9).since) := by decide +kernel

/-- A port of slot 0 in tile 4 that holds a record for the bin. -/
def stHeld : State :=
  (stBins 50 [(7, binOf 7 3)]).mapHere fun k => k.mapPort 0 4 fun p => { p with heldRec := recs 7 2 }

theorem witness_Bins_port :
    (stHeld.here.port 0 4).heldRec = ⟨w64 7, [5, 6]⟩ :: recs 7 1 ∧ stHeld.here.blockOf ⟨w64 7, [5, 6]⟩ = .inl 7
    ∧ (stHeld.here.bin 7).recs.length < stHeld.here.binCap 7 ∧ stHeld.here.saving = false
    ∧ stHeld.here.task.st ≠ .abandoning ∧ stHeld.here.task.st ≠ .failing := by decide +kernel

theorem test_bins :
    after (exec (.binEnqueue 0 128) (stPush.mapHere fun k => { k with pushSlot := some (recordFrom threadBytes) })) (fun t =>
      (t.here.bin 7).recs == [(recordFrom threadBytes).hop] && t.here.pushSlot == none) = true
    ∧ after (exec (.binEnqueue 0 4) stHeld) (fun t => (t.here.bin 7).recs.length == 4 && (t.here.port 0 4).heldRec == recs 7 1) = true
    ∧ after (exec (.bindeadlock 0) ((stBins 50 []).mapHere fun k => { k with blocked := 65536 })) (fun t =>
      t.here.task.code == 9 && t.here.task.st == .failing) = true
    ∧ after (exec (.binDispatch 0 0) (stBins 50 [(7, binOf 7 18)])) (fun t =>
      (t.here.bin 7).recs.length == 2 && (t.here.port 0 2).coQ == [.ctl 0xFFFF] && (t.here.port 0 2).outQ.length == 64
        && (t.here.port 0 2).outQ.take 4 == [.word 7, .word 0, .word 5, .word 6]) = true
    ∧ after (exec (.partialDispatch 0 0) (stBins 46 [(7, binOf 7 3)])) (fun t =>
      (t.here.bin 7).recs == [] && (t.here.port 0 2).coQ == [.ctl 7] && (t.here.slot 0).groups == 1) = true
    ∧ stays (.partialDispatch 0 0) (stBins 45 [(7, binOf 7 3)]) = true
    ∧ after (exec (.partialDispatch 0 0) (stBins 46 [])) (fun t => (t.here.slot 0).st == .draining) = true
    ∧ after (exec (.binDispatch 0 0) ((stBins 50 [(7, binOf 7 18), (9, binOf 9 1)]).mapHere (·.mapSlot 0 fun x => { x with groups := 2 })))
        (fun t => (t.here.slot 0).st == .draining && (t.here.bin 7).recs.length == 18) = true
    ∧ after (exec (.binAged 0 9) (stBins 4126 [(9, binOf 9 1)])) (fun t => (t.here.bin 9).aged && !(t.here.bin 7).aged) = true := by
  decide +kernel

/-- An image of block 9, VER 3, with one frame, a FIFOS of 64 words in tile 2; its CRC-32C worked out by hand (R131). -/
def header9 (crc : Nat) : Nat := 5 * 2 ^ 248 + 9 * 2 ^ 218 + 3 * 2 ^ 202 + 2 ^ 192 + crc * 2 ^ 160
def fifoFrame : Nat := tileFrame 2 1 0x12 1 0
def image9 (crc : Nat) : List Byte := leBytes 32 (header9 crc) ++ leBytes 32 fifoFrame

/-- Slot 1, pinned, loads it: `next` frames are read. -/
def stImage (blk crc next : Nat) : State :=
  (withRecord (image9 crc) (st [])).mapHere fun k =>
    { k with slots := [(1, { Slot.reset with st := .loading, blk := blk, ver := 3 })],
             loads := [⟨1, blk, w64 inTile2, false, 0, [], 0, if next = 0 then 0 else header9 crc, next,
               if next = 0 then 0xFFFFFFFF#32 else crcBytes 0xFFFFFFFF#32 (leBytes 32 (header9 0))⟩] }

/-- The read of the next frame. -/
def frameBytes (s : State) (l : Load) : Got (List Byte) :=
  s.vread (l.who s.here 0) (l.img.toNat + 32 * l.next) 32

def firstLoad (s : State) : Load := s.here.loads.getD 0 ⟨0, 0, 0, false, 0, [], 0, 0, 0, 0⟩

theorem witness_Slots_image :
    let a := stImage 9 0x5C8C2CBD 0
    let b := stImage 9 0x5C8C2CBD 1
    (a.here.loads = firstLoad a :: [] ∧ a.here.saving = false ∧ (firstLoad a).sched = false
      ∧ (a.here.seqC.outstanding ++ a.here.seqC.frame.replay).any (a.blocksRecord 0 .control ((firstLoad a).img.toNat + 32 * (firstLoad a).next) 32) = false
      ∧ frameBytes a (firstLoad a) = .ok a (leBytes 32 (header9 0x5C8C2CBD)) ∧ a.here.task.st ≠ .failing ∧ (firstLoad a).next = 0
      ∧ headerError (leNat (leBytes 32 (header9 0x5C8C2CBD))) 9 = 0 ∧ headerError (header9 0x5C8C2CBD) 8 ≠ 0)
    ∧ frameBytes b (firstLoad b) = .ok b (leBytes 32 fifoFrame)
    ∧ (b.here.seqC.outstanding ++ b.here.seqC.frame.replay).any (b.blocksRecord 0 .control ((firstLoad b).img.toNat + 32 * (firstLoad b).next) 32) = false
    ∧ frameError fifoFrame [] = 0 ∧ frameError fifoFrame [fifoFrame] ≠ 0
    ∧ hNfr (firstLoad b).header ≤ (firstLoad b).next ∧ hNfr (header9 0 + 2 ^ 192) = 2 ∧ lastError [withSlot fifoFrame 1] false = 0
    ∧ (~~~crcBytes (firstLoad b).crc (leBytes 32 fifoFrame)).toNat = hCrc (firstLoad b).header
    ∧ (~~~crcBytes (firstLoad b).crc (leBytes 32 fifoFrame)).toNat ≠ hCrc (header9 5) := by
  refine ⟨⟨?_, ?_, ?_, ?_, gotOk_spec ?_, ?_, ?_, ?_, ?_⟩, gotOk_spec ?_, ?_, ?_, ?_, ?_, ?_, ?_, ?_, ?_⟩ <;> decide +kernel

theorem test_image_load :
    after (exec (.configFrameWrite 0) (stImage 9 0x5C8C2CBD 0)) (fun t => (t.here.slot 1).ver == 3 && (firstLoad t).next == 1) = true
    ∧ after (exec (.configFrameWrite 0) (stImage 9 0x5C8C2CBD 1)) (fun t =>
      (t.here.slot 1).st == .ready && (t.here.slot 1).frames == [withSlot fifoFrame 1] && t.here.loads == []) = true
    ∧ after (exec (.configFrameWrite 0) (stImage 9 0x5C8C2CBE 1)) (fun t =>
      (t.here.slot 1).st == .empty && (t.here.slot 1).lasterr == 6) = true
    ∧ after (exec (.configFrameWrite 0) (stImage 8 0x5C8C2CBD 0)) (fun t => (t.here.slot 1).lasterr == 5) = true := by decide +kernel

/-- R131: the CRC-32C of the ASCII digits 1 to 9 is E3069283H. -/
theorem test_crc : ~~~crcBytes 0xFFFFFFFF#32 [49, 50, 51, 52, 53, 54, 55, 56, 57] = 0xE3069283#32 := by decide +kernel

/-- The block scheduler's slot 0 in a state, bins of blocks 7 and 9. -/
def stChoose (x : SlotState) (blk : Nat) : State :=
  (stBins 50 [(7, binOf 7 2), (9, binOf 9 3)]).mapHere (·.mapSlot 0 fun y => { y with st := x, blk := blk })

theorem witness_Slots :
    (stChoose .empty 0).here.choose = some 9 ∧ (stChoose .empty 0).here.schedules = true
    ∧ (List.range 4).find? (stChoose .empty 0).here.openSlot = some 0 ∧ (stChoose .empty 0).here.holder 9 = none
    ∧ (stChoose .empty 0).here.task.dir.find? (·.1 == 9) = some (9, 1, 0xC00)
    ∧ ((stChoose .idle 9).here.choose = some 9 ∧ ((stChoose .idle 9).here.slot 0).st = .idle)
    ∧ ((stChoose .ready 9).here.sched 0 = true ∧ ((stChoose .ready 9).here.slot 0).halted = false)
    ∧ (((stChoose .draining 9).here.slot 0).haltPending = false ∧ bit (stChoose .draining 9).dbg.tren 1 = false
      ∧ (stChoose .draining 9).regionQuiet 0 0 = true)
    ∧ (stHeld.regionQuiet 0 0 = false)
    ∧ ((stSlot .running []).here.sched 1 = false ∧ (stSlot .running []).here.portsDone 0 1 = true
      ∧ (stSlot .running []).regionQuiet 0 1 = true) := by decide +kernel

theorem test_slots :
    after (exec (.schedulerChoose 0) (stChoose .empty 0)) (fun t =>
      (t.here.slot 0).st == .loading && (t.here.slot 0).blk == 9 && t.here.loads.map (·.img) == [0xC00]) = true
    ∧ after (exec (.schedulerChoose 0) (stChoose .idle 9)) (fun t => (t.here.slot 0).st == .ready && t.here.loads == []) = true
    ∧ after (exec (.slotStart 0 0) (stChoose .ready 9)) (fun t => (t.here.slot 0).st == .running && (t.here.slot 0).startClk == 50) = true
    ∧ after (exec (.regionDrained 0 0) (stChoose .draining 9)) (fun t => (t.here.slot 0).st == .idle) = true
    ∧ after (exec (.pinnedRegionEnd 0 1) (stSlot .running [])) (fun t => (t.here.slot 1).st == .idle) = true
    ∧ stays (.pinnedRegionEnd 0 0) stHeld = true := by decide +kernel

/-! ### Elements and legs -/

/-- Element 0 at position 0, EN_A and EN_X, eight digits in and out (R197). -/
def elFrame (op : Nat) : Nat := 2 ^ 248 + op * 2 ^ 224 + 7 * 2 ^ 220 + 7 * 2 ^ 212 + 2 ^ 211 + 2 ^ 208

def lanes16 (b : Byte) : List Byte := List.replicate 16 b

/-- A value with HEAD 3 and its first digit, 1, in every lane. -/
def val1 : InVal := { InVal.reset with active := true, headed := true, head := lanes16 3, digs := [lanes16 1] }

/-- Slot 1 runs with one frame; the element's running slot, its state, and channels. -/
def stElem (running : Nat) (x : Elem) (chans : Table Chan) : State :=
  stateOf { cluster1 (seqWith []) with
    slots := [(1, { Slot.reset with st := .running, blk := 7, frames := [elFrame 0] })],
    fab := { Fabric.reset with running := [(0, running)], elems := [(elemKey 1 0 0, x)], chans := chans } }

def asked : Table Chan := [(elX 1 0 0, { Chan.reset with req := 1 })]
def moving : Elem := { Elem.reset with a := val1 }

theorem witness_Elements :
    (let k := (stElem 1 moving asked).here;
      k.runs 1 = true ∧ k.saving = false ∧ k.runningSlot 0 0 = 1 ∧ k.frame 1 1 0 = some (elFrame 0) ∧ deEnX (elFrame 0) = true
      ∧ deEnY (elFrame 0) = false ∧ deEnCo (elFrame 0) = false ∧ deEnB (elFrame 0) = false ∧ deEnC (elFrame 0) = false
      ∧ k.ready (elX 1 0 0) = true ∧ deLegal (elFrame 0) = true
      ∧ (Cell.mk (elFrame 0) (k.elem 1 0 0)).beat false (k.elem 1 0 0).x
          = some (.head (lanes16 3), { (OutVal.reset) with head := true }))
    ∧ (let k := (stElem 0 moving asked).here;
      k.canFire (k.runningSlot 0 0) 0 0 = false
      ∧ ((List.range 3).map fun i => (k.runningSlot 0 0 + 1 + i) % 4).find? (fun j => k.canFire j 0 0) = some 1) := by decide +kernel

/-- A KILL of value 2 towards the producer of a channel that comes from a box without a leg for it. -/
def stKill (produced : Nat) : State :=
  (stElem 1 moving [(inKey 1 1 9 0, { Chan.reset with produced := produced, consumed := 3, req := 1 })]).mapHere fun k =>
    { k with fab := { k.fab with kills := [⟨inKey 1 1 9 0, 2⟩] } }

theorem witness_Elements_kill :
    (stKill 3).here.fab.kills[0]? = some ⟨inKey 1 1 9 0, 2⟩ ∧ (stKill 3).here.saving = false
    ∧ ((stKill 3).here.chan (inKey 1 1 9 0)).produced ≠ 2 ∧ ((stKill 2).here.chan (inKey 1 1 9 0)).produced = 2
    ∧ (stKill 2).here.producer 0 (inKey 1 1 9 0) = .nothing := by decide +kernel

theorem test_elements :
    after (exec (.elementFire 0 1 0 0) (stElem 1 moving asked)) (fun t =>
      (t.here.chan (elX 1 0 0)).buf == [.head (lanes16 3)] && (t.here.chan (elX 1 0 0)).req == 0 && (t.here.slot 1).fired == [(unitKey 1 0, 0)]
        && t.here.events10[2] == 1) = true
    ∧ after (exec (.slotSwitch 0 1 0 0) (stElem 0 moving asked)) (fun t => t.here.runningSlot 0 0 == 1 && (t.here.slot 1).fired == [(unitKey 1 0, 1)]) = true
    ∧ after (exec (.killArrival 0 0) (stKill 3)) (fun t => t.here.fab.kills == [] && (t.here.chan (inKey 1 1 9 0)).produced == 3) = true
    ∧ after (exec (.killArrival 0 0) (stKill 2)) (fun t => t.here.fab.kills == []
      && (t.here.chan (inKey 1 1 9 0)).produced == 3 && (t.here.chan (inKey 1 1 9 0)).req == 0) = true := by decide +kernel

/-- R211: MOV of DIG beats and TAIL. -/
theorem test_element_stream :
    let o : OutVal := { OutVal.reset with head := true }
    ((Cell.mk (elFrame 0) moving).beat false o).map (·.1) = some (.dig (lanes16 1))
    ∧ (Cell.mk (elFrame 0) moving).beat false { o with dig := 1 } = none
    ∧ ((Cell.mk (elFrame 0) { moving with a := { val1 with done := true } }).beat false { o with dig := 1 }).map (·.1) = some (.dig (lanes16 0))
    ∧ ((Cell.mk (elFrame 0) { moving with a := { val1 with done := true } }).beat false { o with dig := 8 }).map (·.1) = some .tail := by
  decide +kernel

/-- A leg of the vector box at position 9 (a digit tile) in leg 0: SRC 3, DEST and SRC2 as given (R224). -/
def stLeg (net op src2 dest par : Nat) (x : Leg) (a b : List Token) : State :=
  let c : LegCfg := ⟨op, 3, src2, dest, par⟩
  let l : LegAt := ⟨1, net, 9, 0, c⟩
  let frame := 3 * 2 ^ 248 + (9 + 64 * net) * 2 ^ 232 + op + src2 * 2 ^ 7 + 3 * 2 ^ 3 + dest * 2 ^ 11 + par * 2 ^ 23
  let key (p : Nat) : Nat × Chan := (outKey 1 net 9 p, { Chan.reset with req := 2 })
  let chans := [(l.src, { Chan.reset with buf := a }), (l.src2, { Chan.reset with buf := b })] ++ c.ports.map key
  stateOf { cluster1 (seqWith []) with
    slots := [(1, { Slot.reset with st := .running, blk := 7, frames := [frame] })],
    fab := { Fabric.reset with legs := [(l.key, x)], chans := chans } }

def leg9 (net op src2 dest par : Nat) : LegAt := ⟨1, net, 9, 0, ⟨op, 3, src2, dest, par⟩⟩

/-- The premises about a leg. -/
def legOk (s : State) (net : Nat) (l : LegAt) : Bool :=
  let outs := l.c.ports.map l.out
  s.here.legAt 1 net 9 0 == some l && s.here.runs 1 && !s.here.saving && outs.Nodup && !outs.contains l.src && !outs.contains l.src2
    && !l.c.ports.isEmpty && l.src != l.src2 && 1 ≤ l.c.op && l.c.op ≤ 6

def passing (live : List Nat) : Leg := { Leg.reset with inVal := true, live := live }

theorem witness_Legs :
    legOk (stLeg 1 3 0 6 0 (passing [1]) [.head (lanes16 3)] []) 1 (leg9 1 3 0 6 0) = true
    ∧ (let s := stLeg 1 3 0 6 0 (passing [1]) [.head (lanes16 3)] [];
      let x := s.here.leg (leg9 1 3 0 6 0)
      x.inVal = true ∧ x.asErr = 0 ∧ x.nulTo = [] ∧ x.from2 = false ∧ (∀ p ∈ x.live, p ∈ (leg9 1 3 0 6 0).c.ports) ∧ x.live.Nodup
      ∧ (∀ p ∈ x.live, s.here.ready ((leg9 1 3 0 6 0).out p) = true) ∧ s.beats 0 (leg9 1 3 0 6 0).src = [.head (lanes16 3)]
      ∧ (2 ∈ (leg9 1 3 0 6 0).c.ports ∧ 2 ∉ x.live))
    ∧ (let x := Leg.reset; x.inVal = false ∧ x.nulTo = [] ∧ x.eosA = false ∧ x.eosB = false ∧ x.credit = [])
    ∧ legOk (stLeg 1 1 0 2 0 .reset [.nul] []) 1 (leg9 1 1 0 2 0) = true
    ∧ (legOk (stLeg 0 2 0 6 0 .reset [.word 5] [.word 1]) 0 (leg9 0 2 0 6 0) = true
      ∧ (leg9 0 2 0 6 0).c.ports[1]? = some 2 ∧ (leg9 0 2 0 6 0).c.ports.length ≤ 2
      ∧ (stLeg 0 2 0 6 0 .reset [.word 5] [.word 1]).beats 0 (leg9 0 2 0 6 0).src2 = [.word 1])
    ∧ (legOk (stLeg 1 5 0 6 0 .reset [.nul] [.word 1]) 1 (leg9 1 5 0 6 0) = true ∧ (leg9 1 5 0 6 0).c.ports = [1, 2])
    ∧ (legOk (stLeg 1 4 0 2 0 .reset [] [.nul]) 1 (leg9 1 4 0 2 0) = true
      ∧ (stLeg 1 4 0 2 0 .reset [] [.nul]).beats 0 (leg9 1 4 0 2 0).src = [])
    ∧ (legOk (stLeg 1 6 0 2 4 .reset [.nul] []) 1 (leg9 1 6 0 2 4) = true ∧ (leg9 1 6 0 2 4).c.ports = [1]) := by
  decide +kernel

theorem test_legs :
    let r (i : Instr) (s : State) (l : LegAt) (x : Leg → Bool) : Bool := after (exec i s) fun t => x (t.here.leg l)
    after (exec (.legBcast 0 1 1 9 0) (stLeg 1 3 0 6 0 (passing [1]) [.head (lanes16 3)] [])) (fun t =>
      (t.here.chan ((leg9 1 3 0 6 0).out 1)).buf == [.head (lanes16 3)] && (t.here.chan ((leg9 1 3 0 6 0).out 2)).buf == []
        && t.beats 0 (leg9 1 3 0 6 0).src == []) = true
    ∧ r (.legRoute 0 1 1 9 0) (stLeg 1 1 0 2 0 .reset [.nul] []) (leg9 1 1 0 2 0) (fun x => x.inVal && x.live == [1]) = true
    ∧ r (.legIdx 0 1 0 9 0) (stLeg 0 2 0 6 0 .reset [.word 5] [.word 1]) (leg9 0 2 0 6 0) (fun x => x.live == [2] && x.asErr == 0) = true
    ∧ r (.legIdx 0 1 0 9 0) (stLeg 0 2 0 6 0 .reset [.word 5] [.word 2]) (leg9 0 2 0 6 0) (fun x => x.live == [1] && x.asErr == 8) = true
    ∧ r (.legSteer 0 1 1 9 0) (stLeg 1 5 0 6 0 .reset [.nul] [.word 1]) (leg9 1 5 0 6 0) (fun x => x.live == [1] && x.nulTo == [2]) = true
    ∧ r (.legMerge 0 1 1 9 0) (stLeg 1 4 0 2 0 .reset [] [.nul]) (leg9 1 4 0 2 0) (fun x => x.from2 && x.live == [1]) = true
    ∧ after (exec (.legHold 0 1 1 9 0) (stLeg 1 6 0 2 4 .reset [.nul] [])) (fun t =>
      (t.here.leg (leg9 1 6 0 2 4)).hold == [.nul] && (t.here.chan ((leg9 1 6 0 2 4).out 1)).buf == [.nul]) = true := by decide +kernel

/-! ### Ports -/

/-- The port of tile 2 in slot 1, with a frame of MODE 0, LEN 4 (256 bytes) and this OPR. -/
def frame2 (opr more : Nat) : Nat := tileFrame 2 0 opr 4 more
def q2 (f : Nat) : PortAt := ⟨0, 1, 2, f⟩

/-- Its state, the beats on its inputs (SA, SB, VA, CI), a REQ on each output, and the tile's first bytes. -/
def stPort (f : Nat) (p : Port) (sa sb va ci : List Token) : State :=
  let q := q2 f
  let chans : Table Chan := [(q.sa, { Chan.reset with buf := sa }), (q.sb, { Chan.reset with buf := sb }),
    (q.va, { Chan.reset with buf := va }), (q.ci, { Chan.reset with buf := ci }), (q.sx, { Chan.reset with req := 1 }),
    (q.vx, { Chan.reset with req := 1 })]
  stateOf { cluster1 (seqWith []) with
    slots := [(1, { Slot.reset with st := .running, blk := 7, frames := [f] })], tiles := Memory.write [] 0x20000 [1, 2, 3, 4, 5, 6, 7, 8],
    fab := { Fabric.reset with ports := [(portKey 1 2, p)], chans := chans } }

/-- A read that has come back. -/
def readBack (bs : List Byte) : Port := { Port.reset with readQ := [⟨9, some bs, 0, false⟩] }

/-- GLOB (R230), with GBASE at the window address of tile 2. -/
def glob : Nat := 2 ^ 214 + inTile2 * 2 ^ 64

/-- ND 8 for digit operations. -/
def nd8 : Nat := 7 * 2 ^ 216

/-- A value of HEAD 3 and no digits left that DWR has taken. -/
def valTaken : Port := { Port.reset with inVal := { val1 with done := true } }

/-- A NUL that DWR has taken. -/
def nulTaken : Port := { Port.reset with inVal := { InVal.reset with active := true, done := true, nul := true } }

theorem witness_PortReadsAndWrites :
    (let s := stPort (frame2 1 0) .reset [.word 1] [] [] [];
      let q := q2 (frame2 1 0)
      0x20004 < 65536 * q.tile + 65536 ∧ (s.here.tileQ.get (8 * q.tile + 3 + q.slot) []).length < 16 ∧ q.tile < 32 ∧ s.PortReady q 1 ∧ s.beats 0 q.sa = [.word 1] ∧ mtAgr q.f = 0 ∧ mtGlob q.f = false ∧ (s.here.portOf q).readQ = []
      ∧ (s.here.portOf q).skips = 0 ∧ (s.here.slot 1).keep = false ∧ q.local_ (s.here.portOf q) 1 q.elem = some 0x20004
      ∧ s.here.ready q.sx = true)
    ∧ (let s := stPort (frame2 3 nd8) .reset [.word 3] [] [] [];
      let q := q2 (frame2 3 nd8)
      s.PortReady q 3 ∧ q.local_ (s.here.portOf q) 3 q.elem = some 0x200C0 ∧ s.here.ready q.vx = true
      ∧ q.local_ (s.here.portOf q) 4 q.elem = none)
    ∧ (let s := stPort (frame2 1 0) (readBack [5, 6, 7, 8]) [] [] [] [];
      s.PortReady (q2 (frame2 1 0)) 1 ∧ (s.here.portOf (q2 (frame2 1 0))).readQ = ⟨9, some [5, 6, 7, 8], 0, false⟩ :: []
      ∧ (q2 (frame2 1 0)).opr = 1)
    ∧ ((stPort (frame2 3 nd8) (readBack (List.replicate 64 0)) [] [] [] []).PortReady (q2 (frame2 3 nd8)) 3 ∧ (q2 (frame2 3 nd8)).opr = 3)
    ∧ (let s := stPort (frame2 1 glob) .reset [.word 1] [] [] [];
      let q := q2 (frame2 1 glob)
      s.PortReady q 1 ∧ mtAgr q.f = 0 ∧ mtGlob q.f = true ∧ q.opr = 1)
    ∧ (let s := stPort (frame2 2 0) .reset [.word 2] [.word 9] [] [];
      let q := q2 (frame2 2 0)
      s.PortReady q 2 ∧ s.beats 0 q.sb = [.word 9] ∧ mtAgw q.f = 0 ∧ q.local_ (s.here.portOf q) 2 4 = some 0x20008
      ∧ mtGlob q.f = false ∧ 0x20008 < 65536 * q.tile + 65536 ∧ (s.here.tileQ.get (8 * q.tile + 3 + q.slot) []).length < 16)
    ∧ (let s := stPort (frame2 4 nd8) .reset [] [] [.head (lanes16 3)] [];
      let q := q2 (frame2 4 nd8)
      s.PortReady q 4 ∧ s.beats 0 q.va = [.head (lanes16 3)] ∧ (s.here.portOf q).inVal = .reset)
    ∧ (let s := stPort (frame2 4 nd8) nulTaken [.word 0] [] [] [];
      s.PortReady (q2 (frame2 4 nd8)) 4 ∧ s.beats 0 (q2 (frame2 4 nd8)).sa = [.word 0])
    ∧ (stPort (frame2 2 0) .reset [.word 2] [.serr 4] [] []).beats 0 (q2 (frame2 2 0)).sb = [.serr 4]
    ∧ (let s := stPort (frame2 4 nd8) valTaken [.word 0] [] [] [];
      let q := q2 (frame2 4 nd8)
      s.PortReady q 4 ∧ (s.here.portOf q).inVal.done = true ∧ mtGlob q.f = false ∧ q.local_ (s.here.portOf q) 0 64 = some 0x20000
      ∧ (List.range 16).filterMap (fun j => match laneWord (s.here.portOf q).inVal (mtWfmt q.f) (mtNd q.f) j with
          | .word w _ => some (j, w)
          | _ => none) ≠ []) := by
  and_intros <;> decide +kernel

/-- The access of the GLOB read, which is a tile's. -/
theorem witness_PortReadsAndWrites_global :
    let s := stPort (frame2 1 glob) .reset [.word 1] [] [] []
    let q := q2 (frame2 1 glob)
    (match (s.setCl 0 (s.here.pop q.sa)).portAccess q 1 needR (.read q.elem) (.portRead 0 1 2) with
      | .ok _ => true
      | _ => false) = true := by decide +kernel

theorem test_port_reads_and_writes :
    let port (t : State) : Port := t.here.port 1 2
    after (exec (.portWrd 0 1 2) (stPort (frame2 1 0) .reset [.word 1] [] [] [])) (fun t =>
      (port t).readQ == [⟨0, none, 0, false⟩] && t.beats 0 (q2 0).sa == []
        && (t.here.tileQ.get 20 []).map (fun r => (r.kind, r.key)) == [(.read 4, 2 ^ 60 + 0x20004)]) = true
    ∧ after (exec (.portReadReturn 0 1 2) (stPort (frame2 1 0) (readBack [5, 6, 7, 8]) [] [] [] [])) (fun t =>
      (port t).outQ == [.word 0x08070605]) = true
    ∧ after (exec (.portDrd 0 1 2) (stPort (frame2 3 nd8) .reset [.word 3] [] [] [])) (fun t =>
      (t.here.tileQ.get 20 []).map (fun r => (r.kind, r.key)) == [(.read 64, 2 ^ 60 + 0x200C0)]) = true
    ∧ after (exec (.portWwr 0 1 2) (stPort (frame2 2 0) .reset [.word 2] [.word 9] [] [])) (fun t =>
      (t.here.tileQ.get 20 []).map (fun r => (r.kind, r.key)) == [(.write [9, 0, 0, 0], 2 ^ 60 + 0x20008)] && (port t).reqs == 0) = true
    ∧ after (exec (.portDwr 0 1 2) (stPort (frame2 4 nd8) .reset [] [] [.head (lanes16 3)] [])) (fun t =>
      (port t).inVal.head == lanes16 3 && (port t).inVal.active) = true
    ∧ after (exec (.portDwr 0 1 2) (stPort (frame2 4 nd8) nulTaken [.word 0] [] [] [])) (fun t =>
      (port t).inVal == .reset && t.here.tileQ == [] && t.beats 0 (q2 0).sa == []) = true := by decide +kernel

/-- Fifteen words of a BENQ record of block 7, and a lane mask. -/
def benq15 : Port := { Port.reset with lanes := some 1, words := (List.range 15).map fun i => .word (BitVec.ofNat 32 (7 + i)) }

def moveWords (a b n : W32) : Port := { Port.reset with words := [.word a, .word b, .word n] }

theorem witness_PortFunctions :
    (let s := stPort (frame2 9 0) .reset [] [.word 0x40000000] [] [];
      s.PortReady (q2 (frame2 9 0)) 9 ∧ s.here.ready (q2 (frame2 9 0)).sx = true ∧ s.beats 0 (q2 (frame2 9 0)).sb = [.word 0x40000000])
    ∧ (stPort (frame2 7 0) .reset [] [.serr 4] [] []).PortReady (q2 (frame2 7 0)) 7
    ∧ (stPort (frame2 8 0) .reset [] [.serr 4] [] []).PortReady (q2 (frame2 8 0)) 8
    ∧ (stPort (frame2 0xA 0) .reset [] [.serr 4] [] []).PortReady (q2 (frame2 0xA 0)) 0xA
    ∧ (stPort (frame2 0xB 0) .reset [] [.serr 4] [] []).PortReady (q2 (frame2 0xB 0)) 0xB
    ∧ (let s := stPort (frame2 0xC nd8) .reset [] [] [] [.ctl 5];
      s.PortReady (q2 (frame2 0xC nd8)) 0xC ∧ s.here.ready (q2 (frame2 0xC nd8)).vx = true ∧ (s.here.portOf (q2 (frame2 0xC nd8))).lanes = none
      ∧ s.beats 0 (q2 (frame2 0xC nd8)).ci = [.ctl 5] ∧ (s.beats 0 (q2 (frame2 0xC nd8)).sb).head? ≠ some .eos)
    ∧ (let s := stPort (frame2 0xC nd8) .reset [] [.eos] [] [.ctl 5];
      s.PortReady (q2 (frame2 0xC nd8)) 0xC ∧ (s.here.portOf (q2 (frame2 0xC nd8))).skips = 0
      ∧ s.beats 0 (q2 (frame2 0xC nd8)).sb = [.eos])
    ∧ (let s := stPort (frame2 0xC nd8) { Port.reset with lanes := some 5 } [] [.word 9] [] [];
      s.PortReady (q2 (frame2 0xC nd8)) 0xC ∧ (s.here.portOf (q2 (frame2 0xC nd8))).words.length + 1 < (maskLanes 5).length)
    ∧ (stPort (frame2 0xD nd8) .reset [] [] [.head (lanes16 3)] []).PortReady (q2 (frame2 0xD nd8)) 0xD
    ∧ (let s := stPort (frame2 0xE 0) benq15 [] [.word 99] [] [];
      s.PortReady (q2 (frame2 0xE 0)) 0xE ∧ (s.here.portOf (q2 (frame2 0xE 0))).lanes = some 1
      ∧ (s.here.portOf (q2 (frame2 0xE 0))).words = ((List.range 15).map fun i => BitVec.ofNat 32 (7 + i)).map .word
      ∧ (s.here.portOf (q2 (frame2 0xE 0))).heldRec.length < 16 ∧ (maskLanes 1).length = 1)
    ∧ (stPort (frame2 0xE 0) .reset [] [] [] [.ctl 1]).PortReady (q2 (frame2 0xE 0)) 0xE    := by
  and_intros <;> decide +kernel

theorem witness_PortFunctions_move :
    let s := stPort (frame2 0x10 0) (moveWords 4 8 4) [] [] [] []
    let q := q2 (frame2 0x10 0)
    s.PortReady q 0x10 ∧ mtAgr q.f = 0 ∧ (s.here.portOf q).moving = none
    ∧ (s.engineTurn 0 (3 + q.slot) [(winBase + 0x20000 + 4, 4)] []).isSome = true
    ∧ (s.here.portOf q).words = [.word 4, .word 8, .word 4] ∧ 4 + 4 ≤ q.bufLen ∧ 8 + 4 ≤ q.bufLen
    ∧ 65536 * q.tile + 64 * mtBase q.f + (s.here.portOf q).buf * q.bufLen + q.bufLen ≤ 2 ^ 21 ∧ q.bufLen < 252 + 8
    ∧ s.tilePending (tileKey 0 (65536 * q.tile)) (union (s.here.portView q) (s.here.portOf q).own) = false := by decide +kernel

/-- A MOVE that has read its four bytes, which go to offset 8. -/
def moveDue (l : List (Nat × List Byte)) : Port := { Port.reset with moving := some (l, .word 4) }

theorem witness_PortFunctions_move_due :
    let s := stPort (frame2 0x10 0) (moveDue [(tileKey 0 0x20008, [5, 6, 7, 8])]) [] [] [] []
    let q := q2 (frame2 0x10 0)
    s.PortReady q 0x10 ∧ (s.here.portOf q).moving = some ([(tileKey 0 0x20008, [5, 6, 7, 8])], .word 4) ∧ 65536 * q.tile ≤ 0x20008
    ∧ 0x20008 < 65536 * q.tile + 65536 ∧ q.tile < 32 ∧ (s.here.tileQ.get (8 * q.tile + 3 + q.slot) []).length < 16
    ∧ (stPort (frame2 0x10 0) (moveDue []) [] [] [] []).PortReady q 0x10
    ∧ ((stPort (frame2 0x10 0) (moveDue []) [] [] [] []).here.portOf q).moving = some ([], .word 4) := by decide +kernel

/-- A generator of tile 2 with an AFFINE pattern of two indices from START, stride 1 (R251). -/
def affine2 (gen start : Nat) : Nat :=
  4 * 2 ^ 248 + (tilePos 2 + 64 * gen) * 2 ^ 232 + 2 ^ 228 + start * 2 ^ 212 + 2 * 2 ^ 144 + 2 ^ 157 + 2 ^ 170 + 2 ^ 183 + 2 ^ 80

def stMovePairs : State :=
  let f := frame2 0x10 (2 ^ 169 + 2 * 2 ^ 167)
  (stPort f { Port.reset with words := [.word 0] } [] [] [] []).mapHere fun k =>
    k.mapSlot 1 fun x => { x with frames := [f, affine2 0 0, affine2 1 2] }

theorem witness_PortFunctions_pairs :
    let s := stMovePairs
    let q := q2 (frame2 0x10 (2 ^ 169 + 2 * 2 ^ 167))
    let p := s.here.portOf q
    s.PortReady q 0x10 ∧ mtAgr q.f ≠ 0 ∧ s.here.genFrame q (mtAgr q.f) = some (affine2 0 0)
    ∧ s.here.genFrame q (mtAgw q.f) = some (affine2 1 2) ∧ agPat (affine2 0 0) = 1 ∧ agPat (affine2 1 2) = 1
    ∧ p.genEnd[0] = false ∧ p.genEnd[1] = false ∧ p.words = [.word 0] ∧ p.moving = none
    ∧ (s.engineTurn 0 (3 + q.slot) [(winBase + 0x20000, 4), (winBase + 0x20004, 4)] []).isSome = true
    ∧ movePairs (affine2 0 0) (affine2 1 2) [] = [(0, 8), (4, 12)]
    ∧ (∀ e ∈ movePairs (affine2 0 0) (affine2 1 2) [], 0 ≤ e.1 ∧ e.1 + 4 ≤ q.bufLen ∧ 0 ≤ e.2 ∧ e.2 + 4 ≤ q.bufLen)
    ∧ s.tilePending (tileKey 0 (65536 * q.tile)) (union (s.here.portView q) p.own) = false := by decide +kernel

theorem witness_PortFunctions_memories : (stPort (frame2 0x10 0) (moveWords 4 8 4) [] [] [] []).MemOk :=
  memOk_of_one _ _ rfl rfl rfl rfl (by decide +kernel)

/-- 1/2 is 0.5 (3F000000H), 2^1 is 2, log2 of 8 is 3, 1/√4 is 0.5, tanh of 0 is 0. -/
theorem test_port_functions :
    let port (t : State) : Port := t.here.port 1 2
    let word (i : Instr) (op : Nat) (x y : W32) : Bool :=
      after (exec i (stPort (frame2 op 0) .reset [] [.word x] [] [])) fun t => (port t).outQ == [.word y]
    word (.portRcp 0 1 2) 9 0x40000000 0x3F000000 = true ∧ word (.portExp2 0 1 2) 7 0x3F800000 0x40000000 = true
    ∧ word (.portLog2 0 1 2) 8 0x41000000 0x40400000 = true ∧ word (.portRsqrt 0 1 2) 0xA 0x40800000 0x3F000000 = true
    ∧ word (.portTanh 0 1 2) 0xB 0 0 = true
    ∧ after (exec (.portLog2 0 1 2) (stPort (frame2 8 0) .reset [] [.serr 4] [] [])) (fun t => (port t).outQ == [.serr 4]) = true := by
  decide +kernel

theorem test_port_masks_and_moves :
    let port (t : State) : Port := t.here.port 1 2
    after (exec (.portCvd 0 1 2) (stPort (frame2 0xC nd8) .reset [] [] [] [.ctl 5])) (fun t => (port t).lanes == some 5) = true
    ∧ after (exec (.portCvd 0 1 2) (stPort (frame2 0xC nd8) { Port.reset with lanes := some 5 } [] [.word 9] [] [])) (fun t =>
      (port t).words == [.word 9]) = true
    ∧ after (exec (.portCvw 0 1 2) (stPort (frame2 0xD nd8) .reset [] [] [.head (lanes16 3)] [])) (fun t => (port t).inVal.headed) = true
    ∧ after (exec (.portBenq 0 1 2) (stPort (frame2 0xE 0) benq15 [] [.word 99] [] [])) (fun t =>
      (port t).heldRec.map (fun r => (r.hdr, r.vals.length, r.vals.getLast?)) == [(0x800000007, 14, some 99)] && (port t).lanes == none) = true
    ∧ after (exec (.portBenq 0 1 2) (stPort (frame2 0xE 0) .reset [] [] [] [.ctl 1])) (fun t => (port t).lanes == some 1) = true
    ∧ after (exec (.portMove 0 1 2) (stPort (frame2 0x10 0) (moveWords 4 8 4) [] [] [] [])) (fun t =>
      (port t).moving == (moveDue [(tileKey 0 0x20008, [5, 6, 7, 8])]).moving && (port t).outQ == []) = true
    ∧ after (exec (.portMove 0 1 2) (stPort (frame2 0x10 0) (moveDue [(tileKey 0 0x20008, [5, 6, 7, 8])]) [] [] [] [])) (fun t =>
      (t.here.tileQ.get 20 []).map (fun r => (r.kind, r.key)) == [(.write [5, 6, 7, 8], 2 ^ 60 + 0x20008)]) = true
    ∧ after (exec (.portMove 0 1 2) (stPort (frame2 0x10 0) (moveDue []) [] [] [] [])) (fun t => (port t).outQ == [.word 4]) = true
    ∧ after (exec (.portMove 0 1 2) (stPort (frame2 0x10 0) (moveWords 252 0 8) [] [] [] [])) (fun t => (port t).outQ == [.serr 0x101]) = true
    ∧ after (exec (.portMove 0 1 2) (stPort (frame2 0x10 0) (moveWords 4 8 0) [] [] [] [])) (fun t => (port t).outQ == [.word 0]) = true := by
  decide +kernel

/-- Frames of a FIFO (MODE 1), a line buffer (MODE 2) and a RING read (MODE 3, AGR 1) of tile 2. -/
def fifo2 (opr : Nat) : Nat := tileFrame 2 1 opr 1 0
def lbuf2 : Nat := tileFrame 2 2 0x13 1 0
def ringRead : Nat := tileFrame 2 3 1 0 (2 ^ 169)

def amoPort : Port := { Port.reset with words := [.word 7] }
def fifoPort (l : List Token) : Port := { Port.reset with fifo := l }

theorem witness_PortStreams :
    (let s := stPort (frame2 5 0) amoPort [.word 1] [] [] [];
      let q := q2 (frame2 5 0)
      s.PortReady q 5 ∧ mtW64 q.f = false ∧ mtGlob q.f = false ∧ mtAgw q.f = 0 ∧ (s.here.portOf q).words = [.word 7]
      ∧ operandOf [.word 7] = .inl 7 ∧ (s.here.portOf q).reqs = 0 ∧ s.beats 0 q.sa = [.word 1]
      ∧ q.local_ (s.here.portOf q) 1 q.elem = some 0x20004 ∧ q.tile < 32 ∧ 0x20004 < 65536 * q.tile + 65536
      ∧ s.here.tileQ.get (8 * q.tile + 3 + q.slot) [] = [])
    ∧ (stPort (frame2 6 0) amoPort [.word 1] [] [] []).PortReady (q2 (frame2 6 0)) 6
    ∧ (let s := stPort (fifo2 0x11) .reset [] [] [.nul] [];
      let q := q2 (fifo2 0x11)
      s.PortReady q 0x11 ∧ (s.here.portOf q).fifo = [] ∧ (s.here.portOf q).drainOn = false ∧ s.beats 0 q.va = [.nul] ∧ 1 ≤ mtLen q.f)
    ∧ (let s := stPort (fifo2 0x12) (fifoPort [.word 9]) [] [] [] [];
      let q := q2 (fifo2 0x12)
      s.PortReady q 0x12 ∧ (s.here.portOf q).fifo = [.word 9] ∧ s.here.ready q.out = true ∧ s.beats 0 q.sb = [] ∧ s.beats 0 q.va = [])
    ∧ (let s := stPort lbuf2 (fifoPort (List.replicate 17 (.word 9))) [] [] [] [];
      s.PortReady (q2 lbuf2) 0x13 ∧ 16 * mtLen lbuf2 < (s.here.portOf (q2 lbuf2)).fifo.length)
    ∧ ((fifoPort (List.replicate 16 (.word 9))).fifo.length ≤ 16 * mtLen lbuf2)
    ∧ (let s := stPort (frame2 1 0) .reset [.eos] [] [] [];
      s.PortReady (q2 (frame2 1 0)) 1 ∧ mtEosev (frame2 1 0) = false ∧ mtAgr (frame2 1 0) = 0 ∧ s.beats 0 (q2 (frame2 1 0)).sa = [.eos])
    ∧ (let s := stPort (frame2 2 (2 ^ 177)) { Port.reset with reqs := 1 } [] [.eos] [] [];
      let q := q2 (frame2 2 (2 ^ 177))
      s.PortReady q 2 ∧ mtEosev q.f = true ∧ (s.here.portOf q).reqs ≠ 0 ∧ s.beats 0 q.sb = [.eos])
    ∧ (let s := stPort (frame2 2 0) .reset [] [.eos] [] [];
      s.PortReady (q2 (frame2 2 0)) 2 ∧ s.beats 0 (q2 (frame2 2 0)).sb = [.eos]) := by
  and_intros <;> decide +kernel

theorem test_port_streams :
    let port (t : State) : Port := t.here.port 1 2
    after (exec (.portAmo 0 1 2) (stPort (frame2 5 0) amoPort [.word 1] [] [] [])) (fun t =>
      (t.here.tileQ.get 20 []).map (fun r => (r.kind, r.key, r.ret)) == [(.amo 0 false 7 true, 2 ^ 60 + 0x20004, .port 0 1 2)]) = true
    ∧ after (exec (.portRed 0 1 2) (stPort (frame2 6 0) amoPort [.word 1] [] [] [])) (fun t =>
      (t.here.tileQ.get 20 []).map (·.kind) == [.reds [(2 ^ 60 + 0x20004, 0, false, 7)]] && (port t).reqs == 0) = true
    ∧ after (exec (.portFifov 0 1 2) (stPort (fifo2 0x11) .reset [] [] [.nul] [])) (fun t => (port t).fifo == [.nul]) = true
    ∧ after (exec (.portFifos 0 1 2) (stPort (fifo2 0x12) (fifoPort [.word 9, .word 8]) [] [] [] [])) (fun t =>
      (port t).fifo == [.word 8] && (t.here.chan (q2 0).sx).buf == [.word 9]) = true
    ∧ after (exec (.portLbuf 0 1 2) (stPort lbuf2 (fifoPort (List.replicate 17 (.word 9))) [] [] [] [])) (fun t =>
      (port t).fifo.length == 16 && (t.here.chan (q2 0).sx).buf == [.word 9]) = true
    ∧ after (exec (.portLbuf 0 1 2) (stPort lbuf2 (fifoPort (List.replicate 16 (.word 9))) [] [] [] [])) (fun t =>
      (port t).fifo.length == 16) = true
    ∧ after (exec (.portEos 0 1 2) (stPort (frame2 1 0) .reset [.eos] [] [] [])) (fun t => (port t).ended && (port t).eosDue) = true
    ∧ after (exec (.portEos 0 1 2) (stPort (frame2 2 0) .reset [] [.eos] [] [])) (fun t => (port t).ended && !(port t).eosDue) = true := by
  decide +kernel

/-- A generator 1 with RING on ring 3, SCNT 2 (R251); the ring of tile 2 has one of its three slots full. -/
def ringGenFrame : Nat := 4 * 2 ^ 248 + tilePos 2 * 2 ^ 232 + 3 * 2 ^ 228 + 3 * 2 ^ 76 + 2 * 2 ^ 64

def stRingPort (p : Port) : State :=
  (stPort ringRead p [] [] [] []).mapHere fun k =>
    { (k.mapSlot 1 fun x => { x with frames := [ringRead, ringGenFrame] }) with rings := [(3, { ring3 with p := 1 })] }

/-- Within a slot, after its 16 words. -/
def slotOver : Port := { Port.reset with slotIn := Vector.replicate 2 true, genPos := Vector.replicate 2 16 }

theorem witness_PortStreams_rings :
    (let k := (stRingPort .reset).here;
      let q := q2 ringRead
      k.portAt 0 1 2 = some q ∧ k.ringGen q 0 = some ringGenFrame ∧ agHnd ringGenFrame = 3 ∧ agScnt ringGenFrame = 2 ∧ k.runs 1 = true
      ∧ k.saving = false ∧ (k.portOf q).slotIn[(0 : Fin 2)] = false ∧ (k.portOf q).genEnd[(0 : Fin 2)] = false
      ∧ (k.portOf q).ended = false ∧ (k.portOf q).slotsDone[(0 : Fin 2)] < agScnt ringGenFrame
      ∧ (k.ring 3).defined = true ∧ (k.ring 3).tmask = 2 ^ q.tile ∧ agRdir ringGenFrame = false ∧ (k.ring 3).full ≠ 0)
    ∧ (let k := (stRingPort slotOver).here;
      let q := q2 ringRead
      (k.portOf q).slotIn[(0 : Fin 2)] = true ∧ q.perSlot (k.ring 3) ≤ (k.portOf q).genPos[(0 : Fin 2)] ∧ (k.portOf q).readQ = []) :=
  ⟨by decide +kernel, by decide +kernel⟩

theorem test_ring_generators :
    let port (t : State) : Port := t.here.port 1 2
    after (exec (.ringGeneratorSlot 0 1 2 0) (stRingPort .reset)) (fun t =>
      (port t).slotIn[(0 : Fin 2)] && (t.here.ring 3).c == 0) = true
    ∧ after (exec (.ringGeneratorAdvance 0 1 2 0) (stRingPort slotOver)) (fun t =>
      !(port t).slotIn[(0 : Fin 2)] && (port t).slotsDone[(0 : Fin 2)] == 1 && (t.here.ring 3).c == 1 && (t.here.ring 3).p == 1) = true := by
  decide +kernel

/-! ### The copy engine and the matrix array -/

def patA : Pattern := patternOf 0 recA
def patB : Pattern := patternOf 0 recB

/-- A begun command 5 from A to B. -/
def begun5 (op : CopyOp) (opts : CopyOpts) (ns : Nat) (claimed : Bool) : CopyCmd :=
  { cpy1 5 opts ns with op := op, src := patA, dst := patB, arm := 2, claimed := claimed }

/-- It alone, with four words in A, and ring 3 with two full slots of three. -/
def stBegun (x : CopyCmd) : State :=
  (stY []).mapHere fun k => { k with copy := { CopyEngine.reset with begun := [x] },
                                     rings := [(3, { ring3 with claims := if x.runs ≤ x.pos && 0 < x.ns then [⟨x.id, true, x.ns, false, false⟩] else [] })],
                                     tiles := Memory.write [] 0x40000 (leBytes 4 11 ++ leBytes 4 12 ++ leBytes 4 13 ++ leBytes 4 14) }

/-- Its next runs. -/
def planOf (s : State) (x : CopyCmd) : Got Plan := s.copyPlan 0 x (s.here.nextRuns x)

/-- They and the turn of their reads at the tiles' ports succeed. -/
def plans (s : State) (x : CopyCmd) : Bool :=
  gotAny (planOf s x) fun s1 p => (s1.engineTurn 0 1 p.reads []).isSome

theorem plans_spec {s : State} {x : CopyCmd} (h : plans s x = true) :
    ∃ s1 p s2 l, planOf s x = .ok s1 p ∧ s1.engineTurn 0 1 p.reads [] = some (s2, l) := by
  have ⟨s1, p, h1, h2⟩ := gotAny_spec h
  have ⟨v, h3⟩ := Option.isSome_iff_exists.mp h2
  exact ⟨s1, p, v.1, v.2, h1, h3⟩

/-- After its next accesses it has made all, and may end. -/
def stepsOut (s : State) (x : CopyCmd) (fault : Option (Nat × Nat)) : Bool :=
  gotAny (s.copyStep 0 x 0) fun t y =>
    y.fault == fault && (fault.isSome || y.made) && t.copyEnds 0 y && !(t.cluster 0).seqY.idle && !(t.cluster 0).seqY.exited

/-- The command with its runs made, and the write of one word still due. -/
def dueOne (x : CopyCmd) (va : Nat) : CopyCmd := { x with pos := x.runs, due := [⟨0, va, leBytes 4 11⟩] }

/-- The word is written, or its write fails. -/
def dueWrite (s : State) (x : CopyCmd) (va : Nat) (ok : Bool) : Bool :=
  let w := s.here.copyWho 0 x
  match s.vwrite { w with view := union w.view x.ids } va (leBytes 4 11) with
  | .ok _ _ => ok
  | .fail _ _ _ _ => !ok
  | .wait _ => false

def toRing : CopyOpts := ⟨none, .dst 3, false⟩
def fromRing : CopyOpts := ⟨some 9, .src 3, false⟩

/-- Four commands have begun, a fifth waits. -/
def fourBegun : CopyEngine := { busyCopy with queue := [begun5 .cpy plain 0 false], begun := List.replicate 4 (begun5 .cpy plain 0 true) }

/-- B lies in a page that the task may only read. -/
def badB : CopyCmd := { begun5 .cpy plain 0 true with dst := patternOf 0 (patBytes 0x30000 2) }

theorem witness_CopyEngine :
    (((stY []).mapHere fun k => { k with copy := twoCopies }).here.copy.begun.length < 4
      ∧ twoCopies.queue ≠ [] ∧ twoCopies.stopped = false)
    ∧ (4 ≤ fourBegun.begun.length ∧ fourBegun.queue ≠ [])
    ∧ ((begun5 .cpy toRing 1 false).ringSide = some (3, true, patB) ∧ (stBegun (begun5 .cpy toRing 1 false)).here.copy.begun[0]?
        = some (begun5 .cpy toRing 1 false) ∧ 1 ≤ ((stBegun (begun5 .cpy toRing 1 false)).here.ring 3).free
      ∧ ((stBegun (begun5 .cpy toRing 2 false)).here.ring 3).free < 2)
    ∧ ((begun5 .cpy fromRing 2 false).ringSide = some (3, false, patA) ∧ 2 ≤ ((stBegun (begun5 .cpy fromRing 2 false)).here.ring 3).full)
    ∧ (stBegun (begun5 .cpy plain 0 true)).here.copyMay (begun5 .cpy plain 0 true) = true
    ∧ (begun5 .cpy plain 0 true).pos < (begun5 .cpy plain 0 true).runs ∧ (begun5 .cpy plain 0 true).ringSide = none
    ∧ ((stBegun (begun5 .cpyF plain 0 true)).here.mat.arms.find? (fun (e : Nat × MatCmd) => e.1 == 2) = none
      ∧ (stBegun (begun5 .cpyF plain 0 true)).here.mat.pending[(2 : Fin 4)] < 15) := by and_intros <;> decide +kernel

/-- A command to ring 3 that has claimed a slot and made its runs, and perhaps failed. -/
def madeTo (fault : Option (Nat × Nat)) : CopyCmd :=
  let x := begun5 .cpy toRing 1 true
  { x with pos := x.runs, fault := fault }

theorem witness_CopyEngine_runs :
    (∃ s1 p s2 l, planOf (stBegun (begun5 .cpy plain 0 true)) (begun5 .cpy plain 0 true) = .ok s1 p
      ∧ s1.engineTurn 0 1 p.reads [] = some (s2, l))
    ∧ (begun5 .cpy plain 0 true).fault = none ∧ (begun5 .cpy plain 0 true).due = []
    ∧ (∀ op ∈ [CopyOp.cpy, .cpyF], let x := dueOne (begun5 op plain 0 true) 0x7FF000050000
        (stBegun x).here.copyMay x = true ∧ x.fault = none ∧ x.due ≠ [] ∧ x.made = false ∧ dueWrite (stBegun x) x 0x7FF000050000 true = true
        ∧ stepsOut (stBegun x) x none = true)
    ∧ (let x := dueOne badB 0x30000
      let s := readOnly (stBegun x)
      s.here.copyMay x = true ∧ dueWrite s x 0x30000 false = true ∧ stepsOut s x (some (1, 0x30000)) = true)
    ∧ (let x := { dueOne (begun5 .cpy plain 0 true) 0 with due := [] }
      x.made = true ∧ (stBegun x).copyEnds 0 x = true ∧ (stBegun x).here.copyMay x = true)
    ∧ ((madeTo (some (1, 8))).fault = some (1, 8) ∧ (stBegun (madeTo (some (1, 8)))).here.ring 3 = { ring3 with claims := [⟨5, true, 1, false, false⟩] }
      ∧ (stBegun (madeTo (some (1, 8)))).copyEnds 0 (madeTo (some (1, 8))) = true
      ∧ (madeTo none).fault = none ∧ (madeTo none).made = true ∧ (madeTo none).ringSide = some (3, true, patB)) :=
  ⟨plans_spec (by decide +kernel), by decide +kernel, by decide +kernel, by decide +kernel, by decide +kernel, by decide +kernel, by decide +kernel⟩

theorem test_copy_engine :
    after (exec (.copyCommandBegin 0) ((stY []).mapHere fun k => { k with copy := twoCopies })) (fun t =>
      t.here.copy.begun.length == 2 && t.here.copy.queue == []) = true
    ∧ stays (.copyCommandBegin 0) ((stY []).mapHere fun k => { k with copy := fourBegun }) = true
    ∧ after (exec (.copyRingClaim 0 0) (stBegun (begun5 .cpy toRing 1 false))) (fun t =>
      (t.here.ring 3).claims == [⟨5, true, 1, false, false⟩] && t.here.copy.begun.map (·.claimed) == [true]) = true
    ∧ stays (.copyRingClaim 0 0) (stBegun (begun5 .cpy toRing 2 false)) = true
    ∧ after (exec (.copyCommandComplete 0 0) (stBegun (begun5 .cpy plain 0 true))) (fun t =>
      t.here.copy.begun.map (fun x => (x.due.map (·.bytes)).flatten) == [leBytes 4 11 ++ leBytes 4 12 ++ leBytes 4 13 ++ leBytes 4 14]) = true
    ∧ after (exec (.copyCommandComplete 0 0) (stBegun (dueOne (begun5 .cpy plain 0 true) 0x7FF000050000))) (fun t =>
      (t.here.tileQ.map fun e => e.2.map fun r => (r.kind, r.key)) == [[(.write (leBytes 4 11), 2 ^ 60 + 0x50000)]] && t.here.copy.begun == []) = true
    ∧ after (exec (.copyCommandComplete 0 0) (stBegun (dueOne (begun5 .cpyF plain 0 true) 0x7FF000050000))) (fun t =>
      t.here.mat.pending[(2 : Fin 4)] == 1 && t.here.seqY.engFaults == []) = true
    ∧ after (exec (.copyAccessFailure 0 0) (readOnly (stBegun (dueOne badB 0x30000)))) (fun t =>
      t.here.seqY.engFaults == [(1, 0x30000)] && t.here.copy.begun == []) = true := by decide +kernel

/-- A fire finds its armed command, and one too many pends. -/
def stFire (m : Matrix) : State := (stBegun (dueOne (begun5 .cpyF plain 0 true) 0x7FF000050000)).mapHere fun k => { k with mat := m }

def armedMma : MatCmd := ⟨1, .mma, none, [], 5, some (1, 1, 32), none, none, none⟩

theorem witness_CopyEngine_fires :
    ((stFire { Matrix.reset with arms := [(2, armedMma)] }).here.mat.arms.find? (fun (e : Nat × MatCmd) => e.1 == 2) = some (2, armedMma)
      ∧ (stFire { Matrix.reset with arms := [(2, armedMma)] }).here.mat.fired.contains 2 = false)
    ∧ (stFire { Matrix.reset with pending := Vector.replicate 4 15 }).here.mat.pending[(2 : Fin 4)] = 15 := by decide +kernel

theorem test_fires :
    after (exec (.copyCommandComplete 0 0) (stFire { Matrix.reset with arms := [(2, armedMma)] })) (fun t =>
      t.here.mat.fired == [2] && t.here.mat.pending[(2 : Fin 4)] == 0) = true
    ∧ after (exec (.copyCommandComplete 0 0) (stFire { Matrix.reset with pending := Vector.replicate 4 15 })) (fun t =>
      t.here.seqY.engFaults.map (·.1) == [5] && t.here.mat.pending[(2 : Fin 4)] == 15) = true := by decide +kernel

/-- E4M3 operands: a row of A with four elements in tile 4, a column of B in tile 5. -/
def opA : Operand := ⟨0xA, 0x7FF000040000, 64, 0, none⟩
def opB : Operand := ⟨0xA, 0x7FF000050000, 64, 0, none⟩

def matCmd (op : MatOp) : MatCmd := ⟨1, op, some 6, [], 5, some (1, 1, 4), some opA, some opB, none⟩

def run1 (c : MatCmd) : MatRun := ⟨c, none, none, 0, [], [], [], [], [], [], 0, [], false, [], none, 0⟩

/-- A matrix array; 1.0 four times in A, 2.0 four times in B (38H and 40H, R62); ring 3; a FIFOV port in tile 2, slot 1. -/
def stMat (m : Matrix) : State :=
  (stM []).mapHere fun k =>
    { k with mat := m, tiles := (Memory.write [] 0x40000 [0x38, 0x38, 0x38, 0x38]).write 0x50000 [0x40, 0x40, 0x40, 0x40],
             rings := [(3, ring3)], slots := [(1, { Slot.reset with st := .running, blk := 7, frames := [fifo2 0x11] })] }

def queued (op : MatOp) : Matrix :=
  { Matrix.reset with queue := [⟨1, op, none, [], 5, none, none, none, none⟩], shape := some (1, 1, 4), a := some opA, b := some opB }

def inCur (r : MatRun) : Matrix := { Matrix.reset with cur := some r }

theorem witness_MatrixArray_next :
    ((stMat { Matrix.reset with fired := [2], arms := [(2, matCmd .mma)] }).here.mat.cur = none
      ∧ (Matrix.reset.arms.set 2 (matCmd .mma)).find? (fun (e : Nat × MatCmd) => e.1 == 2) = some (2, matCmd .mma))
    ∧ ((queued .mma).fired = [] ∧ (queued .mma).armWait = none ∧ (queued .mma).queue ≠ [] ∧ (queued .mma).cur = none)
    ∧ (MatOp.mma.computes = true)
    ∧ ((stMat (queued (.drainD 2 1 5 false))).here.portAt 0 1 2 = some ⟨0, 1, 2, fifo2 0x11⟩ ∧ (⟨0, 1, 2, fifo2 0x11⟩ : PortAt).opr = 0x11
      ∧ ((stMat (queued (.drainD 2 1 5 false))).here.slot 1).st = .running)
    ∧ ((stMat (queued (.drainD 4 1 5 false))).here.portAt 0 1 4 = none ∧ (stMat (queued (.drainD 4 1 5 false))).here.seqM.idle = false
      ∧ (stMat (queued (.drainD 4 1 5 false))).here.seqM.exited = false) := by decide +kernel

theorem test_matrix_next_command :
    let next (m : Matrix) (p : Matrix → Bool) : Bool := after (exec (.matrixNextCommand 0) (stMat m)) fun t => p t.here.mat
    next { Matrix.reset with fired := [2], arms := [(2, matCmd .mma)] } (fun u =>
      u.cur.map (fun r => (r.cmd.op, r.cmd.armed)) == some (.mma, some 2) && u.fired == []) = true
    ∧ next (queued (.shape 3 2 8)) (fun u => u.shape == some (3, 2, 8) && u.queue == [] && u.cur == none) = true
    ∧ next (queued (.opa opB)) (fun u => u.a == some opB && u.b == some opB) = true
    ∧ next (queued .mma) (fun u => u.cur.map (fun r => (r.cmd.shape, r.cmd.a)) == some (some (1, 1, 4), some opA)) = true
    ∧ next (queued (.arm 1 0 0 0 bare)) (fun u => u.armWait.isSome) = true
    ∧ after (exec (.matrixNextCommand 0) (stMat (queued (.drainD 2 1 5 false)))) (fun t => t.here.mat.cur.isSome && (t.here.port 1 2).drainOn) = true
    ∧ after (exec (.matrixNextCommand 0) (stMat (queued (.drainD 4 1 5 false)))) (fun t =>
      t.here.mat.cur == none && t.here.seqM.engFaults.map (·.1) == [6]) = true := by decide +kernel

def armWaits : Matrix :=
  { (queued .mma) with queue := [], armWait := some ⟨1, .arm 1 0 0 0 bare, none, [], 5, none, none, none, none⟩,
                       pending := Vector.replicate 4 2 }

/-- Its operand A comes from ring 3. -/
def fromRing3 : MatCmd := { matCmd .mma with a := some { opA with ring := some 3 } }

theorem witness_MatrixArray_slots :
    ((stMat armWaits).here.mat.armWait.isSome ∧ (stMat armWaits).here.mat.stopped = false
      ∧ (stMat armWaits).here.mat.arms.any (fun e => e.1 == 1) = false)
    ∧ (((run1 fromRing3).cmd.a.bind (·.ring)) = some 3 ∧ (run1 fromRing3).slotA = none
      ∧ ((stMat (inCur (run1 fromRing3))).here.ring 3).defined = true ∧ 1 ≤ ((stMat (inCur (run1 fromRing3))).here.ring 3).full)
    ∧ ((run1 { matCmd .mma with b := some { opB with ring := some 3 } }).cmd.b.bind (·.ring) = some 3
      ∧ (run1 { matCmd .mma with b := some { opB with ring := some 3 } }).cmd.a.bind (·.ring) = none) := by decide +kernel

theorem test_matrix_slots :
    after (exec (.armSlotStore 0) (stMat armWaits)) (fun t => t.here.mat.armWait == none && t.here.mat.fired == [1]
      && t.here.mat.pending.toList == [2, 1, 2, 2] && t.here.mat.arms.map (fun e => (e.1, e.2.op, e.2.shape)) == [(1, .mma, some (1, 1, 4))]) = true
    ∧ after (exec (.matrixRingSlot 0) (stMat (inCur (run1 fromRing3)))) (fun t => t.here.mat.cur.map (·.slotA) == some (some 0)) = true := by
  decide +kernel

/-- The next step of a command: it leaves that many k-blocks or rows made, and its failure. -/
def matSteps (s : State) (r : MatRun) (kb : Nat) (fault : Option (Nat × Nat)) : Bool :=
  gotAny (s.matStep 0 r 0) fun t v => v.kb == kb && v.fault == fault && (v.stepsDone || fault.isSome) && !t.unacked 0 3 v.cmd.id
    && !(t.cluster 0).seqM.idle && !(t.cluster 0).seqM.exited

/-- A drain to a page that may only be read. -/
def drainTo (base : Word) : MatRun := run1 (matCmd (.drain base 64 8 false false false))

def ringRun : MatRun := { run1 fromRing3 with slotA := some 0 }

/-- Two k-blocks of it. -/
def longRun : MatRun := run1 { matCmd .mma with shape := some (1, 1, 40) }

theorem witness_MatrixArray_complete :
    (∀ r ∈ [run1 (matCmd .mma), run1 (matCmd .mmz), ringRun, drainTo 0x7FF000060000],
      r.ready = true ∧ r.fault = none ∧ r.stepsDone = false ∧ matSteps (stMat (inCur r)) r 1 none = true)
    ∧ (drainTo 0x30000).ready = true ∧ matSteps (readOnly (stMat (inCur (drainTo 0x30000)))) (drainTo 0x30000) 0 (some (1, 0x30000)) = true
    ∧ (longRun.stepsDone = false ∧ gotAny ((stMat (inCur longRun)).matStep 0 longRun 0)
        (fun _ v => v.fault.isNone && !v.stepsDone) = true)
    ∧ ((run1 (matCmd (.drainD 2 1 5 false))).ready = true
      ∧ (stMat (inCur (run1 (matCmd (.drainD 2 1 5 false))))).here.drainOver 0 (run1 (matCmd (.drainD 2 1 5 false))) 2 1 = true) := by
  and_intros <;> decide +kernel

/-- The elements of a k-block of one row of each operand, and the turn at the array ports of their tiles. -/
def blocks (s : State) (r : MatRun) : Bool :=
  let w := s.here.matWho 0 r.cmd
  gotAny (s.blockRows w opA opA.base 0 4 [0]) fun s1 _ =>
    gotAny (s1.blockRows w opB opB.base 0 4 [0]) fun s2 _ =>
      (s2.matTurn 0 (blockPieces opA opA.base 0 4 0 ++ blockPieces opB opB.base 0 4 0)).isSome

theorem witness_MatrixArray_blocks :
    blocks (stMat (inCur (run1 (matCmd .mma)))) (run1 (matCmd .mma)) = true
    ∧ (let s := stMat (inCur (drainTo 0x7FF000060000))
      let due := ((dueOf 0 (s.here.drainWrites 0 1 0x7FF000060000 64 8 false false false).1).map (·.split)).flatten
      due[dueIndex due 0]? = some ⟨0, 0x7FF000060000, [0, 0]⟩
      ∧ gotAny (s.vwrite (s.here.matWho 0 (drainTo 0).cmd) 0x7FF000060000 [0, 0]) (fun _ _ => true) = true) := by
  and_intros <;> decide +kernel

/-- 4 × 1.0 × 2.0 = 8.0 (41000000H); MMA adds it to what stood there, 1.0, and MMZ does not. -/
theorem test_matrix_completion :
    let one (c : MatCmd) : Matrix := { inCur (run1 c) with acc := [(0, 0x3F800000)] }
    after (exec (.matrixCommandComplete 0) (stMat (one (matCmd .mma)))) (fun t =>
      t.here.mat.acc.get 0 0 == 0x41100000 && t.here.mat.cur == none && t.here.events == 0x40) = true
    ∧ after (exec (.matrixCommandComplete 0) (stMat (one (matCmd .mmz)))) (fun t => t.here.mat.acc.get 0 0 == 0x41000000) = true
    ∧ after (exec (.matrixCommandComplete 0) (stMat (inCur ringRun))) (fun t => (t.here.ring 3).c == 1) = true
    ∧ after (exec (.matrixCommandComplete 0) (stMat { inCur (drainTo 0x7FF000060000) with acc := [(0, 0x3F800000)] })) (fun t =>
      (t.here.tileQ.map fun e => e.2.map fun r => (r.kind, r.key)) == [[(.write [0x80, 0x3F], 2 ^ 60 + 0x60000)]]) = true
    ∧ after (exec (.matrixAccessFailure 0) (readOnly (stMat (inCur (drainTo 0x30000))))) (fun t =>
      t.here.seqM.engFaults == [(1, 0x30000)] && t.here.mat.cur == none) = true
    ∧ after (exec (.matrixCommandComplete 0) (stMat (inCur (run1 (matCmd (.drainD 2 1 5 false)))))) (fun t => t.here.mat.cur == none)
      = true := by decide +kernel

/-- An MMP of eight planes at most, two at a time, on zero digits: RELU with θ = 0. -/
def mmpOpts : MmpOpts := ⟨none, 1, 0, false, false⟩
def mmpRun : MatRun :=
  { run1 { matCmd (.mmp 0 8 mmpOpts) with a := some { opA with ty := 0x11, stride := 1024 }, b := some { opB with ty := 0 } } with open_ := [0] }

def planeState : State := stMat (inCur mmpRun)

/-- Its columns are there, and one plane of its two. -/
def fetched (kb : Nat) : MatRun := { mmpRun with cols := [[64, 64, 64, 64]], kb := kb }

/-- No output is open. -/
def mmpOver : MatRun := { fetched 0 with planes := 2, open_ := [], rows := [(0, 2)] }

def opPlanes : Operand := { opA with ty := 0x11, stride := 1024 }

theorem witness_MatrixArray_planes :
    let w := planeState.here.matWho 0 mmpRun.cmd
    mmpRun.ready = true ∧ mmpRun.openRows = [0] ∧ mmpRun.mmpGoes 8 = true ∧ mmpRun.cols = [] ∧ mmpRun.fault = none
    ∧ planeState.here.mmpOperands mmpRun = some (1, 1, 4, opPlanes, { opB with ty := 0 }, opB.base)
    ∧ gotAny (planeState.planeCols w { opB with ty := 0 } opB.base 4 [0]) (fun s1 cols => cols == [[64, 64, 64, 64]]
        && (s1.matTurn 0 [(opB.base.toNat, 4)]).isSome) = true
    ∧ (fetched 0).cols ≠ [] ∧ (fetched 0).kb < 1 * 2 ∧ 1 * 2 ≤ (fetched 2).kb
    ∧ gotAny (planeState.slabs w opPlanes 1 4 0 0 [0] []) (fun s1 _ => (s1.matTurn 0 [slabPiece opPlanes 1 0 0 0]).isSome) = true
    ∧ mmpOver.stepsDone = true ∧ mmpOver.ready = true ∧ planeState.unacked 0 3 mmpOver.cmd.id = false := by
  and_intros <;> decide +kernel

/-- R286: an output of 3 × 2 under DECIDE is low against θ = 7 and settled against 6. -/
theorem test_settling :
    settleRow ⟨none, 0, 2, false, false⟩ 7 [0] 0 [[[3]]] [] [[2]] 8 = ([0], [])
    ∧ settleRow ⟨none, 0, 2, false, false⟩ 6 [0] 0 [[[3]]] [] [[2]] 8 = ([], []) := by decide +kernel

theorem test_plane_evaluation :
    let run (r : MatRun) (p : MatRun → Bool) : Bool :=
      after (exec (.mmpEvaluation 0) (stMat (inCur r))) fun t => (t.here.mat.cur.map p).getD false
    run mmpRun (fun v => v.cols == [[64, 64, 64, 64]] && v.kb == 0 && v.planes == 0) = true
    ∧ run (fetched 0) (fun v => v.kb == 1 && v.planes == 0 && v.known != []) = true
    ∧ run (fetched 1) (fun v => v.kb == 0 && v.planes == 2 && v.rows == [(0, 2)]) = true := by decide +kernel

/-! ### Power and upkeep -/

/-- An Almanac: point 16 + i has VQ 100 + i, VF 92 and EPC 200 − i; the first n points are enabled (R376). -/
def almanacOf (n : Nat) : List Nat :=
  (List.range 33).map fun i => if i < n then 100 + i + 92 * 2 ^ 8 + (200 - i) * 2 ^ 16 + 2 ^ 32 else 0

theorem test_almanac : almanacValid (almanacOf 33) = true ∧ almanacValid (almanacOf 0) = false
    ∧ almanacValid ((almanacOf 33).set 4 0) = true ∧ almanacValid ((almanacOf 33).set 0 0) = false
    ∧ almanacValid ((almanacOf 33).set 4 (99 + 92 * 2 ^ 8 + 2 ^ 16 + 2 ^ 32)) = false
    ∧ almanacValid ((almanacOf 33).set 4 (104 + 105 * 2 ^ 8 + 2 ^ 16 + 2 ^ 32)) = false := by decide +kernel

/-- In service at point n, the rail at VQ(n). -/
def powerOf (n : Nat) : Power :=
  { Power.reset with insvc := true, almanac := almanacOf 33, n := n, target := n, vset := 84 + n, railMv := 5 * (84 + n) }

def stPower (x : Power) (now : Nat) : State := { stateOf { Cluster.reset with power := x } with now := now }

/-- The clock waits at 16 for the rail of point 30, 2 mV per ns from 500 mV to 570 mV. -/
def slewing : Power := { powerOf 16 with target := 30, vset := 114, railMv := 500, slewAt := 100 }

/-- A running task that has no deadline, or is past the one of its step. -/
def stGoverned (x : Power) (d : Option Nat) : State :=
  { withGang { gang1 1 with deadline := d } (stateOf { cluster1 (seqWith []) with power := x }) with now := 4000 }

theorem witness_PowerEvents :
    (slewing.mv 135 = 5 * slewing.vset ∧ slewing.mv 134 ≠ 5 * slewing.vset)
    ∧ ((stPower (powerOf 20) 500).now % 500 = 0 ∧ (powerOf 20).reported ≠ some 500 ∧ (stPower (powerOf 20) 501).now % 500 ≠ 0)
    ∧ ((stPower { powerOf 20 with interval := 8 } 4000).evaluated 0 = [0] ∧ (stPower { powerOf 20 with interval := 8 } 4000).dieOver 0 = false
      ∧ (stPower { powerOf 20 with interval := 8 } 4000).here.task.resident = false ∧ (powerOf 20).thr = 8 ∧ (powerOf 20).short = false)
    ∧ ((stGoverned { powerOf 20 with interval := 8 } none).evaluated 0 = [0]
      ∧ (stGoverned { powerOf 20 with interval := 8 } none).gang 1 0 = some (gang1 1) ∧ (gang1 1).deadline = none)
    ∧ ((stGoverned { powerOf 20 with interval := 8 } (some 3990)).gang 1 0 = some { gang1 1 with deadline := some 3990 }
      ∧ 3990 ≤ (stGoverned (powerOf 20) (some 3990)).now ∧ (gang1 1).st = .resident ∧ (gang1 1).clusters = [0]
      ∧ (gang1 1).resumed = false ∧ (gang1 1).dlRaised = false ∧ (gang1 1).retired = []
      ∧ (stGoverned (powerOf 20) (some 3990)).here.task.prog = 0 ∧ (stGoverned (powerOf 20) (some 3990)).here.task.prevClk = 0)
    ∧ ((stPower (powerOf 20) 1000000).now % 1000000 = 0) := by decide +kernel

/-- R373, R374: VCODE 104, CODE 100: 104 × 100 × 2^36 / 25,600,000,000 = 27,917 units of 2^−36 J, truncated. -/
theorem test_power_events :
    let power (i : Instr) (s : State) (p : Power → Bool) : Bool := after (exec i s) fun t => p t.here.power
    power (.railSlewDone 0) (stPower slewing 135) (fun p => p.n == 30 && p.vset == 114) = true
    ∧ power (.railSlewDone 0) (stPower slewing 134) (· == slewing) = true
    ∧ power (.currentReport 0 100) (stPower (powerOf 20) 500) (fun p => p.energy == 27917 && p.code == 100 && p.seq == 1 && p.thr == 8) = true
    ∧ power (.currentReport 0 900) (stPower (powerOf 20) 500) (fun p => p.thr == 7) = true
    ∧ stays (.currentReport 0 900) (stPower (powerOf 20) 501) = true
    ∧ power (.governorEvaluation 0) (stPower { powerOf 20 with interval := 8 } 4000) (fun p => p.n == 16 && p.vset == 100) = true
    ∧ power (.governorEvaluation 0) (stGoverned { powerOf 20 with interval := 8 } none) (fun p => p.target == 48) = true
    ∧ after (exec (.governorEvaluation 0) (stGoverned { powerOf 20 with interval := 8 } (some 3990))) (fun t =>
      t.here.power.target == 48 && t.here.power.short && t.me.dlrisk == some (BitVec.ofInt 64 (-10))
        && (t.gang 1 0).map (·.dlRaised) == some true) = true
    ∧ power (.canaryTrip 0) (stPower { powerOf 20 with moff := 5, vset := 99 } 0) (fun p => p.moff == 0 && p.vset == 104) = true
    ∧ power (.correctableError 0) (stPower (powerOf 20) 0) (fun p => p.cec == 1 && p.errSeen) = true
    ∧ power (.ageingRead 0 77) (stPower (powerOf 20) 1000000) (fun p => p.drift == 77) = true
    ∧ power (.enloRead 0 3) (stPower { powerOf 20 with energy := 5 * 2 ^ 48 } 0) (fun p => p.enhi.get 3 0 == 5 && p.enhi.get 2 0 == 0) = true
    ∧ after (exec (.enloRead 0 3) (stPower { powerOf 20 with energy := 5 * 2 ^ 48 } 0)) (fun t =>
      t.readBar0 3 0x201004 == 5 && t.readBar0 2 0x201004 == 0 && t.readBar0 3 0x201008 % 64 == 20) = true := by
  decide +kernel

/-- Out of service for a plan; and one due by four margin events, with a resident task. -/
def planning (x : Power) (task : Task) : State := stateOf { Cluster.reset with power := x, task := task }

/-- A step with a checkpoint at 0x1234; the rail is below VQ. -/
def stMargin : State :=
  withGang (gang1 1) (stateOf { cluster1 (seqWith [7]) with
    task := { task1 with ckpt := some ⟨Vector.replicate 32 5, Vector.replicate 8 true, 9, 0x1234⟩ },
    power := { powerOf 20 with railMv := 515, vset := 103 } })

/-- A region that has not fired for 60 clk, with WDLIM 60. -/
def stWatch (n : Nat) : State :=
  { stateOf { cluster1 (seqWith []) with slots := [(1, { Slot.reset with st := .running, blk := 7, wdCount := n })] } with
    dbg := { Debug.reset with wdlim := 60 } }

/-- Counter 2 of context 5 counts event 9 (BIN_DISPATCH groups): CNTEV, CNTCTL (R408). -/
def stCounts : State :=
  { stateOf { cluster1 (seqWith []) with events10 := (Vector.replicate 11 0).set 9 4 } with
    ctxs := [(5, { Ctx.reset with cntctl := 4, cntev := 9 * 2 ^ 16 })] }

theorem witness_Upkeep :
    ((powerOf 20).withdrawn = false ∧ (planning { powerOf 20 with mevt := 4 } task1).planDue { powerOf 20 with mevt := 4 } = true
      ∧ (planning { powerOf 20 with mevt := 4 } task1).here.holdsTask = true ∧ (planning (powerOf 20) .reset).here.holdsTask = false
      ∧ (almanacOf 0).any almEn = false ∧ (almanacOf 33).any almEn = true)
    ∧ ((powerOf 20).belowMargin 0 = false ∧ (stGoverned (powerOf 20) none).here.Alive)
    ∧ (stMargin.here.power.belowMargin stMargin.now = true ∧ stMargin.here.task.ckpt.isSome ∧ stMargin.here.task.noReplay = false
      ∧ stMargin.here.task.st = .running ∧ stMargin.gang 1 0 = some (gang1 1))
    ∧ ((stCounts.ctx stCounts.here.task.ctx).cnt[(2 : Fin 8)] < 2 ^ 48)
    ∧ ((stWatch 60).dbg.wdlim ≠ 0 ∧ (stWatch 60).here.runs 1 = true ∧ (stWatch 60).dbg.tren = 0
      ∧ (stWatch 60).dbg.wdlim ≤ ((stWatch 60).here.slot 1).wdCount ∧ ((stWatch 59).here.slot 1).wdCount < (stWatch 59).dbg.wdlim) := by
  decide +kernel

theorem test_upkeep :
    after (exec (.replan 0 (almanacOf 20)) (planning { powerOf 20 with insvc := false, mevt := 4 } .reset)) (fun t =>
      t.here.power.insvc && t.here.power.planned == some (almanacOf 20) && t.here.power.almanac == almanacOf 33 && t.here.power.mevt == 0 && t.boot.almanacs.get 0 [] == almanacOf 20) = true
    ∧ after (exec (.replan 0 (almanacOf 20)) (planning { powerOf 20 with mevt := 4 } task1)) (fun t => !t.here.power.insvc
      && t.here.power.almanac == almanacOf 33) = true
    ∧ after (exec (.replan 0 (almanacOf 0)) (planning { powerOf 20 with mevt := 4 } .reset)) (fun t => t.here.power.withdrawn) = true
    ∧ after (exec (.clusterWithdraw 0) (planning (powerOf 20) .reset)) (fun t => t.here.power.withdrawn && !t.here.power.insvc) = true
    ∧ after (exec (.machineCheck 0 true) (stGoverned (powerOf 20) none)) (fun t =>
      t.here.task.st == .failing && (t.here.task.code, t.here.task.cause, t.here.task.detail) == (0xB, 0x14, 3)) = true
    ∧ after (exec (.machineCheck 0 true) stMargin) (fun t => t.here.seqC.pc == 0x1234 && t.here.seqC.mchk == some (1, 3)
      && t.here.task.flags == 9 && t.here.power.mevt == 1) = true
    ∧ after (exec (.counterForward 0) stCounts) (fun t => (t.ctx 5).cnt[(2 : Fin 8)] == 4 && (t.ctx 5).cnt[(1 : Fin 8)] == 0
      && t.here.events10 == Vector.replicate 11 0) = true
    ∧ after (exec (.watchdogExpiry 0 1) (stWatch 60)) (fun t => t.here.wdog && (t.here.slot 1).wdCount == 0) = true
    ∧ stays (.watchdogExpiry 0 1) (stWatch 59) = true := by decide +kernel

/-! ### Debug, worlds and pre-emption -/

/-- Armed, with slots 1 RUNNING and 2 IDLE, and the copy sequencer halted at a BKPT. -/
def stHalt : State :=
  armed (stateOf { cluster1 (seqWith [7]) with
    seqY := { seqWith [] with halted := true, haltAtBkpt := true },
    slots := [(1, { Slot.reset with st := .running, blk := 7 }), (2, { Slot.reset with st := .idle, blk := 8 })] })

def stResume : State :=
  stHalt.mapHere fun k => (k.mapSlot 1 fun x => { x with st := .draining, haltPending := true, wasRunning := true }).mapSlot 2 fun x =>
    { x with halted := true }

/-- DHALT of cluster 0: slots 1 and 2, the control and copy sequencers; bit 16 resumes (R401). -/
def dhalt (resume : Nat) : Word := w64 (2 ^ 10 + 2 ^ 11 + 2 ^ 13 + 2 ^ 14 + resume * 2 ^ 16)

/-- A load of the control sequencer is on its way. -/
def stInFlight : State := stHalt.mapHere fun k => { k with seqC := { k.seqC with outstanding := [{ load0 with phase := .sent 3 }] } }

theorem witness_Halts :
    (stHalt.dhaltActs (dhalt 0) false = true ∧ stHalt.dhaltActs (dhalt 0) true = false ∧ stHalt.dbg.tren = 0
      ∧ (stHalt.here.slot 1).halted = false ∧ (stHalt.here.slot 1).haltPending = false ∧ (stHalt.here.slot 1).st = .running
      ∧ (stHalt.here.slot 2).st ≠ .running ∧ (stHalt.here.slot 2).halted = false)
    ∧ (stResume.dhaltActs (dhalt 1) true = true ∧ stResume.dhaltActs (dhalt 1) false = false ∧ (stResume.here.slot 1).haltPending = true
      ∧ (stResume.here.slot 2).halted = true ∧ (stResume.here.slot 2).haltPending = false ∧ (stResume.here.slot 2).wasRunning = false
      ∧ (dhaltSeqs (dhalt 1)).contains .copy = true ∧ (stResume.seq 0 .copy).halted = true)
    ∧ (let x := stHalt.seq 0 .control
      (dhaltSeqs (dhalt 0)).contains .control = true ∧ x.halted = false ∧ x.haltWant = false ∧ (x.waitAt != some .placing) = true
      ∧ x.outstanding.any (·.isSent) = false)
    ∧ (stInFlight.dhaltActs (dhalt 0) false = true ∧ (stInFlight.seq 0 .control).outstanding.any (·.isSent) = true) := by
  decide +kernel

/-- An engine command of the copy sequencer waits for a place; or DHALT has asked it to halt after that. -/
def stStall (want : Bool) : State :=
  stHalt.mapHere fun k => { k with seqY := { (seqWith []).setWait .placing with haltWant := want } }

theorem witness_Halts_stalls :
    (stStall false).dhaltActs (dhalt 0) false = true ∧ ((stStall false).seq 0 .copy).waitAt = some .placing
    ∧ (dhaltSeqs (dhalt 0)).contains .copy = true ∧ ((stStall false).seq 0 .copy).halted = false
    ∧ ((stStall false).seq 0 .copy).haltWant = false
    ∧ (stStall true).dhaltActs (dhalt 1) true = true ∧ ((stStall true).seq 0 .copy).haltWant = true := by decide +kernel

/-- A sequencer that stalls halts once its command has its place (R401). -/
theorem test_halt_of_a_stall :
    after (exec (.dhaltHalt (dhalt 0)) (stStall false)) (fun t => t.here.seqY.haltWant && !t.here.seqY.halted) = true
    ∧ after (exec (.dhaltHalt (dhalt 0)) stInFlight) (fun t => t.here.seqC.haltWant && !t.here.seqC.halted) = true
    ∧ after (exec (.dhaltResume (dhalt 1)) (stStall true)) (fun t => !t.here.seqY.haltWant) = true := by decide +kernel

theorem test_halts :
    after (exec (.dhaltHalt (dhalt 0)) stHalt) (fun t => t.here.seqC.halted && !t.here.seqM.halted && (t.here.slot 1).st == .draining
      && (t.here.slot 1).haltPending && (t.here.slot 2).halted && t.here.seqC.pc == 0x1000) = true
    ∧ after (exec (.dhaltResume (dhalt 1)) stResume) (fun t => !t.here.seqY.halted && t.here.seqY.pc == 0x1004
      && (t.here.slot 1).st == .running && (t.here.slot 2).st == .idle && !(t.here.slot 2).halted) = true
    ∧ stays (.dhaltHalt (dhalt 1)) stHalt = true := by decide +kernel

/-- Two worlds in time mode, a quantum of 20 µs begun at 0; context 5 belongs to world 1. -/
def worlds2 : List World :=
  [⟨2 ^ 256 - 2, 2 ^ 512 - 1, List.replicate 8 0x33FFFE⟩, ⟨1, 2 ^ 512 - 1, List.replicate 8 0x23FFFE⟩]

def timePart (sw : Option Nat) : Partition :=
  { Partition.whole with wsMode := true, wsNw := 1, wsQuant := 20, worlds := worlds2, switching := sw, wtbl := 0x100000 }

def stWorlds (g : Gang) (sw : Option Nat) (now : Nat) : State :=
  { withGang g (st []) with parts := [timePart sw], now := now }

def candidate1 : Gang := { gang1 1 with st := .candidate, world := 1 }

theorem stWorlds_memOk (g : Gang) (sw : Option Nat) (now : Nat) : (stWorlds g sw now).MemOk :=
  memOk_of_one _ _ rfl rfl rfl rfl (by decide +kernel)

theorem witness_WorldsAndPreemption_worlds :
    let p := timePart none
    ((stWorlds candidate1 none 20000).partAt 0 = some p ∧ (stWorlds candidate1 none 20000).part (64 * p.first) = p ∧ p.wsMode = true
      ∧ p.switching = none ∧ p.wsQuant * 1000 ≤ 20000 - p.quantStart
      ∧ (((List.range worlds2.length).map fun i => (p.wsCur + 1 + i) % worlds2.length).find? fun w =>
          w != p.wsCur && (stWorlds candidate1 none 20000).worldReady p worlds2 w) = some 1)
    ∧ (((List.range worlds2.length).map fun i => (p.wsCur + 1 + i) % worlds2.length).find? fun w =>
          w != p.wsCur && (stWorlds (gang1 1) none 20000).worldReady p worlds2 w) = none
    ∧ (19999 - p.quantStart < p.wsQuant * 1000 ∧ (gang1 1).st = .resident)
    ∧ ((timePart (some 1)).switching = some 1
      ∧ ∀ j ∈ (stWorlds candidate1 (some 1) 20000).jobsOf (timePart (some 1)), ∀ g ∈ j.gangs, g.placed = false)
    ∧ (stWorlds candidate1 (some 1) 20000).placeOf (timePart (some 1)) (0x100000 + 96) = .mem (0x100000 + 96) := by decide +kernel

/-- A running gang of world 0 beside the waiting one of world 1. -/
def stBoth : State :=
  let s := stWorlds candidate1 none 20000
  { s with jobs := s.jobs ++ [{ job1 (gang1 1) with num := 2, ctx := 70 }] }

theorem test_worlds :
    let p (t : State) : Partition := t.part 0
    after (exec (.quantumExpiry 0) stBoth) (fun t => (p t).switching == some 1
      && (t.gang 2 0).map (fun g => (g.st, g.preAt)) == some (.preempting, 20000) && (t.gang 1 0).map (·.st) == some .candidate) = true
    ∧ after (exec (.quantumExpiry 0) (stWorlds (gang1 1) none 20000)) (fun t => (p t).switching == none && (p t).quantStart == 20000) = true
    ∧ stays (.quantumExpiry 0) (stWorlds candidate1 none 19999) = true
    ∧ after (exec (.worldSwitchComplete 0) (stWorlds candidate1 (some 1) 20000)) (fun t => (p t).wsCur == 1 && (p t).switching == none
      && (p t).rct.toList == List.replicate 8 0x23FFFE && t.mem.read (0x100000 + 96) 8 == leBytes 8 0x33FFFE) = true := by decide +kernel

/-- A task that is being pre-empted, with FLAGS 3, events 6, a byte in a tile and an accumulator. -/
def stPre (acks : List Nat) (saving : Bool) : State :=
  withGang { gang1 1 with st := .preempting, preAt := 100 } (stateOf { cluster1 (seqWith [7]) with
    task := { task1 with st := .preempting, flags := 3, acks := acks }, events := 6, tiles := Memory.write [] 9 [7],
    mat := { Matrix.reset with acc := [(257, 5)] }, saving := saving })

theorem stPre_memOk (acks : List Nat) (saving : Bool) : (stPre acks saving).MemOk :=
  memOk_of_one _ _ rfl rfl rfl rfl (by show (Memory.write [] 9 [7]).wf = true; decide +kernel)

theorem witness_WorldsAndPreemption :
    ((stPre [] false).here.task.st = .preempting ∧ (stPre [] false).here.task.acks.contains 3 = false
      ∧ ((stPre [] false).mapCl 0 (·.stopEngine 3)).engineStops 0 3 = true)
    ∧ ((stPre (List.range 7) false).here.saving = false ∧ (∀ e, e < 7 → (stPre (List.range 7) false).here.task.acks.contains e = true)
      ∧ ∀ a ∈ (stPre (List.range 7) false).here.mat.acc, a.1 < 65536)
    ∧ (∃ e, e < 7 ∧ (stPre [3] false).here.task.acks.contains e = false)
    ∧ ((stPre (List.range 7) true).here.saving = true ∧ (stPre (List.range 7) true).here.task.st = .preempting)
    ∧ (({ stPre [3] false with now := 200100 } : State).job 1 = some (job1 { gang1 1 with st := .preempting, preAt := 100 })
      ∧ ({ stPre [3] false with now := 200100 } : State).ctxField 5 12 4 = 0
      ∧ 1000 * 200 ≤ ({ stPre [3] false with now := 200100 } : State).now - 100 ∧ (stPre [3] false).here.task.resident = true) :=
  ⟨by decide +kernel, by decide +kernel, ⟨0, by decide +kernel⟩, by decide +kernel, by decide +kernel⟩

theorem witness_WorldsAndPreemption_worlds_of_clusters : ∀ d, ((stPre (List.range 7) true).cluster d).task.world < 16 := by
  intro d
  by_cases h : 0 = d
  · subst h; decide +kernel
  · simp only [stPre, withGang, State.cluster, stateOf, Table.get, if_neg h]; decide

/-- The record of cluster 0 and world 0 lies at 733,635,149,824 of the partition's memory (R365). -/
theorem test_preemption :
    let base := 8 * (96000000000 - 2 ^ 32) / 2 ^ 22 * 2 ^ 22
    after (exec (.enginePreemptStop 0 3) (stPre [] false)) (fun t => t.here.task.acks == [3] && t.here.copy.stopped) = true
    ∧ after (exec (.preemptSave 0) (stPre (List.range 7) false)) (fun t => t.here.saving && t.here.task.flags == 3) = true
    ∧ stays (.preemptSave 0) (stPre [3] false) = true
    ∧ after (exec (.preemptSaveDone 0) (stPre (List.range 7) true)) (fun t => t.here.task == .reset && t.mem.readByte base == 2
      && (t.savedCl.get 0 .reset).tiles == Memory.write [] 9 [7] && (t.gang 1 0).map (·.st) == some .saved) = true
    ∧ after (exec (.preemptLimitExpiry 1 0) { stPre [3] false with now := 200100 }) (fun t =>
      t.here.task.st == .failing && t.here.task.code == 0xA) = true
    ∧ stays (.preemptLimitExpiry 1 0) { stPre [3] false with now := 200099 } = true := by decide +kernel

/-! ### The host, the domain and the start -/

/-- A module in READY whose context 5 maps its first 2^42 bytes with R and W. -/
def stHost : State :=
  { (st []) with mem := Memory.write [] 0 (leBytes 8 0xD), ctxs := [(5, { Ctx.reset with desc := some (descBytes 1) })],
                 boot := { Boot.reset with st := 5 } }

theorem stHost_memOk : stHost.MemOk := memOk_of_one _ _ rfl rfl (by decide +kernel) rfl rfl

/-- What leads to memory, and what fails. -/
def leads (g : Got Target) (key : Nat) : Bool := gotAny g fun _ t => match t with | .mem k _ _ => k == key | _ => false
def fails (g : Got Target) : Bool := match g with | .fail _ _ _ _ => true | _ => false

theorem leads_spec {g : Got Target} {key : Nat} (h : leads g key = true) : ∃ u pa r, g = .ok u (.mem key pa r) := by
  match g, h with
  | .ok t (.mem k pa r), h =>
    simp only [leads, gotAny, beq_iff_eq] at h
    exact ⟨t, pa, r, by rw [h]⟩

theorem fails_spec {g : Got Target} (h : fails g = true) : ∃ u c d a, g = .fail u c d a := by
  match g, h with
  | .fail t c d a, _ => exact ⟨t, c, d, a, rfl⟩

theorem witness_HostAccesses :
    let p := stHost.partOfFn 0
    (stHost.boot.st = 5 ∧ (stHost.MemOk) ∧ (0x20008 / 64 = (0x20008 + 4 - 1) / 64)
      ∧ stHost.inboundOut 9 = false ∧ bit stHost.dbg.lf[2].toNat 30 = false ∧ bit stHost.dbg.lf[6].toNat 30 = false ∧ p.first < 8
      ∧ ∀ v ∈ stHost.hist, v.overlaps 0 8 = false)
    ∧ (∃ u pa r, stHost.ctxTarget p 5 0x20008 4 needW = .ok u (.mem 0x20008 pa r))
    ∧ (∃ u c d a, stHost.ctxTarget p 5 (2 ^ 42) 4 needW = .fail u c d a)
    ∧ (∃ u pa r, stHost.ctxTarget p 5 0 8 needR = .ok u (.mem 0 pa r))
    ∧ (∃ u c d a, stHost.ctxTarget p 5 (2 ^ 42) 8 needR = .fail u c d a) ∧ (st []).boot.st ≠ 5 :=
  ⟨⟨rfl, stHost_memOk, by decide, by decide +kernel, by decide +kernel, by decide +kernel, by decide +kernel, nofun⟩, leads_spec (by decide +kernel), fails_spec (by decide +kernel), leads_spec (by decide +kernel),
    fails_spec (by decide +kernel), by decide⟩

theorem test_inbound_accesses :
    after (exec (.inboundWrite 0 (some 5) 0x20008 [1, 2, 3, 4] 9) stHost) (fun t => t.mem.read 0x20008 4 == [1, 2, 3, 4]) = true
    ∧ stays (.inboundWrite 0 (some 5) (2 ^ 42) [1, 2, 3, 4] 9) stHost = true ∧ stays (.inboundWrite 0 (some 5) 0x20008 [1] 9) (st []) = true
    ∧ after (exec (.inboundRead 0 (some 5) 0 2 9) stHost) (fun t => t.links.hostTlps == [(9, [0xD, 0])]) = true
    ∧ after (exec (.inboundRead 0 (some 5) (2 ^ 42) 2 9) stHost) (fun t => t.links.aborts == 1 && t.links.hostTlps == []) = true
    ∧ after (exec (.inboundRead 0 (some 5) 0 2 9) (st [])) (fun t => t.links.aborts == 1) = true := by decide +kernel

/-- A load of the host window on its way, with the link up. -/
def hostReq (ats : Bool) : HostReq := ⟨40, ⟨0, 0, 0⟩, 0x3000, 5, .read 4, .seqOp 0 .control 0, none, ats, 1000, none, none⟩
def stLink (ats : Bool) (now : Nat) : State :=
  { stOps [{ homeLoad with phase := .sent 40 }] with
    now := now, links := { Links.reset with hostUp := true, hostReqs := [hostReq ats], ats := [(0, 7), (0, 8)] } }

theorem witness_HostAccesses_requests :
    ((stLink true 0).links.hostReqs.find? (·.id == 40) = some (hostReq true) ∧ (hostReq true).needAts = true
      ∧ ∀ h ∈ (stLink true 0).links.hostReqs, h.needAts = true)
    ∧ ((stLink false 0).links.hostReqs.filter fun h => !h.needAts && fnOf h.ctx == 0 && h.addr / 4096 == 3) ≠ []
    ∧ ((stLink false 50001000).seq 0 .control).outstanding.find? (·.serial == 0) = some { homeLoad with phase := .sent 40 }
    ∧ (∀ g ∈ (stLink false 0).links.hostReqs, g.ret = .seqOp 0 .control 0)
    ∧ (50000000 ≤ (stLink false 50001000).now - (hostReq false).issued ∧ (stLink false 50000999).now - (hostReq false).issued < 50000000)
    ∧ ((stLink false 0).inboundOut 9 = false)
    ∧ ({ stLink false 0 with links := { Links.reset with yWait := [(3, { req1 (.write [1]) 8 .nowhere with agent := ⟨0, 5, 9⟩ })] } } : State).inboundOut
        9 = true := by decide +kernel

theorem test_host_requests :
    after (exec (.atsTranslationCompletion 40) (stLink true 500)) (fun t => t.links.ats.contains (0, 3)
      && t.links.hostReqs == [{ hostReq false with issued := 500 }]) = true
    ∧ after (exec (.atsInvalidate 0 7) (stLink true 0)) (fun t => t.links.ats == [(0, 8)] && t.links.atsDone == 1) = true
    ∧ after (exec (.hostReadTimeout 40) (stLink false 50001000)) (fun t =>
      t.me.outstanding.map (·.phase) == [.faulted 6 0 0x20008] && t.links.hostReqs == []) = true
    ∧ stays (.hostReadTimeout 40) (stLink false 50000999) = true
    ∧ after (exec .hostLinkDown (stLink false 0)) (fun t => !t.links.hostUp && t.me.outstanding.map (·.phase) == [.faulted 6 0 0x20008])
      = true
    ∧ after (exec (.zeroLengthRead 9) (stLink false 0)) (fun t => t.links.zeroReads == [9]) = true
    ∧ after (exec (.unsupportedRequest 9) (stLink false 0)) (fun t => t.links.unsupported == 1) = true := by decide +kernel

theorem witness_HostAccesses_registers :
    ((0x470 : Word).toNat < 2 ^ 12 ∧ 16 ≤ (0x470 : Word).toNat % 64 ∧ (0x470 : Word).toNat % 64 ≤ 48)
    ∧ 2 ^ 12 ≤ (0x1000 : Word).toNat ∧ (0xFFFF : Word).toNat < 2 ^ 16 ∧ 2 ^ 16 ≤ (0x10000 : Word).toNat
    ∧ (w64 (2 ^ 48 - 1)).toNat < 2 ^ 48 ∧ 2 ^ 48 ≤ (w64 (2 ^ 48)).toNat := by decide

theorem test_register_writes :
    after (exec (.registerWrite 0x200000 0x470 .firmware) (st [])) (fun t => t.govctl == 0x470) = true
    ∧ stays (.registerWrite 0x200000 0x1470 .firmware) (st []) = true ∧ stays (.registerWrite 0x200000 0x450 (.host 0 0)) (st []) = true
    ∧ after (exec (.registerWrite 0x300018 0x8005 (.host 0 0)) (st [])) (fun t => t.dbg.darm[(3 : Fin 16)] == 0x8005) = true
    ∧ after (exec (.registerWrite 0x48318 77 (.host 2 2)) (st [])) (fun t => (t.ctx 134).cnt[(1 : Fin 8)] == 77) = true
    ∧ after (exec (.registerWrite 6 0x8000 (.config 3)) (st [])) (fun t => t.links.atsOn == [3]) = true
    ∧ after (exec (.registerWrite 0x300000 1 (.peer 0 0)) (st [])) (fun t => t.links.unsupported == 1 && t.dbg == Debug.reset) = true
    := by decide +kernel

/-- A packet from module 3, cluster 5, and one reads' request that waits under tag 9. -/
def flit (kind : Nat) : Flit := ⟨kind, 0, 3, 5, 0, 0, 0, false, 9, 0x1008, 4, 0b10010, 2, 7, 0xF00, 1, List.replicate 64 0x33⟩

def remoteLoad : MemReq := { req1 (.read 4) 8 (.seqOp 0 .control 0) with pa := 3 * 2 ^ 45 + 0x1008 }
def remoteRel : LongOp := { toTile with rel := some { rel0 with markers := [(3, 2), (4, 2)] } }

def stDomain (o : LongOp) (r : MemReq) : State :=
  { stOps [{ o with phase := .sent 9 }] with links := { Links.reset with yWait := [(9, r)] } }

/-- A read of the marker's cluster is still in flight. -/
def stAsking : State := { st [] with reqs := [{ req1 (.read 4) 8 .nowhere with agent := ⟨2053, 0, 0⟩ }], counter := 50 }

/-- A cell of the Granary that is not in L2. -/
theorem witness_Domain_poison : let key := granaryBase + 0x1000
    ((st []).localPlace .whole key = .mem key) ∧ (st []).poisoned key = Config.granaryPoison (key / 64) (st []).counter := by
  refine ⟨by decide +kernel, ?_⟩
  have h : inGranary (granaryBase + 0x1000) = true := by decide
  simp only [State.poisoned, h, Bool.true_and]
  rfl

theorem witness_Domain :
    ((flit 0).kind < 9 ∧ (flit 0).path < 18 ∧ ∀ k, k < 9 → flitNorm (flit k) = flit k)
    ∧ ((st []).partNumbered 1 = none ∧ (st []).partNumbered (flit 0).dmod = some .whole)
    ∧ (st []).localPlace .whole (0x1008 / 64 * 64) = .mem 0x1000 ∧ (st []).localPlace .whole 0x1008 = .mem 0x1008
    ∧ runsOf 64 (flit 1).ben 0 none = [(8, 4)]
    ∧ (st []).poisoned 0x1000 = false ∧ (st []).poisoned 0x1008 = false ∧ (∀ h ∈ (st []).sheaves, h.pkt = none)
    ∧ ((flit 6).pmask &&& 2 ^ (flit 6).path ≠ (flit 6).pmask ∧ (2 ||| 2 ^ (flit 6).path) &&& (flit 6).pmask = (flit 6).pmask)
    ∧ ((stAsking.reqs.map fun r => (r.agent.cluster, decide (r.id < stAsking.counter))) = [(512 * (1 + 3) + 5, true)] ∧ (st []).reqs = [])
    ∧ (((stOps [remoteRel]).seq 5 .control).outstanding = [] ∧ ((stOps [remoteRel]).seq 0 .control).outstanding[0]? = some remoteRel)
    ∧ ((stDomain homeLoad remoteLoad).links.yWait.find? (·.1 == 9) = some (9, remoteLoad) ∧ remoteLoad.kind = .read 4
      ∧ homeLoad.kind = .load 4 true ∧ remoteLoad.ret = .seqOp 0 .control 0
      ∧ ((stDomain homeLoad remoteLoad).seq 0 .control).outstanding.find? (·.serial == 0) = some { homeLoad with phase := .sent 9 })
    ∧ (homeCas.kind = .cas false .mo ∧ toTile.kind = .store 4) ∧ (9 ≤ (flit 9).kind) := by decide +kernel

theorem test_domain :
    after (exec (.yilsinRd { flit 0 with dmod := 1 }) (st [])) (fun t => t.links.yQ == [{ flit 0 with dmod := 1 }]) = true
    ∧ after (exec (.yilsinRd (flit 0)) (st [])) (fun t => t.reqs.map (fun r => (r.kind, r.key, r.agent.cluster)) == [(.read 64, 0x1000, 2053)]) = true
    ∧ after (exec (.yilsinWr (flit 1)) (st [])) (fun t => t.reqs.map (fun r => (r.kind, r.key)) ==
      [(.write (List.replicate 4 0x33), 0x1008)]) = true
    ∧ after (exec (.yilsinAmo (flit 2)) (st [])) (fun t => t.reqs.map (fun r => (r.kind, r.key)) == [(.amo 0 false 7 false, 0x1008)]) = true
    ∧ after (exec (.yilsinCas (flit 8)) (st [])) (fun t => t.reqs.map (·.kind) == [.cas false 1 7]) = true
    ∧ after (exec (.yilsinRdrsp (flit 3)) (stDomain homeLoad remoteLoad)) (fun t =>
      t.me.outstanding.map (·.phase) == [.done 0x33333333 0] && t.links.yWait == []) = true
    ∧ after (exec (.yilsinWrack (flit 4)) (stDomain toTile { remoteLoad with kind := .write [1, 2, 3, 4] })) (fun t =>
      t.me.outstanding.map (·.phase) == [.done 0 0]) = true
    ∧ after (exec (.yilsinAmorsp (flit 5)) (stDomain homeCas { remoteLoad with kind := .cas false 1 2 })) (fun t =>
      t.me.outstanding.map (·.phase) == [.done 7 0]) = true
    ∧ after (exec (.discardedFlit (flit 9)) (st [])) (fun t => t.links.linkErrors == 1) = true := by decide +kernel

theorem test_flush_markers :
    after (exec (.yilsinFlush (flit 6)) (st [])) (fun t => t.links.yQ == [] && t.links.gathers == [⟨0, 3, 5, 2, 0b10010, 0b10000, 4, 0⟩]) = true
    ∧ after (exec (.yilsinFlush (flit 6)) { (st []) with links := { Links.reset with gathers := [⟨0, 3, 5, 2, 0b10010, 2, 1, 0⟩] } }) (fun t =>
      t.links.gathers == [] && t.links.yQ.map (fun f => (f.kind, f.dmod, f.smod)) == [(7, 3, 0)]) = true
    ∧ after (exec (.yilsinFlushack { flit 7 with scl := 0 }) (stOps [remoteRel])) (fun t =>
      t.me.outstanding.map (fun o => o.rel.map (·.markers)) == [some [(4, 2)]]) = true := by decide +kernel

/-- Partitions 0 and 3 of the module, and a packet from 3 to 0, behind another of its path or not. -/
def stTurned (l : List Flit) : State :=
  { st [] with parts := [.reset 0 2 0 1, .reset 4 2 3 2], links := { Links.reset with turned := l } }

/-- A sheaf of requests of module 3 that this module's switch has made. -/
def sheaf3 : Sheaf := ⟨40, { amoA with ret := .remote { flit 2 with dmod := 1, tag := 9 } }, amoB, none, none, some { flit 2 with dmod := 1, smod := 3 }, some 4⟩

theorem witness_Domain_module :
    ((stTurned [flit 0]).partNumbered 0).isSome = true ∧ ((stTurned [flit 0]).partNumbered 3).isSome = true
    ∧ (stTurned []).takeTurned (flit 0) = none ∧ ((stTurned [flit 0]).takeTurned (flit 0)).isSome = true
    ∧ (stTurned [flit 1, flit 0]).takeTurned (flit 0) = none
    ∧ (let s : State := { st [] with sheaves := [sheaf3] }
      let f : Flit := { flit 5 with dmod := 3, smod := 1 }
      s.partNumbered f.dmod = none ∧ f.kind = 5 ∧ sheaf3.old = none
      ∧ sheaf3.pkt = some { flit 2 with dmod := 1, smod := 3 } ∧ 3 = f.dmod ∧ 1 = f.smod ∧ (flit 2).tag = f.tag) := by
  decide +kernel

/-- Module 3 stands at x 1 of the domain; a request to it has left on path 4. -/
def stPath : State :=
  { stDomain homeLoad remoteLoad with
    boot := { Boot.reset with dmap := [(0, (true, 0)), (3, (true, 1))] },
    links := { Links.reset with yWait := [(9, remoteLoad)], yPath := [(9, 4)] } }

theorem witness_Domain_port :
    0 ∉ stPath.links.yDown ∧ (9, remoteLoad) ∈ stPath.links.yWait ∧ stPath.links.yWait.length = 1
    ∧ stPath.partNumbered (paModule remoteLoad.pa) = none ∧ stPath.links.yPath.find? (·.1 == 9) = some (9, 4)
    ∧ stPath.outPort (paModule remoteLoad.pa) 4 = some 0 ∧ remoteLoad.ret = .seqOp 0 .control 0
    ∧ (stPath.seq 0 .control).outstanding.find? (·.serial == 0) = some { homeLoad with phase := .sent 9 } := by decide +kernel

/-- A read of the Granary behind port 0 is in flight. -/
theorem witness_Domain_granary :
    let r := req1 (.read 4) granaryBase (.seqOp 0 .control 0)
    let s : State := { stOps [{ homeLoad with phase := .sent 30 }] with reqs := [r] }
    s.reqs = [r] ∧ s.viaGranary r 0 = true ∧ 0 ∉ s.links.granaryBad
    ∧ (s.seq 0 .control).outstanding.find? (·.serial == 0) = some { homeLoad with phase := .sent 30 } := by decide +kernel

theorem test_ports_of_the_domain :
    after (exec (.linkRetrainTimeout 4) (st [])) (fun t => t.links.yDown == [4]) = true
    ∧ after (exec (.linkRetrainTimeout 0) stPath) (fun t => t.me.outstanding.map (·.phase) == [.faulted 6 0 0x20008] && t.links.yWait == [])
      = true
    ∧ after (exec (.yilsinPortReturn 4) { (st []) with links := { Links.reset with yDown := [4, 5] } }) (fun t => t.links.yDown == [5]) = true
    ∧ after (exec (.granaryLinkFailure 7) (st [])) (fun t => t.links.granaryBad == [7]) = true := by decide +kernel

/-- A module whose start is to come, in recovery, or READY; cluster 3 has an Almanac in the root monitor's store. -/
def stBoot (f : Boot → Boot) : State :=
  { State.reset with boot := f { Boot.reset with almanacs := [(3, almanacOf 33)] }, mem := Memory.write [] 8 [1], now := 30000000000 }

/-- One die each, numbers 0 and 1, function 0 and function 1. -/
def table2 : List (Nat × Nat × Nat × Nat) := [(0, 0, 0, 1), (1, 0, 1, 2)]

theorem witness_Starts :
    ((stBoot id).boot.st ≠ 6 ∧ (stBoot id).boot.step = 0 ∧ (stBoot id).boot.wfail ≠ 3 ∧ (stBoot fun b => { b with wfail := 3 }).boot.wfail = 3
      ∧ (stBoot fun b => { b with st := 6 }).boot.st = 6)
    ∧ ((stBoot fun b => { b with starting := true, step := 4 }).boot.starting = true ∧ 2 ≤ (stBoot fun b => { b with starting := true, step := 4 }).boot.step
      ∧ 30000000000 ≤ (stBoot id).now - (stBoot id).boot.started
      ∧ (stBoot id).now - (stBoot fun b => { b with started := 1 }).boot.started < 30000000000)
    ∧ ((stBoot fun b => { b with st := 6 }).boot.imglen = 0 ∧ 1 ≤ 4096 ∧ 4096 ≤ 2 ^ 31)
    ∧ ((stBoot fun b => { b with st := 5 }).boot.st = 5 ∧ almanacValid (almanacOf 33) = true ∧ almanacValid [] = false
      ∧ tableLegal table2 = true ∧ (stBoot fun b => { b with st := 5 }).tableMay table2 = true ∧ tableLegal [(1, 1, 0, 1)] = false)
    ∧ ((List.replicate 48 (7 : Byte)).length = 48 ∧ (stBoot fun b => { b with st := 5 }).boot.romOnly = false) := by decide +kernel

theorem witness_Starts_memories : (stBoot id).MemOk :=
  ⟨by decide +kernel, rfl, fun _ => rfl, fun _ => rfl⟩

/-- A start whose steps 1 and 10 find their images accepted. -/
def startOf (asked : Bool) (fail : Option Nat) (bad : List Nat) (f : Boot → Boot) : State :=
  (stBoot f).runStart asked true (startEnd fail) bad false false

/-- Whether images verify is open; where they do, that is the start. -/
theorem startOf_eq (asked : Bool) (bad : List Nat) (f : Boot → Boot) (st : (stBoot f).boot.st = 5)
    (rom : (stBoot f).boot.accepts (stBoot f).boot.stage = true) (service : (stBoot f).boot.accepts (stBoot f).boot.service = true) :
    exec (.moduleStart asked true none bad) (stBoot f) = .next (startOf asked none bad f) := by
  simp [exec, execModuleStart, startOf, st, rom, service]

theorem test_starts :
    (let t := startOf false none [] id;
      t.boot.st == 5 && !t.boot.warm && t.mem == [] && t.govctl == 0x470
        && (t.cluster 3).power.insvc && !(t.cluster 2).power.insvc && t.boot.ncl == 1) = true
    ∧ (startOf false none [3] id).boot.ncl = 0
    ∧ (let t := startOf true none [] (fun b => { b with wfail := 3 });
      !t.boot.warm && t.boot.wfail == 0) = true
    ∧ (let t := startOf false (some 7) [] (fun b => { b with cfail := 1 });
      t.boot.st == 6 && t.boot.errstep == 7 && t.boot.cfail == 2) = true
    ∧ (let t := startOf true (some 7) [] id;
      t.boot.wfail == 1 && t.boot.cfail == 0) = true
    ∧ (let t := startOf false (some (16 + 4)) [] id;
      t.boot.step == 4 && t.boot.starting && (t.cluster 3).power.vset == 100) = true
    ∧ after (exec .startWatchdogExpiry (stBoot fun b => { b with starting := true, step := 4 })) (fun t =>
      t.boot.errstep == 4 && t.boot.cfail == 1 && !t.boot.starting) = true
    ∧ stays .startWatchdogExpiry (stBoot fun b => { b with starting := true, step := 4, started := 1 }) = true
    ∧ after (exec (.imggo 1) (stBoot fun b => { b with st := 6 })) (fun t => t.boot.errstep == 0xF && t.boot.st == 6) = true
    ∧ stays (.imggo 1) (stBoot id) = true := by decide +kernel

theorem test_root_monitor :
    after (exec (.rootMonitorRequest (.almanac 5 (almanacOf 20))) (stBoot fun b => { b with st := 5 })) (fun t =>
      t.boot.almanacs.get 5 [] == almanacOf 20) = true
    ∧ stays (.rootMonitorRequest (.almanac 5 [])) (stBoot fun b => { b with st := 5 }) = true
    ∧ after (exec (.rootMonitorRequest (.partitions table2)) (stBoot fun b => { b with st := 5 })) (fun t =>
      t.parts.map (fun p => (p.first, p.logsz, p.module_, p.fns)) == table2) = true
    ∧ after (exec (.rootMonitorRequest (.domainMap 7 true 40)) (stBoot fun b => { b with st := 5 })) (fun t =>
      t.boot.dmap.get 7 (false, 0) == (true, 40)) = true
    ∧ stays (.rootMonitorRequest (.domainMap 7 true 40)) (stBoot id) = true
    ∧ after (exec (.attestationRequest (List.replicate 48 7)) (stBoot fun b => { b with st := 5 })) (fun t =>
      t.links.reports.length == 1) = true := by decide +kernel

/-! ### Decoding, steps and invariants -/

theorem witness_RoundTrip :
    (Instr.cpyR on 1 2 ⟨some 63, .src 15, false⟩ 9).wf = true ∧ decode [0x87, 0x63, 0x0A, 0x00] = .ok (.divn on 5 6 7, []) := by
  decide +kernel

/-- The state with ADD s5, s6, s7 under (p2)… placed where the next step fetches it, and one with an unassigned word. -/
def placedAt (w : Nat) : State := State.reset.withFetchWord 32 w

def turned (s : State) : State := { s with agenda := [], cur := (0, .control) }

/-- The fetch of a state leaves these bytes first. -/
def fetchGives (s : State) (bs : List Byte) : Bool :=
  match s.fetch 0 .control s.me.pc.toNat with | .ok _ b => b == bs | _ => false

theorem fetchGives_spec {s : State} {bs : List Byte} (h : fetchGives s bs = true) : ∃ s1, s.fetch 0 .control s.me.pc.toNat = .ok s1 bs := by
  unfold fetchGives at h
  revert h
  cases hc : s.fetch 0 .control s.me.pc.toNat with
  | ok s1 b => intro h; simp only [beq_iff_eq] at h; exact ⟨s1, by rw [h]⟩
  | fail => intro h; cases h
  | wait => intro h; cases h

theorem witness_StepRuns :
    let s := turned (placedAt 0x000A6387)
    (placedAt 0x000A6387).agenda = .issue 0 .control :: [] ∧ s.here.task.moves = true ∧ s.me.idle = false ∧ s.me.halted = false
    ∧ s.me.exited = false ∧ s.me.sleeping = false ∧ s.pendingAt 0 .control = none ∧ s.me.haltWant = false
    ∧ s.here.throttled = false
    ∧ (∃ s1, s.fetch 0 .control s.me.pc.toNat = .ok s1 [0x87, 0x63, 0x0A, 0x00])
    ∧ (∃ s1, (turned (placedAt 0xFFFFFFFF)).fetch 0 .control (turned (placedAt 0xFFFFFFFF)).me.pc.toNat = .ok s1 [0xFF, 0xFF, 0xFF, 0xFF])
    ∧ fetchProt s.me.pc.toNat = false ∧ isX64 (leNat [0x87, 0x63, 0x0A, 0x00] / 2 ^ 26) = false := by
  refine ⟨?_, ?_, ?_, ?_, ?_, ?_, ?_, ?_, ?_, fetchGives_spec ?_, fetchGives_spec ?_, ?_, ?_⟩ <;> decide +kernel

/-- The address of the next instruction leads to memory, on an 8-byte boundary; the first word is the first of two. -/
theorem witness_StepRuns_fetch :
    let s := turned (State.reset.withFetchWord 64 (0x25 * 2 ^ 26))
    (match s.here.xlat (s.asidOf 0 .control) s.me.pc.toNat needX with
      | .ok pa _ => (match s.placeOf (s.part 0) pa with | .mem _ => true | _ => false)
      | _ => false) = true
    ∧ s.me.pc.toNat % 8 = 0 ∧ fetchGives s (leBytes 8 (0x25 * 2 ^ 26)) = true := by decide +kernel

/-- The limiter at 4 of 8: clks 0 to 3 of each eight go (R375). -/
def stLimit (clk : Nat) : State := stateOf { cluster1 (seqWith []) with clk := clk, power := { Power.reset with thr := 4 } }

theorem witness_StepRuns_turns :
    (stLimit 12).here.throttled = true ∧ (stLimit 11).here.throttled = false
    ∧ (stLimit 12).holdsBack (.copyCommandComplete 0 0) = true ∧ (stLimit 11).holdsBack (.copyCommandComplete 0 0) = false
    ∧ (stLimit 12).holdsBack (.imggo 0) = false ∧ (eventCluster (.copyCommandComplete 0 0)).all (· < 512) = true := by decide +kernel

theorem test_limiter :
    after (step { stLimit 12 with agenda := [.issue 0 .control] }) (fun t => t.agenda == [] && t.here.seqC.pc == 0x1000) = true
    ∧ after (step { stLimit 12 with agenda := [.occur (.copyCommandComplete 0 0)] }) (fun t => t == { stLimit 12 with agenda := [] })
      = true := by decide +kernel

theorem witness_MemoryInvariant : State.reset.MemOk ∧ ∃ t, step State.reset = .next t :=
  ⟨⟨rfl, rfl, fun _ => rfl, fun _ => rfl⟩, ⟨_, rfl⟩⟩

theorem witness_RegisterInvariant : State.reset.PartsOk ∧ ∃ t, step State.reset = .next t :=
  ⟨fun _ hp => (nomatch hp), ⟨_, rfl⟩⟩

/-- A step with an empty agenda begins a round; an unassigned word traps with ILL. -/
theorem test_steps_of_the_machine :
    after (step State.reset) (fun t => t.agenda != []) = true
    ∧ after (step (placedAt 0xFFFFFFFF)) (fun t => (t.seq 0 .control).frame.cause == 1) = true
    ∧ after (step { (st []) with agenda := [.elapse 7, .occur (.imggo 0)] }) (fun t => t.now == 7 && t.agenda == [.occur (.imggo 0)]) = true := by
  decide +kernel

end Sys2Proof.Tests
end

/-! SUPPORT. The decoder reads back what the encoder writes (R107 to R143): the fields of a packed word, the bytes of the
words, the codes in the second word, and the instructions of each decoder of a major opcode. -/

section
namespace Sys2Proof

/-! ### Fields of a packed number -/

@[simp high] theorem fld_add_high {x lo n : Nat} (y : Nat) (h : 2 ^ (lo + n) ∣ x) :
    fld (x + y) lo n = fld y lo n := by
  obtain ⟨k, rfl⟩ := h
  unfold fld
  rw [pow_add, mul_assoc, Nat.mul_add_div (by positivity), Nat.mul_add_mod]

@[simp high] theorem fld_add_low {x y lo : Nat} (n : Nat) (h : x % 2 ^ lo + y < 2 ^ lo) :
    fld (x + y) lo n = fld x lo n := by
  unfold fld
  have hdiv : (x + y) / 2 ^ lo = x / 2 ^ lo := by
    conv_lhs => rw [← Nat.div_add_mod x (2 ^ lo), Nat.add_assoc, Nat.mul_add_div (by positivity), Nat.div_eq_of_lt h]
    rfl
  rw [hdiv]

@[simp high] theorem fld_mul {x k lo n : Nat} (hk : k = 2 ^ lo) (hx : x < 2 ^ n) : fld (x * k) lo n = x := by
  unfold fld
  rw [hk, Nat.mul_div_cancel _ (by positivity), Nat.mod_eq_of_lt hx]

@[simp high] theorem fld_zero_of_lt {x n : Nat} (hx : x < 2 ^ n) : fld x 0 n = x := by
  unfold fld
  rw [pow_zero, Nat.div_one, Nat.mod_eq_of_lt hx]

@[simp] theorem fld_of_lt {x lo n : Nat} (hx : x < 2 ^ lo) : fld x lo n = 0 := by
  unfold fld
  rw [Nat.div_eq_of_lt hx, Nat.zero_mod]

theorem fld_word1_major {maj low : Nat} (g : Guard) (hm : maj < 64) (hl : low < 2 ^ 22) :
    fld (word1 maj g low) 26 6 = maj := by
  have := g.p.isLt
  have := g.neg.toNat_lt
  unfold fld word1
  omega

@[simp] theorem guardOf_word1 {low : Nat} (maj : Nat) (g : Guard) (hl : low < 2 ^ 22) :
    guardOf (word1 maj g low) = g := by
  have hp := g.p.isLt
  have hn := g.neg.toNat_lt
  have e1 : fld (word1 maj g low) 23 3 = g.p.val := by unfold fld word1; omega
  have e2 : fld (word1 maj g low) 22 1 = g.neg.toNat := by unfold fld word1; omega
  unfold guardOf
  rw [e1, e2]
  obtain ⟨p, n⟩ := g
  cases n <;> simp

@[simp] theorem fld_word1_low {lo n : Nat} (maj : Nat) (g : Guard) (low : Nat) (h : lo + n ≤ 22) :
    fld (word1 maj g low) lo n = fld low lo n := by
  have hd : 2 ^ (lo + n) ∣ maj * 0x4000000 + g.p.val * 0x800000 + g.neg.toNat * 0x400000 := by
    refine (pow_dvd_pow 2 h).trans ⟨maj * 16 + g.p.val * 2 + g.neg.toNat, by ring⟩
  exact fld_add_high low hd

/-! ### Bytes of a number -/

theorem length_leBytes (n v : Nat) : (leBytes n v).length = n := by
  induction n generalizing v with
  | zero => rfl
  | succ n ih => simp [leBytes, ih]

theorem leNat_leBytes {n v : Nat} (h : v < 256 ^ n) : leNat (leBytes n v) = v := by
  induction n generalizing v with
  | zero => simp only [leBytes, leNat]; omega
  | succ n ih =>
    rw [pow_succ] at h
    simp only [leBytes, leNat, ih (show v / 256 < 256 ^ n by omega), BitVec.toNat_ofNat]
    omega

/-- The bytes of a number and of one above it are those of the one and then those of the other. -/
theorem leBytes_append {m a : Nat} (n b : Nat) (h : a < 256 ^ m) :
    leBytes (m + n) (a + 256 ^ m * b) = leBytes m a ++ leBytes n b := by
  induction m generalizing a with
  | zero => simp [leBytes, show a = 0 by simpa using h]
  | succ m ih =>
    rw [pow_succ] at h
    have hd : (a + 256 ^ (m + 1) * b) / 256 = a / 256 + 256 ^ m * b := by
      rw [pow_succ', mul_assoc, Nat.add_mul_div_left _ _ (by norm_num)]
    have hm : BitVec.ofNat 8 (a + 256 ^ (m + 1) * b) = BitVec.ofNat 8 a := by
      apply BitVec.eq_of_toNat_eq
      simp [pow_succ', mul_assoc]
    rw [Nat.succ_add, leBytes, leBytes, hd, hm, ih (by omega), List.cons_append]

/-! ### From the words to the bytes -/

theorem word1_lt {maj low : Nat} (g : Guard) (hm : maj < 64) (hl : low < 2 ^ 22) : word1 maj g low < 256 ^ 4 := by
  have := g.p.isLt
  have := g.neg.toNat_lt
  unfold word1
  omega

theorem isX64_word1 {maj low : Nat} (g : Guard) (hl : low < 2 ^ 22) : isX64 (word1 maj g low / 2 ^ 26) = isX64 maj := by
  have := g.p.isLt
  have := g.neg.toNat_lt
  rw [show word1 maj g low / 2 ^ 26 = maj by unfold word1; omega]

theorem decodeWords_ok {w v : Nat} {i : Instr} (h : i.wf = true) (hd : decodeFields w v = some i) :
    decodeWords w v = .ok i := by
  simp [decodeWords, hd, h]

/-- An instruction of one word decodes from its bytes when the fields of its word do. -/
theorem decode_of_word {i : Instr} {maj low : Nat} {g : Guard} (h : i.wf = true) (hn : i.len = 4)
    (he : encodeNat i = word1 maj g low) (hm : maj < 64) (hx : isX64 maj = false) (hl : low < 2 ^ 22)
    (hd : decodeFields (word1 maj g low) 0 = some i) (rest : List Byte) :
    decode (encode i ++ rest) = .ok (i, rest) := by
  have hlen := length_leBytes 4 (word1 maj g low)
  unfold decode encode
  rw [hn, he, List.take_left' hlen, List.drop_left' hlen, leNat_leBytes (word1_lt g hm hl)]
  simp only [isX64_word1 g hl, hx, decodeWords_ok h hd]
  simp [hlen, Except.map]

/-- The bytes of two words, the first at the lowest address (R107). -/
theorem encode_two_words {i : Instr} {w v : Nat} (hn : i.len = 4 + 4) (he : encodeNat i = w + 256 ^ 4 * v)
    (hw : w < 256 ^ 4) : encode i = leBytes 4 w ++ leBytes 4 v := by
  unfold encode
  rw [hn, he, leBytes_append 4 v hw]

/-- An instruction of two words decodes from its bytes when the fields of its words do. -/
theorem decode_of_words {i : Instr} {maj low v : Nat} {g : Guard} (h : i.wf = true) (hn : i.len = 8)
    (he : encodeNat i = word1 maj g low + 256 ^ 4 * v) (hm : maj < 64) (hx : isX64 maj = true) (hl : low < 2 ^ 22)
    (hv : v < 256 ^ 4) (hd : decodeFields (word1 maj g low) v = some i) (rest : List Byte) :
    decode (encode i ++ rest) = .ok (i, rest) := by
  have hlen := length_leBytes 4 (word1 maj g low)
  have hlen' := length_leBytes 4 v
  have hb := encode_two_words hn he (word1_lt g hm hl)
  have hdrop : (encode i ++ rest).drop 8 = rest := List.drop_left' (by simp [hb, hlen, hlen'])
  have h8 : 8 ≤ (encode i ++ rest).length := by simp [hb, hlen, hlen']; omega
  unfold decode
  rw [hdrop, if_neg (by omega), hb, List.append_assoc, List.take_left' hlen, List.drop_left' hlen, List.take_left' hlen',
    leNat_leBytes (word1_lt g hm hl), leNat_leBytes hv, ← List.append_assoc, ← hb]
  simp only [isX64_word1 g hl, hx, decodeWords_ok h hd, if_true, if_neg (Nat.not_lt.mpr h8)]
  rfl

@[simp] theorem fld_add_high' {y lo n : Nat} (x : Nat) (h : 2 ^ (lo + n) ∣ y) : fld (x + y) lo n = fld x lo n := by
  rw [Nat.add_comm, fld_add_high x h]

@[simp] theorem fld_add_low' {x y lo : Nat} (n : Nat) (h : x + y % 2 ^ lo < 2 ^ lo) : fld (x + y) lo n = fld y lo n := by
  rw [Nat.add_comm, fld_add_low n (by omega)]

@[simp] theorem fld_of_dvd {x lo n : Nat} (h : 2 ^ (lo + n) ∣ x) : fld x lo n = 0 := by
  simpa [fld] using fld_add_high 0 h

@[simp] theorem fld_add_add_high {z lo n : Nat} (x y : Nat) (h : 2 ^ (lo + n) ∣ z) :
    fld (x + (y + z)) lo n = fld (x + y) lo n := by
  rw [← Nat.add_assoc, fld_add_high' _ h]

/-- The size codes of R115. -/
theorem fld_size : fld 0x200 9 3 = 1 ∧ fld 0x400 9 3 = 2 ∧ fld 0x600 9 3 = 3 ∧ fld 0x800 9 3 = 4 ∧ fld 0xA00 9 3 = 5
    ∧ fld 0xC00 9 3 = 6 := by decide

/-- The operation codes of R116. -/
theorem fld_amo : fld 0x8 3 4 = 1 ∧ fld 0x10 3 4 = 2 ∧ fld 0x18 3 4 = 3 ∧ fld 0x20 3 4 = 4 ∧ fld 0x28 3 4 = 5
    ∧ fld 0x30 3 4 = 6 ∧ fld 0x38 3 4 = 7 ∧ fld 0x40 3 4 = 8 ∧ fld 0x48 3 4 = 9 := by decide

/-- The operation codes of SETE, CLRE and WAITE (R117). -/
theorem fld_event : fld 0x1000 12 2 = 1 ∧ fld 0x2000 12 2 = 2 := by decide

/-- The operation codes of the TLBI forms (R121). -/
theorem fld_tlbi : fld 0x83 0 7 = 3 ∧ fld 0x83 7 5 = 1 ∧ fld 0x103 0 7 = 3 ∧ fld 0x103 7 5 = 2 ∧ fld 0x183 0 7 = 3
    ∧ fld 0x183 7 5 = 3 := by decide

/-! ### The arms of the decoder (R111) -/

theorem decodeFields_rrr {w : Nat} (v : Nat) (h : fld w 26 6 = 0x00) :
    decodeFields w v = decodeRrr w := by
  unfold decodeFields; rw [h]; rfl
theorem decodeFields_cmp {w : Nat} (v : Nat) (h : fld w 26 6 = 0x10) :
    decodeFields w v = decodeCmp w := by
  unfold decodeFields; rw [h]; rfl
theorem decodeFields_pred {w : Nat} (v : Nat) (h : fld w 26 6 = 0x17) :
    decodeFields w v = decodePred w := by
  unfold decodeFields; rw [h]; rfl
theorem decodeFields_jump {w : Nat} (v : Nat) (h : fld w 26 6 = 0x1A) :
    decodeFields w v = decodeJump w := by
  unfold decodeFields; rw [h]; rfl
theorem decodeFields_load {w : Nat} (v : Nat) (h : fld w 26 6 = 0x1C) :
    decodeFields w v = decodeLoad w := by
  unfold decodeFields; rw [h]; rfl
theorem decodeFields_store {w : Nat} (v : Nat) (h : fld w 26 6 = 0x1D) :
    decodeFields w v = decodeStore w := by
  unfold decodeFields; rw [h]; rfl
theorem decodeFields_amoW {w : Nat} (v : Nat) (h : fld w 26 6 = 0x21) :
    decodeFields w v = decodeAmoW w := by
  unfold decodeFields; rw [h]; rfl
theorem decodeFields_amoD {w : Nat} (v : Nat) (h : fld w 26 6 = 0x22) :
    decodeFields w v = decodeAmoD w := by
  unfold decodeFields; rw [h]; rfl
theorem decodeFields_cas {w : Nat} (v : Nat) (h : fld w 26 6 = 0x23) :
    decodeFields w v = decodeCas w := by
  unfold decodeFields; rw [h]; rfl
theorem decodeFields_fence {w : Nat} (v : Nat) (h : fld w 26 6 = 0x24) :
    decodeFields w v = decodeFence w := by
  unfold decodeFields; rw [h]; rfl
theorem decodeFields_acq {w : Nat} (v : Nat) (h : fld w 26 6 = 0x25) :
    decodeFields w v = decodeAcq w v := by
  unfold decodeFields; rw [h]; rfl
theorem decodeFields_rel {w : Nat} (v : Nat) (h : fld w 26 6 = 0x26) :
    decodeFields w v = decodeRel w v := by
  unfold decodeFields; rw [h]; rfl
theorem decodeFields_event {w : Nat} (v : Nat) (h : fld w 26 6 = 0x27) :
    decodeFields w v = decodeEvent w := by
  unfold decodeFields; rw [h]; rfl
theorem decodeFields_ring {w : Nat} (v : Nat) (h : fld w 26 6 = 0x28) :
    decodeFields w v = decodeRing w v := by
  unfold decodeFields; rw [h]; rfl
theorem decodeFields_step {w : Nat} (v : Nat) (h : fld w 26 6 = 0x29) :
    decodeFields w v = decodeStep w := by
  unfold decodeFields; rw [h]; rfl
theorem decodeFields_task {w : Nat} (v : Nat) (h : fld w 26 6 = 0x2C) :
    decodeFields w v = decodeTask w := by
  unfold decodeFields; rw [h]; rfl
theorem decodeFields_rdv {w : Nat} (v : Nat) (h : fld w 26 6 = 0x2D) :
    decodeFields w v = decodeRdv w := by
  unfold decodeFields; rw [h]; rfl
theorem decodeFields_spawn {w : Nat} (v : Nat) (h : fld w 26 6 = 0x2E) :
    decodeFields w v = decodeSpawn w := by
  unfold decodeFields; rw [h]; rfl
theorem decodeFields_fabric {w : Nat} (v : Nat) (h : fld w 26 6 = 0x2F) :
    decodeFields w v = decodeFabric w := by
  unfold decodeFields; rw [h]; rfl
theorem decodeFields_coll {w : Nat} (v : Nat) (h : fld w 26 6 = 0x30) :
    decodeFields w v = decodeColl w v := by
  unfold decodeFields; rw [h]; rfl
theorem decodeFields_trap {w : Nat} (v : Nat) (h : fld w 26 6 = 0x32) :
    decodeFields w v = decodeTrap w := by
  unfold decodeFields; rw [h]; rfl
theorem decodeFields_system {w : Nat} (v : Nat) (h : fld w 26 6 = 0x34) :
    decodeFields w v = decodeSystem w := by
  unfold decodeFields; rw [h]; rfl
theorem decodeFields_mts {w : Nat} (v : Nat) (h : fld w 26 6 = 0x36) :
    decodeFields w v = decodeMts w := by
  unfold decodeFields; rw [h]; rfl
theorem decodeFields_copy {w : Nat} (v : Nat) (h : fld w 26 6 = 0x38) :
    decodeFields w v = decodeCopy w v := by
  unfold decodeFields; rw [h]; rfl
theorem decodeFields_matrix {w : Nat} (v : Nat) (h : fld w 26 6 = 0x3C) :
    decodeFields w v = decodeMatrix w v := by
  unfold decodeFields; rw [h]; rfl

/-! ### Codes inside the second word -/

theorem Scope.code_lt (sc : Scope) : sc.code < 5 := by cases sc <;> decide

@[simp] theorem scopeOf_code (sc : Scope) : scopeOf sc.code = some sc := by cases sc <;> rfl

theorem evtBits_lt (e : Option (Fin 64)) : evtBits e < 2 ^ 7 := by
  cases e with
  | none => decide
  | some e => simp only [evtBits]; omega

theorem evtOf_eq {v : Nat} {e : Option (Fin 64)} (h : v % 2 ^ 7 = evtBits e) : evtOf v = some e := by
  cases e with
  | none =>
    have h6 : fld v 6 1 = 0 := by simp only [evtBits] at h; unfold fld; omega
    have h0 : fld v 0 6 = 0 := by simp only [evtBits] at h; unfold fld; omega
    simp [evtOf, h6, h0]
  | some e =>
    have h6 : fld v 6 1 = 1 := by simp only [evtBits] at h; unfold fld; omega
    have h0 : fld v 0 6 = e.val := by simp only [evtBits] at h; unfold fld; omega
    simp [evtOf, h6, h0]

theorem ringBits_lt (r : Option (Fin 16)) : ringBits r < 2 ^ 5 := by
  cases r with
  | none => decide
  | some r => simp only [ringBits]; omega

theorem ringOf_eq {v : Nat} {r : Option (Fin 16)} (h : v / 2 ^ 8 % 2 ^ 5 = ringBits r) : ringOf v = some r := by
  cases r with
  | none =>
    have h8 : fld v 8 1 = 0 := by simp only [ringBits] at h; unfold fld; omega
    have h9 : fld v 9 4 = 0 := by simp only [ringBits] at h; unfold fld; omega
    simp [ringOf, h8, h9]
  | some r =>
    have h8 : fld v 8 1 = 1 := by simp only [ringBits] at h; unfold fld; omega
    have h9 : fld v 9 4 = r.val := by simp only [ringBits] at h; unfold fld; omega
    simp [ringOf, h8, h9]

theorem RSide.bits_lt (r : RSide) : r.bits < 2 ^ 13 := by
  cases r <;> simp only [RSide.bits] <;> omega

theorem rsideOf_eq {v : Nat} {r : RSide} (h : v % 2 ^ 13 / 2 ^ 7 * 2 ^ 7 = r.bits) : rsideOf v = some r := by
  cases r with
  | none =>
    have h7 : fld v 7 2 = 0 := by simp only [RSide.bits] at h; unfold fld; omega
    have h9 : fld v 9 4 = 0 := by simp only [RSide.bits] at h; unfold fld; omega
    simp [rsideOf, h7, h9]
  | dst x =>
    have h7 : fld v 7 2 = 1 := by simp only [RSide.bits] at h; unfold fld; omega
    have h9 : fld v 9 4 = x.val := by simp only [RSide.bits] at h; unfold fld; omega
    simp [rsideOf, h7, h9]
  | src x =>
    have h7 : fld v 7 2 = 2 := by simp only [RSide.bits] at h; unfold fld; omega
    have h9 : fld v 9 4 = x.val := by simp only [RSide.bits] at h; unfold fld; omega
    simp [rsideOf, h7, h9]

theorem RSide.bits_mod (r : RSide) : r.bits % 2 ^ 7 = 0 := by
  cases r <;> simp only [RSide.bits] <;> omega

theorem CopyOpts.bits_lt (o : CopyOpts) : o.bits < 2 ^ 14 := by
  have := evtBits_lt o.evt
  have := o.rside.bits_lt
  have := o.rside.bits_mod
  have := o.endr.toNat_lt
  unfold CopyOpts.bits
  omega

theorem copyOptsOf_eq {v : Nat} {o : CopyOpts} (h : v % 2 ^ 14 = o.bits) : copyOptsOf v = some o := by
  have := evtBits_lt o.evt
  have := o.rside.bits_lt
  have := o.rside.bits_mod
  have hn := o.endr.toNat_lt
  unfold CopyOpts.bits at h
  have he : evtOf v = some o.evt := evtOf_eq (by omega)
  have hr : rsideOf v = some o.rside := rsideOf_eq (by omega)
  have hb : fld v 13 1 = o.endr.toNat := by unfold fld; omega
  obtain ⟨e, r, b⟩ := o
  cases b <;> simp [copyOptsOf, he, hr, hb]

theorem MmpOpts.bits_lt (o : MmpOpts) : o.bits < 2 ^ 13 := by
  have := evtBits_lt o.evt
  have := o.scaled.toNat_lt
  have := o.mid.toNat_lt
  unfold MmpOpts.bits
  omega

theorem mmpOptsOf_eq {v : Nat} {o : MmpOpts} (h : v % 2 ^ 13 = o.bits) : mmpOptsOf v = some o := by
  have := evtBits_lt o.evt
  have := o.scaled.toNat_lt
  have := o.mid.toNat_lt
  unfold MmpOpts.bits at h
  have he : evtOf v = some o.evt := evtOf_eq (by omega)
  have hg : fld v 7 2 = o.g.val := by unfold fld; omega
  have hm : fld v 9 2 = o.mode.val := by unfold fld; omega
  have hs : fld v 11 1 = o.scaled.toNat := by unfold fld; omega
  have hd : fld v 12 1 = o.mid.toNat := by unfold fld; omega
  obtain ⟨e, g, m, s, d⟩ := o
  cases s <;> cases d <;> simp [mmpOptsOf, he, hg, hm, hs, hd]

/-! The codes in the second word, where higher fields stand above them. -/

@[simp] theorem evtOf_evtBits (e : Option (Fin 64)) : evtOf (evtBits e) = some e :=
  evtOf_eq (Nat.mod_eq_of_lt (evtBits_lt e))

@[simp] theorem evtOf_evtBits_add {x : Nat} (e : Option (Fin 64)) (h : 2 ^ 7 ∣ x) : evtOf (evtBits e + x) = some e := by
  have := evtBits_lt e
  exact evtOf_eq (by omega)

@[simp] theorem ringOf_ringBits {x : Nat} (r : Option (Fin 16)) (h : x < 2 ^ 8) :
    ringOf (x + ringBits r * 0x100) = some r := by
  have := ringBits_lt r
  exact ringOf_eq (by omega)

@[simp] theorem copyOptsOf_bits (o : CopyOpts) : copyOptsOf o.bits = some o :=
  copyOptsOf_eq (Nat.mod_eq_of_lt o.bits_lt)

@[simp] theorem copyOptsOf_bits_add {x : Nat} (o : CopyOpts) (h : 2 ^ 14 ∣ x) : copyOptsOf (o.bits + x) = some o := by
  have := o.bits_lt
  exact copyOptsOf_eq (by omega)

@[simp] theorem mmpOptsOf_bits (o : MmpOpts) : mmpOptsOf o.bits = some o :=
  mmpOptsOf_eq (Nat.mod_eq_of_lt o.bits_lt)

@[simp] theorem mmpOptsOf_bits_add {x : Nat} (o : MmpOpts) (h : 2 ^ 13 ∣ x) : mmpOptsOf (o.bits + x) = some o := by
  have := o.bits_lt
  exact mmpOptsOf_eq (by omega)

/-- The instruction decodes from its own bytes, whatever stands behind them. -/
def Instr.RoundTrips (i : Instr) : Prop := i.wf = true → ∀ rest : List Byte, decode (encode i ++ rest) = .ok (i, rest)

theorem roundTrips_of_word {i : Instr} {maj low : Nat} {g : Guard} {dec : Nat → Option Instr}
    (hf : ∀ {w : Nat} (v : Nat), fld w 26 6 = maj → decodeFields w v = dec w) (hn : i.len = 4)
    (he : encodeNat i = word1 maj g low) (hm : maj < 64) (hx : isX64 maj = false) (hl : low < 2 ^ 22)
    (hd : dec (word1 maj g low) = some i) : i.RoundTrips :=
  fun h => decode_of_word h hn he hm hx hl ((hf _ (fld_word1_major g hm hl)).trans hd)

theorem roundTrips_of_words {i : Instr} {maj low v : Nat} {g : Guard} {dec : Nat → Nat → Option Instr}
    (hf : ∀ {w : Nat} (v : Nat), fld w 26 6 = maj → decodeFields w v = dec w v) (hn : i.len = 8)
    (he : encodeNat i = word1 maj g low + 256 ^ 4 * v) (hm : maj < 64) (hx : isX64 maj = true) (hl : low < 2 ^ 22)
    (hv : v < 256 ^ 4) (hd : dec (word1 maj g low) v = some i) : i.RoundTrips :=
  fun h => decode_of_words h hn he hm hx hl hv ((hf _ (fld_word1_major g hm hl)).trans hd)

/-! ### The instructions, by the decoder of their major opcode -/
theorem roundTrips_rrr (g : Guard) (d a b : Reg) :
    ∀ i ∈ [Instr.add g d a b, .sub g d a b, .mul g d a b, .mulh g d a b, .mulhn g d a b, .div g d a b,
      .divn g d a b, .rem g d a b, .remn g d a b, .and g d a b, .or g d a b, .xor g d a b, .andn g d a b,
      .shl g d a b, .shr g d a b, .sra g d a b, .min g d a b, .max g d a b, .minn g d a b, .maxn g d a b,
      .clz g d a, .ctz g d a, .popc g d a], i.RoundTrips := by
  simp only [List.forall_mem_cons, List.not_mem_nil, false_imp_iff, implies_true, and_true]
  and_intros
  all_goals
    exact roundTrips_of_word decodeFields_rrr rfl rfl (by decide) rfl (by omega)
      (by rw [decodeRrr]; simp (disch := omega) [regAt, keep, Nat.add_assoc])

theorem roundTrips_immediates (g : Guard) (d a : Reg) (imm : BitVec 12) :
    ∀ i ∈ [Instr.addi g d a imm, .andi g d a imm, .ori g d a imm, .xori g d a imm], i.RoundTrips := by
  simp only [List.forall_mem_cons, List.not_mem_nil, false_imp_iff, implies_true, and_true]
  and_intros
  all_goals
    refine fun h => decode_of_word h rfl rfl (by decide) rfl (by omega) ?_
    rw [decodeFields, fld_word1_major g (by decide) (by omega)]
    simp (disch := omega) [regAt, Nat.add_assoc]

theorem roundTrips_shifts (g : Guard) (d a : Reg) (n : Fin 64) :
    ∀ i ∈ [Instr.shli g d a n, .shri g d a n, .srai g d a n], i.RoundTrips := by
  simp only [List.forall_mem_cons, List.not_mem_nil, false_imp_iff, implies_true, and_true]
  and_intros
  all_goals
    refine fun h => decode_of_word h rfl rfl (by decide) rfl (by omega) ?_
    rw [decodeFields, fld_word1_major g (by decide) (by omega)]
    simp (disch := omega) [regAt, keep, Nat.add_assoc]

theorem roundTrips_bitFields (g : Guard) (d a : Reg) (pos wm1 : Fin 64) :
    ∀ i ∈ [Instr.bfx g d a pos wm1, .bfi g d a pos wm1], i.RoundTrips := by
  simp only [List.forall_mem_cons, List.not_mem_nil, false_imp_iff, implies_true, and_true]
  and_intros
  all_goals
    refine fun h => decode_of_word h rfl rfl (by decide) rfl (by omega) ?_
    rw [decodeFields, fld_word1_major g (by decide) (by omega)]
    simp (disch := omega) [regAt, Nat.add_assoc]

theorem roundTrips_moves (g : Guard) (d : Reg) (imm : BitVec 17) :
    ∀ i ∈ [Instr.movi g d imm, .addpc g d imm, .loop g d imm], i.RoundTrips := by
  simp only [List.forall_mem_cons, List.not_mem_nil, false_imp_iff, implies_true, and_true]
  and_intros
  all_goals
    refine fun h => decode_of_word h rfl rfl (by decide) rfl (by omega) ?_
    rw [decodeFields, fld_word1_major g (by decide) (by omega)]
    simp (disch := omega) [regAt]

theorem roundTrips_movs (g : Guard) (d : Reg) (imm : BitVec 16) : (Instr.movs g d imm).RoundTrips := by
  refine fun h => decode_of_word h rfl rfl (by decide) rfl (by omega) ?_
  rw [decodeFields, fld_word1_major g (by decide) (by omega)]
  simp (disch := omega) [regAt, keep]

theorem roundTrips_cmp (g : Guard) (pd : PReg) (a b : Reg) :
    ∀ i ∈ [Instr.cmpEq g pd a b, .cmpNe g pd a b, .cmpLt g pd a b, .cmpGe g pd a b, .cmpLtn g pd a b,
      .cmpGen g pd a b], i.RoundTrips := by
  simp only [List.forall_mem_cons, List.not_mem_nil, false_imp_iff, implies_true, and_true]
  and_intros
  all_goals
    exact roundTrips_of_word decodeFields_cmp rfl rfl (by decide) rfl (by omega)
      (by rw [decodeCmp]; simp (disch := omega) [regAt, predAt, Nat.add_assoc])

theorem roundTrips_cmpi (g : Guard) (pd : PReg) (a : Reg) (imm : BitVec 12) :
    ∀ i ∈ [Instr.cmpiEq g pd a imm, .cmpiNe g pd a imm, .cmpiLt g pd a imm, .cmpiGe g pd a imm, .cmpiLtn g pd a imm,
      .cmpiGen g pd a imm], i.RoundTrips := by
  simp only [List.forall_mem_cons, List.not_mem_nil, false_imp_iff, implies_true, and_true]
  and_intros
  all_goals
    refine fun h => decode_of_word h rfl rfl (by decide) rfl (by omega) ?_
    rw [decodeFields, fld_word1_major g (by decide) (by omega)]
    simp (disch := omega) [regAt, predAt, keep, Nat.add_assoc]

theorem roundTrips_pred (g : Guard) (pd pa pb : PReg) :
    ∀ i ∈ [Instr.pand g pd pa pb, .por g pd pa pb, .pxor g pd pa pb, .pnot g pd pa,
      .pmov g pd pa], i.RoundTrips := by
  simp only [List.forall_mem_cons, List.not_mem_nil, false_imp_iff, implies_true, and_true]
  and_intros
  all_goals
    exact roundTrips_of_word decodeFields_pred rfl rfl (by decide) rfl (by omega)
      (by rw [decodePred]; simp (disch := omega) [predAt, keep, Nat.add_assoc])

theorem roundTrips_branches (g : Guard) (off : BitVec 22) :
    ∀ i ∈ [Instr.br g off, .brl g off], i.RoundTrips := by
  simp only [List.forall_mem_cons, List.not_mem_nil, false_imp_iff, implies_true, and_true]
  and_intros
  all_goals
    refine fun h => decode_of_word h rfl rfl (by decide) rfl (by omega) ?_
    rw [decodeFields, fld_word1_major g (by decide) (by omega)]
    simp (disch := omega) []

theorem roundTrips_jump (g : Guard) (a d : Reg) :
    ∀ i ∈ [Instr.jr g a, .jrl g d a, .nop g], i.RoundTrips := by
  simp only [List.forall_mem_cons, List.not_mem_nil, false_imp_iff, implies_true, and_true]
  and_intros
  all_goals
    exact roundTrips_of_word decodeFields_jump rfl rfl (by decide) rfl (by omega)
      (by rw [decodeJump]; simp (disch := omega) [regAt, keep, Nat.add_assoc])

theorem roundTrips_load (g : Guard) (d a : Reg) (off : BitVec 9) :
    ∀ i ∈ [Instr.ldB g d a off, .ldH g d a off, .ldW g d a off, .ldBn g d a off, .ldHn g d a off, .ldWn g d a off,
      .ldD g d a off], i.RoundTrips := by
  simp only [List.forall_mem_cons, List.not_mem_nil, false_imp_iff, implies_true, and_true]
  and_intros
  all_goals
    exact roundTrips_of_word decodeFields_load rfl rfl (by decide) rfl (by omega)
      (by rw [decodeLoad]; simp (disch := omega) [regAt, fld_size, Nat.add_assoc])

theorem roundTrips_store (g : Guard) (d a : Reg) (off : BitVec 9) :
    ∀ i ∈ [Instr.stB g d a off, .stH g d a off, .stW g d a off, .stD g d a off], i.RoundTrips := by
  simp only [List.forall_mem_cons, List.not_mem_nil, false_imp_iff, implies_true, and_true]
  and_intros
  all_goals
    exact roundTrips_of_word decodeFields_store rfl rfl (by decide) rfl (by omega)
      (by rw [decodeStore]; simp (disch := omega) [regAt, fld_size, Nat.add_assoc])

theorem roundTrips_pairs (g : Guard) (dh : Fin 16) (a : Reg) (off : BitVec 9) :
    ∀ i ∈ [Instr.ldp g dh a off, .stp g dh a off], i.RoundTrips := by
  simp only [List.forall_mem_cons, List.not_mem_nil, false_imp_iff, implies_true, and_true]
  and_intros
  all_goals
    refine fun h => decode_of_word h rfl rfl (by decide) rfl (by omega) ?_
    rw [decodeFields, fld_word1_major g (by decide) (by omega)]
    simp (disch := omega) [regAt, keep, fld_size, Nat.add_assoc]

theorem roundTrips_pref (g : Guard) (write : Bool) (a : Reg) (off : BitVec 9) :
    (Instr.pref g write a off).RoundTrips := by
  have := write.toNat_lt
  refine fun h => decode_of_word h rfl rfl (by decide) rfl (by omega) ?_
  rw [decodeFields, fld_word1_major g (by decide) (by omega)]
  simp (disch := omega) [regAt, keep, fld_size, Nat.add_assoc]

theorem roundTrips_amoW (g : Guard) (d a b : Reg) (sc : Scope) :
    ∀ i ∈ [Instr.amoAddW g d a b sc, .amoAndW g d a b sc, .amoOrW g d a b sc, .amoXorW g d a b sc,
      .amoMinW g d a b sc, .amoMaxW g d a b sc, .amoMinnW g d a b sc, .amoMaxnW g d a b sc, .amoSwapW g d a b sc,
      .amoFaddRxW g d a b sc], i.RoundTrips := by
  simp only [List.forall_mem_cons, List.not_mem_nil, false_imp_iff, implies_true, and_true]
  have := sc.code_lt
  and_intros
  all_goals
    exact roundTrips_of_word decodeFields_amoW rfl rfl (by decide) rfl (by omega)
      (by rw [decodeAmoW]; simp (disch := omega) [regAt, fld_amo, Nat.add_assoc])

theorem roundTrips_amoD (g : Guard) (d a b : Reg) (sc : Scope) :
    ∀ i ∈ [Instr.amoAddD g d a b sc, .amoAndD g d a b sc, .amoOrD g d a b sc, .amoXorD g d a b sc,
      .amoMinD g d a b sc, .amoMaxD g d a b sc, .amoMinnD g d a b sc, .amoMaxnD g d a b sc,
      .amoSwapD g d a b sc], i.RoundTrips := by
  simp only [List.forall_mem_cons, List.not_mem_nil, false_imp_iff, implies_true, and_true]
  have := sc.code_lt
  and_intros
  all_goals
    exact roundTrips_of_word decodeFields_amoD rfl rfl (by decide) rfl (by omega)
      (by rw [decodeAmoD]; simp (disch := omega) [regAt, fld_amo, Nat.add_assoc])

theorem roundTrips_cas (g : Guard) (d a b : Reg) (sc : Scope) :
    ∀ i ∈ [Instr.casW g d a b sc, .casD g d a b sc], i.RoundTrips := by
  simp only [List.forall_mem_cons, List.not_mem_nil, false_imp_iff, implies_true, and_true]
  have := sc.code_lt
  and_intros
  all_goals
    exact roundTrips_of_word decodeFields_cas rfl rfl (by decide) rfl (by omega)
      (by rw [decodeCas]; simp (disch := omega) [regAt, fld_amo, Nat.add_assoc])

theorem roundTrips_fenceP (g : Guard) (k1 k2 : Mask) (sc : Scope) : (Instr.fenceP g k1 k2 sc).RoundTrips := by
  have := sc.code_lt
  exact roundTrips_of_word decodeFields_fence rfl rfl (by decide) rfl (by omega)
    (by rw [decodeFence]; simp (disch := omega) [keep, Nat.add_assoc])

theorem roundTrips_acqLd (g : Guard) (d a : Reg) (size : Fin 4) (sext : Bool) (mask : Mask) (sc : Scope) (off : BitVec 16) :
    (Instr.acqLd g d a size sext mask sc off).RoundTrips := by
  have := sc.code_lt
  have := sext.toNat_lt
  exact roundTrips_of_words decodeFields_acq rfl rfl (by decide) rfl (by omega) (by omega)
    (by rw [decodeAcq]; simp (disch := omega) [regAt, keep, Nat.add_assoc])

theorem roundTrips_relSt (g : Guard) (d a : Reg) (size : Fin 4) (mask : Mask) (sc : Scope) (off : BitVec 16) :
    (Instr.relSt g d a size mask sc off).RoundTrips := by
  have := sc.code_lt
  exact roundTrips_of_words decodeFields_rel rfl rfl (by decide) rfl (by omega) (by omega)
    (by rw [decodeRel]; simp (disch := omega) [regAt, keep, Nat.add_assoc])

theorem roundTrips_event (g : Guard) (e : Fin 64) (mask : Mask) :
    ∀ i ∈ [Instr.sete g e mask, .clre g e, .waite g e mask], i.RoundTrips := by
  simp only [List.forall_mem_cons, List.not_mem_nil, false_imp_iff, implies_true, and_true]
  and_intros
  all_goals
    exact roundTrips_of_word decodeFields_event rfl rfl (by decide) rfl (by omega)
      (by rw [decodeEvent]; simp (disch := omega) [keep, fld_event, Nat.add_assoc])

theorem roundTrips_ring (g : Guard) (a : Reg) (n : Fin 16) (mask : Mask) (imm : BitVec 16) (d : Reg) :
    ∀ i ∈ [Instr.ringDef g a n, .rwaitF g a n mask imm, .rwaitE g a n mask imm, .radvP g a n mask imm,
      .radvC g a n mask imm, .rstat g d n], i.RoundTrips := by
  simp only [List.forall_mem_cons, List.not_mem_nil, false_imp_iff, implies_true, and_true]
  and_intros
  all_goals
    exact roundTrips_of_words decodeFields_ring rfl rfl (by decide) rfl (by omega) (by omega)
      (by rw [decodeRing]; simp (disch := omega) [regAt, keep, Nat.add_assoc])

theorem roundTrips_step (g : Guard) (a : Reg) :
    ∀ i ∈ [Instr.stepBegin g a, .stepProg g a, .stepEnd g], i.RoundTrips := by
  simp only [List.forall_mem_cons, List.not_mem_nil, false_imp_iff, implies_true, and_true]
  and_intros
  all_goals
    exact roundTrips_of_word decodeFields_step rfl rfl (by decide) rfl (by omega)
      (by rw [decodeStep]; simp (disch := omega) [regAt, keep])

theorem roundTrips_task (g : Guard) (a : Reg) (mask : BitVec 4) :
    ∀ i ∈ [Instr.fork g a mask, .join g mask, .exit g, .exitA g], i.RoundTrips := by
  simp only [List.forall_mem_cons, List.not_mem_nil, false_imp_iff, implies_true, and_true]
  and_intros
  all_goals
    exact roundTrips_of_word decodeFields_task rfl rfl (by decide) rfl (by omega)
      (by rw [decodeTask]; simp (disch := omega) [regAt, keep])

theorem roundTrips_rdv (g : Guard) (mask : BitVec 4) (id : BitVec 8) : (Instr.rdv g mask id).RoundTrips := by
  exact roundTrips_of_word decodeFields_rdv rfl rfl (by decide) rfl (by omega)
    (by rw [decodeRdv]; simp (disch := omega) [keep])

theorem roundTrips_spawn (g : Guard) (d a : Reg) :
    ∀ i ∈ [Instr.spawn g d a, .spawnC g d a], i.RoundTrips := by
  simp only [List.forall_mem_cons, List.not_mem_nil, false_imp_iff, implies_true, and_true]
  and_intros
  all_goals
    exact roundTrips_of_word decodeFields_spawn rfl rfl (by decide) rfl (by omega)
      (by rw [decodeSpawn]; simp (disch := omega) [regAt, Nat.add_assoc])

theorem roundTrips_fabric (g : Guard) (d a b : Reg) :
    ∀ i ∈ [Instr.cfgLoad g d a b, .cfgStat g d a, .fabGo g a, .binPush g a, .binCnt g d a,
      .fabQuiet g a], i.RoundTrips := by
  simp only [List.forall_mem_cons, List.not_mem_nil, false_imp_iff, implies_true, and_true]
  and_intros
  all_goals
    exact roundTrips_of_word decodeFields_fabric rfl rfl (by decide) rfl (by omega)
      (by rw [decodeFabric]; simp (disch := omega) [regAt, keep, Nat.add_assoc])

theorem roundTrips_collRed (g : Guard) (dh : Fin 16) (a b : Reg) (op : Fin 9) (w64 : Bool) (base size : Fin 512) (tag : BitVec 8) :
    (Instr.collRed g dh a b op w64 base size tag).RoundTrips := by
  have := w64.toNat_lt
  exact roundTrips_of_words decodeFields_coll rfl rfl (by decide) rfl (by omega) (by omega)
    (by rw [decodeColl]; simp (disch := omega) [regAt, Nat.add_assoc])

theorem roundTrips_collBcast (g : Guard) (dh : Fin 16) (a b : Reg) (w64 : Bool) (base size : Fin 512) (tag : BitVec 8) :
    (Instr.collBcast g dh a b w64 base size tag).RoundTrips := by
  have := w64.toNat_lt
  exact roundTrips_of_words decodeFields_coll rfl rfl (by decide) rfl (by omega) (by omega)
    (by rw [decodeColl]; simp (disch := omega) [regAt, keep, Nat.add_assoc])

theorem roundTrips_trap (g : Guard) (code : BitVec 16) : (Instr.trap g code).RoundTrips := by
  intro h
  have hc : 3 ≤ code.toNat := of_decide_eq_true (Bool.and_eq_true_iff.mp h).2
  exact roundTrips_of_word decodeFields_trap rfl rfl (by decide) rfl (by omega)
    (by rw [decodeTrap]; simp (disch := omega)) h

theorem roundTrips_traps (g : Guard) :
    ∀ i ∈ [Instr.trapTerminate g, .trapTerminateGang g, .trapPreempt g], i.RoundTrips := by
  simp only [List.forall_mem_cons, List.not_mem_nil, false_imp_iff, implies_true, and_true]
  and_intros
  all_goals
    exact roundTrips_of_word decodeFields_trap rfl rfl (by decide) rfl (by omega)
      (by rw [decodeTrap]; simp (disch := omega) [])

theorem roundTrips_sysc (g : Guard) (code : BitVec 16) : (Instr.sysc g code).RoundTrips := by
  refine fun h => decode_of_word h rfl rfl (by decide) rfl (by omega) ?_
  rw [decodeFields, fld_word1_major g (by decide) (by omega)]
  simp (disch := omega) [keep]

theorem roundTrips_system (g : Guard) (a : Reg) :
    ∀ i ∈ [Instr.retr g, .idle g, .bkpt g, .tlbiAll g, .tlbiAsid g a, .tlbiVa g a, .tlbiVaAsid g a, .cflush g a,
      .cinv g a], i.RoundTrips := by
  simp only [List.forall_mem_cons, List.not_mem_nil, false_imp_iff, implies_true, and_true]
  and_intros
  all_goals
    exact roundTrips_of_word decodeFields_system rfl rfl (by decide) rfl (by omega)
      (by rw [decodeSystem]; simp (disch := omega) [regAt, fld_tlbi, keep])

theorem roundTrips_mfs (g : Guard) (d : Reg) (r : BitVec 12) : (Instr.mfs g d r).RoundTrips := by
  refine fun h => decode_of_word h rfl rfl (by decide) rfl (by omega) ?_
  rw [decodeFields, fld_word1_major g (by decide) (by omega)]
  simp (disch := omega) [regAt, keep]

theorem roundTrips_mts (g : Guard) (a : Reg) (r : BitVec 12) : (Instr.mts g a r).RoundTrips := by
  intro h
  have hr : sregPlainWritable r.toNat = true := (Bool.and_eq_true_iff.mp h).2
  refine roundTrips_of_word decodeFields_mts rfl rfl (by decide) rfl (by omega) ?_ h
  rw [decodeMts]
  simp (disch := omega) [regAt]
  split
  case h_6 => simp
  all_goals simp_all [sregPlainWritable]

theorem roundTrips_mtsOwn (g : Guard) (a : Reg) :
    ∀ i ∈ [Instr.mtsFlags g a, .mtsReplaycnt g a, .mtsCtxinv g a, .mtsWsctl g a, .mtsWtbl g a], i.RoundTrips := by
  simp only [List.forall_mem_cons, List.not_mem_nil, false_imp_iff, implies_true, and_true]
  and_intros
  all_goals
    exact roundTrips_of_word decodeFields_mts rfl rfl (by decide) rfl (by omega)
      (by rw [decodeMts]; simp (disch := omega) [regAt])

theorem roundTrips_copy (g : Guard) (d a b : Reg) (o : CopyOpts) :
    ∀ i ∈ [Instr.cpy g d a b o, .cpyG g d a b o, .cpyS g d a b o, .cpyMx g d a b o, .cpyPl g a b o,
      .cpyFill g a b o], i.RoundTrips := by
  simp only [List.forall_mem_cons, List.not_mem_nil, false_imp_iff, implies_true, and_true]
  have := o.bits_lt
  and_intros
  all_goals
    exact roundTrips_of_words decodeFields_copy rfl rfl (by decide) rfl (by omega) (by omega)
      (by rw [decodeCopy]; simp (disch := omega) [regAt, keep, Nat.add_assoc])

theorem roundTrips_cpyF (g : Guard) (d a b : Reg) (o : CopyOpts) (arm : Fin 4) :
    (Instr.cpyF g d a b o arm).RoundTrips := by
  have := o.bits_lt
  exact roundTrips_of_words decodeFields_copy rfl rfl (by decide) rfl (by omega) (by omega)
    (by rw [decodeCopy]; simp (disch := omega) [regAt, keep, Nat.add_assoc])

theorem roundTrips_cpyR (g : Guard) (a b : Reg) (o : CopyOpts) (rop : Fin 3) :
    (Instr.cpyR g a b o rop).RoundTrips := by
  have := o.bits_lt
  exact roundTrips_of_words decodeFields_copy rfl rfl (by decide) rfl (by omega) (by omega)
    (by rw [decodeCopy]; simp (disch := omega) [regAt, keep, Nat.add_assoc])

theorem roundTrips_cpyWait (g : Guard) (a : Reg) (imm : BitVec 16) : (Instr.cpyWait g a imm).RoundTrips := by
  exact roundTrips_of_words decodeFields_copy rfl rfl (by decide) rfl (by omega) (by omega)
    (by rw [decodeCopy]; simp (disch := omega) [regAt, keep])

theorem roundTrips_mxcShape (g : Guard) (d a b : Reg) : (Instr.mxcShape g d a b).RoundTrips := by
  exact roundTrips_of_words decodeFields_matrix rfl rfl (by decide) rfl (by omega) (by omega)
    (by rw [decodeMatrix]; simp (disch := omega) [regAt, keep, Nat.add_assoc])

theorem roundTrips_operands (g : Guard) (d a b : Reg) (ty : BitVec 8) (ring : Option (Fin 16)) :
    ∀ i ∈ [Instr.mxcOpa g d a b ty ring, .mxcOpb g d a b ty ring], i.RoundTrips := by
  simp only [List.forall_mem_cons, List.not_mem_nil, false_imp_iff, implies_true, and_true]
  have := ringBits_lt ring
  and_intros
  all_goals
    exact roundTrips_of_words decodeFields_matrix rfl rfl (by decide) rfl (by omega) (by omega)
      (by rw [decodeMatrix]; simp (disch := omega) [regAt, keep, Nat.add_assoc])

theorem roundTrips_mxcArm (g : Guard) (a b : Reg) (slot : Fin 4) (opc : Fin 3) (o : MmpOpts) :
    (Instr.mxcArm g a b slot opc o).RoundTrips := by
  have := o.bits_lt
  exact roundTrips_of_words decodeFields_matrix rfl rfl (by decide) rfl (by omega) (by omega)
    (by rw [decodeMatrix]; simp (disch := omega) [regAt, keep, Nat.add_assoc])

theorem roundTrips_products (g : Guard) (evt : Option (Fin 64)) :
    ∀ i ∈ [Instr.mma g evt, .mmz g evt], i.RoundTrips := by
  simp only [List.forall_mem_cons, List.not_mem_nil, false_imp_iff, implies_true, and_true]
  have := evtBits_lt evt
  and_intros
  all_goals
    exact roundTrips_of_words decodeFields_matrix rfl rfl (by decide) rfl (by omega) (by omega)
      (by rw [decodeMatrix]; simp (disch := omega) [regAt, keep])

theorem roundTrips_mmp (g : Guard) (a b : Reg) (o : MmpOpts) : (Instr.mmp g a b o).RoundTrips := by
  have := o.bits_lt
  exact roundTrips_of_words decodeFields_matrix rfl rfl (by decide) rfl (by omega) (by omega)
    (by rw [decodeMatrix]; simp (disch := omega) [regAt, keep, Nat.add_assoc])

theorem roundTrips_mxcDrain (g : Guard) (a b : Reg) (ty : BitVec 8) (acci ef satf : Bool) (evt : Option (Fin 64)) :
    (Instr.mxcDrain g a b ty acci ef satf evt).RoundTrips := by
  have := acci.toNat_lt
  have := ef.toNat_lt
  have := satf.toNat_lt
  have := evtBits_lt evt
  exact roundTrips_of_words decodeFields_matrix rfl rfl (by decide) rfl (by omega) (by omega)
    (by rw [decodeMatrix]; simp (disch := omega) [regAt, keep, Nat.add_assoc])

theorem roundTrips_mxcDrainD (g : Guard) (a : Reg) (ndm1 : Fin 16) (acci : Bool) (evt : Option (Fin 64)) :
    (Instr.mxcDrainD g a ndm1 acci evt).RoundTrips := by
  have := acci.toNat_lt
  have := evtBits_lt evt
  exact roundTrips_of_words decodeFields_matrix rfl rfl (by decide) rfl (by omega) (by omega)
    (by rw [decodeMatrix]; simp (disch := omega) [regAt, keep, Nat.add_assoc])

theorem decode_encode {i : Instr} (h : i.wf = true) (rest : List Byte) : decode (encode i ++ rest) = .ok (i, rest) := by
  cases i with
  | add g d a b | sub g d a b | mul g d a b | mulh g d a b | mulhn g d a b | div g d a b | divn g d a b
  | rem g d a b | remn g d a b | and g d a b | or g d a b | xor g d a b | andn g d a b | shl g d a b | shr g d a b
  | sra g d a b | min g d a b | max g d a b | minn g d a b | maxn g d a b =>
    exact roundTrips_rrr g d a b _ (by simp) h rest
  | clz g d a | ctz g d a | popc g d a => exact roundTrips_rrr g d a 0 _ (by simp) h rest
  | addi g d a imm | andi g d a imm | ori g d a imm | xori g d a imm =>
    exact roundTrips_immediates g d a imm _ (by simp) h rest
  | shli g d a n | shri g d a n | srai g d a n => exact roundTrips_shifts g d a n _ (by simp) h rest
  | bfx g d a pos wm1 | bfi g d a pos wm1 => exact roundTrips_bitFields g d a pos wm1 _ (by simp) h rest
  | movi g d imm | addpc g d imm | loop g d imm => exact roundTrips_moves g d imm _ (by simp) h rest
  | movs g d imm => exact roundTrips_movs g d imm h rest
  | cmpEq g pd a b | cmpNe g pd a b | cmpLt g pd a b | cmpGe g pd a b | cmpLtn g pd a b | cmpGen g pd a b =>
    exact roundTrips_cmp g pd a b _ (by simp) h rest
  | cmpiEq g pd a imm | cmpiNe g pd a imm | cmpiLt g pd a imm | cmpiGe g pd a imm | cmpiLtn g pd a imm
  | cmpiGen g pd a imm =>
    exact roundTrips_cmpi g pd a imm _ (by simp) h rest
  | pand g pd pa pb | por g pd pa pb | pxor g pd pa pb => exact roundTrips_pred g pd pa pb _ (by simp) h rest
  | pnot g pd pa | pmov g pd pa => exact roundTrips_pred g pd pa 0 _ (by simp) h rest
  | br g off | brl g off => exact roundTrips_branches g off _ (by simp) h rest
  | jr g a => exact roundTrips_jump g a 0 _ (by simp) h rest
  | jrl g d a => exact roundTrips_jump g a d _ (by simp) h rest
  | nop g => exact roundTrips_jump g 0 0 _ (by simp) h rest
  | ldB g d a off | ldH g d a off | ldW g d a off | ldBn g d a off | ldHn g d a off | ldWn g d a off
  | ldD g d a off =>
    exact roundTrips_load g d a off _ (by simp) h rest
  | stB g d a off | stH g d a off | stW g d a off | stD g d a off =>
    exact roundTrips_store g d a off _ (by simp) h rest
  | ldp g dh a off | stp g dh a off => exact roundTrips_pairs g dh a off _ (by simp) h rest
  | pref g write a off => exact roundTrips_pref g write a off h rest
  | amoAddW g d a b sc | amoAndW g d a b sc | amoOrW g d a b sc | amoXorW g d a b sc | amoMinW g d a b sc
  | amoMaxW g d a b sc | amoMinnW g d a b sc | amoMaxnW g d a b sc | amoSwapW g d a b sc | amoFaddRxW g d a b sc =>
    exact roundTrips_amoW g d a b sc _ (by simp) h rest
  | amoAddD g d a b sc | amoAndD g d a b sc | amoOrD g d a b sc | amoXorD g d a b sc | amoMinD g d a b sc
  | amoMaxD g d a b sc | amoMinnD g d a b sc | amoMaxnD g d a b sc | amoSwapD g d a b sc =>
    exact roundTrips_amoD g d a b sc _ (by simp) h rest
  | casW g d a b sc | casD g d a b sc => exact roundTrips_cas g d a b sc _ (by simp) h rest
  | fenceP g k1 k2 sc => exact roundTrips_fenceP g k1 k2 sc h rest
  | acqLd g d a size sext mask sc off => exact roundTrips_acqLd g d a size sext mask sc off h rest
  | relSt g d a size mask sc off => exact roundTrips_relSt g d a size mask sc off h rest
  | sete g e mask | waite g e mask => exact roundTrips_event g e mask _ (by simp) h rest
  | clre g e => exact roundTrips_event g e 0 _ (by simp) h rest
  | ringDef g a n => exact roundTrips_ring g a n 0 0 0 _ (by simp) h rest
  | rwaitF g a n mask imm | rwaitE g a n mask imm | radvP g a n mask imm | radvC g a n mask imm =>
    exact roundTrips_ring g a n mask imm 0 _ (by simp) h rest
  | rstat g d n => exact roundTrips_ring g 0 n 0 0 d _ (by simp) h rest
  | stepBegin g a | stepProg g a => exact roundTrips_step g a _ (by simp) h rest
  | stepEnd g => exact roundTrips_step g 0 _ (by simp) h rest
  | fork g a mask => exact roundTrips_task g a mask _ (by simp) h rest
  | join g mask => exact roundTrips_task g 0 mask _ (by simp) h rest
  | exit g | exitA g => exact roundTrips_task g 0 0 _ (by simp) h rest
  | rdv g mask id => exact roundTrips_rdv g mask id h rest
  | spawn g d a | spawnC g d a => exact roundTrips_spawn g d a _ (by simp) h rest
  | cfgLoad g d a b => exact roundTrips_fabric g d a b _ (by simp) h rest
  | cfgStat g d a | binCnt g d a => exact roundTrips_fabric g d a 0 _ (by simp) h rest
  | fabGo g a | binPush g a | fabQuiet g a => exact roundTrips_fabric g 0 a 0 _ (by simp) h rest
  | collRed g dh a b op w64 base size tag => exact roundTrips_collRed g dh a b op w64 base size tag h rest
  | collBcast g dh a b w64 base size tag => exact roundTrips_collBcast g dh a b w64 base size tag h rest
  | trap g code => exact roundTrips_trap g code h rest
  | trapTerminate g | trapTerminateGang g | trapPreempt g => exact roundTrips_traps g _ (by simp) h rest
  | sysc g code => exact roundTrips_sysc g code h rest
  | retr g | idle g | bkpt g | tlbiAll g => exact roundTrips_system g 0 _ (by simp) h rest
  | tlbiAsid g a | tlbiVa g a | tlbiVaAsid g a | cflush g a | cinv g a =>
    exact roundTrips_system g a _ (by simp) h rest
  | mfs g d r => exact roundTrips_mfs g d r h rest
  | mts g a r => exact roundTrips_mts g a r h rest
  | mtsFlags g a | mtsReplaycnt g a | mtsCtxinv g a | mtsWsctl g a | mtsWtbl g a =>
    exact roundTrips_mtsOwn g a _ (by simp) h rest
  | cpy g d a b o | cpyG g d a b o | cpyS g d a b o | cpyMx g d a b o =>
    exact roundTrips_copy g d a b o _ (by simp) h rest
  | cpyPl g a b o | cpyFill g a b o => exact roundTrips_copy g 0 a b o _ (by simp) h rest
  | cpyF g d a b o arm => exact roundTrips_cpyF g d a b o arm h rest
  | cpyR g a b o rop => exact roundTrips_cpyR g a b o rop h rest
  | cpyWait g a imm => exact roundTrips_cpyWait g a imm h rest
  | mxcShape g d a b => exact roundTrips_mxcShape g d a b h rest
  | mxcOpa g d a b ty ring | mxcOpb g d a b ty ring => exact roundTrips_operands g d a b ty ring _ (by simp) h rest
  | mxcArm g a b slot opc o => exact roundTrips_mxcArm g a b slot opc o h rest
  | mma g evt | mmz g evt => exact roundTrips_products g evt _ (by simp) h rest
  | mmp g a b o => exact roundTrips_mmp g a b o h rest
  | mxcDrain g a b ty acci ef satf evt => exact roundTrips_mxcDrain g a b ty acci ef satf evt h rest
  | mxcDrainD g a ndm1 acci evt => exact roundTrips_mxcDrainD g a ndm1 acci evt h rest
  | mtsWsctlSwreq g a => simp [Instr.wf, Instr.guard, Instr.fieldsOk] at h
  | _ => exact Bool.noConfusion h

/-- The decoder gives well-formed instructions alone (R124). -/
theorem decodeWords_wf {w v : Nat} {i : Instr} (h : decodeWords w v = .ok i) : i.wf = true := by
  unfold decodeWords at h
  split at h
  · split at h
    · rename_i hwf
      rw [← Except.ok.inj h]
      exact hwf
    · cases h
  · cases h

theorem decode_wf {bs rest : List Byte} {i : Instr} (h : decode bs = .ok (i, rest)) : i.wf = true := by
  have hmap : ∀ {w v : Nat} {r : List Byte}, (decodeWords w v).map (·, r) = .ok (i, rest) → i.wf = true := by
    intro w v r hm
    cases hd : decodeWords w v with
    | ok j =>
      rw [hd] at hm
      rw [← (Prod.mk.inj (Except.ok.inj hm)).1]
      exact decodeWords_wf hd
    | error e => rw [hd] at hm; cases hm
  unfold decode at h
  dsimp only at h
  split_ifs at h
  · exact hmap h
  · exact hmap h

end Sys2Proof

open Sys2Proof

/-- Settles O55: the words of each instruction decode field by field, and the decoder's last check is well-formedness. -/
theorem roundTrip : Obligations.RoundTrip :=
  ⟨fun _ rest h => decode_encode h rest, fun _ _ _ h => decode_wf h⟩

end

/-! SUPPORT. Every step keeps every memory in its canonical form (R2). A memory is built by `Memory.write` and the other canonical
operations alone, in `rawWrite`, `overwrite` and `hostWrite` and on the tiles of a cluster; every other function changes other fields.
So each function of the step has one lemma here, in the order of the model's files: a function on states keeps `State.MemOk`
(`State.MemOk.<function>`), a function on clusters keeps the tiles (`Cluster.<function>_tiles`), an instruction or event gives a
result whose state is `MemOk` (`exec<Name>_memOk`), and `step_memOk` puts them together. -/

section
-- The proofs are checked one after another: side by side, the many of them need more threads than the check's memory limit allows.
set_option Elab.async false

namespace Sys2Proof.Machine

/-! ### What a function gives -/

/-- Every state that an access can leave is `MemOk`. -/
def Got.MemOk {α : Type} : Got α → Prop
  | .ok s _ => s.MemOk
  | .fail s _ _ _ => s.MemOk
  | .wait s => s.MemOk

/-- Every state that a port's access can leave is `MemOk`. -/
def PortGot.MemOk : PortGot → Prop
  | .ok s => s.MemOk
  | .fail _ => True
  | .wait s => s.MemOk

/-- The next state, if there is one, is `MemOk`. -/
def Result.MemOk : Result → Prop
  | .next s => s.MemOk
  | .fault _ => True
  | .refused _ => True

/-- The state, if there is one, is `MemOk`. -/
def SomeMemOk : Option State → Prop
  | some s => s.MemOk
  | none => True

/-- The state of a pair is `MemOk`. It stands for `p.1.MemOk` where unfolding the projection would evaluate `p`. -/
def PairMemOk {α : Type} (p : State × α) : Prop := p.1.MemOk

/-- The cluster, if there is one, has the tiles `m`. -/
def SomeTiles (m : Memory) : Option Cluster → Prop
  | some k => k.tiles = m
  | none => True

/-- The value, if there is one, has the property. -/
def OptAll {α : Type} (P : α → Prop) : Option α → Prop
  | some a => P a
  | none => True

theorem Got.MemOk.ok {α : Type} {g : Got α} {s : State} {v : α} (h : g.MemOk) (e : g = .ok s v) : s.MemOk := by
  rw [e] at h; exact h

theorem Got.MemOk.fail {α : Type} {g : Got α} {s : State} {a b c : Nat} (h : g.MemOk) (e : g = .fail s a b c) :
    s.MemOk := by
  rw [e] at h; exact h

theorem Got.MemOk.wait {α : Type} {g : Got α} {s : State} (h : g.MemOk) (e : g = .wait s) : s.MemOk := by
  rw [e] at h; exact h

theorem PortGot.MemOk.ok {g : PortGot} {s : State} (h : g.MemOk) (e : g = .ok s) : s.MemOk := by
  rw [e] at h; exact h

theorem PortGot.MemOk.wait {g : PortGot} {s : State} (h : g.MemOk) (e : g = .wait s) : s.MemOk := by
  rw [e] at h; exact h

theorem SomeMemOk.some {g : Option State} {s : State} (h : SomeMemOk g) (e : g = some s) : s.MemOk := by
  rw [e] at h; exact h

theorem SomeMemOk.getD {o : Option State} {s : State} (ho : SomeMemOk o) (h : s.MemOk) : (o.getD s).MemOk := by
  cases o with
  | none => exact h
  | some t => exact ho

theorem SomeMemOk.bind {o : Option State} {f : State → Option State} (ho : SomeMemOk o)
    (hf : ∀ s, s.MemOk → SomeMemOk (f s)) : SomeMemOk (o.bind f) := by
  cases o with
  | none => exact trivial
  | some t => exact hf t ho

theorem SomeMemOk.map {o : Option State} {f : State → State} (ho : SomeMemOk o) (hf : ∀ s, s.MemOk → (f s).MemOk) :
    SomeMemOk (o.map f) := by
  cases o with
  | none => exact trivial
  | some t => exact hf t ho

theorem SomeTiles.some {m : Memory} {o : Option Cluster} {k : Cluster} (h : SomeTiles m o) (e : o = some k) :
    k.tiles = m := by
  rw [e] at h; exact h

theorem OptAll.some {α : Type} {P : α → Prop} {o : Option α} {a : α} (h : OptAll P o) (e : o = some a) : P a := by
  rw [e] at h; exact h

theorem State.MemOk.fst {α : Type} {p : State × α} {s : State} {a : α} (h : p.1.MemOk) (e : p = (s, a)) : s.MemOk := by
  rw [e] at h; exact h

theorem fst_tiles {α : Type} {p : Cluster × α} {k : Cluster} {a : α} {m : Memory} (e : p = (k, a))
    (h : p.1.tiles = m) : k.tiles = m := by
  rw [e] at h; exact h

theorem snd_tiles {α : Type} {p : α × Cluster} {k : Cluster} {a : α} {m : Memory} (e : p = (a, k))
    (h : p.2.tiles = m) : k.tiles = m := by
  rw [e] at h; exact h

/-! ### Tables and memories -/

theorem Table.get_map_tiles {f : Nat × Cluster → Nat × Cluster} (hk : ∀ e, (f e).1 = e.1)
    (ht : ∀ e, (f e).2.tiles = e.2.tiles) (t : Table Cluster) (c : Nat) :
    (Table.get (t.map f) c .reset).tiles = (t.get c .reset).tiles := by
  induction t with
  | nil => rfl
  | cons e t ih =>
    simp only [Table.get, List.map_cons, hk] at ih ⊢
    split
    · exact ht e
    · exact ih

theorem Table.get_drop {α : Type} (t : Table α) (k c : Nat) (d : α) :
    (t.drop k).get c d = if c = k then d else t.get c d := by
  unfold Table.drop
  induction t with
  | nil => simp [Table.get]
  | cons e t ih =>
    by_cases he : e.1 = k
    · rw [List.filter_cons_of_neg (by simp [he]), ih]
      by_cases hc : c = k
      · simp [hc]
      · have hec : e.1 ≠ c := fun h => hc (h.symm.trans he)
        simp [Table.get, hc, hec]
    · rw [List.filter_cons_of_pos (by simp [he])]
      by_cases hec : e.1 = c
      · have hc : c ≠ k := fun h => he (hec.trans h)
        simp [Table.get, hec, hc]
      · simp only [Table.get, hec, if_false]; exact ih

theorem Table.get_of_find? {α : Type} {t : Table α} {k : Nat} {e : Nat × α} (h : t.find? (·.1 == k) = some e) (d : α) :
    t.get k d = e.2 := by
  induction t with
  | nil => simp at h
  | cons x t ih =>
    by_cases hx : x.1 = k
    · rw [List.find?_cons_of_pos (by simp [hx])] at h
      simp_all [Table.get]
    · rw [List.find?_cons_of_neg (by simp [hx])] at h
      simp only [Table.get, hx, if_false]; exact ih h

theorem Table.get_of_forall {α : Type} {P : α → Prop} {t : Table α} {d : α} (ht : ∀ e ∈ t, P e.2) (hd : P d) (k : Nat) :
    P (t.get k d) := by
  induction t with
  | nil => exact hd
  | cons e t ih =>
    rw [List.forall_mem_cons] at ht
    rw [Table.get]
    split
    · exact ht.1
    · exact ih ht.2

theorem Memory.wf_foldl_write {α : Type} {f : α → Nat} {g : α → List Byte} (l : List α) {m : Memory}
    (h : m.wf = true) : (l.foldl (fun t e => t.write (f e) (g e)) m).wf = true := by
  induction l generalizing m with
  | nil => exact h
  | cons e l ih => exact ih (Memory.wf_write h _ _)

/-! ### The clusters and the saved clusters of a state -/

theorem State.MemOk.cluster {s : State} (h : s.MemOk) (c : Nat) : (s.cluster c).tiles.wf = true := h.2.2.1 c

theorem State.MemOk.saved {s : State} (h : s.MemOk) (k : Nat) : (s.savedCl.get k .reset).tiles.wf = true := h.2.2.2 k

theorem State.MemOk.setCl {s : State} {k : Cluster} {c : Nat} (h : s.MemOk) (hk : k.tiles.wf = true) :
    (s.setCl c k).MemOk := by
  obtain ⟨hm, hh, hc, hs⟩ := h
  refine ⟨hm, hh, fun d => ?_, hs⟩
  by_cases hd : d = c
  · subst hd; rw [State.cluster_setCl_same]; exact hk
  · rw [State.cluster_setCl_ne _ _ _ _ hd]; exact hc d

theorem State.MemOk.mapCl {s : State} {f : Cluster → Cluster} {c : Nat} (h : s.MemOk)
    (hf : ∀ k, (f k).tiles = k.tiles := by intro _; simp) : (s.mapCl c f).MemOk :=
  h.setCl (by rw [hf]; exact h.cluster c)

theorem State.MemOk.mapHere {s : State} {f : Cluster → Cluster} (h : s.MemOk)
    (hf : ∀ k, (f k).tiles = k.tiles := by intro _; simp) : (s.mapHere f).MemOk :=
  h.mapCl hf

theorem State.MemOk.setHere {s : State} {k : Cluster} (h : s.MemOk) (e : k.tiles = s.here.tiles) :
    (s.mapHere fun _ => k).MemOk :=
  h.setCl (by rw [e]; exact h.cluster _)

theorem State.MemOk.mapSeq {s : State} {c : Nat} {q : SeqId} {f : Sequencer → Sequencer} (h : s.MemOk) :
    (s.mapSeq c q f).MemOk :=
  h.mapCl fun _ => Cluster.setSeq_tiles _ _ _

theorem State.MemOk.withClusters {s : State} {t : Table Cluster} (h : s.MemOk)
    (ht : ∀ k, (t.get k .reset).tiles.wf = true) : ({ s with clusters := t } : State).MemOk :=
  ⟨h.1, h.2.1, ht, h.2.2.2⟩

theorem State.MemOk.withSaved {s : State} {t : Table Cluster} (h : s.MemOk)
    (ht : ∀ k, (t.get k .reset).tiles.wf = true) : ({ s with savedCl := t } : State).MemOk :=
  ⟨h.1, h.2.1, h.2.2.1, ht⟩

theorem State.MemOk.setSaved {s : State} {k : Nat} {x : Cluster} (h : s.MemOk) (hx : x.tiles.wf = true) :
    ({ s with savedCl := s.savedCl.set k x } : State).MemOk := by
  refine h.withSaved fun j => ?_
  by_cases hj : j = k
  · subst hj; rw [Table.get_set_same]; exact hx
  · rw [Table.get_set_ne _ _ _ _ _ hj]; exact h.saved j

theorem State.MemOk.saved_drop {s : State} (h : s.MemOk) (k j : Nat) :
    ((s.savedCl.drop k).get j .reset).tiles.wf = true := by
  rw [Table.get_drop]
  split
  · rfl
  · exact h.saved j

theorem State.MemOk.dropSavedKey {s : State} {k : Nat} (h : s.MemOk) :
    ({ s with savedCl := s.savedCl.drop k } : State).MemOk :=
  h.withSaved (h.saved_drop k)

theorem State.MemOk.congr {s t : State} (h : s.MemOk) (hm : t.mem = s.mem) (hh : t.host = s.host)
    (hc : t.clusters = s.clusters) (hs : t.savedCl = s.savedCl) : t.MemOk := by
  unfold State.MemOk State.cluster at h ⊢
  rw [hm, hh, hc, hs]; exact h

theorem State.MemOk.withDbg {s : State} {d : Debug} (h : s.MemOk) : ({ s with dbg := d } : State).MemOk := h

theorem State.MemOk.withLinks {s : State} {l : Links} (h : s.MemOk) : ({ s with links := l } : State).MemOk := h

/-! ### Writes of the memories -/

theorem State.MemOk.hostWrite {s : State} {a : Nat} {bs : List Byte} (h : s.MemOk) : (s.hostWrite a bs).MemOk := by
  obtain ⟨hm, hh, hc, hs⟩ := h
  exact ⟨hm, Memory.wf_write hh _ _, hc, hs⟩

theorem State.MemOk.overwrite {s : State} {a : Nat} {bs : List Byte} (h : s.MemOk) : (s.overwrite a bs).MemOk := by
  obtain ⟨hm, hh, hc, hs⟩ := h
  exact ⟨Memory.wf_write hm _ _, hh, hc, hs⟩

theorem State.MemOk.rawWrite {s : State} {a : Nat} {bs : List Byte} (h : s.MemOk) : (s.rawWrite a bs).MemOk := by
  unfold State.rawWrite
  split
  · exact h.setCl (Memory.wf_write (h.cluster _) _ _)
  · exact h.overwrite

/-! ### Folds, branches and shared forms -/

theorem State.MemOk.foldl {α : Type} {f : State → α → State} (hf : ∀ s a, s.MemOk → (f s a).MemOk) {l : List α}
    {s : State} (h : s.MemOk) : (l.foldl f s).MemOk := by
  induction l generalizing s with
  | nil => exact h
  | cons a l ih => exact ih (hf s a h)

theorem State.MemOk.either {c : Prop} [Decidable c] {s t : State} (hs : s.MemOk) (ht : t.MemOk) :
    (if c then s else t).MemOk := by
  split
  · exact hs
  · exact ht

theorem guarded_memOk {g : Guard} {n : Nat} {s : State} {act : State → State} (h : s.MemOk)
    (ha : ∀ s : State, s.MemOk → (act s).MemOk) : (guarded g n s act).MemOk := by
  unfold guarded
  change State.MemOk (if _ then _ else _)
  split
  · exact ha s h
  · exact h.mapSeq

theorem Cluster.foldl_tiles {α : Type} {f : Cluster → α → Cluster}
    (hf : ∀ k a, (f k a).tiles = k.tiles := by intro _ _; simp) {l : List α} {k : Cluster} :
    (l.foldl f k).tiles = k.tiles := by
  induction l generalizing k with
  | nil => rfl
  | cons a l ih => exact ih.trans (hf k a)

@[simp] theorem Cluster.ite_tiles {c : Prop} [Decidable c] {k l : Cluster} :
    (if c then k else l).tiles = if c then k.tiles else l.tiles :=
  apply_ite Cluster.tiles c k l

theorem Cluster.takePaths_tiles {k : Cluster} {sc : Scope} : (k.takePaths sc).2.tiles = k.tiles := by
  cases sc <;> rfl

theorem State.MemOk.engineTurn {s : State} {cl req : Nat} {ps : List (Nat × Nat)} {granted : List Nat} (h : s.MemOk) :
    OptAll (fun e => e.1.MemOk) (s.engineTurn cl req ps granted) := by
  unfold State.engineTurn
  extract_lets k ts free
  split
  · exact h.setCl (h.cluster cl)
  · exact trivial

/-! ### Machine/Ops -/

theorem State.MemOk.mapMe {s : State} {f : Sequencer → Sequencer} (h : s.MemOk) : (s.mapMe f).MemOk :=
  h.mapSeq

theorem State.MemOk.put {s : State} {d : Reg} {v : Word} (h : s.MemOk) : (s.put d v).MemOk :=
  h.mapMe

theorem State.MemOk.putPred {s : State} {p : PReg} {v : Bool} (h : s.MemOk) : (s.putPred p v).MemOk :=
  h.mapMe

theorem State.MemOk.skip {s : State} {n : ℕ} (h : s.MemOk) : (s.skip n).MemOk :=
  h.mapMe

theorem State.MemOk.mapPart {s : State} {c : ℕ} {f : Partition → Partition} (h : s.MemOk) :
    (s.mapPart c f).MemOk :=
  h

theorem State.MemOk.mapPartCls {s : State} {p : Partition} {f : Cluster → Cluster} (h : s.MemOk)
    (hf : ∀ (k : Cluster), (f k).tiles = k.tiles := by intro _; simp) : (s.mapPartCls p f).MemOk := by
  refine h.withClusters fun c => ?_
  rw [Table.get_map_tiles]
  · exact h.cluster c
  · intro e; split <;> rfl
  · intro e; split <;> simp [hf]

theorem State.MemOk.mapCtx {s : State} {n : ℕ} {f : Ctx → Ctx} (h : s.MemOk) : (s.mapCtx n f).MemOk :=
  h

theorem State.MemOk.mapDie {s : State} {d : ℕ} {f : Die → Die} (h : s.MemOk) : (s.mapDie d f).MemOk :=
  h

theorem State.MemOk.mapJob {s : State} {n : ℕ} {f : Job → Job} (h : s.MemOk) : (s.mapJob n f).MemOk :=
  h

theorem State.MemOk.mapGang {s : State} {n gi : ℕ} {f : Gang → Gang} (h : s.MemOk) :
    (s.mapGang n gi f).MemOk :=
  h

theorem State.MemOk.mapTask {s : State} {c : ℕ} {f : Task → Task} (h : s.MemOk) : (s.mapTask c f).MemOk :=
  h.mapCl

@[simp] theorem Cluster.setRing_tiles {k : Cluster} {h1 : ℕ} {r : Ring} :
    (k.setRing h1 r).tiles = k.tiles := rfl

@[simp] theorem Cluster.mapSlot_tiles {k : Cluster} {i : ℕ} {f : Slot → Slot} :
    (k.mapSlot i f).tiles = k.tiles := rfl

@[simp] theorem Cluster.mapBin_tiles {k : Cluster} {b : ℕ} {f : Bin → Bin} :
    (k.mapBin b f).tiles = k.tiles := rfl

theorem State.MemOk.fresh {s : State} (h : s.MemOk) : (s.fresh).MemOk :=
  h

@[simp] theorem Cluster.raise_tiles {k : Cluster} {f : ℕ} : (k.raise f).tiles = k.tiles := rfl

theorem State.MemOk.raise {s : State} {c f : ℕ} (h : s.MemOk) : (s.raise c f).MemOk :=
  h.mapCl

@[simp] theorem Cluster.count_tiles {k : Cluster} {e n : ℕ} : (k.count e n).tiles = k.tiles := by
  unfold Cluster.count
  split <;> exact rfl

@[simp] theorem Cluster.wakeAll_tiles {k : Cluster} : (k.wakeAll).tiles = k.tiles := rfl

@[simp] theorem Cluster.hitAll_tiles {k : Cluster} {f : WaitKind → WaitKind} :
    (k.hitAll f).tiles = k.tiles := rfl

@[simp] theorem Cluster.setEvent_tiles {k : Cluster} {e : ℕ} {r : RelInfo} {setter : ℕ} :
    (k.setEvent e r setter).tiles = k.tiles := by
  simp [Cluster.setEvent]

theorem State.MemOk.raiseRank {s : State} {job : ℕ} {g : Gang} {f r : ℕ} (h : s.MemOk) :
    (s.raiseRank job g f r).MemOk := by
  unfold State.raiseRank
  split
  · exact h
  · extract_lets key mine s1
    have hs1 : s1.MemOk := State.MemOk.either h.raise h
    split
    next k heq =>
      have hk : (k.raise f).tiles.wf = true := by
        have hk := h.saved key
        rw [Table.get_of_find? heq] at hk
        exact hk
      split
      · exact State.MemOk.overwrite (hs1.setSaved hk)
      · exact hs1
    · exact hs1

theorem State.MemOk.finishColl {s : State} {job gi id : ℕ} {partial_ : Bool} (h : s.MemOk) :
    (s.finishColl job gi id partial_).MemOk := by
  unfold State.finishColl
  split
  · exact h
  split
  · extract_lets _ s1
    have hs1 : s1.MemOk := h.fresh.mapGang
    split
    · exact hs1
    · exact hs1.foldl (fun _ _ hs => hs.raiseRank)

theorem State.MemOk.settleColls {s : State} {job gi : ℕ} (h : s.MemOk) : (s.settleColls job gi).MemOk := by
  unfold State.settleColls
  split
  · exact h
  extract_lets _
  exact h.foldl (fun _ _ hs => hs.finishColl)

theorem State.MemOk.rankEnds {s : State} {job gi r : ℕ} (h : s.MemOk) : (s.rankEnds job gi r).MemOk :=
  h.mapGang.settleColls

@[simp] theorem Cluster.discardRecs_tiles {k : Cluster} {rs : List Record} :
    (k.discardRecs rs).tiles = k.tiles := by
  simp [Cluster.discardRecs]

@[simp] theorem Cluster.discardBins_tiles {k : Cluster} : (k.discardBins).tiles = k.tiles := by
  simp [Cluster.discardBins]

@[simp] theorem Cluster.dropRest_tiles {k : Cluster} : (k.dropRest).tiles = k.tiles := by
  simp [Cluster.dropRest]

@[simp] theorem Cluster.fail_tiles {k : Cluster} {code cause detail : ℕ} :
    (k.fail code cause detail).tiles = k.tiles := by
  simp [Cluster.fail]

theorem State.MemOk.terminate {s : State} {c code cause detail : ℕ} (h : s.MemOk) :
    (s.terminate c code cause detail).MemOk := by
  unfold State.terminate
  extract_lets k
  split
  · exact h
  · exact (h.setCl (by simpa [k] using h.cluster c)).rankEnds

@[simp] theorem Cluster.dropReports_tiles {k : Cluster} : (k.dropReports).tiles = k.tiles := rfl

theorem State.MemOk.dropAsks {s : State} {a : Agent} (h : s.MemOk) : (s.dropAsks a).MemOk :=
  h

theorem State.MemOk.deliver {s : State} {c : ℕ} {q : SeqId} {cause detail : ℕ} {arg pc : Word} {done : Bool}
    {replay : List LongOp} (h : s.MemOk) : (s.deliver c q cause detail arg pc done replay).MemOk := by
  unfold State.deliver
  split
  · exact h.terminate
  extract_lets _
  exact h.dropAsks.mapCl.mapSeq

theorem State.MemOk.trap {s : State} {cause detail : ℕ} {arg : Word} (h : s.MemOk) :
    (s.trap cause detail arg).MemOk := by
  unfold State.trap
  split
  · exact h
  extract_lets s1
  have hs1 : s1.MemOk := h.mapMe
  exact hs1.deliver

theorem State.MemOk.trapDone {s : State} {cause : ℕ} {arg : Word} (h : s.MemOk) :
    (s.trapDone cause arg).MemOk := by
  unfold State.trapDone
  split
  · exact h
  extract_lets s1
  have hs1 : s1.MemOk := h.mapMe
  exact hs1.deliver

theorem State.MemOk.ill {s : State} {word : ℕ} (h : s.MemOk) : (s.ill word).MemOk :=
  h.trap

theorem State.MemOk.raiseEng {s : State} {c : ℕ} {q : SeqId} {detail : ℕ} {arg : Word} (h : s.MemOk) :
    (s.raiseEng c q detail arg).MemOk := by
  unfold State.raiseEng
  extract_lets _ _
  split
  · exact h.mapSeq
  split
  · exact h.mapSeq
  · exact h.terminate

theorem State.MemOk.msix {s : State} {f k1 : ℕ} (h : s.MemOk) : (s.msix f k1).MemOk := by
  unfold State.msix
  extract_lets _
  split
  · exact h
  · split <;> exact h

theorem State.MemOk.trace {s : State} {ty ctx region blk ver : ℕ} {payload : List Byte} (h : s.MemOk) :
    (s.trace ty ctx region blk ver payload).MemOk := by
  unfold State.trace
  extract_lets _ _ bs s1
  have hs1 : s1.MemOk := h.hostWrite
  split
  · exact h
  · split
    · exact hs1.withDbg
    · exact h.withDbg

/-! ### Machine/Translate -/

theorem State.MemOk.cacheDesc {s : State} {p : Partition} {n : ℕ} (h : s.MemOk) :
    (s.cacheDesc p n).MemOk := by
  unfold State.cacheDesc
  split
  · exact h.mapCtx
  · exact h

@[simp] theorem Cluster.touch_tiles {k : Cluster} {e : TlbEntry} : (k.touch e).tiles = k.tiles := rfl

@[simp] theorem Cluster.install_tiles {k : Cluster} {e : TlbEntry} : (k.install e).tiles = k.tiles := by
  unfold Cluster.install
  extract_lets _ _ _ _ _
  split <;> exact rfl

@[simp] theorem Cluster.seqMiss_tiles {k : Cluster} {asid va : ℕ} : (k.seqMiss asid va).tiles = k.tiles := by
  simp [Cluster.seqMiss]

@[simp] theorem Cluster.engMiss_tiles {k : Cluster} {asid va cls sub acc : ℕ} :
    (k.engMiss asid va cls sub acc).tiles = k.tiles := by
  simp [Cluster.engMiss]

@[simp] theorem Cluster.takeFailed_tiles {k : Cluster} {asid va : ℕ} :
    (k.takeFailed asid va).tiles = k.tiles := rfl

/-! ### Machine/Memory -/

theorem State.MemOk.fillWay {s : State} {line set : ℕ} {allowed : ℕ → Bool} {age : ℕ}
    {backing : Option (List Byte)} (h : s.MemOk) : (s.fillWay line set allowed age backing).MemOk :=
  h

theorem State.MemOk.fillClass {s : State} {line set rct : ℕ} {backing : Option (List Byte)} (h : s.MemOk) :
    (s.fillClass line set rct backing).MemOk := by
  unfold State.fillClass
  split
  · exact h
  · exact h.fillWay

theorem State.MemOk.stage4k {s : State} {key rct : ℕ} (h : s.MemOk) : (s.stage4k key rct).MemOk := by
  unfold State.stage4k
  split <;> exact h

theorem State.MemOk.touchL2 {s : State} {key rcls : ℕ} {reads : Bool} (h : s.MemOk) :
    (s.touchL2 key rcls reads).MemOk := by
  unfold State.touchL2
  extract_lets _ _ _ s1 _
  have hs1 : s1.MemOk := State.MemOk.either h.stage4k h
  exact hs1

theorem State.MemOk.tableFill {s : State} {k1 : ℕ} (h : s.MemOk) : (s.tableFill k1).MemOk :=
  h

theorem State.MemOk.tableFills {s : State} {reads : List (ℕ × ℕ × ℕ × ℕ)} (h : s.MemOk) :
    (s.tableFills reads).MemOk :=
  h.foldl (fun _ _ hs => hs.tableFill)

theorem State.MemOk.markDirty {s : State} {key : ℕ} {bs : List Byte} {wpol : ℕ} (h : s.MemOk) :
    (s.markDirty key bs wpol).MemOk := by
  unfold State.markDirty
  extract_lets _ _ _ _ _
  split <;> exact h

theorem State.MemOk.cleanLine {s : State} {line : ℕ} (h : s.MemOk) : (s.cleanLine line).MemOk :=
  h

theorem State.MemOk.dropLine {s : State} {line : ℕ} (h : s.MemOk) : (s.dropLine line).MemOk :=
  h

theorem State.MemOk.commit {s : State} {id key : ℕ} {bs : List Byte} {view : List ℕ} {atomic : Bool}
    {rels : List RelInfo} {wpol : ℕ} (h : s.MemOk) : (s.commit id key bs view atomic rels wpol).MemOk := by
  unfold State.commit
  extract_lets _ _ _ _ s1
  have hs1 : s1.MemOk := h.markDirty.rawWrite
  exact hs1

theorem State.MemOk.store {s : State} {key : ℕ} {bs : List Byte} {view : List ℕ} {rels : List RelInfo}
    {wpol : ℕ} (h : s.MemOk) : (s.store key bs view rels wpol).MemOk :=
  h.commit.fresh

@[simp] theorem Cluster.mapPort_tiles {k : Cluster} {slot tile : ℕ} {f : Port → Port} :
    (k.mapPort slot tile f).tiles = k.tiles := rfl

theorem State.MemOk.note {s : State} {a : Agent} {ws rs : List ℕ} (h : s.MemOk) : (s.note a ws rs).MemOk := by
  unfold State.note
  split
  · exact h
  split
  · extract_lets _ _ _
    exact h
  split
  · split
    · exact h.mapSeq
    · exact h
  · split
    · exact h.mapCl
    · exact h
  · exact h.mapCl
  · exact h.mapCl
  · exact h
  · exact h

theorem State.MemOk.perform {s : State} {c : ℕ} {q : SeqId} {serial : ℕ} {a : Answer} (h : s.MemOk) :
    (s.perform c q serial a).MemOk :=
  h.mapSeq

theorem State.MemOk.raiseAgent {s : State} {a : Agent} {f : ℕ} (h : s.MemOk) : (s.raiseAgent a f).MemOk := by
  unfold State.raiseAgent
  split
  · exact h
  split
  · exact h.raise
  · exact h

theorem State.MemOk.emit {s : State} {fs : List Flit} (h : s.MemOk) : (s.emit fs).MemOk :=
  h

theorem State.MemOk.answer {s : State} {r : MemReq} {a : Answer} (h : s.MemOk) : (s.answer r a).MemOk := by
  unfold State.answer
  split
  · exact h.perform
  · exact h.mapSeq
  · exact h.mapCl
  · exact h.mapCl
  · exact h.mapCl
  · extract_lets s1 _
    have hs1 : s1.MemOk := h.emit
    split <;> exact hs1
  · exact h
  · exact h
  · exact h

theorem State.MemOk.atomic {s : State} {id key op : ℕ} {w64 : Bool} {y : Word} {view : List ℕ}
    {rel : Option RelInfo} {wpol : ℕ} (h : s.MemOk) : (s.atomic id key op w64 y view rel wpol).1.MemOk := by
  unfold State.atomic
  extract_lets _ _
  split
  exact h.commit

theorem State.MemOk.serve {s : State} {r : MemReq} {choice : ℕ} (h : s.MemOk) :
    SomeMemOk (s.serve r choice) := by
  unfold State.serve
  extract_lets _ _ done one _ _
  have hdone : ∀ (t1 : State) (a1 : Answer), t1.MemOk → (done t1 a1).MemOk := by
    intro t1 a1 hs
    dsimp -zeta only [done]
    exact (hs.foldl (fun _ _ hs1 => hs1.note)).answer
  have hone : ∀ (t1 : State) (e1 : ℕ × ℕ × Bool × Word), t1.MemOk → (one t1 e1).MemOk := by
    intro t1 e1 hs
    dsimp -zeta only [one]
    exact hs.atomic.raiseAgent
  split
  · split
    · exact hdone _ _ h
    · exact trivial
  · split
    · exact trivial
    · exact hdone _ _ h.commit
  · split
    · exact trivial
    · exact hdone _ _ (h.foldl (fun _ _ hs => hs.commit))
  · split
    · exact trivial
    extract_lets _
    split
    next heq1 => exact hdone _ _ (h.atomic.fst heq1).raiseAgent
  · split
    · exact trivial
    · exact hdone _ _ (h.foldl (fun _ _ hs => hone _ _ hs))
  · split
    · exact trivial
    extract_lets _ _ _
    split
    · exact hdone _ _ h.commit
    · exact hdone _ _ h
  · split
    · exact trivial
    · exact hdone _ _ h.cleanLine
  split
  · exact trivial
  · exact hdone _ _ h.commit.dropLine

@[simp] theorem Cluster.usePath_tiles {k : Cluster} {m p : ℕ} : (k.usePath m p).tiles = k.tiles := rfl

theorem State.MemOk.sendRemote {s : State} {r : MemReq} (h : s.MemOk) : (s.sendRemote r).MemOk := by
  unfold State.sendRemote
  extract_lets _ _ _ _ s1 _
  have hs1 : s1.MemOk := h.mapCl.emit
  exact hs1

theorem State.MemOk.hostStore {s : State} {off : ℕ} {bs : List Byte} {rel : Option RelInfo} (h : s.MemOk) :
    (s.hostStore off bs rel).MemOk := by
  unfold State.hostStore
  extract_lets s1 _ _
  have hs1 : s1.MemOk := h.hostWrite
  exact hs1

theorem State.MemOk.resolve {s : State} {w : Who} {va n : ℕ} {need : Need} (h : s.MemOk) :
    Got.MemOk (s.resolve w va n need) := by
  unfold State.resolve
  extract_lets _
  split
  · exact h
  split
  · exact h
  split
  · exact h
  split
  · exact h
  split
  · extract_lets s1
    have hs1 : s1.MemOk := h.mapCl
    split
    · split
      · exact h
      · exact hs1
    · exact hs1
    · exact hs1
    · exact h
  · exact h
  split
  · split <;> exact h.mapCl
  · exact h.mapCl

theorem State.MemOk.forgetLine {s : State} {a : Agent} {line : ℕ} (h : s.MemOk) :
    (s.forgetLine a line).MemOk :=
  h

theorem State.MemOk.hostLeaves {s : State} {h1 : HostReq} (h : s.MemOk) : (s.hostLeaves h1).MemOk :=
  h

theorem State.MemOk.toHost {s : State} {a : Agent} {ctx off : ℕ} {kind : ReqKind} {ret : RetTo}
    {rel : Option RelInfo} {leaf : Option TlbEntry} (h : s.MemOk) :
    (s.toHost a ctx off kind ret rel leaf).MemOk := by
  unfold State.toHost
  extract_lets _ _ s0 s1 _
  have hs0 : s0.MemOk := State.MemOk.either (h.mapCl) h
  have hs1 : s1.MemOk := State.MemOk.either hs0 hs0.hostLeaves
  exact hs1

theorem State.MemOk.toTile {s : State} {c requester : ℕ} {r : MemReq} (h : s.MemOk) :
    SomeMemOk (s.toTile c requester r) := by
  unfold State.toTile
  extract_lets _ _ _ _ s1
  have hs1 : s1.MemOk := (h.setCl (by exact h.cluster _)).fresh
  split
  · exact (h.setCl (by exact h.cluster _)).note
  split
  · exact State.MemOk.either hs1.note hs1
  · exact trivial

theorem State.MemOk.traceL2 {s : State} {r : MemReq} {kind slice : ℕ} (h : s.MemOk) :
    (s.traceL2 r kind slice).MemOk := by
  unfold State.traceL2
  extract_lets _ _ _ _ s1
  have hs1 : s1.MemOk := h
  split
  · split <;> exact h
  · exact hs1.trace

theorem State.MemOk.l2Filter {s : State} {r : MemReq} {kind slice f : ℕ} (h : s.MemOk) :
    (s.l2Filter r kind slice f).MemOk := by
  unfold State.l2Filter
  split
  · exact h
  extract_lets _ _ _ s1
  have hs1 : s1.MemOk := h
  split
  · exact hs1.traceL2
  · exact hs1

theorem State.MemOk.countMiss {s : State} {c key : ℕ} (h : s.MemOk) : (s.countMiss c key).MemOk :=
  h.mapCl

theorem State.MemOk.meetsL2 {s : State} {r : MemReq} {merged again : Bool} (h : s.MemOk) :
    (s.meetsL2 r merged again).MemOk := by
  unfold State.meetsL2
  extract_lets _ s1 _ s2
  have hs1 : s1.MemOk := by
    dsimp -zeta only [s1]
    split
    · split
      · exact h.countMiss
      · exact h
    · exact h
  have hs2 : s2.MemOk := hs1.l2Filter.l2Filter
  split
  · exact hs2.touchL2
  · exact hs2

theorem State.MemOk.readFar {s : State} {w : Who} {line va n off : ℕ} {ask : State → State} (h : s.MemOk)
    (hask : ∀ (t : State), t.MemOk → (ask t).MemOk) : Got.MemOk (s.readFar w line va n off ask) := by
  unfold State.readFar
  split
  · exact h
  extract_lets _
  split
  · exact h.forgetLine
  split
  · exact h
  · exact hask _ h

theorem State.MemOk.readAt {s : State} {w : Who} {t : Target} {va n : ℕ} (h : s.MemOk) :
    Got.MemOk (s.readAt w t va n) := by
  unfold State.readAt
  split
  · split <;> exact h
  · extract_lets _ _ _
    exact h.note.meetsL2
  · exact h.readFar (fun _ hs => hs.toHost)
  · exact h.readFar (fun _ hs => hs.sendRemote)

theorem State.MemOk.readPiece {s : State} {w : Who} {va n : ℕ} (h : s.MemOk) :
    Got.MemOk (s.readPiece w va n) := by
  unfold State.readPiece
  split
  next heq => exact (h.resolve.ok heq).readAt
  next heq => exact h.resolve.fail heq
  next heq => exact h.resolve.wait heq

theorem State.MemOk.readPieces {s : State} {w : Who} {l : List (ℕ × ℕ)} {acc : List Byte × List RelInfo}
    (h : s.MemOk) : Got.MemOk (s.readPieces w l acc) := by
  induction l generalizing s acc with
  | nil => exact h
  | cons e l ih =>
    unfold State.readPieces
    split
    next heq => exact ih (h.readPiece.ok heq)
    next heq => exact h.readPiece.fail heq
    next heq => exact h.readPiece.wait heq

theorem State.MemOk.vreadRel {s : State} {w : Who} {va n : ℕ} (h : s.MemOk) : Got.MemOk (s.vreadRel w va n) :=
  h.readPieces

theorem State.MemOk.vread {s : State} {w : Who} {va n : ℕ} (h : s.MemOk) : Got.MemOk (s.vread w va n) := by
  unfold State.vread
  split
  next heq => exact h.vreadRel.ok heq
  next heq => exact h.vreadRel.fail heq
  next heq => exact h.vreadRel.wait heq

theorem State.MemOk.dropLines {s : State} {a : Agent} (h : s.MemOk) : (s.dropLines a).MemOk :=
  h

theorem State.MemOk.writePiece {s : State} {w : Who} {va : ℕ} {bs : List Byte} (h : s.MemOk) :
    Got.MemOk (s.writePiece w va bs) := by
  unfold State.writePiece
  split
  next heq =>
    have hs1 := h.resolve.ok heq
    split
    next heq1 => exact hs1.toTile.some heq1
    · exact hs1
  next heq =>
    have hs1 := h.resolve.ok heq
    extract_lets _ s2
    have hs2 : s2.MemOk := hs1.meetsL2
    exact hs2.store.note
  next heq => exact (h.resolve.ok heq).toHost
  next heq => exact (h.resolve.ok heq).sendRemote
  next heq => exact h.resolve.fail heq
  next heq => exact h.resolve.wait heq

theorem State.MemOk.writePieces {s : State} {w : Who} {l : List (ℕ × ℕ)} {bs : List Byte} {ids : List ℕ}
    (h : s.MemOk) : Got.MemOk (s.writePieces w l bs ids) := by
  induction l generalizing s bs ids with
  | nil => exact h
  | cons e l ih =>
    unfold State.writePieces
    split
    next heq => exact ih (h.writePiece.ok heq)
    next heq => exact h.writePiece.fail heq
    next heq => exact h.writePiece.wait heq

theorem State.MemOk.vwrite {s : State} {w : Who} {va : ℕ} {bs : List Byte} (h : s.MemOk) :
    Got.MemOk (s.vwrite w va bs) :=
  h.writePieces

/-! ### Machine/Release -/

@[simp] theorem Cluster.settleIdle_tiles {k : Cluster} : (k.settleIdle).tiles = k.tiles := rfl

theorem State.MemOk.sendMarkers {s : State} {c : ℕ} {sc : Scope} (h : s.MemOk) :
    (s.sendMarkers c sc).1.MemOk := by
  unfold State.sendMarkers
  split
  next paths k1 heq =>
    have hk1 : k1.tiles = (s.cluster c).tiles := snd_tiles heq Cluster.takePaths_tiles
    extract_lets _ s1
    have hs1 : s1.MemOk := (h.setCl (by rw [hk1]; exact h.cluster c)).emit
    split
    · exact h
    · exact hs1

@[simp] theorem Cluster.markCmds_tiles {k : Cluster} {q : SeqId} {m : Mask} {mark : ℕ} :
    (k.markCmds q m mark).tiles = k.tiles := by
  unfold Cluster.markCmds
  split
  · simp
  · simp
  · exact rfl

@[simp] theorem Cluster.follow_tiles {k : Cluster} {q : SeqId} {m : Mask} :
    (k.follow q m).tiles = k.tiles := by
  simp [Cluster.follow]

theorem State.MemOk.beginRelease {s : State} {c : ℕ} {q : SeqId} {m : Mask} {sc : Scope} (h : s.MemOk) :
    (s.beginRelease c q m sc).1.MemOk := by
  unfold State.beginRelease
  extract_lets _ _
  split
  next heq => exact h.sendMarkers.fst heq

theorem State.MemOk.askZero {s : State} {c : ℕ} (h : s.MemOk) : (s.askZero c).MemOk :=
  h.mapCl.toHost

theorem State.MemOk.sendZero {s : State} {c : ℕ} {q : SeqId} {r : Release} (h : s.MemOk) :
    (s.sendZero c q r).1.MemOk := by
  unfold State.sendZero
  split
  · exact h.askZero
  · exact h

@[simp] theorem Cluster.putRing_tiles {k : Cluster} {h1 : ℕ} {r : Ring} :
    (k.putRing h1 r).tiles = k.tiles := rfl

@[simp] theorem Cluster.advance_tiles {k : Cluster} {h1 : ℕ} {produce : Bool} {n : ℕ} {i : RelInfo} {who : ℕ} :
    (k.advance h1 produce n i who).tiles = k.tiles := by
  simp [Cluster.advance]

theorem State.MemOk.knownFar {s : State} {sc : Scope} {ids : List ℕ} (h : s.MemOk) :
    (s.knownFar sc ids).MemOk := by
  unfold State.knownFar
  extract_lets _
  split <;> exact h

theorem State.MemOk.effect {s : State} {c : ℕ} {q : SeqId} {r : Release} {e : RelEffect} (h : s.MemOk) :
    (s.effect c q r e).1.MemOk := by
  unfold State.effect
  extract_lets _ s1
  have hs1 : s1.MemOk := h.mapCl.knownFar
  split
  · exact hs1.mapSeq
  · exact hs1.mapCl
  · extract_lets _
    split
    · exact hs1
    split
    · exact hs1
    · exact hs1.mapCl
  extract_lets _
  split
  · exact hs1
  split
  · exact hs1
  · exact hs1.mapCl

theorem State.MemOk.complete {s : State} {n : ℕ} (h : s.MemOk) : (s.complete n).MemOk :=
  h.mapMe

theorem State.MemOk.failWait {s : State} {cause detail : ℕ} {arg : Word} (h : s.MemOk) :
    (s.failWait cause detail arg).MemOk := by
  unfold State.failWait
  split
  · exact h.mapMe
  · exact h.mapMe.trap

theorem State.MemOk.releasing {s : State} {len : ℕ} {m : Mask} {sc : Scope} {e : RelEffect} (h : s.MemOk) :
    (s.releasing len m sc e).MemOk := by
  unfold State.releasing
  extract_lets finish go
  have hfinish : ∀ (s1 : State) (k1 : WaitKind), s1.MemOk → (finish s1 k1).MemOk := by
    intro s1 k1 hs
    dsimp -zeta only [finish]
    split
    · exact hs.failWait
    · exact hs.complete
  have hgo : ∀ (s1 : State) (r1 : Release) (e1 : RelEffect), s1.MemOk → (go s1 r1 e1).MemOk := by
    intro s1 r1 e1 hs
    dsimp -zeta only [go]
    split
    · exact hfinish _ _ hs.effect
    · exact hs.sendZero.mapMe
  split
  · exact h.complete
  · dsimp -zeta only [finish]
    exact h.failWait
  · exact hgo _ _ _ h
  split
  next heq => exact hgo _ _ _ (h.beginRelease.fst heq)

/-! ### Machine/LoadStore -/

theorem State.MemOk.issueOp {s : State} {i : Instr} {len : ℕ} {kind : OpKind} {ea : Word} {al n : ℕ}
    {d1 d2 : Word} {dst : ℕ} {rel : Option Release} {acq : Option (Mask × Scope)} (h : s.MemOk) :
    (s.issueOp i len kind ea al n d1 d2 dst rel acq).MemOk := by
  unfold State.issueOp
  split
  · exact h.trap
  · exact h.mapMe

theorem execLdB_memOk {g : Guard} {d a : Reg} {off : BitVec 9} {s : State} (h : s.MemOk) :
    Result.MemOk (execLdB g d a off s) :=
  guarded_memOk h (fun _ hs => hs.issueOp)

theorem execLdH_memOk {g : Guard} {d a : Reg} {off : BitVec 9} {s : State} (h : s.MemOk) :
    Result.MemOk (execLdH g d a off s) :=
  guarded_memOk h (fun _ hs => hs.issueOp)

theorem execLdW_memOk {g : Guard} {d a : Reg} {off : BitVec 9} {s : State} (h : s.MemOk) :
    Result.MemOk (execLdW g d a off s) :=
  guarded_memOk h (fun _ hs => hs.issueOp)

theorem execLdBn_memOk {g : Guard} {d a : Reg} {off : BitVec 9} {s : State} (h : s.MemOk) :
    Result.MemOk (execLdBn g d a off s) :=
  guarded_memOk h (fun _ hs => hs.issueOp)

theorem execLdHn_memOk {g : Guard} {d a : Reg} {off : BitVec 9} {s : State} (h : s.MemOk) :
    Result.MemOk (execLdHn g d a off s) :=
  guarded_memOk h (fun _ hs => hs.issueOp)

theorem execLdWn_memOk {g : Guard} {d a : Reg} {off : BitVec 9} {s : State} (h : s.MemOk) :
    Result.MemOk (execLdWn g d a off s) :=
  guarded_memOk h (fun _ hs => hs.issueOp)

theorem execLdD_memOk {g : Guard} {d a : Reg} {off : BitVec 9} {s : State} (h : s.MemOk) :
    Result.MemOk (execLdD g d a off s) :=
  guarded_memOk h (fun _ hs => hs.issueOp)

theorem execStB_memOk {g : Guard} {d a : Reg} {off : BitVec 9} {s : State} (h : s.MemOk) :
    Result.MemOk (execStB g d a off s) :=
  guarded_memOk h (fun _ hs => hs.issueOp)

theorem execStH_memOk {g : Guard} {d a : Reg} {off : BitVec 9} {s : State} (h : s.MemOk) :
    Result.MemOk (execStH g d a off s) :=
  guarded_memOk h (fun _ hs => hs.issueOp)

theorem execStW_memOk {g : Guard} {d a : Reg} {off : BitVec 9} {s : State} (h : s.MemOk) :
    Result.MemOk (execStW g d a off s) :=
  guarded_memOk h (fun _ hs => hs.issueOp)

theorem execStD_memOk {g : Guard} {d a : Reg} {off : BitVec 9} {s : State} (h : s.MemOk) :
    Result.MemOk (execStD g d a off s) :=
  guarded_memOk h (fun _ hs => hs.issueOp)

theorem execLdp_memOk {g : Guard} {dh : Fin 16} {a : Reg} {off : BitVec 9} {s : State} (h : s.MemOk) :
    Result.MemOk (execLdp g dh a off s) :=
  guarded_memOk h (fun _ hs => hs.issueOp)

theorem execStp_memOk {g : Guard} {dh : Fin 16} {a : Reg} {off : BitVec 9} {s : State} (h : s.MemOk) :
    Result.MemOk (execStp g dh a off s) :=
  guarded_memOk h (fun _ hs => hs.issueOp)

theorem State.MemOk.prefetch {s : State} {key rcls : ℕ} (h : s.MemOk) : (s.prefetch key rcls).MemOk := by
  unfold State.prefetch
  extract_lets _
  split
  · exact h.touchL2
  split
  · exact h
  · exact h.stage4k.fillClass

theorem State.MemOk.prefWalk {s : State} {va : ℕ} (h : s.MemOk) : (s.prefWalk va).MemOk := by
  unfold State.prefWalk
  extract_lets _
  split
  · exact h
  · exact h.tableFills

theorem execPref_memOk {g : Guard} {b : Bool} {a : Reg} {off : BitVec 9} {s : State} (h : s.MemOk) :
    Result.MemOk (execPref g b a off s) := by
  unfold execPref
  refine guarded_memOk h fun _ hs => ?_
  extract_lets _
  split
  · exact hs.prefWalk.prefetch.skip
  · exact hs.skip

theorem execAmoAddW_memOk {g : Guard} {d a b : Reg} {sc : Scope} {s : State} (h : s.MemOk) :
    Result.MemOk (execAmoAddW g d a b sc s) :=
  guarded_memOk h (fun _ hs => hs.issueOp)

theorem execAmoAndW_memOk {g : Guard} {d a b : Reg} {sc : Scope} {s : State} (h : s.MemOk) :
    Result.MemOk (execAmoAndW g d a b sc s) :=
  guarded_memOk h (fun _ hs => hs.issueOp)

theorem execAmoOrW_memOk {g : Guard} {d a b : Reg} {sc : Scope} {s : State} (h : s.MemOk) :
    Result.MemOk (execAmoOrW g d a b sc s) :=
  guarded_memOk h (fun _ hs => hs.issueOp)

theorem execAmoXorW_memOk {g : Guard} {d a b : Reg} {sc : Scope} {s : State} (h : s.MemOk) :
    Result.MemOk (execAmoXorW g d a b sc s) :=
  guarded_memOk h (fun _ hs => hs.issueOp)

theorem execAmoMinW_memOk {g : Guard} {d a b : Reg} {sc : Scope} {s : State} (h : s.MemOk) :
    Result.MemOk (execAmoMinW g d a b sc s) :=
  guarded_memOk h (fun _ hs => hs.issueOp)

theorem execAmoMaxW_memOk {g : Guard} {d a b : Reg} {sc : Scope} {s : State} (h : s.MemOk) :
    Result.MemOk (execAmoMaxW g d a b sc s) :=
  guarded_memOk h (fun _ hs => hs.issueOp)

theorem execAmoMinnW_memOk {g : Guard} {d a b : Reg} {sc : Scope} {s : State} (h : s.MemOk) :
    Result.MemOk (execAmoMinnW g d a b sc s) :=
  guarded_memOk h (fun _ hs => hs.issueOp)

theorem execAmoMaxnW_memOk {g : Guard} {d a b : Reg} {sc : Scope} {s : State} (h : s.MemOk) :
    Result.MemOk (execAmoMaxnW g d a b sc s) :=
  guarded_memOk h (fun _ hs => hs.issueOp)

theorem execAmoSwapW_memOk {g : Guard} {d a b : Reg} {sc : Scope} {s : State} (h : s.MemOk) :
    Result.MemOk (execAmoSwapW g d a b sc s) :=
  guarded_memOk h (fun _ hs => hs.issueOp)

theorem execAmoFaddRxW_memOk {g : Guard} {d a b : Reg} {sc : Scope} {s : State} (h : s.MemOk) :
    Result.MemOk (execAmoFaddRxW g d a b sc s) :=
  guarded_memOk h (fun _ hs => hs.issueOp)

theorem execAmoAddD_memOk {g : Guard} {d a b : Reg} {sc : Scope} {s : State} (h : s.MemOk) :
    Result.MemOk (execAmoAddD g d a b sc s) :=
  guarded_memOk h (fun _ hs => hs.issueOp)

theorem execAmoAndD_memOk {g : Guard} {d a b : Reg} {sc : Scope} {s : State} (h : s.MemOk) :
    Result.MemOk (execAmoAndD g d a b sc s) :=
  guarded_memOk h (fun _ hs => hs.issueOp)

theorem execAmoOrD_memOk {g : Guard} {d a b : Reg} {sc : Scope} {s : State} (h : s.MemOk) :
    Result.MemOk (execAmoOrD g d a b sc s) :=
  guarded_memOk h (fun _ hs => hs.issueOp)

theorem execAmoXorD_memOk {g : Guard} {d a b : Reg} {sc : Scope} {s : State} (h : s.MemOk) :
    Result.MemOk (execAmoXorD g d a b sc s) :=
  guarded_memOk h (fun _ hs => hs.issueOp)

theorem execAmoMinD_memOk {g : Guard} {d a b : Reg} {sc : Scope} {s : State} (h : s.MemOk) :
    Result.MemOk (execAmoMinD g d a b sc s) :=
  guarded_memOk h (fun _ hs => hs.issueOp)

theorem execAmoMaxD_memOk {g : Guard} {d a b : Reg} {sc : Scope} {s : State} (h : s.MemOk) :
    Result.MemOk (execAmoMaxD g d a b sc s) :=
  guarded_memOk h (fun _ hs => hs.issueOp)

theorem execAmoMinnD_memOk {g : Guard} {d a b : Reg} {sc : Scope} {s : State} (h : s.MemOk) :
    Result.MemOk (execAmoMinnD g d a b sc s) :=
  guarded_memOk h (fun _ hs => hs.issueOp)

theorem execAmoMaxnD_memOk {g : Guard} {d a b : Reg} {sc : Scope} {s : State} (h : s.MemOk) :
    Result.MemOk (execAmoMaxnD g d a b sc s) :=
  guarded_memOk h (fun _ hs => hs.issueOp)

theorem execAmoSwapD_memOk {g : Guard} {d a b : Reg} {sc : Scope} {s : State} (h : s.MemOk) :
    Result.MemOk (execAmoSwapD g d a b sc s) :=
  guarded_memOk h (fun _ hs => hs.issueOp)

theorem execCasW_memOk {g : Guard} {d a b : Reg} {sc : Scope} {s : State} (h : s.MemOk) :
    Result.MemOk (execCasW g d a b sc s) :=
  guarded_memOk h (fun _ hs => hs.issueOp)

theorem execCasD_memOk {g : Guard} {d a b : Reg} {sc : Scope} {s : State} (h : s.MemOk) :
    Result.MemOk (execCasD g d a b sc s) :=
  guarded_memOk h (fun _ hs => hs.issueOp)

theorem execAcqLd_memOk {g : Guard} {d a : Reg} {size : Fin 4} {sx : Bool} {mask : Mask} {sc : Scope}
    {off : BitVec 16} {s : State} (h : s.MemOk) : Result.MemOk (execAcqLd g d a size sx mask sc off s) :=
  guarded_memOk h (fun _ hs => hs.issueOp)

theorem execRelSt_memOk {g : Guard} {d a : Reg} {size : Fin 4} {mask : Mask} {sc : Scope} {off : BitVec 16}
    {s : State} (h : s.MemOk) : Result.MemOk (execRelSt g d a size mask sc off s) := by
  unfold execRelSt
  refine guarded_memOk h fun _ hs => ?_
  extract_lets _ _
  split
  · exact hs.issueOp
  split
  · exact hs.issueOp
  split
  next heq =>
    have hs11 := hs.beginRelease.fst heq
    extract_lets s12
    have hs12 : s12.MemOk := hs11.mapHere
    exact hs12.issueOp

theorem execCflush_memOk {g : Guard} {a : Reg} {s : State} (h : s.MemOk) : Result.MemOk (execCflush g a s) :=
  guarded_memOk h (fun _ hs => hs.issueOp)

theorem execCinv_memOk {g : Guard} {a : Reg} {s : State} (h : s.MemOk) : Result.MemOk (execCinv g a s) := by
  unfold execCinv
  refine guarded_memOk h fun _ hs => ?_
  split
  · exact hs.trap
  · exact hs.issueOp

theorem State.MemOk.sendOne {s : State} {c : ℕ} {q : SeqId} {o : LongOp} {kind : ReqKind} {ret : RetTo}
    {t : Target} {done sent : Sequencer → Sequencer} (h : s.MemOk) :
    SomeMemOk (s.sendOne c q o kind ret t done sent) := by
  unfold State.sendOne
  split
  · split
    · exact h.mapSeq
    · exact h.toTile.map fun _ hs => hs.mapSeq
  · exact State.MemOk.fresh h.mapSeq
  · split
    · exact h.mapSeq
    · split
      · exact h.mapSeq
      · exact h.mapSeq.toHost
  · split
    · split
      · exact State.MemOk.fresh h.mapSeq
      · exact h.mapSeq
    · split
      · exact h.mapSeq
      · exact h.mapSeq.sendRemote

theorem State.MemOk.sendOp {s : State} {c : ℕ} {q : SeqId} {o : LongOp} {t : Target} (h : s.MemOk) :
    (s.sendOp c q o t).MemOk := by
  unfold State.sendOp
  extract_lets _
  exact SomeMemOk.getD h.sendOne h

theorem State.MemOk.sendHalves {s : State} {c : ℕ} {q : SeqId} {o : LongOp} {lo hi : Target} (h : s.MemOk) :
    (s.sendHalves c q o lo hi).MemOk := by
  unfold State.sendHalves
  extract_lets one got s0
  have hone : ∀ (b : Bool) (t : Target) (s : State), s.MemOk → SomeMemOk (one b t s) := by
    intro b t s hs
    dsimp only [one]
    split
    · exact hs
    · exact hs.sendOne
  exact ((hone false lo s0 h.mapSeq).bind (hone true hi)).getD h

theorem State.MemOk.sendPair {s : State} {c : ℕ} {q : SeqId} {o : LongOp} (h : s.MemOk) :
    (s.sendPair c q o).MemOk := by
  unfold State.sendPair
  extract_lets _ halt
  have hhalt : ∀ (s1 : State) (cause1 detail1 va1 : ℕ), s1.MemOk → (halt s1 cause1 detail1 va1).MemOk := by
    intro s1 cause1 detail1 va1 hs
    dsimp -zeta only [halt]
    exact hs.mapSeq
  split
  next heq =>
    have hs1 := h.resolve.ok heq
    split
    next heq1 => exact (hs1.resolve.ok heq1).sendHalves
    next heq1 => exact hhalt _ _ _ _ (hs1.resolve.fail heq1)
    next heq1 => exact hs1.resolve.wait heq1
  next heq => exact hhalt _ _ _ _ (h.resolve.fail heq)
  next heq => exact h.resolve.wait heq

theorem State.MemOk.sendWhole {s : State} {c : ℕ} {q : SeqId} {o : LongOp} {t : Target} (h : s.MemOk) :
    (s.sendWhole c q o t).MemOk := by
  unfold State.sendWhole
  split
  · exact h.sendHalves
  · exact h.sendHalves
  · exact h.sendOp

theorem State.MemOk.hostGives {s : State} {h1 : HostReq} {a : Answer} (h : s.MemOk) :
    (s.hostGives h1 a).MemOk := by
  unfold State.hostGives
  split
  · exact h.perform
  · exact h.mapSeq
  · exact h.mapCl
  · exact h.mapCl
  · exact h
  · exact h

theorem State.MemOk.hostServeOne {s : State} {h1 : HostReq} (h : s.MemOk) : (s.hostServeOne h1).MemOk := by
  unfold State.hostServeOne
  extract_lets s1
  have hs1 : s1.MemOk := h
  split
  · exact hs1.hostGives
  · exact hs1.hostStore.hostGives
  · exact (hs1.foldl (fun _ _ hs => hs.hostStore)).hostGives
  · exact hs1

theorem State.MemOk.hostServe {s : State} {id : ℕ} (h : s.MemOk) : (s.hostServe id).MemOk := by
  unfold State.hostServe
  split
  · exact h
  extract_lets _ _
  split
  · exact h
  · exact h.foldl (fun _ _ hs => hs.hostServeOne)

theorem execLongOpComplete_memOk {cl : ℕ} {q : SeqId} {k1 : ℕ} {s : State} (h : s.MemOk) :
    Result.MemOk (execLongOpComplete cl q k1 s) := by
  unfold execLongOpComplete
  extract_lets _
  change State.MemOk _
  split
  · exact h
  split
  · exact h.mapSeq.mapCl
  · exact h.hostServe
  · split
    · exact h.hostServe
    · exact h
  · split
    · exact h.hostServe
    · exact h
  · exact h.mapCl
  split
  · exact h
  split
  · exact h.sendPair
  split
  next heq2 =>
    have hs1 := h.resolve.ok heq2
    split
    · exact hs1.sendWhole
    · exact hs1.sendOp
  next heq2 => exact (h.resolve.fail heq2).mapSeq
  next heq2 => exact h.resolve.wait heq2

theorem execReleasePerformed_memOk {cl : ℕ} {q : SeqId} {k1 : ℕ} {s : State} (h : s.MemOk) :
    Result.MemOk (execReleasePerformed cl q k1 s) := by
  unfold execReleasePerformed
  extract_lets _
  change State.MemOk _
  split
  · split
    · split
      · split
        next heq2 => exact (h.effect.fst heq2).mapSeq
      split
      next heq1 =>
        have hs1 := h.sendZero.fst heq1
        split
        · exact h
        · exact hs1.mapSeq
    · exact h
  split
  · split
    · split
      · exact h
      split
      · exact h.knownFar.mapSeq
      split
      next heq2 =>
        have hs1 := h.sendZero.fst heq2
        split
        · exact h
        · exact hs1.mapSeq
    · exact h
  · exact h

theorem State.MemOk.settleGathers {s : State} (h : s.MemOk) : (s.settleGathers).MemOk := by
  unfold State.settleGathers
  extract_lets _ one _ s1
  have hone : ∀ (t1 : State) (g1 : Gather), t1.MemOk → (one t1 g1).MemOk := by
    intro t1 g1 hs
    dsimp -zeta only [one]
    extract_lets _ _ _
    exact State.MemOk.emit hs
  have hs1 : s1.MemOk := h
  exact hs1.foldl (fun _ _ hs => hone _ _ hs)

theorem execHomeAccess_memOk {id choice : ℕ} {s : State} (h : s.MemOk) :
    Result.MemOk (execHomeAccess id choice s) := by
  unfold execHomeAccess
  change State.MemOk _
  split
  · exact h
  extract_lets _ _ s1
  have hs1 : s1.MemOk := State.MemOk.meetsL2 h
  split
  · exact h
  split
  · exact h
  next heq1 => exact (hs1.serve.some heq1).settleGathers

theorem execL2Fill_memOk {line set cls : ℕ} {s : State} (h : s.MemOk) :
    Result.MemOk (execL2Fill line set cls s) := by
  unfold execL2Fill
  change State.MemOk _
  split
  · exact h
  split
  · exact h
  extract_lets s1
  have hs1 : s1.MemOk := h
  split
  · exact hs1
  split
  · exact hs1.fresh
  · exact hs1.fillClass

theorem execArrayPortServe_memOk {cl tile : ℕ} {s : State} (h : s.MemOk) :
    Result.MemOk (execArrayPortServe cl tile s) := by
  unfold execArrayPortServe
  change State.MemOk _
  extract_lets _
  split
  · exact h
  split
  · exact h
  extract_lets _
  split
  · exact h
  · exact SomeMemOk.getD (h.setCl (by exact h.cluster _)).serve h

theorem State.MemOk.sheafMade {s : State} {a b : MemReq} {f : ℕ} {pkt : Option Flit} {port : Option ℕ}
    (h : s.MemOk) : (s.sheafMade a b f pkt port).MemOk := by
  unfold State.sheafMade
  extract_lets s1 s2
  have hs1 : s1.MemOk := h.raiseAgent
  have hs2 : s2.MemOk := by
    dsimp -zeta only [s2]
    split
    · exact hs1.mapCl
    · exact hs1
  exact hs2

theorem State.MemOk.combineOut {s : State} {i j : ℕ} (h : s.MemOk) : (s.combineOut i j).MemOk := by
  unfold State.combineOut
  split
  · split
    · extract_lets _ _ _ _ _ s0
      have hs0 : s0.MemOk := h
      split
      · split
        · exact h
        extract_lets _ s1 _ _
        have hs1 : s1.MemOk := hs0.sheafMade
        exact hs1
      · exact h
    · exact h
  · exact h

theorem execCombineRequest_memOk {first second : ℕ} {s : State} (h : s.MemOk) :
    Result.MemOk (execCombineRequest first second s) := by
  unfold execCombineRequest
  change State.MemOk _
  split
  · exact h.combineOut
  split
  · extract_lets _
    split
    · split
      · exact h
      extract_lets s1
      have hs1 : s1.MemOk := h.sheafMade
      exact hs1
    · exact h
  · exact h

theorem execSheafReturn_memOk {id : ℕ} {s : State} (h : s.MemOk) : Result.MemOk (execSheafReturn id s) := by
  unfold execSheafReturn
  change State.MemOk _
  split
  · exact h
  split
  · extract_lets _ s1 s2
    have hs1 : s1.MemOk := h
    have hs2 : s2.MemOk := hs1.answer
    split
    exact hs2.raiseAgent.answer
  · exact h

/-! ### Machine/Sync -/

theorem State.MemOk.onControl {s : State} {act : State → State} (h : s.MemOk)
    (hact : ∀ (t : State), t.MemOk → (act t).MemOk) : (s.onControl act).MemOk := by
  unfold State.onControl
  split
  · exact hact _ h
  · exact h.trap

theorem execFenceP_memOk {g : Guard} {k1 k2 : Mask} {sc : Scope} {s : State} (h : s.MemOk) :
    Result.MemOk (execFenceP g k1 k2 sc s) := by
  unfold execFenceP
  refine guarded_memOk h fun _ hs => ?_
  split
  · exact hs.skip
  · exact hs.releasing

theorem execSete_memOk {g : Guard} {e : Fin 64} {mask : Mask} {s : State} (h : s.MemOk) :
    Result.MemOk (execSete g e mask s) :=
  guarded_memOk h (fun _ hs => hs.releasing)

@[simp] theorem Cluster.clearFirst_tiles {k : Cluster} {e : ℕ} : (k.clearFirst e).tiles = k.tiles := rfl

theorem execClre_memOk {g : Guard} {e : Fin 64} {s : State} (h : s.MemOk) :
    Result.MemOk (execClre g e s) := by
  unfold execClre
  refine guarded_memOk h fun _ hs => ?_
  extract_lets _
  refine (hs.mapHere fun _ => ?_).skip
  split <;> exact rfl

theorem State.MemOk.acquired {s : State} {len : ℕ} {m : Mask} {rs : List RelInfo} (h : s.MemOk) :
    (s.acquired len m rs).MemOk :=
  h.mapMe.complete

theorem execWaite_memOk {g : Guard} {e : Fin 64} {mask : Mask} {s : State} (h : s.MemOk) :
    Result.MemOk (execWaite g e mask s) := by
  unfold execWaite
  refine guarded_memOk h fun _ hs => ?_
  split
  · exact hs.acquired
  split
  · exact hs.acquired
  · exact hs.mapMe

theorem State.MemOk.ringWait {s : State} {h1 : Fin 16} {full : Bool} {count : Word} {m : Mask} (h : s.MemOk) :
    (s.ringWait h1 full count m).MemOk := by
  unfold State.ringWait
  extract_lets _
  split
  · exact h.acquired
  split
  · exact h.trap
  split
  · exact h.trap
  split
  · split
    · exact h.acquired
    · exact h.mapMe
  split
  · exact h.acquired
  · exact h.mapMe

theorem execRwaitF_memOk {g : Guard} {a : Reg} {h1 : Fin 16} {mask : Mask} {imm : BitVec 16} {s : State}
    (h : s.MemOk) : Result.MemOk (execRwaitF g a h1 mask imm s) :=
  guarded_memOk h (fun _ hs => hs.ringWait)

theorem execRwaitE_memOk {g : Guard} {a : Reg} {h1 : Fin 16} {mask : Mask} {imm : BitVec 16} {s : State}
    (h : s.MemOk) : Result.MemOk (execRwaitE g a h1 mask imm s) :=
  guarded_memOk h (fun _ hs => hs.ringWait)

theorem execRadvP_memOk {g : Guard} {a : Reg} {h1 : Fin 16} {mask : Mask} {imm : BitVec 16} {s : State}
    (h : s.MemOk) : Result.MemOk (execRadvP g a h1 mask imm s) := by
  unfold execRadvP
  refine guarded_memOk h fun _ hs => ?_
  extract_lets _
  split
  · exact hs.trap
  · exact hs.releasing

theorem execRadvC_memOk {g : Guard} {a : Reg} {h1 : Fin 16} {mask : Mask} {imm : BitVec 16} {s : State}
    (h : s.MemOk) : Result.MemOk (execRadvC g a h1 mask imm s) := by
  unfold execRadvC
  refine guarded_memOk h fun _ hs => ?_
  extract_lets _
  split
  · exact hs.trap
  · exact hs.releasing

theorem execRstat_memOk {g : Guard} {d : Reg} {h1 : Fin 16} {s : State} (h : s.MemOk) :
    Result.MemOk (execRstat g d h1 s) :=
  guarded_memOk h (fun _ hs => hs.mapMe)

theorem execStepBegin_memOk {g : Guard} {a : Reg} {s : State} (h : s.MemOk) :
    Result.MemOk (execStepBegin g a s) := by
  unfold execStepBegin
  refine guarded_memOk h fun _ hs => ?_
  refine hs.onControl fun _ hs1 => ?_
  extract_lets _ _ _
  exact hs1.mapGang.skip

theorem execStepProg_memOk {g : Guard} {a : Reg} {s : State} (h : s.MemOk) :
    Result.MemOk (execStepProg g a s) :=
  guarded_memOk h (fun _ hs => hs.onControl (fun _ hs1 => hs1.mapTask.skip))

theorem State.MemOk.landed {s : State} {c : ℕ} {q : SeqId} (h : s.MemOk) : (s.landed c q).MemOk := by
  unfold State.landed
  extract_lets _
  split
  · split
    · exact h
    · exact h.mapSeq
  · split
    · exact h.mapGang.mapSeq
    · exact h
  · exact h

theorem execStepEnd_memOk {g : Guard} {s : State} (h : s.MemOk) : Result.MemOk (execStepEnd g s) := by
  unfold execStepEnd
  refine guarded_memOk h fun _ hs => ?_
  refine hs.onControl fun _ hs1 => ?_
  split
  · exact hs1.landed
  · exact hs1.mapTask.mapMe

theorem execFork_memOk {g : Guard} {a : Reg} {mask : BitVec 4} {s : State} (h : s.MemOk) :
    Result.MemOk (execFork g a mask s) := by
  unfold execFork
  refine guarded_memOk h fun _ hs => ?_
  extract_lets _ _ _ start
  split
  · exact hs.trap
  split
  · exact hs.trap
  split
  · exact hs
  refine (hs.mapHere fun _ => ?_).skip
  refine Cluster.foldl_tiles fun _ _ => ?_
  dsimp -zeta only [start]
  simp

theorem execJoin_memOk {g : Guard} {mask : BitVec 4} {s : State} (h : s.MemOk) :
    Result.MemOk (execJoin g mask s) := by
  unfold execJoin
  refine guarded_memOk h fun _ hs => ?_
  extract_lets _ _ _
  split
  · exact hs.trap
  split
  · exact hs.mapMe.complete
  · exact hs

@[simp] theorem Cluster.failRdv_tiles {k : Cluster} {p : SeqId → BitVec 4 → Bool} :
    (k.failRdv p).tiles = k.tiles := by
  unfold Cluster.failRdv
  extract_lets f
  refine Cluster.foldl_tiles fun _ _ => ?_
  dsimp -zeta only [f]
  split
  · simp
  · exact rfl

theorem State.MemOk.meet {s : State} {mask : BitVec 4} {id : BitVec 8} (h : s.MemOk) :
    (s.meet mask id).MemOk := by
  unfold State.meet
  extract_lets _ _ _ _ _ _ go
  split
  · refine (h.mapHere fun _ => ?_).complete
    refine Cluster.foldl_tiles fun _ _ => ?_
    dsimp -zeta only [go]
    simp
  · exact h

theorem execRdv_memOk {g : Guard} {mask : BitVec 4} {id : BitVec 8} {s : State} (h : s.MemOk) :
    Result.MemOk (execRdv g mask id s) := by
  unfold execRdv
  refine guarded_memOk h fun _ hs => ?_
  extract_lets _ _ _ _ _
  split
  · exact hs.trap
  split
  · exact hs.complete
  split
  · exact hs.complete
  · exact hs.failWait
  · exact hs.meet
  split
  · exact hs.mapHere.failWait
  split
  next heq => exact (hs.beginRelease.fst heq).mapMe.meet

@[simp] theorem Cluster.drainPinned_tiles {k : Cluster} : (k.drainPinned).tiles = k.tiles := rfl

theorem execExit_memOk {g : Guard} {s : State} (h : s.MemOk) : Result.MemOk (execExit g s) := by
  unfold execExit
  refine guarded_memOk h fun _ hs => ?_
  extract_lets _ s11 s2
  have hs11 : s11.MemOk := hs.mapHere
  have hs2 : s2.MemOk := hs11.mapMe
  split
  · exact hs
  · split <;> exact hs2.mapHere

@[simp] theorem Cluster.discardCopy_tiles {k : Cluster} : (k.discardCopy).tiles = k.tiles := rfl

@[simp] theorem Cluster.discardMatrix_tiles {k : Cluster} : (k.discardMatrix).tiles = k.tiles := rfl

@[simp] theorem Cluster.abandonFabric_tiles {k : Cluster} : (k.abandonFabric).tiles = k.tiles := rfl

theorem execExitA_memOk {g : Guard} {s : State} (h : s.MemOk) : Result.MemOk (execExitA g s) := by
  unfold execExitA
  refine guarded_memOk h fun s hs => ?_
  extract_lets q s1 s2
  have hs2 : s2.MemOk := hs.mapHere.mapMe
  split
  · exact hs
  · clear_value s2 s1 q
    cases q <;> exact hs2.mapHere

theorem State.MemOk.collDone {s : State} {dh : Fin 16} {v st : Word} (h : s.MemOk) :
    (s.collDone dh v st).MemOk :=
  h.mapMe

theorem State.MemOk.collIn {s : State} {dh : Fin 16} {a b : Reg} {bcast : Bool} {op : ℕ} {w64 : Bool}
    {base size tag : ℕ} (h : s.MemOk) : (s.collIn dh a b bcast op w64 base size tag).MemOk := by
  unfold State.collIn
  extract_lets _ _ _ _ s0 _
  have hs0 : s0.MemOk := h.mapTask
  split
  · exact h
  split
  · exact h.landed
  split
  · exact hs0.collDone
  split
  · exact hs0.collDone
  split
  · exact hs0.collDone
  split
  · exact hs0.collDone
  split
  · split
    · exact hs0.fresh.collDone
    extract_lets s1 s2
    have hs1 : s1.MemOk := hs0.mapGang
    have hs2 : s2.MemOk := hs1.mapMe
    split
    · exact hs2.finishColl
    · exact hs2
  · exact hs0.fresh.mapGang.mapMe

theorem execCollRed_memOk {g : Guard} {dh : Fin 16} {a b : Reg} {op : Fin 9} {w64 : Bool}
    {base size : Fin 512} {tag : BitVec 8} {s : State} (h : s.MemOk) :
    Result.MemOk (execCollRed g dh a b op w64 base size tag s) :=
  guarded_memOk h (fun _ hs => hs.onControl (fun _ hs1 => hs1.collIn))

theorem execCollBcast_memOk {g : Guard} {dh : Fin 16} {a b : Reg} {w64 : Bool} {base size : Fin 512}
    {tag : BitVec 8} {s : State} (h : s.MemOk) : Result.MemOk (execCollBcast g dh a b w64 base size tag s) :=
  guarded_memOk h (fun _ hs => hs.onControl (fun _ hs1 => hs1.collIn))

/-! ### Machine/System -/

theorem State.MemOk.terminateGang {s : State} {job gi code cause detail : ℕ} (h : s.MemOk) :
    (s.terminateGang job gi code cause detail).MemOk := by
  unfold State.terminateGang
  split
  · exact h
  · exact h.foldl (fun _ _ hs => hs.terminate)

theorem State.MemOk.trapEnd {s : State} (h : s.MemOk) : (s.trapEnd).MemOk := by
  unfold State.trapEnd
  extract_lets _
  exact h.terminate

theorem execTrap_memOk {g : Guard} {code : BitVec 16} {s : State} (h : s.MemOk) :
    Result.MemOk (execTrap g code s) := by
  unfold execTrap
  refine guarded_memOk h fun _ hs => ?_
  split
  · exact hs.terminate
  · exact hs.trapDone

theorem execTrapTerminate_memOk {g : Guard} {s : State} (h : s.MemOk) :
    Result.MemOk (execTrapTerminate g s) := by
  unfold execTrapTerminate
  refine guarded_memOk h fun _ hs => ?_
  split
  · exact hs.trapEnd
  · exact hs.trapDone

theorem execTrapTerminateGang_memOk {g : Guard} {s : State} (h : s.MemOk) :
    Result.MemOk (execTrapTerminateGang g s) := by
  unfold execTrapTerminateGang
  refine guarded_memOk h fun _ hs => ?_
  split
  · extract_lets _ _
    exact hs.terminateGang.trapEnd
  · exact hs.trapDone

theorem execTrapPreempt_memOk {g : Guard} {s : State} (h : s.MemOk) : Result.MemOk (execTrapPreempt g s) := by
  unfold execTrapPreempt
  refine guarded_memOk h fun _ hs => ?_
  split
  · exact hs.mapTask.skip
  · exact hs.trapDone

theorem execSysc_memOk {g : Guard} {code : BitVec 16} {s : State} (h : s.MemOk) :
    Result.MemOk (execSysc g code s) :=
  guarded_memOk h (fun _ hs => hs.trapDone)

@[simp] theorem Cluster.preempt_tiles {k : Cluster} {now : ℕ} : (k.preempt now).tiles = k.tiles := by
  simp [Cluster.preempt]

theorem State.MemOk.preemptGang {s : State} {job gi : ℕ} (h : s.MemOk) : (s.preemptGang job gi).MemOk := by
  unfold State.preemptGang
  split
  · exact h
  split
  · exact h
  extract_lets req
  have hreq : ∀ (t1 : State) (c1 : ℕ), t1.MemOk → (req t1 c1).MemOk := by
    intro t1 c1 hs
    dsimp -zeta only [req]
    exact hs.mapCl
  exact (h.foldl (fun _ _ hs => hreq _ _ hs)).mapGang

theorem execRetr_memOk {g : Guard} {s : State} (h : s.MemOk) : Result.MemOk (execRetr g s) := by
  unfold execRetr
  refine guarded_memOk h fun _ hs => ?_
  extract_lets _ s11 _
  have hs11 : s11.MemOk := hs.mapHere.mapMe.landed
  split
  · exact hs.trap
  split
  · exact hs
  split
  · exact hs11.mapTask.preemptGang
  · exact hs11

theorem execIdle_memOk {g : Guard} {s : State} (h : s.MemOk) : Result.MemOk (execIdle g s) :=
  guarded_memOk h (fun _ hs => hs.mapMe)

theorem State.MemOk.traceSeqHalt {s : State} {c : ℕ} {q : SeqId} (h : s.MemOk) : (s.traceSeqHalt c q).MemOk :=
  h.trace

theorem execBkpt_memOk {g : Guard} {s : State} (h : s.MemOk) : Result.MemOk (execBkpt g s) := by
  unfold execBkpt
  refine guarded_memOk h fun _ hs => ?_
  split
  · split
    · exact hs
    · exact hs.mapMe.traceSeqHalt
  · exact hs.trap

theorem State.MemOk.privReg {s : State} {r : ℕ} {act : State → State} (h : s.MemOk)
    (hact : ∀ (t : State), t.MemOk → (act t).MemOk) : (s.privReg r act).MemOk := by
  unfold State.privReg
  split
  · exact h.trap
  · exact hact _ h

theorem execMfs_memOk {g : Guard} {d : Reg} {r : BitVec 12} {s : State} (h : s.MemOk) :
    Result.MemOk (execMfs g d r s) :=
  guarded_memOk h (fun _ hs => hs.privReg (fun _ hs1 => hs1.put))

theorem State.MemOk.setSreg {s : State} {r : ℕ} {v : Word} (h : s.MemOk) : (s.setSreg r v).MemOk := by
  unfold State.setSreg
  extract_lets _
  split
  · exact h.mapMe
  · exact h.mapMe
  · exact h.mapPart
  · exact h.mapMe
  · exact h.mapMe
  · exact h.mapMe
  · exact h.mapMe
  · exact h.mapPart
  · exact h.mapPart
  · exact h.mapPart
  split
  · exact h.mapPart
  · exact h

theorem execMts_memOk {g : Guard} {a : Reg} {r : BitVec 12} {s : State} (h : s.MemOk) :
    Result.MemOk (execMts g a r s) := by
  unfold execMts
  refine guarded_memOk h fun _ hs => ?_
  refine hs.privReg fun _ hs1 => ?_
  extract_lets _
  split
  · exact hs1.ill
  · exact hs1.setSreg.skip

theorem execMtsFlags_memOk {g : Guard} {a : Reg} {s : State} (h : s.MemOk) :
    Result.MemOk (execMtsFlags g a s) := by
  unfold execMtsFlags
  refine guarded_memOk h fun _ hs => ?_
  extract_lets _
  split
  · exact hs.ill
  · exact hs.mapTask.skip

theorem execMtsReplaycnt_memOk {g : Guard} {a : Reg} {s : State} (h : s.MemOk) :
    Result.MemOk (execMtsReplaycnt g a s) := by
  unfold execMtsReplaycnt
  refine guarded_memOk h fun _ hs => ?_
  extract_lets _
  split
  · exact hs.ill
  split
  · exact hs.mapMe.skip
  · exact hs.skip

theorem State.MemOk.rereadCtx {s : State} {p : Partition} {n : ℕ} (h : s.MemOk) :
    (s.rereadCtx p n).MemOk := by
  unfold State.rereadCtx
  extract_lets s1 _
  have hs1 : s1.MemOk := h.mapCtx
  split
  · exact hs1.mapCtx
  · exact hs1

theorem execMtsCtxinv_memOk {g : Guard} {a : Reg} {s : State} (h : s.MemOk) :
    Result.MemOk (execMtsCtxinv g a s) := by
  unfold execMtsCtxinv
  refine guarded_memOk h fun _ hs => ?_
  refine hs.privReg fun _ hs1 => ?_
  extract_lets _
  split
  · exact hs1.ill
  · exact hs1.rereadCtx.skip

/-! ### Machine/Channels -/

@[simp] theorem Cluster.setChan_tiles {k : Cluster} {key : ℕ} {c : Chan} :
    (k.setChan key c).tiles = k.tiles := rfl

@[simp] theorem Cluster.push_tiles {k : Cluster} {key : ℕ} {t : Token} : (k.push key t).tiles = k.tiles := rfl

@[simp] theorem Cluster.pop_tiles {k : Cluster} {key : ℕ} : (k.pop key).tiles = k.tiles := rfl

@[simp] theorem Cluster.want_tiles {k : Cluster} {key n : ℕ} : (k.want key n).tiles = k.tiles := by
  simp [Cluster.want]

@[simp] theorem Cluster.wants_tiles {k : Cluster} {l : List (ℕ × ℕ)} : (k.wants l).tiles = k.tiles :=
  Cluster.foldl_tiles

@[simp] theorem Cluster.killValue_tiles {k : Cluster} {key : ℕ} : (k.killValue key).tiles = k.tiles := by
  simp [Cluster.killValue]

@[simp] theorem Cluster.fires_tiles {k : Cluster} {slot unit : ℕ} : (k.fires slot unit).tiles = k.tiles := rfl

/-! ### Machine/Elements -/

@[simp] theorem Cluster.setElem_tiles {k : Cluster} {slot pos n : ℕ} {x : Elem} :
    (k.setElem slot pos n x).tiles = k.tiles := rfl

@[simp] theorem Cluster.elemEmit_tiles {k : Cluster} {slot pos n f : ℕ} :
    (k.elemEmit slot pos n f).1.tiles = k.tiles := by
  unfold Cluster.elemEmit
  extract_lets vec co r1 r2 r3
  have hvec : ∀ (k : Cluster) (y : Bool), (vec k y).1.tiles = k.tiles := by
    intro k y
    dsimp -zeta only [vec]
    extract_lets x o key
    split
    · rfl
    · split <;> simp
  have hco : ∀ k : Cluster, (co k).1.tiles = k.tiles := by
    intro k
    dsimp -zeta only [co]
    extract_lets x c
    split <;> simp
  have h1 : r1.1.tiles = k.tiles := by
    dsimp only [r1]
    split
    · exact hvec _ _
    · rfl
  have h2 : r2.1.tiles = k.tiles := by
    dsimp only [r2]
    split
    · exact (hvec _ _).trans h1
    · exact h1
  change r3.1.tiles = k.tiles
  dsimp only [r3]
  split
  · exact (hco _).trans h2
  · exact h2

@[simp] theorem Cluster.elemTake_tiles {k : Cluster} {slot pos n f : ℕ} {second : Bool} :
    (k.elemTake slot pos n f second).1.tiles = k.tiles := by
  unfold Cluster.elemTake
  extract_lets _ _ _ _
  split
  · split
    · exact rfl
    · simp
  · exact rfl

@[simp] theorem Cluster.elemTakeC_tiles {k : Cluster} {slot pos n f : ℕ} :
    (k.elemTakeC slot pos n f).1.tiles = k.tiles := by
  unfold Cluster.elemTakeC
  extract_lets _
  split
  · split
    · exact rfl
    · split <;> exact rfl
  · exact rfl

@[simp] theorem Cluster.elemKill_tiles {k : Cluster} {slot pos n : ℕ} {second : Bool} :
    (k.elemKill slot pos n second).tiles = k.tiles := by
  simp [Cluster.elemKill]

@[simp] theorem Cluster.elemSettle_tiles {k : Cluster} {slot pos n f : ℕ} :
    (k.elemSettle slot pos n f).tiles = k.tiles := by
  simp [Cluster.elemSettle]

@[simp] theorem Cluster.elemReqs_tiles {k : Cluster} {slot pos n f : ℕ} :
    (k.elemReqs slot pos n f).tiles = k.tiles := by
  simp [Cluster.elemReqs]

@[simp] theorem Cluster.elemFire_tiles {k : Cluster} {slot pos n : ℕ} :
    (k.elemFire slot pos n).1.tiles = k.tiles := by
  unfold Cluster.elemFire
  split
  · rfl
  · simp only [Cluster.elemReqs_tiles, Cluster.elemSettle_tiles, Cluster.elemTakeC_tiles]
    split <;> simp

theorem execElementFire_memOk {cl slot pos n : ℕ} {s : State} (h : s.MemOk) :
    Result.MemOk (execElementFire cl slot pos n s) := by
  unfold execElementFire
  change State.MemOk _
  extract_lets k
  split
  · exact h
  split
  next heq =>
    have hk4 := fst_tiles heq Cluster.elemFire_tiles
    split
    · exact h.setCl (by simpa [k, hk4] using h.cluster _)
    split
    · exact h
    · exact h.setCl (by simpa [k, hk4] using h.cluster _)

theorem execSlotSwitch_memOk {cl slot pos n : ℕ} {s : State} (h : s.MemOk) :
    Result.MemOk (execSlotSwitch cl slot pos n s) := by
  unfold execSlotSwitch
  change State.MemOk _
  extract_lets _ _ _
  split
  · exact h
  split
  · exact h
  split
  · exact h
  · exact h.setCl (by exact h.cluster _)

@[simp] theorem Cluster.elemKilled_tiles {k : Cluster} {slot pos n which : ℕ} :
    (k.elemKilled slot pos n which).tiles = k.tiles := by
  unfold Cluster.elemKilled
  split
  · exact rfl
  · simp

/-! ### Machine/Legs -/

@[simp] theorem Cluster.setLeg_tiles {k : Cluster} {l : LegAt} {x : Leg} :
    (k.setLeg l x).tiles = k.tiles := rfl

@[simp] theorem Cluster.legDrop_tiles {k : Cluster} {l : LegAt} : (k.legDrop l).tiles = k.tiles := by
  simp [Cluster.legDrop]

theorem Cluster.legDeliver_tiles {k : Cluster} {l : LegAt} {x : Leg} {t : Token} :
    SomeTiles k.tiles (k.legDeliver l x t) := by
  unfold Cluster.legDeliver
  split
  · change Cluster.tiles _ = _
    exact Cluster.foldl_tiles
  · exact trivial

@[simp] theorem Cluster.legPass_tiles {k : Cluster} {l : LegAt} : (k.legPass l).1.tiles = k.tiles := by
  unfold Cluster.legPass
  extract_lets _ _ _ _
  split
  · exact rfl
  split
  · exact rfl
  split
  · split
    next heq2 =>
      have hk1 := Cluster.legDeliver_tiles.some heq2
      simp [hk1]
    · exact rfl
  extract_lets _ _
  split
  · split
    next heq2 =>
      have hk1 := Cluster.legDeliver_tiles.some heq2
      exact hk1
    · exact rfl
  split
  next heq1 =>
    have hk1 := Cluster.legDeliver_tiles.some heq1
    exact hk1
  · exact rfl

@[simp] theorem Cluster.legEos_tiles {k : Cluster} {l : LegAt} : (k.legEos l).1.tiles = k.tiles := by
  unfold Cluster.legEos
  extract_lets _
  split <;> exact rfl

@[simp] theorem Cluster.legNul_tiles {k : Cluster} {l : LegAt} : (k.legNul l).1.tiles = k.tiles := by
  unfold Cluster.legNul
  extract_lets _
  split <;> exact rfl

theorem Cluster.legTargets_tiles {k : Cluster} {l : LegAt} {x : Leg} :
    OptAll (fun e => e.2.2.tiles = k.tiles) (k.legTargets l x) := by
  unfold Cluster.legTargets
  extract_lets ps low
  split
  · exact rfl
  · split
    · exact rfl
    · split
      · split
        · split <;> exact rfl
        · exact rfl
      · exact rfl
      · exact trivial

@[simp] theorem Cluster.legBegin_tiles {k : Cluster} {l : LegAt} {from2 : Bool} :
    (k.legBegin l from2).1.tiles = k.tiles := by
  unfold Cluster.legBegin
  extract_lets x src
  split
  · rfl
  · simp
  · split
    · rfl
    next heq => exact (by simp : _ = _).trans (Cluster.legTargets_tiles.some heq)

@[simp] theorem Cluster.legEos2_tiles {k : Cluster} {l : LegAt} : (k.legEos2 l).tiles = k.tiles := by
  unfold Cluster.legEos2
  extract_lets _
  split
  · simp
  · exact rfl

@[simp] theorem Cluster.legReqs_tiles {k : Cluster} {l : LegAt} : (k.legReqs l).tiles = k.tiles := by
  simp [Cluster.legReqs]

@[simp] theorem Cluster.legStep_tiles {k : Cluster} {l : LegAt} : (k.legStep l).1.tiles = k.tiles := by
  unfold Cluster.legStep
  extract_lets k1 x
  have hk1 : k1.tiles = k.tiles := Cluster.legEos2_tiles
  split
  next k2 moved heq =>
    refine Cluster.legReqs_tiles.trans (fst_tiles heq ?_)
    split
    · simp [hk1]
    · split
      · simp [hk1]
      · split
        · exact hk1
        · split
          · simp [hk1]
          · split <;> simp [hk1]

@[simp] theorem Cluster.holdNext_tiles {k : Cluster} {l : LegAt} : (k.holdNext l).tiles = k.tiles := by
  simp [Cluster.holdNext]

@[simp] theorem Cluster.holdStep_tiles {k : Cluster} {l : LegAt} : (k.holdStep l).1.tiles = k.tiles := by
  unfold Cluster.holdStep
  extract_lets x key give
  have hgive : ∀ (k : Cluster) (t : Token) (x : Leg), (give k t x).tiles = k.tiles := by
    intro k t x
    simp [give]
  split
  · rfl
  · split
    · exact hgive _ _ _
    · split
      · split <;> simp
      · exact (hgive _ _ _).trans (by simp)
      · simp

theorem State.MemOk.legEvent {s : State} {op cl slot net pos leg : ℕ} (h : s.MemOk) :
    (s.legEvent op cl slot net pos leg).MemOk := by
  unfold State.legEvent
  extract_lets _
  split
  · exact h
  split
  · exact h
  · exact h.setCl (by split <;> simpa using h.cluster _)

theorem execLegRoute_memOk {cl slot net pos leg : ℕ} {s : State} (h : s.MemOk) :
    Result.MemOk (execLegRoute cl slot net pos leg s) :=
  h.legEvent

theorem execLegIdx_memOk {cl slot net pos leg : ℕ} {s : State} (h : s.MemOk) :
    Result.MemOk (execLegIdx cl slot net pos leg s) :=
  h.legEvent

theorem execLegBcast_memOk {cl slot net pos leg : ℕ} {s : State} (h : s.MemOk) :
    Result.MemOk (execLegBcast cl slot net pos leg s) :=
  h.legEvent

theorem execLegMerge_memOk {cl slot net pos leg : ℕ} {s : State} (h : s.MemOk) :
    Result.MemOk (execLegMerge cl slot net pos leg s) :=
  h.legEvent

theorem execLegSteer_memOk {cl slot net pos leg : ℕ} {s : State} (h : s.MemOk) :
    Result.MemOk (execLegSteer cl slot net pos leg s) :=
  h.legEvent

theorem execLegHold_memOk {cl slot net pos leg : ℕ} {s : State} (h : s.MemOk) :
    Result.MemOk (execLegHold cl slot net pos leg s) :=
  h.legEvent

@[simp] theorem Cluster.legKilled_tiles {k : Cluster} {l : LegAt} {p : ℕ} :
    (k.legKilled l p).tiles = k.tiles := by
  simp [Cluster.legKilled]

/-! ### Machine/PortParts -/

@[simp] theorem Cluster.setPort_tiles {k : Cluster} {q : PortAt} {p : Port} :
    (k.setPort q p).tiles = k.tiles := rfl

@[simp] theorem Cluster.updPort_tiles {k : Cluster} {q : PortAt} {f : Port → Port} :
    (k.updPort q f).tiles = k.tiles := rfl

theorem State.MemOk.portSend {s : State} {q : PortAt} {t : Target} {a : PortAct} {ret : RetTo}
    {leaf : Option TlbEntry} (h : s.MemOk) : PortGot.MemOk (s.portSend q t a ret leaf) := by
  unfold State.portSend
  extract_lets sent atomic
  have hsent : ∀ s : State, s.MemOk → (sent s).MemOk := by
    intro s hs
    dsimp only [sent]
    split
    · exact hs
    · exact hs.mapCl
  split
  · extract_lets r
    split
    next heq => exact h.toTile.some heq
    next heq => exact hsent _ (h.toTile.some heq)
    · exact h
  · exact hsent _ (State.MemOk.fresh h)
  · split
    · exact trivial
    · exact hsent _ h.toHost
  · split
    · exact trivial
    · exact hsent _ h.sendRemote

theorem State.MemOk.portAccess {s : State} {q : PortAt} {i : ℤ} {need : Need} {a : PortAct} {ret : ℕ → RetTo}
    (h : s.MemOk) : PortGot.MemOk (s.portAccess q i need a ret) := by
  unfold State.portAccess
  extract_lets _ _
  split
  · split
    · exact trivial
    split
    next heq1 => exact (h.resolve.ok heq1).portSend
    next heq1 =>
      have hs1 := h.resolve.fail heq1
      exact trivial
    next heq1 => exact h.resolve.wait heq1
  split
  · exact trivial
  · exact h.portSend

@[simp] theorem Cluster.portEvent_tiles {k : Cluster} {q : PortAt} : (k.portEvent q).tiles = k.tiles := by
  simp [Cluster.portEvent]

@[simp] theorem Cluster.nextBuf_tiles {k : Cluster} {q : PortAt} : (k.nextBuf q).tiles = k.tiles := rfl

@[simp] theorem Cluster.portEmit_tiles {k : Cluster} {q : PortAt} : (k.portEmit q).1.tiles = k.tiles := by
  unfold Cluster.portEmit
  extract_lets p
  split
  next k1 c heq =>
    have hk1 : k1.tiles = k.tiles := by
      refine fst_tiles heq ?_
      split
      · split <;> simp
      · rfl
    split
    · split <;> simp [hk1]
    · split
      · simp [hk1]
      · exact hk1

@[simp] theorem Cluster.recordComes_tiles {k : Cluster} {r : Record} : (k.recordComes r).tiles = k.tiles := by
  unfold Cluster.recordComes
  split
  · simp
  · exact rfl

/-! ### Machine/Ports -/

@[simp] theorem Cluster.portReqs_tiles {k : Cluster} {q : PortAt} : (k.portReqs q).tiles = k.tiles := by
  simp [Cluster.portReqs]

theorem State.MemOk.portRun {s : State} {ops : List ℕ} {cl slot tile : ℕ}
    {act : PortAt → State → State × Bool} (h : s.MemOk)
    (hact : ∀ (q : PortAt) (t : State), t.MemOk → (act q t).1.MemOk) :
    (s.portRun ops cl slot tile act).MemOk := by
  unfold State.portRun
  split
  · exact h
  next q _ =>
    split
    · exact h
    · split
      next k1 e heq =>
        have hk1 := fst_tiles heq Cluster.portEmit_tiles
        have hs := hact q _ (h.setCl (c := cl) (k := k1) (by rw [hk1]; exact h.cluster cl))
        split
        next s1 a heq1 =>
          extract_lets s2
          have hs2 : s2.MemOk := (hs.fst heq1).mapCl
          exact State.MemOk.either hs2.mapCl hs2

theorem State.MemOk.restoreFab {s : State} {cl : ℕ} {fab : Fabric} (h : s.MemOk) :
    (s.restoreFab cl fab).MemOk :=
  h.mapCl

theorem State.MemOk.portSink {s : State} {q : PortAt} (h : s.MemOk) : (s.portSink q).MemOk :=
  h.raise

theorem State.MemOk.updPort {s : State} {q : PortAt} {f : Port → Port} (h : s.MemOk) :
    (s.updPort q f).MemOk :=
  h.mapCl

theorem Cluster.takeIndex_tiles {k : Cluster} {q : PortAt} {field : ℕ} :
    OptAll (fun e => e.1.tiles = k.tiles) (k.takeIndex q field) := by
  unfold Cluster.takeIndex
  extract_lets token p gi
  have htoken : ∀ conv : ℕ → ℤ, OptAll (fun e => e.1.tiles = k.tiles) (token conv) := by
    intro conv
    dsimp only [token]
    generalize k.next? q.sa = o
    cases o with
    | none => exact trivial
    | some t =>
      cases t with
      | word w => exact Cluster.pop_tiles
      | serr e => exact Cluster.pop_tiles
      | eos => exact rfl
      | _ => exact trivial
  clear_value token
  split
  · exact htoken _
  · split
    · exact rfl
    · split
      · extract_lets n r
        split
        · exact rfl
        · split
          · split <;> exact Cluster.setPort_tiles
          · exact htoken _
          · split
            · exact Cluster.setPort_tiles
            · exact trivial
      · exact trivial

theorem State.MemOk.setTaken {s : State} {c : ℕ} {q : PortAt} {field : ℕ} {k : Cluster} {i : Idx}
    (h : s.MemOk) (e : (s.cluster c).takeIndex q field = some (k, i)) : (s.setCl c k).MemOk :=
  h.setCl (by rw [Cluster.takeIndex_tiles.some e]; exact h.cluster c)

theorem State.MemOk.portIssueRead {s : State} {q : PortAt} {wanted : Bool} (h : s.MemOk) :
    (s.portIssueRead q wanted).1.MemOk := by
  unfold State.portIssueRead
  extract_lets k p add
  have hadd : ∀ (t : State) (r : PortRead), t.MemOk → (add t r).MemOk := fun t r ht => ht.updPort
  split
  · exact h
  · split
    · exact h
    next heq =>
      extract_lets s1
      have hs1 : s1.MemOk := h.setTaken heq
      split
      · split
        · exact hs1.updPort
        · exact h
      · exact hadd _ _ hs1
      · split
        · exact hadd _ _ hs1
        · split
          next heq => exact hadd _ _ (hs1.portAccess.ok heq)
          · exact hadd _ _ hs1
          next heq => exact (hs1.portAccess.wait heq).restoreFab

theorem execPortWrd_memOk {cl slot tile : ℕ} {s : State} (h : s.MemOk) :
    Result.MemOk (execPortWrd cl slot tile s) := by
  unfold execPortWrd
  refine h.portRun fun _ _ hs => ?_
  extract_lets _ _
  exact hs.portIssueRead

theorem execPortDrd_memOk {cl slot tile : ℕ} {s : State} (h : s.MemOk) :
    Result.MemOk (execPortDrd cl slot tile s) := by
  unfold execPortDrd
  refine h.portRun fun _ _ hs => ?_
  extract_lets _ _
  exact hs.portIssueRead

theorem execPortReadReturn_memOk {cl slot tile : ℕ} {s : State} (h : s.MemOk) :
    Result.MemOk (execPortReadReturn cl slot tile s) := by
  unfold execPortReadReturn
  refine h.portRun fun _ _ hs => ?_
  extract_lets _
  split
  · exact hs
  extract_lets fin
  have hfin : ∀ (s1 : State) (ts1 : List Token), s1.MemOk → (fin s1 ts1).1.MemOk := by
    intro s1 ts1 hs1
    dsimp -zeta only [fin]
    exact hs1.updPort
  split
  · exact hs
  split
  · exact hfin _ _ hs
  split
  · exact hfin _ _ hs
  extract_lets _
  exact hfin _ _ (State.MemOk.either hs hs.raise)

theorem State.MemOk.portPut {s : State} {q : PortAt} {ws : List (ℕ × W32)} {nul : Bool} {fl : ℕ}
    {done : State → State} (h : s.MemOk) (hdone : ∀ t : State, t.MemOk → (done t).MemOk) :
    (s.portPut q ws nul fl done).1.MemOk := by
  unfold State.portPut
  extract_lets k flagged
  have hflagged : ∀ t : State, t.MemOk → (flagged t).MemOk := fun t ht => State.MemOk.either ht ht.raise
  split
  · exact h
  next heq =>
    extract_lets s1
    have hs1 : s1.MemOk := h.setTaken heq
    split
    · split
      · exact hdone _ (State.MemOk.either hs1 hs1.portSink)
      · exact h
    · exact hdone _ hs1.portSink
    · split
      · exact hdone _ (hflagged _ hs1)
      · split
        next heq => exact hdone _ (hflagged _ (hs1.portAccess.ok heq))
        · exact hdone _ hs1.portSink
        next heq => exact (hs1.portAccess.wait heq).restoreFab

theorem execPortWwr_memOk {cl slot tile : ℕ} {s : State} (h : s.MemOk) :
    Result.MemOk (execPortWwr cl slot tile s) := by
  unfold execPortWwr
  change State.MemOk _
  refine h.portRun fun q t ht => ?_
  extract_lets k drop
  have hdrop : ∀ u : State, u.MemOk → (drop u).MemOk := fun u hu => hu.mapCl
  split
  · exact ht
  · split
    · split
      · exact hdrop _ ht.portSink
      · exact ht.portPut hdrop
    · split
      · exact hdrop _ ht.portSink
      · exact ht.portPut hdrop
    · exact ht

theorem execPortDwr_memOk {cl slot tile : ℕ} {s : State} (h : s.MemOk) :
    Result.MemOk (execPortDwr cl slot tile s) := by
  unfold execPortDwr
  refine h.portRun fun _ _ hs => ?_
  extract_lets _ _ reset _ _ _ _
  have hreset : ∀ (s1 : State), s1.MemOk → (reset s1).MemOk := by
    intro s1 hs1
    dsimp -zeta only [reset]
    exact hs1.updPort
  split
  · split
    · split
      · exact hs
      · exact State.MemOk.mapCl (State.MemOk.either hs hs.portSink)
    · exact hs
  split
  · exact hs.portPut (fun _ hs1 => hreset _ hs1)
  split
  · split
    · exact hs
    · split
      exact hs.mapCl
  · exact hs

theorem State.MemOk.portRmw {s : State} {q : PortAt} {amo : Bool} (h : s.MemOk) :
    (s.portRmw q amo).1.MemOk := by
  unfold State.portRmw
  extract_lets k p n clear failed refused ret
  have hclear : ∀ t : State, t.MemOk → (clear t).MemOk := fun t ht => ht.updPort
  have hfailed : ∀ (t : State) (c : ℕ), t.MemOk → (failed t c).MemOk := fun t c ht =>
    State.MemOk.either (hclear _ ht.updPort) (hclear _ ht.portSink)
  split
  · split
    · split
      · exact h
      · split
        · exact h.portSink.mapCl
        · exact h.mapCl
    · exact h
  · split
    · exact h
    · split
      · exact h
      next heq =>
        extract_lets s1
        have hs1 : s1.MemOk := h.setTaken heq
        split
        · split
          · exact hclear _ hs1.portSink
          · exact h
        · exact hfailed _ _ hs1
        · exact hfailed _ _ hs1
        · split
          next heq => exact hclear _ (hs1.portAccess.ok heq)
          · exact hfailed _ _ (State.MemOk.either hs1.portSink hs1)
          next heq => exact (hs1.portAccess.wait heq).restoreFab

theorem execPortAmo_memOk {cl slot tile : ℕ} {s : State} (h : s.MemOk) :
    Result.MemOk (execPortAmo cl slot tile s) :=
  h.portRun (fun _ _ hs => hs.portRmw)

theorem execPortRed_memOk {cl slot tile : ℕ} {s : State} (h : s.MemOk) :
    Result.MemOk (execPortRed cl slot tile s) :=
  h.portRun (fun _ _ hs => hs.portRmw)

theorem State.MemOk.portFn {s : State} {q : PortAt} (h : s.MemOk) : (s.portFn q).1.MemOk := by
  unfold State.portFn
  extract_lets _ _ give
  have hgive : ∀ (s1 : State) (t1 : Token), s1.MemOk → (give s1 t1).1.MemOk := by
    intro s1 t1 hs
    dsimp -zeta only [give]
    exact hs.mapCl
  split
  · exact h
  split
  · split
    exact hgive _ _ (State.MemOk.either h h.raise)
  · exact hgive _ _ h
  · exact h

theorem execPortExp2_memOk {cl slot tile : ℕ} {s : State} (h : s.MemOk) :
    Result.MemOk (execPortExp2 cl slot tile s) :=
  h.portRun (fun _ _ hs => hs.portFn)

theorem execPortLog2_memOk {cl slot tile : ℕ} {s : State} (h : s.MemOk) :
    Result.MemOk (execPortLog2 cl slot tile s) :=
  h.portRun (fun _ _ hs => hs.portFn)

theorem execPortRcp_memOk {cl slot tile : ℕ} {s : State} (h : s.MemOk) :
    Result.MemOk (execPortRcp cl slot tile s) :=
  h.portRun (fun _ _ hs => hs.portFn)

theorem execPortRsqrt_memOk {cl slot tile : ℕ} {s : State} (h : s.MemOk) :
    Result.MemOk (execPortRsqrt cl slot tile s) :=
  h.portRun (fun _ _ hs => hs.portFn)

theorem execPortTanh_memOk {cl slot tile : ℕ} {s : State} (h : s.MemOk) :
    Result.MemOk (execPortTanh cl slot tile s) :=
  h.portRun (fun _ _ hs => hs.portFn)

theorem State.MemOk.cvdFinish {s : State} {q : PortAt} {m : BitVec 16} {ws : List Token} (h : s.MemOk) :
    (s.cvdFinish q m ws).MemOk := by
  unfold State.cvdFinish
  extract_lets _ _ _
  exact State.MemOk.updPort (State.MemOk.either h h.raise)

theorem execPortCvd_memOk {cl slot tile : ℕ} {s : State} (h : s.MemOk) :
    Result.MemOk (execPortCvd cl slot tile s) := by
  unfold execPortCvd
  refine h.portRun fun _ _ hs => ?_
  extract_lets _ _
  split
  · exact hs
  split
  · split
    · extract_lets s1
      have hs1 : s1.MemOk := hs.mapCl
      split
      · exact hs
      · exact State.MemOk.either hs1.cvdFinish hs1
    · exact hs
  split
  · split
    · exact hs
    extract_lets _ s1
    have hs1 : s1.MemOk := hs.mapCl
    exact State.MemOk.either hs1.cvdFinish hs1
  · exact hs

theorem execPortCvw_memOk {cl slot tile : ℕ} {s : State} (h : s.MemOk) :
    Result.MemOk (execPortCvw cl slot tile s) := by
  unfold execPortCvw
  refine h.portRun fun _ _ hs => ?_
  extract_lets _ _ _ _ _ _
  split
  · exact hs
  split
  · exact State.MemOk.updPort (State.MemOk.either hs hs.raise)
  split
  · exact hs
  split
  · split
    · exact hs
    · split
      exact hs.mapCl
  · exact hs

theorem execPortBenq_memOk {cl slot tile : ℕ} {s : State} (h : s.MemOk) :
    Result.MemOk (execPortBenq cl slot tile s) := by
  unfold execPortBenq
  refine h.portRun fun _ _ hs => ?_
  extract_lets _ _ s1
  have hs1 : s1.MemOk := hs.mapCl
  split
  · split
    · exact hs.mapCl
    · exact hs
  split
  · exact hs
  split
  · split
    · exact hs
    extract_lets _ _ _
    split
    · exact hs1.updPort
    split
    · exact hs1.mapCl
    · exact hs1.portSink.updPort
  · exact hs

theorem State.MemOk.tileMove {s : State} {q : PortAt} {base : ℕ} {pairs : List (ℕ × ℕ)} {t : Token}
    (h : s.MemOk) : SomeMemOk (s.tileMove q base pairs t) := by
  unfold State.tileMove
  split
  · exact trivial
  next s1 _ heq =>
    have hs1 : s1.MemOk := h.engineTurn.some heq
    exact hs1.updPort

theorem State.MemOk.moveOn {s : State} {q : PortAt} {due : List (ℕ × List Byte)} {t : Token} (h : s.MemOk) :
    (s.moveOn q due t).1.MemOk := by
  unfold State.moveOn
  split
  · exact h.updPort
  split
  next heq => exact (h.toTile.some heq).updPort
  · exact h

theorem execPortMove_memOk {cl slot tile : ℕ} {s : State} (h : s.MemOk) :
    Result.MemOk (execPortMove cl slot tile s) := by
  unfold execPortMove
  refine h.portRun fun _ _ hs => ?_
  extract_lets _ _ _ give _ moved _ s1
  have hgive : ∀ (s2 : State) (t1 : Token), s2.MemOk → (give s2 t1).1.MemOk := by
    intro s2 t1 hs1
    dsimp -zeta only [give]
    exact hs1.updPort
  have hs1 : s1.MemOk := hs.updPort
  split
  · exact hs.moveOn
  split
  · split
    · split
      · exact hs
      · exact hs.mapCl
    · exact hs
  split
  · exact hs
  split
  · exact hgive _ _ hs
  · split
    · exact hgive _ _ hs
    split
    · exact hgive _ _ hs
    dsimp -zeta only [moved]
    split
    next heq3 => exact hs.tileMove.some heq3
    · exact hs
  · split
    · extract_lets _
      split
      · dsimp -zeta only [moved]
        split
        next heq6 => exact hs1.tileMove.some heq6
        · exact hs
      · exact hgive _ _ hs1
    · exact hgive _ _ hs
  · exact hgive _ _ hs

theorem State.MemOk.fifoOut {s : State} {q : PortAt} {may : Bool} (h : s.MemOk) :
    (s.fifoOut q may).1.MemOk := by
  unfold State.fifoOut
  extract_lets k
  split
  · extract_lets out
    split
    · exact h.mapCl (by intro k; simp [out])
    · exact h
  · exact h

theorem State.MemOk.fifoIn {s : State} {q : PortAt} {key cap : ℕ} (h : s.MemOk) :
    (s.fifoIn q key cap).1.MemOk := by
  unfold State.fifoIn
  extract_lets _ _
  split
  · split
    · exact h
    · exact h.mapCl
  · exact h

@[simp] theorem Cluster.drainSkip_tiles {k : Cluster} : (k.drainSkip).tiles = k.tiles := by
  unfold Cluster.drainSkip
  split
  · simp
  · exact rfl

theorem Cluster.drainBeat_tiles {k : Cluster} {q : PortAt} :
    OptAll (fun e => e.1.tiles = k.tiles) (k.drainBeat q) := by
  unfold Cluster.drainBeat
  split
  · split
    · split
      · exact trivial
      · split
        · exact rfl
        · extract_lets v r1 nonfin m k1
          change Cluster.tiles (if _ then k1.raise fNV else k1) = k.tiles
          split <;> rfl
    · exact trivial
  · exact trivial

theorem execPortFifov_memOk {cl slot tile : ℕ} {s : State} (h : s.MemOk) :
    Result.MemOk (execPortFifov cl slot tile s) := by
  unfold execPortFifov
  change State.MemOk _
  refine h.portRun fun q t ht => ?_
  split
  next s1 a heq =>
    have hs1 : s1.MemOk := ht.fifoOut.fst heq
    extract_lets k
    split
    · split
      · exact hs1
      · split
        next k1 _ heq =>
          have hk1 : k1.tiles = k.tiles := Cluster.drainBeat_tiles.some heq
          exact hs1.setCl (by simpa [hk1] using hs1.cluster cl)
        · exact hs1
    · split
      next heq => exact hs1.fifoIn.fst heq

theorem execPortFifos_memOk {cl slot tile : ℕ} {s : State} (h : s.MemOk) :
    Result.MemOk (execPortFifos cl slot tile s) := by
  unfold execPortFifos
  refine h.portRun fun _ _ hs => ?_
  split
  next heq =>
    have hs1 := hs.fifoOut.fst heq
    split
    next heq1 => exact hs1.fifoIn.fst heq1

theorem execPortLbuf_memOk {cl slot tile : ℕ} {s : State} (h : s.MemOk) :
    Result.MemOk (execPortLbuf cl slot tile s) := by
  unfold execPortLbuf
  refine h.portRun fun _ _ hs => ?_
  extract_lets _
  split
  next heq =>
    have hs1 := hs.fifoOut.fst heq
    split
    next heq1 => exact hs1.fifoIn.fst heq1

@[simp] theorem Cluster.portEnd_tiles {k : Cluster} {q : PortAt} {due governing : Bool} :
    (k.portEnd q due governing).tiles = k.tiles := by
  simp [Cluster.portEnd]

theorem State.MemOk.benqEnd {s : State} {q : PortAt} (h : s.MemOk) : (s.benqEnd q).MemOk := by
  unfold State.benqEnd
  split
  · exact h.portSink.updPort
  · exact h

theorem execPortEos_memOk {cl slot tile : ℕ} {s : State} (h : s.MemOk) :
    Result.MemOk (execPortEos cl slot tile s) := by
  unfold execPortEos
  refine h.portRun fun _ _ hs => ?_
  extract_lets _ _ _ _ fin dataEnd saEnd s1
  have hfin : ∀ (s2 : State) (key1 : ℕ) (due1 gov1 : Bool), s2.MemOk → (fin s2 key1 due1 gov1).1.MemOk := by
    intro s2 key1 due1 gov1 hs1
    dsimp -zeta only [fin]
    exact hs1.mapCl
  have hdataEnd : ∀ (key1 : ℕ) (due1 : Bool) (pending1 : Bool), (dataEnd key1 due1 pending1).1.MemOk := by
    intro key1 due1 pending1
    dsimp -zeta only [dataEnd]
    split
    · exact hs
    split
    · exact hs.mapCl
    extract_lets s11
    have hs11 : s11.MemOk := State.MemOk.either hs.portSink hs
    exact hfin _ _ _ _ hs11.updPort
  have hsaEnd : ∀ (due1 : Bool) (pending1 : Bool) (data1 : ℕ), (saEnd due1 pending1 data1).1.MemOk := by
    intro due1 pending1 data1
    dsimp -zeta only [saEnd]
    split
    · exact hs.mapCl
    extract_lets s11 s2 _
    have hs11 : s11.MemOk := State.MemOk.either hs.portSink hs
    have hs2 : s2.MemOk := hs11.updPort
    exact hfin _ _ _ _ (State.MemOk.either hs2.portSink hs2)
  have hs1 : s1.MemOk := by
    dsimp -zeta only [s1]
    split
    · exact hs.cvdFinish
    · exact hs
  split
  · split
    · exact hfin _ _ _ _ hs
    · exact hs
  · split
    · exact hfin _ _ _ _ hs
    · exact hs
  · split
    · exact hdataEnd _ _ _
    split
    · exact hsaEnd _ _ _
    · exact hs
  · split
    · exact hdataEnd _ _ _
    split
    · exact hsaEnd _ _ _
    · exact hs
  · split
    · split
      · exact hdataEnd _ _ _
      split
      · exact hsaEnd _ _ _
      · exact hs
    split
    · exact hdataEnd _ _ _
    split
    · exact hsaEnd _ _ _
    · exact hs
  · split
    · split
      · exact hdataEnd _ _ _
      split
      · exact hsaEnd _ _ _
      · exact hs
    split
    · exact hdataEnd _ _ _
    split
    · exact hsaEnd _ _ _
    · exact hs
  · split
    · exact hfin _ _ _ _ hs1
    · exact hs
  · split
    · exact hfin _ _ _ _ hs
    · exact hs
  · split
    · exact hfin _ _ _ _ hs.benqEnd
    · exact hs
  · split
    · exact hfin _ _ _ _ hs.updPort
    · exact hs
  · split
    · exact hfin _ _ _ _ hs.updPort
    · exact hs
  · split
    · exact hfin _ _ _ _ hs.updPort
    · exact hs
  split
  · exact hfin _ _ _ _ hs
  · exact hs

theorem execRingGeneratorSlot_memOk {cl slot tile gen : ℕ} {s : State} (h : s.MemOk) :
    Result.MemOk (execRingGeneratorSlot cl slot tile gen s) := by
  unfold execRingGeneratorSlot
  change State.MemOk _
  extract_lets _
  split
  · exact h
  split
  · exact h
  split
  · extract_lets _ _ _ _ _
    split
    · exact h
    split
    · exact h.setCl (by exact h.cluster _)
    split
    · exact h.setCl (by exact h.cluster _)
    split
    · split
      · split
        · exact h.setCl (by exact h.cluster _)
        · exact h
      · exact h.setCl (by exact h.cluster _)
    split
    · split
      · exact h.setCl (by exact h.cluster _)
      · exact h
    · exact h.setCl (by exact h.cluster _)
  · exact h

theorem execRingGeneratorAdvance_memOk {cl slot tile gen : ℕ} {s : State} (h : s.MemOk) :
    Result.MemOk (execRingGeneratorAdvance cl slot tile gen s) := by
  unfold execRingGeneratorAdvance
  change State.MemOk _
  extract_lets _
  split
  · exact h
  split
  · exact h
  split
  · extract_lets _ _ _ _
    split
    · exact h
    · exact h.setCl (by exact h.cluster _)
  · exact h

@[simp] theorem Cluster.portKilled_tiles {k : Cluster} {q : PortAt} : (k.portKilled q).tiles = k.tiles := by
  unfold Cluster.portKilled
  extract_lets _
  split
  · simp
  split
  · exact rfl
  · split <;> exact rfl

/-! ### Machine/Kills -/

theorem execKillArrival_memOk {cl k1 : ℕ} {s : State} (h : s.MemOk) :
    Result.MemOk (execKillArrival cl k1 s) := by
  unfold execKillArrival
  change State.MemOk _
  extract_lets u _ gone
  split
  · exact h
  split
  · exact h
  extract_lets _ _ stop
  split
  · exact h.setCl (by exact h.cluster _)
  split
  · exact h.setCl (by simpa [u, gone, stop] using h.cluster _)
  · split
    · exact h
    · exact h.setCl (by simpa [u, gone, stop] using h.cluster _)
  · exact h.setCl (by simpa [u, gone, stop] using h.cluster _)
  · exact h.setCl (by exact h.cluster _)

/-! ### Machine/Regions -/

theorem State.MemOk.awaitRecord {s : State} {i : Instr} {va : ℕ} (h : s.MemOk) :
    (s.awaitRecord i va).MemOk := by
  unfold State.awaitRecord
  split
  · exact h.mapMe
  · exact h

theorem State.MemOk.withRead {s : State} {i : Instr} {va n : ℕ}
    {act : State → List Byte × List RelInfo → State} (h : s.MemOk)
    (hact : ∀ (t : State) (a1 : List Byte × List RelInfo), t.MemOk → (act t a1).MemOk) :
    (s.withRead i va n act).MemOk := by
  unfold State.withRead
  split
  · exact h
  split
  next heq => exact hact _ _ (h.vreadRel.ok heq).dropLines.mapMe
  next heq => exact (h.vreadRel.fail heq).trap
  next heq => exact (h.vreadRel.wait heq).awaitRecord

theorem State.MemOk.withRecordRel {s : State} {i : Instr} {va : Word}
    {act : State → List Byte × List RelInfo → State} (h : s.MemOk)
    (hact : ∀ (t : State) (a1 : List Byte × List RelInfo), t.MemOk → (act t a1).MemOk) :
    (s.withRecordRel i va act).MemOk := by
  unfold State.withRecordRel
  split
  · exact h.trap
  · exact h.withRead (fun _ _ hs => hact _ _ hs)

theorem State.MemOk.withRecord64 {s : State} {i : Instr} {va : Word} {act : State → List Byte → State}
    (h : s.MemOk) (hact : ∀ (t : State) (a1 : List Byte), t.MemOk → (act t a1).MemOk) :
    (s.withRecord64 i va act).MemOk :=
  h.withRecordRel (fun _ _ hs => hact _ _ hs)

@[simp] theorem Cluster.quietDone_tiles {k : Cluster} {i : ℕ} : (k.quietDone i).tiles = k.tiles := rfl

@[simp] theorem Cluster.startSlot_tiles {k : Cluster} {i : ℕ} : (k.startSlot i).tiles = k.tiles := rfl

theorem Cluster.enqueue_tiles {k : Cluster} {r : Record} : SomeTiles k.tiles (k.enqueue r) := by
  unfold Cluster.enqueue
  split
  · exact rfl
  split
  · change Cluster.tiles _ = _
    simp
  split
  · exact rfl
  · exact trivial

@[simp] theorem Cluster.stopDispatch_tiles {k : Cluster} {i : ℕ} : (k.stopDispatch i).tiles = k.tiles := rfl

@[simp] theorem Cluster.dispatch_tiles {k : Cluster} {i n : ℕ} : (k.dispatch i n).tiles = k.tiles := by
  unfold Cluster.dispatch
  split <;> exact rfl

@[simp] theorem Cluster.cfgFail_tiles {k : Cluster} {blk detail : ℕ} :
    (k.cfgFail blk detail).tiles = k.tiles := by
  simp [Cluster.cfgFail]

theorem State.MemOk.periodRecord {s : State} {cl i : ℕ} (h : s.MemOk) : (s.periodRecord cl i).MemOk := by
  unfold State.periodRecord
  extract_lets _ _ _
  exact h.trace

theorem State.MemOk.endPeriod {s : State} {cl i : ℕ} (h : s.MemOk) : (s.endPeriod cl i).MemOk := by
  unfold State.endPeriod
  extract_lets s1 k _ k1 s2
  have hs1 : s1.MemOk := h.periodRecord
  have hs2 : s2.MemOk := hs1.setCl (by simpa [k, k1] using hs1.cluster _)
  split
  · exact hs2.trace
  · exact hs2

/-! ### Machine/FabricControl -/

@[simp] theorem Cluster.beginLoad_tiles {k : Cluster} {i b : ℕ} {img : Word} {sched : Bool} {asid : ℕ} :
    (k.beginLoad i b img sched asid).tiles = k.tiles := by
  unfold Cluster.beginLoad
  extract_lets k1
  have hk1 : k1.tiles = k.tiles := by
    dsimp only [k1]
    split <;> simp
  exact hk1

theorem execCfgLoad_memOk {g : Guard} {d a b : Reg} {s : State} (h : s.MemOk) :
    Result.MemOk (execCfgLoad g d a b s) := by
  unfold execCfgLoad
  refine guarded_memOk h fun _ hs => ?_
  refine hs.onControl fun _ hs1 => ?_
  extract_lets _ _ _ _ s11
  have hs11 : s11.MemOk := State.MemOk.either hs1.mapHere.mapMe hs1
  exact hs11.put

theorem execCfgStat_memOk {g : Guard} {d a : Reg} {s : State} (h : s.MemOk) :
    Result.MemOk (execCfgStat g d a s) :=
  guarded_memOk h (fun _ hs => hs.onControl (fun _ hs1 => hs1.put))

@[simp] theorem Cluster.passF_tiles {k : Cluster} : (k.passF).tiles = k.tiles := rfl

theorem execFabGo_memOk {g : Guard} {a : Reg} {s : State} (h : s.MemOk) : Result.MemOk (execFabGo g a s) := by
  unfold execFabGo
  refine guarded_memOk h fun _ hs => ?_
  refine hs.onControl fun _ hs1 => ?_
  extract_lets _ _ _ wait
  have hwait : wait.MemOk := hs1.mapMe
  split
  · exact hs1.trap
  split
  · exact hwait
  split
  · exact hs1.mapHere.complete
  · exact hwait
  · exact hs1.mapMe.trap

theorem execBinPush_memOk {g : Guard} {a : Reg} {s : State} (h : s.MemOk) :
    Result.MemOk (execBinPush g a s) := by
  unfold execBinPush
  refine guarded_memOk h fun s hs => hs.onControl fun s hs => ?_
  extract_lets wait
  have hwait : ∀ t : State, t.MemOk → (wait t).MemOk := fun t ht => ht.mapMe
  split
  · exact hs.trap
  · split
    · exact hwait _ hs
    · refine hs.withRead fun t x ht => ?_
      extract_lets -underBinder r k
      have hk : k.tiles = t.here.tiles := Cluster.recordComes_tiles
      split
      next k1 heq =>
        have hk1 : k1.tiles = t.here.tiles := (Cluster.enqueue_tiles.some heq).trans hk
        exact (ht.setHere (by simpa using hk1)).complete
      · split
        · split
          · exact (ht.setHere (by simpa using hk)).complete
          · exact hwait _ ht
        · exact hwait _ ht

theorem execBinCnt_memOk {g : Guard} {d a : Reg} {s : State} (h : s.MemOk) :
    Result.MemOk (execBinCnt g d a s) := by
  unfold execBinCnt
  refine guarded_memOk h fun _ hs => ?_
  refine hs.onControl fun _ hs1 => ?_
  extract_lets _
  exact hs1.put

theorem execFabQuiet_memOk {g : Guard} {a : Reg} {s : State} (h : s.MemOk) :
    Result.MemOk (execFabQuiet g a s) := by
  unfold execFabQuiet
  refine guarded_memOk h fun _ hs => ?_
  refine hs.onControl fun _ hs1 => ?_
  extract_lets _ done wait
  have hdone : ∀ (s2 : State), s2.MemOk → (done s2).MemOk := by
    intro s2 hs2
    dsimp -zeta only [done]
    exact hs2.mapMe.complete
  have hwait : ∀ (s2 : State), s2.MemOk → (wait s2).MemOk := by
    intro s2 hs2
    dsimp -zeta only [wait]
    exact hs2.mapMe
  split
  · exact hdone _ hs1
  · split
    · exact hs1
    · exact hdone _ hs1
  split
  · exact hwait _ (hs1.mapHere)
  · exact hwait _ (hs1.mapHere)
  · exact hwait _ hs1
  · exact hdone _ hs1

@[simp] theorem Cluster.loadFail_tiles {k : Cluster} {l : Load} {detail : ℕ} :
    (k.loadFail l detail).tiles = k.tiles := by
  simp [Cluster.loadFail]

@[simp] theorem Cluster.loadFrame_tiles {k : Cluster} {l : Load} {f : ℕ} {bs : List Byte} :
    (k.loadFrame l f bs).tiles = k.tiles := by
  simp [Cluster.loadFrame]

theorem State.MemOk.loadEnded {s t : State} {cl : ℕ} (ht : t.MemOk) :
    (s.loadEnded t cl).MemOk := by
  unfold State.loadEnded
  extract_lets _
  split
  · exact ht.rankEnds
  · exact ht

theorem State.MemOk.frameWrite {s : State} {cl : ℕ} (h : s.MemOk) : (s.frameWrite cl).MemOk := by
  unfold State.frameWrite
  extract_lets _
  split
  · exact h
  extract_lets _
  split
  · exact h
  split
  next heq1 => exact h.vread.wait heq1
  next heq1 => exact State.MemOk.loadEnded (by exact (h.vread.fail heq1).mapCl)
  next heq1 => exact State.MemOk.loadEnded (by exact (h.vread.ok heq1).dropLines.mapCl)

theorem Cluster.endsBin_tiles {k : Cluster} {r : Record} : SomeTiles k.tiles (k.endsBin r) := by
  unfold Cluster.endsBin
  split
  · split
    · change Cluster.tiles _ = _
      simp
    · exact Cluster.enqueue_tiles
  · split
    · change Cluster.tiles _ = _
      simp
    · exact Cluster.enqueue_tiles
  · exact Cluster.enqueue_tiles

theorem execBinEnqueue_memOk {cl src : ℕ} {s : State} (h : s.MemOk) :
    Result.MemOk (execBinEnqueue cl src s) := by
  unfold execBinEnqueue
  change State.MemOk _
  extract_lets k p
  have hset : ∀ {k' : Cluster}, k'.tiles = k.tiles → (s.setCl cl k').MemOk :=
    fun e => h.setCl (by rw [e]; exact h.cluster cl)
  have hbind : ∀ {o : Option Machine.Record} {k1 : Cluster}, (o.bind fun r => k.enqueue r) = some k1 →
      k1.tiles = k.tiles := by
    intro o k1 e
    obtain ⟨r, _, hr⟩ := Option.bind_eq_some_iff.mp e
    exact Cluster.enqueue_tiles.some hr
  split
  · exact h
  · split
    · split
      · exact h
      · split
        next heq => exact hset (by simp [Cluster.endsBin_tiles.some heq])
        · exact h
    · split
      · split
        next heq =>
          have hk1 := hbind heq
          exact hset hk1
        · exact h
      · split
        next i _ =>
          split
          next heq =>
            have hk1 := hbind heq
            exact hset hk1
          · exact h
        · exact h

theorem execBindeadlock_memOk {cl : ℕ} {s : State} (h : s.MemOk) : Result.MemOk (execBindeadlock cl s) :=
  State.MemOk.either h h.terminate

theorem execBinDispatch_memOk {cl slot : ℕ} {s : State} (h : s.MemOk) :
    Result.MemOk (execBinDispatch cl slot s) := by
  unfold execBinDispatch
  change State.MemOk _
  extract_lets _
  split
  · exact h
  split
  · exact h.setCl (by exact h.cluster _)
  split
  · exact h.setCl (by simpa using h.cluster _)
  · exact h

theorem execPartialDispatch_memOk {cl slot : ℕ} {s : State} (h : s.MemOk) :
    Result.MemOk (execPartialDispatch cl slot s) := by
  unfold execPartialDispatch
  change State.MemOk _
  extract_lets _ _ _
  split
  · exact h
  split
  · exact h.setCl (by exact h.cluster _)
  split
  · split
    · exact h.setCl (by exact h.cluster _)
    · exact h
  split
  · exact h.setCl (by simpa using h.cluster _)
  · exact h

theorem execBinAged_memOk {cl blk : ℕ} {s : State} (h : s.MemOk) : Result.MemOk (execBinAged cl blk s) := by
  unfold execBinAged
  change State.MemOk _
  extract_lets _
  split
  · exact h.setCl (by exact h.cluster _)
  · exact h

theorem execSchedulerChoose_memOk {cl : ℕ} {s : State} (h : s.MemOk) :
    Result.MemOk (execSchedulerChoose cl s) := by
  unfold execSchedulerChoose
  change State.MemOk _
  extract_lets _
  split
  · exact h
  split
  · split
    · exact h.setCl (by exact h.cluster _)
    split
    · exact h.setCl (by simpa using h.cluster _)
    · exact h
  · exact h

theorem execSlotStart_memOk {cl slot : ℕ} {s : State} (h : s.MemOk) :
    Result.MemOk (execSlotStart cl slot s) := by
  unfold execSlotStart
  change State.MemOk _
  extract_lets _ _
  split
  · exact h.setCl (by exact h.cluster _)
  · exact h

theorem execRegionDrained_memOk {cl slot : ℕ} {s : State} (h : s.MemOk) :
    Result.MemOk (execRegionDrained cl slot s) := by
  unfold execRegionDrained
  change State.MemOk _
  extract_lets _
  split
  · exact h.endPeriod
  · exact h

theorem execPinnedRegionEnd_memOk {cl slot : ℕ} {s : State} (h : s.MemOk) :
    Result.MemOk (execPinnedRegionEnd cl slot s) := by
  unfold execPinnedRegionEnd
  change State.MemOk _
  extract_lets _
  split
  · exact h.endPeriod
  · exact h

/-! ### Machine/CopyParts -/

theorem State.MemOk.gather {s : State} {w : Who} {l : List (ℕ × ℕ)} (h : s.MemOk) :
    Got.MemOk (s.gather w l) := by
  induction l generalizing s with
  | nil => exact h
  | cons e l ih =>
    unfold State.gather
    split
    next heq =>
      have hs := ih (h.vread.ok heq)
      split
      next heq => exact hs.ok heq
      next heq => exact hs.fail heq
      next heq => exact hs.wait heq
    next heq => exact h.vread.fail heq
    next heq => exact h.vread.wait heq

theorem State.MemOk.wordRow {s : State} {w : Who} {ty : ℕ} {vas : List ℕ} (h : s.MemOk) :
    Got.MemOk (s.wordRow w ty vas) := by
  unfold State.wordRow
  split
  next heq => exact h.gather.ok heq
  next heq => exact h.gather.fail heq
  next heq => exact h.gather.wait heq

theorem State.MemOk.mxRow {s : State} {w : Who} {p : Pattern} {scale : Word} {r : ℕ} (h : s.MemOk) :
    Got.MemOk (s.mxRow w p scale r) := by
  unfold State.mxRow
  extract_lets _
  split
  next heq =>
    have hs2 := h.gather.ok heq
    extract_lets _
    exact hs2
  next heq => exact h.gather.fail heq
  next heq => exact h.gather.wait heq

theorem State.MemOk.rowsIn {s : State} {w : Who} {d : Side} {scale : Word} {l : List ℕ} (h : s.MemOk) :
    Got.MemOk (s.rowsIn w d scale l) := by
  induction l generalizing s with
  | nil => exact h
  | cons r l ih =>
    have hrow : Got.MemOk (if isMxTy d.p.ty then s.mxRow w d.p scale r else s.wordRow w d.p.ty (d.row r)) := by
      split
      · exact h.mxRow
      · exact h.wordRow
    unfold State.rowsIn
    split
    next heq =>
      have hs := ih (hrow.ok heq)
      split
      next heq => exact hs.ok heq
      next heq => exact hs.fail heq
      next heq => exact hs.wait heq
    next heq => exact hrow.fail heq
    next heq => exact hrow.wait heq

theorem State.MemOk.makeDue {s : State} {w : Who} {due : List DueWrite} {choice : ℕ} (h : s.MemOk) :
    Got.MemOk (s.makeDue w due choice) := by
  unfold State.makeDue
  extract_lets _
  split
  · exact h
  split
  next heq1 => exact h.vwrite.ok heq1
  next heq1 => exact h.vwrite.fail heq1
  next heq1 => exact h.vwrite.wait heq1

theorem State.MemOk.held {s s1 : State} {cl : ℕ} (hs1 : s1.MemOk) : (s.held s1 cl).MemOk := by
  unfold State.held
  extract_lets _
  exact hs1.mapCl

/-! ### Machine/Copy -/

theorem State.MemOk.engine {s : State} {q : SeqId} {g : Guard} {i : Instr} {act : State → State} (h : s.MemOk)
    (hact : ∀ (t : State), t.MemOk → (act t).MemOk) : Result.MemOk (s.engine q g i act) := by
  unfold State.engine
  split
  · exact h.ill
  · exact guarded_memOk h (fun _ hs => hact _ hs)

theorem State.MemOk.withReads {s : State} {i : Instr} {act : State → List (List Byte) → State}
    {vas : List Word} {acc : List (List Byte)} (h : s.MemOk)
    (hact : ∀ (t : State) (a1 : List (List Byte)), t.MemOk → (act t a1).MemOk) :
    (s.withReads i act vas acc).MemOk := by
  induction vas generalizing s acc with
  | nil => exact hact _ _ h.dropLines
  | cons va vas ih =>
    unfold State.withReads
    split
    · exact h.trap
    · split
      · exact h
      · split
        next heq => exact ih (h.vread.ok heq).mapMe
        next heq => exact (h.vread.fail heq).trap
        next heq => exact (h.vread.wait heq).awaitRecord

theorem State.MemOk.withPatterns {s : State} {i : Instr} {rule : RecordRule} {vas : List Word}
    {act : State → List Pattern → State} (h : s.MemOk)
    (hact : ∀ (t : State) (a1 : List Pattern), t.MemOk → (act t a1).MemOk) :
    (s.withPatterns i rule vas act).MemOk := by
  unfold State.withPatterns
  refine h.withReads fun _ _ hs => ?_
  extract_lets _ _
  split
  · exact hs.ill
  split
  · exact hs.trap
  · exact hact _ _ hs

theorem State.MemOk.enqueueCopy {s : State} {c : CopyCmd} (h : s.MemOk) : (s.enqueueCopy c).MemOk := by
  unfold State.enqueueCopy
  extract_lets _ push
  have hpush : ∀ (c1 : CopyCmd), (push c1).MemOk := by
    intro c1
    dsimp -zeta only [push]
    extract_lets _
    split
    · exact h.trap
    split
    · exact h
    · exact h.mapHere.fresh.complete
  split
  · exact hpush _
  extract_lets _ _
  split
  · exact h.trap
  split
  · exact h.fresh.trap
  split
  · exact h.trap
  · exact hpush _

theorem State.MemOk.placing {s : State} {act : State → State} (h : s.MemOk)
    (hact : ∀ (t : State), t.MemOk → (act t).MemOk) : (s.placing act).MemOk :=
  hact _ h.mapMe

theorem State.MemOk.place2 {s : State} {i : Instr} {a b : Reg} {rule : RecordRule} {c : CopyCmd} (h : s.MemOk) :
    (s.place2 i a b rule c).MemOk := by
  unfold State.place2
  extract_lets _
  exact h.placing (fun _ hs => hs.withPatterns (fun _ _ hs1 => hs1.enqueueCopy))

theorem State.MemOk.place3 {s : State} {i : Instr} {d a b : Reg} {rule : RecordRule} {c : CopyCmd}
    (h : s.MemOk) : (s.place3 i d a b rule c).MemOk := by
  unfold State.place3
  extract_lets _
  exact h.placing (fun _ hs => hs.withPatterns (fun _ _ hs1 => hs1.enqueueCopy))

theorem execCpy_memOk {g : Guard} {d a b : Reg} {o : CopyOpts} {s : State} (h : s.MemOk) :
    Result.MemOk (execCpy g d a b o s) :=
  h.engine (fun _ hs => hs.place2)

theorem execCpyF_memOk {g : Guard} {d a b : Reg} {o : CopyOpts} {arm : Fin 4} {s : State} (h : s.MemOk) :
    Result.MemOk (execCpyF g d a b o arm s) :=
  h.engine (fun _ hs => hs.place2)

theorem execCpyR_memOk {g : Guard} {a b : Reg} {o : CopyOpts} {rop : Fin 3} {s : State} (h : s.MemOk) :
    Result.MemOk (execCpyR g a b o rop s) :=
  h.engine (fun _ hs => hs.place2)

theorem execCpyG_memOk {g : Guard} {d a b : Reg} {o : CopyOpts} {s : State} (h : s.MemOk) :
    Result.MemOk (execCpyG g d a b o s) :=
  h.engine (fun _ hs => hs.place3)

theorem execCpyS_memOk {g : Guard} {d a b : Reg} {o : CopyOpts} {s : State} (h : s.MemOk) :
    Result.MemOk (execCpyS g d a b o s) :=
  h.engine (fun _ hs => hs.place3)

theorem execCpyMx_memOk {g : Guard} {d a b : Reg} {o : CopyOpts} {s : State} (h : s.MemOk) :
    Result.MemOk (execCpyMx g d a b o s) :=
  h.engine (fun _ hs => hs.place2)

theorem execCpyPl_memOk {g : Guard} {a b : Reg} {o : CopyOpts} {s : State} (h : s.MemOk) :
    Result.MemOk (execCpyPl g a b o s) :=
  h.engine (fun _ hs => hs.place2)

theorem execCpyFill_memOk {g : Guard} {a b : Reg} {o : CopyOpts} {s : State} (h : s.MemOk) :
    Result.MemOk (execCpyFill g a b o s) := by
  unfold execCpyFill
  refine h.engine fun _ hs => ?_
  extract_lets _ _
  exact hs.placing (fun _ hs1 => hs1.withPatterns (fun _ _ hs2 => hs2.enqueueCopy))

theorem execCpyWait_memOk {g : Guard} {a : Reg} {imm : BitVec 16} {s : State} (h : s.MemOk) :
    Result.MemOk (execCpyWait g a imm s) := by
  unfold execCpyWait
  refine h.engine fun _ hs => ?_
  extract_lets _
  split
  · exact hs.skip
  · exact hs

theorem execCopyCommandBegin_memOk {cl : ℕ} {s : State} (h : s.MemOk) :
    Result.MemOk (execCopyCommandBegin cl s) := by
  unfold execCopyCommandBegin
  change State.MemOk _
  extract_lets _ _
  split
  · exact h
  split
  · exact h
  · exact h.setCl (by exact h.cluster _)

theorem execCopyRingClaim_memOk {cl n : ℕ} {s : State} (h : s.MemOk) :
    Result.MemOk (execCopyRingClaim cl n s) := by
  unfold execCopyRingClaim
  change State.MemOk _
  extract_lets _ _
  split
  · exact h
  split
  · exact h
  extract_lets _ _ _ _ _
  split
  · split
    · exact h
    · exact h.setCl (by exact h.cluster _)
  split
  · exact h
  · exact h.setCl (by exact h.cluster _)

theorem State.MemOk.thenRows {s : State} {w : Who} {d : Side} {scale : Word} {l : List ℕ}
    {f : State → List Row → Got Plan} (h : s.MemOk)
    (hf : ∀ (t : State) (a1 : List Row), t.MemOk → Got.MemOk (f t a1)) :
    Got.MemOk (s.thenRows w d scale l f) := by
  unfold State.thenRows
  split
  next heq =>
    have hs2 := h.rowsIn.ok heq
    split
    next heq1 => exact (hf _ _ hs2).ok heq1
    next heq1 => exact (hf _ _ hs2).fail heq1
    next heq1 => exact (hf _ _ hs2).wait heq1
  next heq => exact h.rowsIn.fail heq
  next heq => exact h.rowsIn.wait heq

theorem State.MemOk.thenIndices {s : State} {w : Who} {aux : Pattern} {ns : List ℕ}
    {f : State → List ℤ → Got Plan} (h : s.MemOk)
    (hf : ∀ (t : State) (a1 : List ℤ), t.MemOk → Got.MemOk (f t a1)) :
    Got.MemOk (s.thenIndices w aux ns f) := by
  unfold State.thenIndices
  extract_lets _
  split
  next heq => exact hf _ _ (h.wordRow.ok heq)
  next heq => exact h.wordRow.fail heq
  next heq => exact h.wordRow.wait heq

theorem Got.foldl_memOk {α β : Type} {f : Got α → β → Got α} (hf : ∀ g b, Got.MemOk g → Got.MemOk (f g b))
    {l : List β} {g : Got α} (h : g.MemOk) : (l.foldl f g).MemOk := by
  induction l generalizing g with
  | nil => exact h
  | cons b l ih => exact ih (hf g b h)

theorem State.MemOk.copyPlan {s : State} {cl : ℕ} {c : CopyCmd} {ns : List ℕ} (h : s.MemOk) :
    Got.MemOk (s.copyPlan cl c ns) := by
  unfold State.copyPlan
  extract_lets k w src dst
  split
  · exact h
  · exact h.thenIndices fun s l hs => hs.thenRows fun t x ht => ht
  · exact h.thenIndices fun s l hs => hs.thenRows fun t x ht => ht
  · exact h.thenRows fun s x hs => hs.thenRows fun t y ht => ht
  · exact h.thenRows fun s x hs => hs
  · refine Got.foldl_memOk (fun g gr hg => ?_) (g := .ok s _) h
    split
    next t p =>
      have ht : t.MemOk := hg
      have hrows : ∀ l, Got.MemOk (t.thenRows w src c.scale l fun s x => .ok s (planPi c.dst gr x)) :=
        fun l => ht.thenRows fun _ _ h => h
      split
      next heq => exact (hrows _).ok heq
      next heq => exact (hrows _).fail heq
      next heq => exact (hrows _).wait heq
    · exact hg
  · exact h.thenRows fun s x hs => hs

@[simp] theorem Cluster.mapCopy_tiles {k : Cluster} {c : CopyCmd} : (k.mapCopy c).tiles = k.tiles := rfl

theorem State.MemOk.copyStep {s : State} {cl : ℕ} {c : CopyCmd} {choice : ℕ} (h : s.MemOk) :
    Got.MemOk (s.copyStep cl c choice) := by
  unfold State.copyStep
  extract_lets k w put ns
  have hput : ∀ (t : State) (c1 : CopyCmd), t.MemOk → Got.MemOk (put t c1) := fun t c1 ht => ht.mapCl
  split
  · split
    next heq =>
      have hs1 := h.copyPlan.ok heq
      split
      · exact h
      next s2 _ heq =>
        have hs2 : s2.MemOk := hs1.engineTurn.some heq
        exact hput _ _ hs2.dropLines.raise
    next heq => exact hput _ _ (h.copyPlan.fail heq).dropLines
    next heq => exact h.copyPlan.wait heq
  · split
    next heq => exact hput _ _ (h.makeDue.ok heq)
    next heq => exact h.makeDue.fail heq
    next heq => exact h.makeDue.wait heq

theorem State.MemOk.copyHeld {s s1 : State} {cl : ℕ} {c : CopyCmd} (hs1 : s1.MemOk) :
    (s.copyHeld s1 cl c).MemOk :=
  (State.MemOk.held hs1).mapCl

@[simp] theorem Cluster.pendFire_tiles {k : Cluster} {slot : ℕ} : (k.pendFire slot).1.tiles = k.tiles := by
  unfold Cluster.pendFire
  split
  · split <;> exact rfl
  · exact rfl

@[simp] theorem Cluster.fireArm_tiles {k : Cluster} {slot : ℕ} {known : List ℕ} :
    (k.fireArm slot known).1.tiles = k.tiles := by
  unfold Cluster.fireArm
  extract_lets _
  split
  · split
    · simp
    · exact rfl
  · simp

@[simp] theorem Cluster.copyFinish_tiles {k : Cluster} {cl : ℕ} {c : CopyCmd} {failed : Bool} :
    (k.copyFinish cl c failed).1.tiles = k.tiles := by
  unfold Cluster.copyFinish
  extract_lets known info e' e k0 k1 k3
  have hk1 : k1.tiles = k.tiles := by
    dsimp -zeta only [k1]
    split
    · rfl
    · extract_lets r rest r1 k2
      have hk2 : k2.tiles = k.tiles := Cluster.advance_tiles
      split
      · rfl
      · split <;> exact hk2
  have hk3 : k3.tiles = k.tiles := by
    dsimp -zeta only [k3]
    split
    · simp [hk1]
    · exact hk1
  clear_value k3
  split
  next k4 ok heq =>
    have hk4 : k4.tiles = k.tiles := by
      refine fst_tiles heq ?_
      split
      · split
        · exact hk3
        · exact Cluster.fireArm_tiles.trans hk3
      · exact hk3
    simp [hk4]

theorem State.MemOk.copyEnd {s : State} {cl : ℕ} {c : CopyCmd} (h : s.MemOk) : (s.copyEnd cl c).MemOk := by
  unfold State.copyEnd
  split
  · exact h
  split
  next heq =>
    have hk4 := fst_tiles heq Cluster.copyFinish_tiles
    extract_lets s1 s2
    have hs1 : s1.MemOk := h.setCl (by simpa [hk4] using h.cluster _)
    have hs2 : s2.MemOk := by
      dsimp -zeta only [s2]
      split
      · exact hs1.raiseEng
      · exact hs1
    split
    · exact hs2
    · exact hs2.fresh.raiseEng

theorem execCopyCommandComplete_memOk {cl n : ℕ} {s : State} (h : s.MemOk) :
    Result.MemOk (execCopyCommandComplete cl n s) := by
  unfold execCopyCommandComplete
  change State.MemOk _
  extract_lets _
  split
  · exact h
  split
  · exact h
  split
  · exact h.copyEnd
  split
  next heq1 =>
    have hs1 := h.copyStep.ok heq1
    split
    · exact h
    split
    · exact hs1.copyEnd
    · exact hs1
  next heq1 =>
    have hs1 := h.copyStep.fail heq1
    exact h
  next heq1 => exact State.MemOk.copyHeld (by exact (h.copyStep.wait heq1))

theorem State.MemOk.copyFail {s : State} {cl : ℕ} {c : CopyCmd} (h : s.MemOk) : (s.copyFail cl c).MemOk := by
  unfold State.copyFail
  split
  · exact h
  split
  · exact h
  · exact (h.setCl (by simpa using h.cluster _)).raiseEng

theorem execCopyAccessFailure_memOk {cl n : ℕ} {s : State} (h : s.MemOk) :
    Result.MemOk (execCopyAccessFailure cl n s) := by
  unfold execCopyAccessFailure
  change State.MemOk _
  extract_lets _
  split
  · exact h
  split
  · exact h
  split
  · exact h.copyFail
  split
  · exact h
  split
  next heq1 =>
    have hs1 := h.copyStep.ok heq1
    split
    · exact hs1.copyFail
    · exact h
  next heq1 =>
    have hs1 := h.copyStep.fail heq1
    exact h
  next heq1 => exact State.MemOk.copyHeld (by exact (h.copyStep.wait heq1))

/-! ### Machine/Matrix -/

theorem State.MemOk.enqueueMat {s : State} {op : MatOp} {evt : Option (Fin 64)} (h : s.MemOk) :
    (s.enqueueMat op evt).MemOk := by
  unfold State.enqueueMat
  extract_lets _ _ _ _ _
  split
  · exact h.mapMe
  · exact h.mapHere.fresh.complete

theorem State.MemOk.trapMat {s : State} {detail : ℕ} {v : Word} (h : s.MemOk) : (s.trapMat detail v).MemOk :=
  h.trap

theorem State.MemOk.trapMatFree {s : State} {detail : ℕ} (h : s.MemOk) : (s.trapMatFree detail).MemOk :=
  h.fresh.trap

theorem execMxcShape_memOk {g : Guard} {d a b : Reg} {s : State} (h : s.MemOk) :
    Result.MemOk (execMxcShape g d a b s) := by
  unfold execMxcShape
  refine h.engine fun _ hs => ?_
  extract_lets _ _ _ _
  split
  · exact hs.trapMat
  split
  · exact hs.trapMat
  split
  · exact hs.trapMat
  · exact hs.enqueueMat

theorem State.MemOk.placeOperand {s : State} {isB : Bool} {d a b : Reg} {ty : ℕ} {ring : Option (Fin 16)}
    (h : s.MemOk) : (s.placeOperand isB d a b ty ring).MemOk := by
  unfold State.placeOperand
  extract_lets _ _ _ _ _ place
  have hplace : place.MemOk := h.enqueueMat
  split
  · exact h.trapMat
  split
  · exact h.trapMat
  split
  · exact h.trapMat
  split
  · exact hplace
  split
  · exact h.trapMat
  split
  · exact h.trapMat
  split
  · exact h.trapMat
  · exact hplace

theorem execMxcOpa_memOk {g : Guard} {d a b : Reg} {ty : BitVec 8} {ring : Option (Fin 16)} {s : State}
    (h : s.MemOk) : Result.MemOk (execMxcOpa g d a b ty ring s) :=
  h.engine (fun _ hs => hs.placeOperand)

theorem execMxcOpb_memOk {g : Guard} {d a b : Reg} {ty : BitVec 8} {ring : Option (Fin 16)} {s : State}
    (h : s.MemOk) : Result.MemOk (execMxcOpb g d a b ty ring s) :=
  h.engine (fun _ hs => hs.placeOperand)

theorem State.MemOk.checkCompute {s : State} {mmp : Bool} {act : State} (h : s.MemOk) (hact : act.MemOk) :
    (s.checkCompute mmp act).MemOk := by
  unfold State.checkCompute
  split
  · extract_lets _
    split
    · exact h.trapMatFree
    split
    · exact h.trapMatFree
    split
    · exact h.trapMat
    split
    · exact h.trapMat
    split
    · exact h.trapMat
    · exact hact
  · exact h.trapMatFree

theorem State.MemOk.withPlanes {s : State} {a b : Reg} {scaled : Bool} {act : W32 → ℕ → State} (h : s.MemOk)
    (hact : ∀ (a0 : W32) (a1 : ℕ), (act a0 a1).MemOk) : (s.withPlanes a b scaled act).MemOk := by
  unfold State.withPlanes
  extract_lets _ _
  split
  · exact h.trapMat
  split
  · exact h.trapMat
  · exact hact _ _

theorem execMma_memOk {g : Guard} {evt : Option (Fin 64)} {s : State} (h : s.MemOk) :
    Result.MemOk (execMma g evt s) :=
  h.engine (fun _ hs => hs.checkCompute (by exact hs.enqueueMat))

theorem execMmz_memOk {g : Guard} {evt : Option (Fin 64)} {s : State} (h : s.MemOk) :
    Result.MemOk (execMmz g evt s) :=
  h.engine (fun _ hs => hs.checkCompute (by exact hs.enqueueMat))

theorem execMmp_memOk {g : Guard} {a b : Reg} {o : MmpOpts} {s : State} (h : s.MemOk) :
    Result.MemOk (execMmp g a b o s) :=
  h.engine (fun _ hs => hs.checkCompute (by exact hs.withPlanes (fun _ _ => hs.enqueueMat)))

theorem execMxcArm_memOk {g : Guard} {a b : Reg} {slot : Fin 4} {opc : Fin 3} {o : MmpOpts} {s : State}
    (h : s.MemOk) : Result.MemOk (execMxcArm g a b slot opc o s) := by
  unfold execMxcArm
  refine h.engine fun _ hs => ?_
  refine hs.checkCompute ?_
  split
  · exact hs.withPlanes (fun _ _ => hs.enqueueMat)
  · exact hs.enqueueMat

theorem execMxcDrain_memOk {g : Guard} {a b : Reg} {ty : BitVec 8} {acci ef satf : Bool}
    {evt : Option (Fin 64)} {s : State} (h : s.MemOk) :
    Result.MemOk (execMxcDrain g a b ty acci ef satf evt s) := by
  unfold execMxcDrain
  refine h.engine fun _ hs => ?_
  extract_lets _ _ _
  split
  · exact hs.trapMatFree
  split
  · exact hs.trapMat
  split
  · exact hs.trapMat
  split
  · exact hs.trapMat
  · exact hs.enqueueMat

theorem execMxcDrainD_memOk {g : Guard} {a : Reg} {ndm1 : Fin 16} {acci : Bool} {evt : Option (Fin 64)}
    {s : State} (h : s.MemOk) : Result.MemOk (execMxcDrainD g a ndm1 acci evt s) := by
  unfold execMxcDrainD
  refine h.engine fun _ hs => ?_
  extract_lets _
  split
  · exact hs.trapMatFree
  split
  · exact hs.trapMat
  · exact hs.enqueueMat

theorem State.MemOk.blockRows {s : State} {w : Who} {o : Operand} {base : Word} {b n : ℕ} {l : List ℕ}
    (h : s.MemOk) : Got.MemOk (s.blockRows w o base b n l) := by
  induction l generalizing s with
  | nil => exact h
  | cons r l ih =>
    unfold State.blockRows
    split
    next heq =>
      have hs := ih (h.gather.ok heq)
      split
      next heq => exact hs.ok heq
      next heq => exact hs.fail heq
      next heq => exact hs.wait heq
    next heq => exact h.gather.fail heq
    next heq => exact h.gather.wait heq

theorem State.MemOk.planeScales {s : State} {w : Who} {o : Operand} {k1 r : ℕ} (h : s.MemOk) :
    Got.MemOk (s.planeScales w o k1 r) := by
  unfold State.planeScales
  extract_lets _
  split
  next heq => exact h.gather.ok heq
  next heq => exact h.gather.fail heq
  next heq => exact h.gather.wait heq

theorem State.MemOk.planeCols {s : State} {w : Who} {o : Operand} {base : Word} {k : ℕ} {l : List ℕ}
    (h : s.MemOk) : Got.MemOk (s.planeCols w o base k l) := by
  induction l generalizing s with
  | nil => exact h
  | cons r l ih =>
    unfold State.planeCols
    split
    next heq =>
      have hs := ih (h.gather.ok heq)
      split
      next heq => exact hs.ok heq
      next heq => exact hs.fail heq
      next heq => exact hs.wait heq
    next heq => exact h.gather.fail heq
    next heq => exact h.gather.wait heq

@[simp] theorem Cluster.matDone_tiles {k : Cluster} {cl : ℕ} {c : MatCmd} {ids : List ℕ} :
    (k.matDone cl c ids).tiles = k.tiles := by
  unfold Cluster.matDone
  extract_lets known info k1 m k2
  have hk1 : k1.tiles = k.tiles := by
    dsimp -zeta only [k1]
    split
    · simp
    · rfl
  exact (Cluster.setSeq_tiles _ _ _).trans hk1

theorem State.MemOk.matHead {s : State} {cl : ℕ} {c : MatCmd} {rest : List MatCmd} (h : s.MemOk) :
    (s.matHead cl c rest).MemOk := by
  unfold State.matHead
  extract_lets _ _ _ _ _
  split
  · exact h.setCl (by exact h.cluster _)
  · exact h.setCl (by exact h.cluster _)
  · exact h.setCl (by exact h.cluster _)
  · exact h.setCl (by exact h.cluster _)
  · split
    · split
      · exact h.setCl (by exact h.cluster _)
      · exact (h.setCl (by simpa using h.cluster _)).fresh.raiseEng
    · exact (h.setCl (by simpa using h.cluster _)).fresh.raiseEng
  · exact h.setCl (by exact h.cluster _)

theorem execMatrixNextCommand_memOk {cl : ℕ} {s : State} (h : s.MemOk) :
    Result.MemOk (execMatrixNextCommand cl s) := by
  unfold execMatrixNextCommand
  change State.MemOk _
  extract_lets _ _
  split
  · exact h
  split
  · split
    · extract_lets _ _
      exact h.setCl (by exact h.cluster _)
    · exact h.setCl (by exact h.cluster _)
  split
  · exact h
  split
  · exact h.matHead
  · exact h

theorem execArmSlotStore_memOk {cl : ℕ} {s : State} (h : s.MemOk) : Result.MemOk (execArmSlotStore cl s) := by
  unfold execArmSlotStore
  change State.MemOk _
  extract_lets _ _
  split
  · split
    · split
      · exact h
      split
      · extract_lets _ _ _
        exact h.setCl (by exact h.cluster _)
      · exact h
    · exact h
  · exact h

theorem execMatrixRingSlot_memOk {cl : ℕ} {s : State} (h : s.MemOk) :
    Result.MemOk (execMatrixRingSlot cl s) := by
  unfold execMatrixRingSlot
  change State.MemOk _
  extract_lets _ _ _
  split
  · exact h
  extract_lets get
  split
  · exact h
  split
  · dsimp -zeta only [get]
    extract_lets _ _ _ _
    exact h.setCl (by exact h.cluster _)
  · dsimp -zeta only [get]
    extract_lets _ _ _ _
    exact h.setCl (by exact h.cluster _)
  · exact h

@[simp] theorem Cluster.advanceOperands_tiles {k : Cluster} {cl : ℕ} {r : MatRun} :
    (k.advanceOperands cl r).tiles = k.tiles := by
  unfold Cluster.advanceOperands
  extract_lets info one
  have hone : ∀ (k : Cluster) (o : Option Operand) (i : Option ℕ), (one k o i).tiles = k.tiles := by
    intro k o i
    dsimp only [one]
    split <;> simp
  exact (hone _ _ _).trans (hone _ _ _)

theorem State.MemOk.groupScales {s : State} {w : Who} {o : Operand} {k : ℕ} {l : List ℕ} (h : s.MemOk) :
    Got.MemOk (s.groupScales w o k l) := by
  induction l generalizing s with
  | nil => exact h
  | cons r l ih =>
    unfold State.groupScales
    split
    next heq =>
      have hs := ih (h.planeScales.ok heq)
      split
      next heq => exact hs.ok heq
      next heq => exact hs.fail heq
      next heq => exact hs.wait heq
    next heq => exact h.planeScales.fail heq
    next heq => exact h.planeScales.wait heq

theorem State.MemOk.matTurn {s : State} {cl : ℕ} {ps : List (ℕ × ℕ)} (h : s.MemOk) :
    SomeMemOk (s.matTurn cl ps) := by
  unfold State.matTurn
  cases heq : s.engineTurn cl 2 ps [] with
  | none => exact trivial
  | some e => exact h.engineTurn.some heq

theorem State.MemOk.putRun {s : State} {cl : ℕ} {r : MatRun} {acc : Table W32} {kb pl : ℕ} (h : s.MemOk) :
    (s.putRun cl r acc kb pl).MemOk :=
  h.dropLines.mapCl

theorem State.MemOk.slabs {s : State} {w : Who} {o : Operand} {m k g sl : ℕ} {l : List ℕ}
    {t : Table PlaneRows} (h : s.MemOk) : Got.MemOk (s.slabs w o m k g sl l t) := by
  induction l generalizing s t with
  | nil => exact h
  | cons r l ih =>
    unfold State.slabs
    split
    next heq => exact ih (h.gather.ok heq)
    next heq => exact h.gather.fail heq
    next heq => exact h.gather.wait heq

theorem State.MemOk.allScales {s : State} {w : Who} {o : Operand} {m k : ℕ} {l : List ℕ}
    {t : Table (List (List ℕ))} (h : s.MemOk) : Got.MemOk (s.allScales w o m k l t) := by
  induction l generalizing s t with
  | nil => exact h
  | cons r l ih =>
    unfold State.allScales
    split
    next heq => exact ih (h.groupScales.ok heq)
    next heq => exact h.groupScales.fail heq
    next heq => exact h.groupScales.wait heq

theorem State.MemOk.matFault {s : State} {cl : ℕ} {r : MatRun} {detail va : ℕ} (h : s.MemOk) :
    (s.matFault cl r detail va).1.MemOk := by
  unfold State.matFault
  extract_lets _ _ _
  exact h.dropLines.mapCl

theorem State.MemOk.mmpStep {s : State} {cl : ℕ} {r : MatRun} (h : s.MemOk) : Got.MemOk (s.mmpStep cl r) := by
  unfold State.mmpStep
  extract_lets _ _ _ failed take _
  have hfailed : ∀ (t1 : State) (c1 d1 v1 : ℕ), t1.MemOk → Got.MemOk (failed t1 c1 d1 v1) := by
    intro t1 c1 d1 v1 hs
    dsimp -zeta only [failed]
    exact hs.matFault
  have htake : ∀ (t1 : State) (ps1 : List (ℕ × ℕ)) (r11 : MatRun) (kb1 pl1 slabs1 : ℕ), t1.MemOk →
      Got.MemOk (take t1 ps1 r11 kb1 pl1 slabs1) := by
    intro t1 ps1 r11 kb1 pl1 slabs1 hs
    dsimp -zeta only [take]
    split
    · exact h
    next heq => exact (hs.matTurn.some heq).putRun.mapCl
  split
  · extract_lets _ _ _ _
    split
    · split
      next heq3 => exact htake _ _ _ _ _ _ (h.planeCols.ok heq3)
      next heq3 => exact hfailed _ _ _ _ (h.planeCols.fail heq3)
      next heq3 => exact h.planeCols.wait heq3
    split
    · split
      next heq3 => exact htake _ _ _ _ _ _ (h.allScales.ok heq3)
      next heq3 => exact hfailed _ _ _ _ (h.allScales.fail heq3)
      next heq3 => exact h.allScales.wait heq3
    split
    · split
      next heq2 =>
        have hs1 := h.slabs.ok heq2
        extract_lets _ _
        exact htake _ _ _ _ _ _ hs1
      next heq2 => exact hfailed _ _ _ _ (h.slabs.fail heq2)
      next heq2 => exact h.slabs.wait heq2
    · exact h.putRun
  · exact h

theorem State.MemOk.matHeld {s s1 : State} {cl : ℕ} {r : MatRun} (hs1 : s1.MemOk) :
    (s.matHeld s1 cl r).MemOk :=
  (State.MemOk.held hs1).mapCl

theorem execMmpEvaluation_memOk {cl : ℕ} {s : State} (h : s.MemOk) :
    Result.MemOk (execMmpEvaluation cl s) := by
  unfold execMmpEvaluation
  change State.MemOk _
  extract_lets _
  split
  · exact h
  split
  · split
    · exact h
    split
    next heq2 =>
      have hs1 := h.mmpStep.ok heq2
      split
      · exact h
      · exact hs1
    next heq2 =>
      have hs1 := h.mmpStep.fail heq2
      exact h
    next heq2 => exact State.MemOk.matHeld (by exact (h.mmpStep.wait heq2))
  · exact h

theorem State.MemOk.matStep {s : State} {cl : ℕ} {r : MatRun} {choice : ℕ} (h : s.MemOk) :
    Got.MemOk (s.matStep cl r choice) := by
  unfold State.matStep
  extract_lets _ _ failed _
  have hfailed : ∀ (t1 : State) (c1 d1 v1 : ℕ), t1.MemOk → Got.MemOk (failed t1 c1 d1 v1) := by
    intro t1 c1 d1 v1 hs
    dsimp -zeta only [failed]
    exact hs.matFault
  split
  next fst _ _ _ _ =>
    split
    · extract_lets _
      split
      next heq3 =>
        have hs1 := h.makeDue.ok heq3
        extract_lets _
        exact hs1.raise.putRun
      next heq3 =>
        have hs1 := h.makeDue.ok heq3
        split
        next heq4 => exact hs1.raise.matFault.fst heq4
      next heq3 => exact h.makeDue.fail heq3
      next heq3 => exact h.makeDue.wait heq3
  · extract_lets _ _ _ _
    split
    next heq3 =>
      have hs2 := h.blockRows.ok heq3
      split
      next heq4 =>
        have hs21 := hs2.blockRows.ok heq4
        split
        · exact h
        next heq5 =>
          have hs22 := hs21.matTurn.some heq5
          split
          exact hs22.raise.putRun
      next heq4 => exact hfailed _ _ _ _ (hs2.blockRows.fail heq4)
      next heq4 => exact hs2.blockRows.wait heq4
    next heq3 => exact hfailed _ _ _ _ (h.blockRows.fail heq3)
    next heq3 => exact h.blockRows.wait heq3
  · exact h

@[simp] theorem Cluster.drainOff_tiles {k : Cluster} {cl tile slot : ℕ} :
    (k.drainOff cl tile slot).tiles = k.tiles := by
  unfold Cluster.drainOff
  split <;> exact rfl

theorem State.MemOk.matEnd {s : State} {cl : ℕ} {r : MatRun} (h : s.MemOk) : (s.matEnd cl r).MemOk := by
  unfold State.matEnd
  split
  · exact h
  extract_lets _
  split
  · extract_lets s1
    have hs1 : s1.MemOk := h.putRun.raise
    exact hs1.mapCl

theorem execMatrixCommandComplete_memOk {cl : ℕ} {s : State} (h : s.MemOk) :
    Result.MemOk (execMatrixCommandComplete cl s) := by
  unfold execMatrixCommandComplete
  change State.MemOk _
  extract_lets _
  split
  · exact h
  split
  · exact h
  split
  · split
    · exact h.setCl (by simpa using h.cluster _)
    · exact h
  · split
    · exact h.matEnd
    · exact h
  split
  · exact h.matEnd
  split
  next heq1 =>
    have hs1 := h.matStep.ok heq1
    split
    · exact h
    split
    · exact hs1.matEnd
    · exact hs1
  next heq1 =>
    have hs1 := h.matStep.fail heq1
    exact h
  next heq1 => exact State.MemOk.matHeld (by exact (h.matStep.wait heq1))

theorem State.MemOk.matFail {s : State} {cl : ℕ} {r : MatRun} (h : s.MemOk) : (s.matFail cl r).MemOk := by
  unfold State.matFail
  split
  · exact h
  split
  · exact h
  · exact h.mapCl.raiseEng

theorem execMatrixAccessFailure_memOk {cl : ℕ} {s : State} (h : s.MemOk) :
    Result.MemOk (execMatrixAccessFailure cl s) := by
  unfold execMatrixAccessFailure
  change State.MemOk _
  extract_lets k
  split
  · exact h
  next r _ =>
    split
    · exact h
    · split
      · exact h.matFail
      · split
        · exact h
        · have hstep : Got.MemOk (match r.cmd.op with | .mmp _ _ _ => s.mmpStep cl r | _ => s.matStep cl r 0) := by
            split
            · exact h.mmpStep
            · exact h.matStep
          split
          next heq => exact State.MemOk.either (hstep.ok heq).matFail h
          · exact h
          next heq => exact State.MemOk.matHeld (hstep.wait heq)

/-! ### Machine/Rings -/

theorem execRingDef_memOk {g : Guard} {a : Reg} {h1 : Fin 16} {s : State} (h : s.MemOk) :
    Result.MemOk (execRingDef g a h1 s) := by
  unfold execRingDef
  refine guarded_memOk h fun _ hs => ?_
  refine hs.onControl fun _ hs1 => ?_
  refine hs1.withRecord64 fun _ _ hs2 => ?_
  split
  · exact hs2.trap
  split
  · exact hs2.trap
  · exact hs2.mapHere.complete

/-! ### Machine/Walks -/

theorem execPageWalkStart_memOk {cl k1 : ℕ} {s : State} (h : s.MemOk) :
    Result.MemOk (execPageWalkStart cl k1 s) := by
  unfold execPageWalkStart
  change State.MemOk _
  split
  · exact h
  extract_lets _ _
  split
  · exact h
  · exact h.mapCl.mapDie

theorem State.MemOk.faultRecord {s : State} {p : Partition} {c : ℕ} {m : Miss} {level kind : ℕ} (h : s.MemOk) :
    (s.faultRecord p c m level kind).1.MemOk := by
  change PairMemOk _
  rw [show @State.faultRecord = _ by delta State.faultRecord; exact rfl]
  generalize s.fqKey p 0 = o
  cases o with
  | none => exact h
  | some k0 =>
    change PairMemOk (ite _ _ _)
    generalize s.fqKey p _ = o'
    split
    · cases o' with
      | none => exact h
      | some k => exact State.MemOk.knownFar (State.MemOk.store h.store.knownFar)
    · exact h.store.knownFar

@[simp] theorem Cluster.pendEngPage_tiles {k : Cluster} : (k.pendEngPage).tiles = k.tiles := rfl

theorem execPageWalkComplete_memOk {cl k : ℕ} {s : State} (h : s.MemOk) :
    Result.MemOk (execPageWalkComplete cl k s) := by
  unfold execPageWalkComplete
  change State.MemOk _
  generalize @State.walk = walk
  split
  · exact h
  · split
    · exact h
    · extract_lets -underBinder p joins cs reads s0
      have hs0 : s0.MemOk := h.tableFills.cacheDesc
      clear_value cs reads s0
      split
      · exact State.MemOk.foldl (fun _ _ ht => ht.mapCl) hs0.mapDie
      · extract_lets -underBinder isEng eng
        clear_value eng
        split
        next s1 rec_ heq =>
          have hs1 : s1.MemOk := by
            refine State.MemOk.fst ?_ heq
            split
            · exact hs0
            · split
              · exact hs0.faultRecord
              · exact hs0
          extract_lets endIt fin pend s2
          have hs2 : s2.MemOk := hs1.foldl fun _ _ ht => ht.mapCl
          exact State.MemOk.either (hs2.foldl fun _ _ ht => ht.mapCl) hs2

theorem State.MemOk.tlbiRemove {s : State} {p : Partition} {t : TlbiKind} (h : s.MemOk) :
    (s.tlbiRemove p t).MemOk := by
  unfold State.tlbiRemove
  extract_lets s1 _ _
  have hs1 : s1.MemOk := h.mapPartCls
  exact hs1

theorem State.MemOk.tlbiWake {s : State} {p : Partition} {t : TlbiKind} (h : s.MemOk) :
    (s.tlbiWake p t).MemOk := by
  unfold State.tlbiWake
  extract_lets _ s1
  have hs1 : s1.MemOk := h.mapPartCls
  split
  · exact hs1.mapPart
  · exact hs1

theorem State.MemOk.tlbi {s : State} {t : TlbiKind} (h : s.MemOk) : (s.tlbi t).MemOk := by
  unfold State.tlbi
  extract_lets _ _ s1
  have hs1 : s1.MemOk := h.tlbiRemove
  split
  · split
    · exact h
    · exact h.tlbiWake.complete
  split
  · exact hs1.tlbiWake.complete
  · exact hs1.mapMe

theorem execTlbiAll_memOk {g : Guard} {s : State} (h : s.MemOk) : Result.MemOk (execTlbiAll g s) := by
  unfold execTlbiAll
  refine guarded_memOk h fun _ hs => ?_
  split
  · exact hs.trap
  · exact hs.tlbi

theorem execTlbiAsid_memOk {g : Guard} {a : Reg} {s : State} (h : s.MemOk) :
    Result.MemOk (execTlbiAsid g a s) := by
  unfold execTlbiAsid
  refine guarded_memOk h fun _ hs => ?_
  extract_lets _
  split
  · exact hs.trap
  split
  · exact hs.ill
  · exact hs.tlbi

theorem execTlbiVa_memOk {g : Guard} {a : Reg} {s : State} (h : s.MemOk) :
    Result.MemOk (execTlbiVa g a s) := by
  unfold execTlbiVa
  refine guarded_memOk h fun _ hs => ?_
  split
  · exact hs.trap
  · exact hs.tlbi

theorem execTlbiVaAsid_memOk {g : Guard} {a : Reg} {s : State} (h : s.MemOk) :
    Result.MemOk (execTlbiVaAsid g a s) := by
  unfold execTlbiVaAsid
  refine guarded_memOk h fun _ hs => ?_
  extract_lets _
  split
  · exact hs.trap
  split
  · exact hs.ill
  · exact hs.tlbi

/-! ### Machine/Delivery -/

theorem State.MemOk.redirect {s : State} {c : ℕ} {q : SeqId} (h : s.MemOk) : (s.redirect c q).MemOk := by
  unfold State.redirect
  extract_lets s1 _
  have hs1 : s1.MemOk := h.mapCl
  split
  · split
    · exact hs1.mapSeq.raiseEng
    · exact hs1
  · exact hs1

theorem execTrapDelivery_memOk {cl : ℕ} {q : SeqId} {s : State} (h : s.MemOk) :
    Result.MemOk (execTrapDelivery cl q s) := by
  unfold execTrapDelivery
  change State.MemOk _
  split
  · exact h.redirect
  split
  · exact h.redirect
  extract_lets _ s1 _
  have hs1 : s1.MemOk := h.mapSeq
  exact hs1.fresh.deliver

/-! ### Machine/Spaces -/

theorem State.MemOk.updPartition {s : State} {p : Partition} {f : Partition → Partition} (h : s.MemOk) :
    (s.updPartition p f).MemOk :=
  h

theorem State.MemOk.countCtx {s : State} {ctx e n : ℕ} (h : s.MemOk) : (s.countCtx ctx e n).MemOk := by
  unfold State.countCtx
  refine h.foldl fun _ _ hs => ?_
  split
  · extract_lets t1
    have ht1 : t1.MemOk := hs.mapCtx
    split
    · exact ht1.msix
    · exact ht1

theorem State.MemOk.ctxTarget {s : State} {p : Partition} {ctx va n : ℕ} {need : Need} (h : s.MemOk) :
    Got.MemOk (s.ctxTarget p ctx va n need) := by
  unfold State.ctxTarget
  split
  · exact h
  split
  · exact h
  extract_lets s1
  have hs1 : s1.MemOk := h.tableFills.cacheDesc
  split
  · exact hs1
  extract_lets _
  split
  · exact hs1
  split
  · split <;> exact hs1
  · exact hs1
  · exact hs1
  · exact hs1

theorem State.MemOk.ctxMiss {s : State} {w : Who} {key : ℕ} (h : s.MemOk) : (s.ctxMiss w key).MemOk :=
  h.countCtx

theorem State.MemOk.ctxPiece {s : State} {p : Partition} {w : Who} {va n : ℕ} (h : s.MemOk) :
    Got.MemOk (s.ctxPiece p w va n) := by
  unfold State.ctxPiece
  extract_lets give
  split
  next heq => exact h.ctxTarget.ok heq
  next heq =>
    have hs1 := h.ctxTarget.ok heq
    dsimp -zeta only [give]
    split
    next heq1 => exact hs1.ctxMiss.readAt.ok heq1
    next heq1 => exact hs1.ctxMiss.readAt.fail heq1
    next heq1 => exact hs1.ctxMiss.readAt.wait heq1
  next heq =>
    have hs1 := h.ctxTarget.ok heq
    dsimp -zeta only [give]
    split
    next heq1 => exact hs1.readAt.ok heq1
    next heq1 => exact hs1.readAt.fail heq1
    next heq1 => exact hs1.readAt.wait heq1
  next heq => exact h.ctxTarget.fail heq
  next heq => exact h.ctxTarget.wait heq

theorem State.MemOk.ctxPieces {s : State} {p : Partition} {w : Who} {l : List (ℕ × ℕ)} {acc : List Byte}
    (h : s.MemOk) : Got.MemOk (s.ctxPieces p w l acc) := by
  induction l generalizing s acc with
  | nil => exact h
  | cons e l ih =>
    unfold State.ctxPieces
    split
    next heq => exact ih (h.ctxPiece.ok heq)
    next heq => exact h.ctxPiece.fail heq
    next heq => exact h.ctxPiece.wait heq

theorem State.MemOk.ctxRead {s : State} {p : Partition} {w : Who} {va n : ℕ} (h : s.MemOk) :
    Got.MemOk (s.ctxRead p w va n) :=
  h.ctxPieces

theorem State.MemOk.ctxPut {s : State} {p : Partition} {w : Who} {rels : List RelInfo} {va : ℕ}
    {bs : List Byte} (h : s.MemOk) : Got.MemOk (s.ctxPut p w rels va bs) := by
  unfold State.ctxPut
  split
  next heq =>
    have hs1 := h.ctxTarget.ok heq
    extract_lets s2 s3
    have hs2 : s2.MemOk := hs1.ctxMiss.meetsL2
    have hs3 : s3.MemOk := hs2.store.note
    exact hs3.knownFar
  next heq => exact (h.ctxTarget.ok heq).toHost
  next heq => exact (h.ctxTarget.ok heq).sendRemote
  next heq => exact h.ctxTarget.ok heq
  next heq => exact h.ctxTarget.fail heq
  next heq => exact h.ctxTarget.wait heq

theorem State.MemOk.ctxPuts {s : State} {p : Partition} {w : Who} {rels : List RelInfo} {l : List (ℕ × ℕ)}
    {bs : List Byte} (h : s.MemOk) : Got.MemOk (s.ctxPuts p w rels l bs) := by
  induction l generalizing s bs with
  | nil => exact h
  | cons e l ih =>
    unfold State.ctxPuts
    split
    next heq => exact ih (h.ctxPut.ok heq)
    next heq => exact h.ctxPut.fail heq
    next heq => exact h.ctxPut.wait heq

theorem State.MemOk.ctxWrite {s : State} {p : Partition} {w : Who} {rels : List RelInfo} {va : ℕ}
    {bs : List Byte} (h : s.MemOk) : Got.MemOk (s.ctxWrite p w rels va bs) :=
  h.ctxPuts

theorem Walk.elim_memOk {s : State} {f : ℕ → ℕ → State} (h : s.MemOk) (hf : ∀ l k, (f l k).MemOk) :
    ∀ w : Walk, (match w with | .leaf _ => s | .miss l k => f l k).MemOk
  | .leaf _ => h
  | .miss l k => hf l k

theorem State.MemOk.holdFor {s : State} {p : Partition} {ctx va : ℕ} {write : Bool} (h : s.MemOk) :
    (s.holdFor p ctx va write).MemOk := by
  unfold State.holdFor
  refine Walk.elim_memOk h (fun level kind => ?_) _
  extract_lets m
  split
  next heq =>
    extract_lets s2
    have hs2 : s2.MemOk := (h.faultRecord.fst heq).countCtx.updPartition
    split
    · exact State.MemOk.either hs2.mapCl hs2
    · exact hs2

theorem State.MemOk.postHost {s : State} {ctx a : ℕ} {bs : List Byte} (h : s.MemOk) :
    (s.postHost ctx a bs).MemOk := by
  unfold State.postHost
  split
  · exact h.hostWrite
  · exact h

theorem State.MemOk.useCtx {s : State} {n : ℕ} (h : s.MemOk) : (s.useCtx n).MemOk :=
  h.cacheDesc

/-! ### Machine/Counters -/

theorem State.MemOk.forwardCounts {s : State} {c : ℕ} (h : s.MemOk) : (s.forwardCounts c).MemOk := by
  unfold State.forwardCounts
  extract_lets _ one
  have hone : ∀ (t1 : State) (e1 : ℕ), t1.MemOk → (one t1 e1).MemOk := by
    intro t1 e1 hs
    dsimp -zeta only [one]
    split
    · exact hs.countCtx
    · exact hs
  exact (h.foldl (fun _ _ hs => hone _ _ hs)).mapCl

theorem execCounterForward_memOk {cl : ℕ} {s : State} (h : s.MemOk) :
    Result.MemOk (execCounterForward cl s) :=
  h.forwardCounts

/-! ### Machine/Power -/

theorem State.MemOk.mapPower {s : State} {c : ℕ} {f : Power → Power} (h : s.MemOk) : (s.mapPower c f).MemOk :=
  h.mapCl

theorem execRailSlewDone_memOk {cl : ℕ} {s : State} (h : s.MemOk) : Result.MemOk (execRailSlewDone cl s) :=
  h.mapPower

theorem execCurrentReport_memOk {cl code : ℕ} {s : State} (h : s.MemOk) :
    Result.MemOk (execCurrentReport cl code s) := by
  unfold execCurrentReport
  change State.MemOk _
  extract_lets _ _
  split
  · exact h
  · exact h.mapPower

theorem State.MemOk.evaluate {s : State} {c : ℕ} (h : s.MemOk) : (s.evaluate c).1.MemOk := by
  unfold State.evaluate
  extract_lets _ _ _
  split
  · extract_lets _ _ _ _
    exact h.setCl (by exact h.cluster _)

theorem State.MemOk.mapRank0 {s : State} {job : ℕ} {g : Gang} {f : Sequencer → Sequencer} (h : s.MemOk) :
    (s.mapRank0 job g f).MemOk := by
  unfold State.mapRank0
  split
  · exact h
  · split
    · exact h.mapSeq
    · refine h.withSaved fun k => ?_
      rw [Table.get_map_tiles]
      · exact h.saved k
      · intro e; split <;> rfl
      · intro e; split <;> rfl

theorem State.MemOk.raiseDlrisk {s : State} {job gi : ℕ} {slack : ℤ} (h : s.MemOk) :
    (s.raiseDlrisk job gi slack).MemOk := by
  unfold State.raiseDlrisk
  split
  · exact h
  split
  · exact h
  split
  · exact h.mapGang
  · exact h.mapGang.mapRank0

theorem execGovernorEvaluation_memOk {cl : ℕ} {s : State} (h : s.MemOk) :
    Result.MemOk (execGovernorEvaluation cl s) := by
  unfold execGovernorEvaluation
  change State.MemOk _
  extract_lets group one t
  have hone : ((group.foldl one (s, none)).1).MemOk :=
    List.foldlRecOn _ _ (motive := fun a : State × Option Int => a.1.MemOk) h fun acc ha c _ => ha.evaluate
  split
  · exact h
  · split
    next heq => exact hone.fst heq
    next heq => exact (hone.fst heq).raiseDlrisk

theorem execCanaryTrip_memOk {cl : ℕ} {s : State} (h : s.MemOk) : Result.MemOk (execCanaryTrip cl s) :=
  h.mapPower

theorem execCorrectableError_memOk {cl : ℕ} {s : State} (h : s.MemOk) :
    Result.MemOk (execCorrectableError cl s) :=
  h.mapPower

theorem execAgeingRead_memOk {cl driftPpm : ℕ} {s : State} (h : s.MemOk) :
    Result.MemOk (execAgeingRead cl driftPpm s) :=
  State.MemOk.either h h.mapPower

theorem State.MemOk.withdraw {s : State} {c : ℕ} (h : s.MemOk) : (s.withdraw c).MemOk := by
  unfold State.withdraw
  split
  · exact h
  extract_lets x _
  have hx : x.MemOk := h.mapPower
  exact hx

theorem execClusterWithdraw_memOk {cl : ℕ} {s : State} (h : s.MemOk) :
    Result.MemOk (execClusterWithdraw cl s) :=
  State.MemOk.either h h.withdraw

theorem execReplan_memOk {cl : ℕ} {almanac : List ℕ} {s : State} (h : s.MemOk) :
    Result.MemOk (execReplan cl almanac s) := by
  unfold execReplan
  change State.MemOk _
  extract_lets _ _ _ x _
  have hx : x.MemOk := h.mapPower
  split
  · exact h
  split
  · exact h.mapPower
  split
  · exact h.withdraw
  split
  · exact hx
  · exact h.mapPower

theorem execEnloRead_memOk {cl requester : ℕ} {s : State} (h : s.MemOk) :
    Result.MemOk (execEnloRead cl requester s) :=
  h.mapPower

/-! ### Machine/Jobs -/

theorem State.MemOk.siloMove {s : State} {ctx num : ℕ} (h : s.MemOk) : (s.siloMove ctx num).MemOk := by
  unfold State.siloMove
  extract_lets s1 _ _ x
  have hs1 : s1.MemOk := h.useCtx
  have hx : x.MemOk := hs1.mapJob
  split
  · exact hs1
  split
  · split
    · exact hx
    · exact hs1
  split
  · exact hx
  · exact hs1

theorem State.MemOk.siloToPool {s : State} (h : s.MemOk) : (s.siloToPool).MemOk :=
  h.foldl (fun _ _ hs => hs.foldl (fun _ _ hs1 => hs1.siloMove))

theorem State.MemOk.siloPut {s : State} {ctx num : ℕ} {rec_ : List Byte} (h : s.MemOk) :
    (s.siloPut ctx num rec_).MemOk := by
  unfold State.siloPut
  extract_lets s1 _ s11
  have hs1 : s1.MemOk := h.useCtx
  have hs11 : s11.MemOk := by
    dsimp -zeta only [s11]
    split
    · exact hs1.store
    · exact hs1
  exact hs11

theorem State.MemOk.newJob {s : State} {ctx : ℕ} {l : Launch} {sp : Option Spawner} {code : ℕ} {pool : Bool}
    (h : s.MemOk) : (s.newJob ctx l sp code pool).1.MemOk := by
  unfold State.newJob
  extract_lets _ _ _ _ _ _ _ s1
  have hs1 : s1.MemOk := h.mapCtx
  exact hs1

theorem State.MemOk.placeJob {s : State} {ctx : ℕ} {b : List Byte} {sp : Option Spawner} {pool : Bool}
    (h : s.MemOk) : (s.placeJob ctx b sp pool).1.MemOk := by
  unfold State.placeJob
  split
  next heq =>
    have hs1 := h.newJob.fst heq
    exact State.MemOk.either hs1 hs1.siloPut

theorem State.MemOk.acceptHost {s : State} {ctx : ℕ} {b : List Byte} (h : s.MemOk) :
    (s.acceptHost ctx b).MemOk := by
  unfold State.acceptHost
  extract_lets s0 _
  have hs0 : s0.MemOk := h.cacheDesc
  split
  · exact hs0.newJob
  split
  · exact hs0.newJob
  · exact hs0.placeJob

theorem State.MemOk.acceptSpawn {s : State} {ctx : ℕ} {b : List Byte} {sp : Spawner} (h : s.MemOk) :
    (s.acceptSpawn ctx b sp).1.MemOk := by
  unfold State.acceptSpawn
  extract_lets s0 _
  have hs0 : s0.MemOk := h.cacheDesc
  split
  · exact hs0
  split
  · exact hs0
  split
  next heq1 => exact hs0.placeJob.fst heq1

theorem State.MemOk.spawn {s : State} {i : Instr} {d a : Reg} {cont : Bool} (h : s.MemOk) :
    (s.spawn i d a cont).MemOk := by
  unfold State.spawn
  refine h.onControl fun _ hs => ?_
  refine hs.withRecordRel fun _ _ hs1 => ?_
  extract_lets _ _ s0
  have hs0 : s0.MemOk := hs1.mapMe
  split
  next heq => exact (hs0.acceptSpawn.fst heq).mapTask.mapMe.put

theorem execSpawn_memOk {g : Guard} {d a : Reg} {s : State} (h : s.MemOk) :
    Result.MemOk (execSpawn g d a s) :=
  guarded_memOk h (fun _ hs => hs.spawn)

theorem execSpawnC_memOk {g : Guard} {d a : Reg} {s : State} (h : s.MemOk) :
    Result.MemOk (execSpawnC g d a s) :=
  guarded_memOk h (fun _ hs => hs.spawn)

theorem State.MemOk.reject {s : State} {ctx reason : ℕ} (h : s.MemOk) : (s.reject ctx reason).MemOk := by
  unfold State.reject
  extract_lets s1 _
  have hs1 : s1.MemOk := h.useCtx
  exact hs1.mapCtx.postHost

theorem execLaunchWrite_memOk {fn off : ℕ} {bytes : List Byte} {at_ : InboundAttr} {s : State} (h : s.MemOk) :
    Result.MemOk (execLaunchWrite fn off bytes at_ s) := by
  unfold execLaunchWrite
  change State.MemOk _
  extract_lets _ _ s1
  have hs1 : s1.MemOk := h.cacheDesc
  split
  · exact h
  split
  · exact hs1.updPartition
  split
  · exact hs1.reject
  split
  · exact hs1.reject
  · exact hs1.acceptHost

@[simp] theorem Cluster.freed_tiles {k : Cluster} : (k.freed).tiles = k.tiles := rfl

theorem State.MemOk.gangDone {s : State} {job gi : ℕ} (h : s.MemOk) : (s.gangDone job gi).MemOk := by
  unfold State.gangDone
  split
  · exact h
  extract_lets free
  have hfree : ∀ (t1 : State) (c1 : ℕ), t1.MemOk → (free t1 c1).MemOk := by
    intro t1 c1 hs
    dsimp -zeta only [free]
    exact hs.mapCl
  exact (h.mapGang.foldl (fun _ _ hs => hfree _ _ hs)).mapJob

theorem State.MemOk.gangFails {s : State} {job gi code rank : ℕ} (h : s.MemOk) :
    (s.gangFails job gi code rank).MemOk :=
  h.mapGang.gangDone

theorem State.MemOk.gangSaved {s : State} {job gi : ℕ} (h : s.MemOk) : (s.gangSaved job gi).MemOk := by
  unfold State.gangSaved
  split
  · exact h
  split
  · exact h
  · exact h.mapGang

theorem State.MemOk.sendFlush {s : State} {sc : Scope} {c : ℕ} (h : s.MemOk) : (s.sendFlush sc c).MemOk := by
  unfold State.sendFlush
  split
  next heq => exact (h.sendMarkers.fst heq).mapTask

theorem State.MemOk.taskZero {s : State} {c : ℕ} (h : s.MemOk) : (s.taskZero c).MemOk := by
  unfold State.taskZero
  split
  · exact h.askZero
  · exact h

theorem execTaskRetire_memOk {cl : ℕ} {s : State} (h : s.MemOk) : Result.MemOk (execTaskRetire cl s) := by
  unfold execTaskRetire
  change State.MemOk _
  split
  · exact h
  extract_lets s1 s11 _ _ s2
  have hs1 : s1.MemOk := h.sendFlush.taskZero
  have hs11 : s11.MemOk := hs1.mapCl.forwardCounts
  have hs2 : s2.MemOk := hs11.mapGang.mapCl.settleColls.knownFar
  split
  · exact hs1
  split
  · split
    · exact hs2.gangDone
    · exact hs2.gangSaved
  · exact hs2

theorem State.MemOk.postDone {s : State} {j : Job} (h : s.MemOk) : (s.postDone j).MemOk := by
  unfold State.postDone
  extract_lets s1 _ _ s11
  have hs1 : s1.MemOk := h.useCtx
  have hs11 : s11.MemOk := hs1.mapCtx
  exact hs11.postHost.postHost.msix

theorem State.MemOk.jobGone {s : State} {num : ℕ} (h : s.MemOk) : (s.jobGone num).MemOk :=
  State.MemOk.siloToPool h

theorem State.MemOk.jobFinish {s : State} {p : Partition} {j : Job} (h : s.MemOk) :
    (s.jobFinish p j).MemOk := by
  unfold State.jobFinish
  split
  · exact h
  split
  · exact h.mapJob.toHost
  · exact h.knownFar.postDone.jobGone

theorem execJobComplete_memOk {job : ℕ} {s : State} (h : s.MemOk) : Result.MemOk (execJobComplete job s) := by
  unfold execJobComplete
  change State.MemOk _
  split
  · exact h
  split
  · exact h
  extract_lets _ _ _
  split
  · exact h.jobFinish
  split
  · exact h
  extract_lets _
  split
  next heq2 => exact (h.ctxPut.ok heq2).knownFar.mapJob
  next heq2 => exact h.ctxPut.wait heq2
  next heq2 =>
    have hs1 := h.ctxPut.fail heq2
    split
    · exact hs1.holdFor
    · exact hs1.mapJob

@[simp] theorem Cluster.engAcquire_tiles {k : Cluster} {ids : List ℕ} :
    (k.engAcquire ids).tiles = k.tiles := rfl

@[simp] theorem Cluster.nextStep_tiles {k : Cluster} {ids : List ℕ} {count now : ℕ} :
    (k.nextStep ids count now).tiles = k.tiles := by
  simp [Cluster.nextStep]

theorem execSuperstepEnd_memOk {job gi : ℕ} {s : State} (h : s.MemOk) :
    Result.MemOk (execSuperstepEnd job gi s) := by
  unfold execSuperstepEnd
  change State.MemOk _
  split
  · exact h
  extract_lets _ s1 _ one
  have hs1 : s1.MemOk := h.foldl (fun _ _ hs => hs.sendFlush.taskZero)
  have hone : ∀ (t1 : State) (c1 : ℕ), t1.MemOk → (one t1 c1).MemOk := by
    intro t1 c1 hs
    dsimp -zeta only [one]
    exact hs.mapCl
  split
  · exact h
  split
  · exact hs1
  · exact (hs1.foldl (fun _ _ hs => hone _ _ hs)).knownFar.mapGang

theorem execDlriskPost_memOk {job gi : ℕ} {s : State} (h : s.MemOk) :
    Result.MemOk (execDlriskPost job gi s) := by
  unfold execDlriskPost
  change State.MemOk _
  split
  · extract_lets _ _ _ s1 _
    have hs1 : s1.MemOk := h.useCtx
    split
    · exact h
    split
    · exact h
    extract_lets _ s11 s2
    have hs11 : s11.MemOk := hs1.mapCtx.mapGang
    have hs2 : s2.MemOk := hs11.postHost.postHost
    split
    · exact hs2.mapRank0
    · exact hs2
  · exact h

/-! ### Machine/Worlds -/

theorem State.MemOk.readWorlds {s : State} {c : ℕ} (h : s.MemOk) : (s.readWorlds c).MemOk := by
  unfold State.readWorlds
  extract_lets _
  split
  · exact h.mapPart
  split
  · exact h.mapPart
  extract_lets _
  exact h.mapPart

theorem State.MemOk.endQuantum {s : State} {c : ℕ} (h : s.MemOk) : (s.endQuantum c).MemOk := by
  unfold State.endQuantum
  extract_lets _ _ _ stop
  have hstop : ∀ (t1 : State) (j1 : Job), t1.MemOk → (stop t1 j1).MemOk := by
    intro t1 j1 hs
    dsimp -zeta only [stop]
    exact hs.foldl (fun _ _ hs1 => hs1.preemptGang)
  split
  · exact h
  split
  · exact h.mapPart
  extract_lets s1
  have hs1 : s1.MemOk := h.mapPart.mapPartCls
  exact hs1.foldl (fun _ _ hs => hstop _ _ hs)

theorem execQuantumExpiry_memOk {part : ℕ} {s : State} (h : s.MemOk) :
    Result.MemOk (execQuantumExpiry part s) := by
  unfold execQuantumExpiry
  change State.MemOk _
  split
  · exact h
  split
  · exact h.endQuantum
  · exact h

theorem State.MemOk.saveRct {s : State} {p : Partition} (h : s.MemOk) : (s.saveRct p).MemOk := by
  unfold State.saveRct
  split
  · exact h.store
  · exact h

theorem execWorldSwitchComplete_memOk {part : ℕ} {s : State} (h : s.MemOk) :
    Result.MemOk (execWorldSwitchComplete part s) := by
  unfold execWorldSwitchComplete
  change State.MemOk _
  split
  · exact h
  split
  · exact h
  split
  · exact h
  · exact h.saveRct.mapPart

theorem State.MemOk.setWsctl {s : State} {c : ℕ} {v : Word} (h : s.MemOk) : (s.setWsctl c v).MemOk :=
  h.mapPart.readWorlds

theorem State.MemOk.mtsWsctlValue {s : State} {v : Word} (h : s.MemOk) : (s.mtsWsctlValue v).MemOk := by
  unfold State.mtsWsctlValue
  extract_lets s1
  have hs1 : s1.MemOk := h.setWsctl
  split
  · exact hs1.endQuantum
  · exact hs1

theorem execMtsWsctl_memOk {g : Guard} {a : Reg} {s : State} (h : s.MemOk) :
    Result.MemOk (execMtsWsctl g a s) := by
  unfold execMtsWsctl
  refine guarded_memOk h fun _ hs => ?_
  refine hs.privReg fun _ hs1 => ?_
  extract_lets _
  split
  · exact hs1.ill
  · exact hs1.mtsWsctlValue.skip

theorem execMtsWsctlSwreq_memOk {g : Guard} {a : Reg} {s : State} (h : s.MemOk) :
    Result.MemOk (execMtsWsctlSwreq g a s) := by
  unfold execMtsWsctlSwreq
  refine guarded_memOk h fun _ hs => ?_
  refine hs.privReg fun _ hs1 => ?_
  extract_lets _
  split
  · exact hs1.ill
  · exact hs1.mtsWsctlValue.skip

theorem execMtsWtbl_memOk {g : Guard} {a : Reg} {s : State} (h : s.MemOk) :
    Result.MemOk (execMtsWtbl g a s) := by
  unfold execMtsWtbl
  refine guarded_memOk h fun _ hs => ?_
  refine hs.privReg fun _ hs1 => ?_
  extract_lets _
  split
  · exact hs1.ill
  · exact hs1.mapPart.readWorlds.skip

/-! ### Machine/Schedule -/

theorem State.MemOk.blockHeaders {s : State} {p : Partition} {ctx base : ℕ} {l : List (ℕ × ℕ × ℕ)}
    {acc : List ℕ} (h : s.MemOk) : Got.MemOk (s.blockHeaders p ctx base l acc) := by
  induction l generalizing s acc with
  | nil => exact h
  | cons r l ih =>
    unfold State.blockHeaders
    split
    next heq => exact ih (h.ctxRead.ok heq)
    next heq => exact h.ctxRead.fail heq
    next heq => exact h.ctxRead.wait heq

theorem State.MemOk.checkImage {s : State} {p : Partition} {ctx image : ℕ} (h : s.MemOk) :
    Got.MemOk (s.checkImage p ctx image) := by
  unfold State.checkImage
  split
  next heq => exact h.ctxRead.wait heq
  next heq => exact h.ctxRead.fail heq
  next heq =>
    have hs1 := h.ctxRead.ok heq
    split
    · exact hs1
    split
    next heq1 => exact hs1.ctxRead.wait heq1
    next heq1 => exact hs1.ctxRead.fail heq1
    next heq1 =>
      have hs11 := hs1.ctxRead.ok heq1
      extract_lets _ _
      split
      · exact hs11
      split
      next heq2 => exact hs11.blockHeaders.wait heq2
      next heq2 => exact hs11.blockHeaders.fail heq2
      next heq2 =>
        have hs3 := hs11.blockHeaders.ok heq2
        split <;> exact hs3

theorem State.MemOk.readEntry {s : State} {p : Partition} {j : Job} {gi : ℕ} (h : s.MemOk) :
    (s.readEntry p j gi).MemOk := by
  unfold State.readEntry
  split
  next heq => exact h.ctxRead.wait heq
  next heq => exact (h.ctxRead.fail heq).gangFails
  next heq =>
    have hs1 := h.ctxRead.ok heq
    split
    · exact hs1.mapGang
    · exact hs1.gangFails

theorem State.MemOk.makeReady {s : State} {p : Partition} {j : Job} {g : Gang} (h : s.MemOk) :
    (s.makeReady p j g).MemOk := by
  unfold State.makeReady
  split
  next heq => exact h.checkImage.wait heq
  next heq => exact h.checkImage.fail heq
  next heq => exact (h.checkImage.ok heq).gangFails
  next heq =>
    have hs1 := h.checkImage.ok heq
    extract_lets _
    split
    · exact hs1.gangFails
    split
    · exact hs1.gangFails
    · exact hs1.mapGang

theorem State.MemOk.advanceGang {s : State} {p : Partition} {num gi : ℕ} (h : s.MemOk) :
    (s.advanceGang p num gi).MemOk := by
  unfold State.advanceGang
  extract_lets read stamp ready
  have hread : ∀ (t1 : State), t1.MemOk → (read t1).MemOk := by
    intro t1 hs
    dsimp -zeta only [read]
    split
    · split
      · exact hs.readEntry
      · exact hs
    · exact hs
  have hstamp : ∀ (t1 : State), t1.MemOk → (stamp t1).MemOk := by
    intro t1 hs
    dsimp -zeta only [stamp]
    split
    · split
      · exact hs.mapGang
      · exact hs
    · exact hs
  have hready : ∀ (t1 : State), t1.MemOk → (ready t1).MemOk := by
    intro t1 hs
    dsimp -zeta only [ready]
    split
    · split
      · exact hs.makeReady
      · exact hs
    · exact hs
  exact hready _ (hstamp _ (hread _ h))

theorem State.MemOk.reworld {s : State} {p : Partition} {num gi : ℕ} (h : s.MemOk) :
    (s.reworld p num gi).MemOk := by
  unfold State.reworld
  split
  · split
    · exact h
    extract_lets _
    split
    · exact h.gangFails
    · exact h.mapGang
  · exact h

theorem State.MemOk.reworldAll {s : State} {p : Partition} (h : s.MemOk) : (s.reworldAll p).MemOk :=
  h.foldl (fun _ _ hs => hs.foldl (fun _ _ hs1 => hs1.reworld))

theorem State.MemOk.advanceGangs {s : State} {p : Partition} (h : s.MemOk) : (s.advanceGangs p).MemOk := by
  unfold State.advanceGangs
  extract_lets _
  exact h.foldl (fun _ _ hs => hs.foldl (fun _ _ hs1 => hs1.advanceGang))

@[simp] theorem Cluster.emptyStaged_tiles {k : Cluster} : (k.emptyStaged).tiles = k.tiles :=
  Cluster.foldl_tiles

theorem State.MemOk.prepare {s : State} {p : Partition} {j : Job} {g : Gang} {r c : ℕ} (h : s.MemOk) :
    (s.prepare p j g r c).MemOk := by
  unfold State.prepare
  extract_lets _ go named
  have hgo : ∀ (s1 : State), s1.MemOk → (go s1).MemOk := by
    intro s1 hs
    dsimp -zeta only [go]
    exact hs.mapCl
  have hnamed : ∀ (s1 : State) (l1 : List ℕ), s1.MemOk → (named s1 l1).MemOk := by
    intro s1 l1 hs
    dsimp -zeta only [named]
    exact hgo _ (hs.mapCl)
  split
  · split
    next heq1 => exact hnamed _ _ (h.ctxRead.ok heq1)
    next heq1 => exact hnamed _ _ (h.ctxRead.fail heq1)
    next heq1 => exact h.ctxRead.wait heq1
  · exact hgo _ h
  · exact h

theorem State.MemOk.stage {s : State} {p : Partition} {j : Job} {g : Gang} (h : s.MemOk) :
    (s.stage p j g).MemOk := by
  unfold State.stage
  extract_lets l s1
  have hs1 : s1.MemOk := by
    refine h.withClusters fun c => ?_
    rw [Table.get_map_tiles]
    · exact h.cluster c
    · intro e; split <;> rfl
    · intro e; split <;> rfl
  exact hs1.foldl fun _ _ ht => ht.prepare

theorem State.MemOk.prepFrame {s : State} {cl : ℕ} (h : s.MemOk) : (s.prepFrame cl).MemOk := by
  unfold State.prepFrame
  split
  · exact h
  split
  · extract_lets next put _
    have hput : ∀ (s1 : State) (n1 : Option Prep), s1.MemOk → (put s1 n1).MemOk := by
      intro s1 n1 hs
      dsimp -zeta only [put]
      exact hs.mapCl
    split
    next heq3 => exact h.ctxRead.wait heq3
    next heq3 => exact hput _ _ (h.ctxRead.fail heq3)
    next heq3 => exact hput _ _ (h.ctxRead.ok heq3).dropLines
  · exact h

theorem execConfigFrameWrite_memOk {cl : ℕ} {s : State} (h : s.MemOk) :
    Result.MemOk (execConfigFrameWrite cl s) :=
  State.MemOk.either h.prepFrame h.frameWrite

theorem State.MemOk.writeRecord {s : State} {p : Partition} {c w off : ℕ} {bs : List Byte} (h : s.MemOk) :
    (s.writeRecord p c w off bs).MemOk := by
  rw [show @State.writeRecord = _ by delta State.writeRecord; exact rfl]
  generalize @State.localPlace = localPlace
  split
  · exact h.store
  · exact h

theorem State.MemOk.seat {s : State} {p : Partition} {j : Job} {g : Gang} {r c : ℕ} (h : s.MemOk) :
    (s.seat p j g r c).MemOk := by
  unfold State.seat
  extract_lets _ _ _ s1
  have hs1 : s1.MemOk := h.mapCl
  split
  · split
    · exact hs1.writeRecord
    · exact hs1
  · exact h.mapCl

theorem State.MemOk.admission {s : State} {p : Partition} {j : Job} {g : Gang} (h : s.MemOk) :
    (s.admission p j g).MemOk := by
  unfold State.admission
  extract_lets _ _ s1 s2
  have hs1 : s1.MemOk := h.foldl (fun _ _ hs => hs.seat)
  have hs2 : s2.MemOk := hs1.mapGang
  exact hs2.updPartition

theorem State.MemOk.unstage {s : State} {p : Partition} (h : s.MemOk) : (s.unstage p).MemOk :=
  h.mapPartCls

theorem execSchedulerCycle_memOk {part : ℕ} {s : State} (h : s.MemOk) :
    Result.MemOk (execSchedulerCycle part s) := by
  unfold execSchedulerCycle
  change State.MemOk _
  split
  · exact h
  extract_lets s1
  have hs1 : s1.MemOk := h.reworldAll.advanceGangs
  split
  · exact hs1
  split
  · exact hs1.unstage
  split
  · exact hs1.admission.unstage
  · exact hs1.stage

theorem execGangLevelRaise_memOk {job gi : ℕ} {s : State} (h : s.MemOk) :
    Result.MemOk (execGangLevelRaise job gi s) := by
  unfold execGangLevelRaise
  change State.MemOk _
  split
  · split
    · exact h.mapGang
    · exact h
  · exact h

/-! ### Machine/Starts -/

@[simp] theorem Cluster.atStart_tiles {k : Cluster} : (k.atStart).tiles = k.tiles := rfl

@[simp] theorem Cluster.useStaged_tiles {k : Cluster} : (k.useStaged).tiles = k.tiles := by
  unfold Cluster.useStaged
  extract_lets use k1
  have hk1 : k1.tiles = k.tiles := by
    refine Cluster.foldl_tiles fun k x => ?_
    dsimp only [use]
    split <;> simp
  exact hk1

@[simp] theorem Cluster.acquireAll_tiles {k : Cluster} {ids : List ℕ} {count : ℕ} :
    (k.acquireAll ids count).tiles = k.tiles := rfl

@[simp] theorem Cluster.pushStart_tiles {k : Cluster} {r : Record} : (k.pushStart r).tiles = k.tiles := by
  unfold Cluster.pushStart
  extract_lets k1
  split
  next heq =>
    have hk11 := Cluster.enqueue_tiles.some heq
    simp [k1, hk11]
  · simp [k1]

@[simp] theorem Cluster.start_tiles {k : Cluster} {args : List Word} {rs : List Machine.Record} {ids : List ℕ}
    {count now n : ℕ} : (k.start args rs ids count now n).tiles = k.tiles := by
  unfold Cluster.start
  extract_lets pc k1 _ _ _ _ k2 k3 _
  have hk1 : k1.tiles = k.tiles := by simp [k1]
  have hk3 : k3.tiles = k2.tiles := Cluster.foldl_tiles
  exact hk3.trans hk1

theorem State.MemOk.startRecords {s : State} {p : Partition} {ctx thrp thrn : ℕ} {l : List ℕ}
    {acc : List (List Machine.Record)} (h : s.MemOk) : Got.MemOk (s.startRecords p ctx thrp thrn l acc) := by
  induction l generalizing s acc with
  | nil => exact h
  | cons r l ih =>
    unfold State.startRecords
    split
    · exact h
    · split
      next heq => exact ih (h.ctxRead.ok heq)
      next heq => exact h.ctxRead.fail heq
      next heq => exact h.ctxRead.wait heq

theorem State.MemOk.startArgs {s : State} {p : Partition} {ctx argp : ℕ} (h : s.MemOk) :
    Got.MemOk (s.startArgs p ctx argp) := by
  unfold State.startArgs
  split
  · exact h
  split
  · exact h
  split
  next heq => exact h.ctxRead.ok heq
  next heq => exact h.ctxRead.fail heq
  next heq => exact h.ctxRead.wait heq

theorem State.MemOk.startFails {s : State} {p : Partition} {j : Job} {gi cause rank va : ℕ} (h : s.MemOk) :
    (s.startFails p j gi cause rank va).MemOk := by
  unfold State.startFails
  split
  · exact h.holdFor
  · exact h.gangFails

theorem State.MemOk.startGang {s : State} {j : Job} {g : Gang} {args : List Word}
    {recs : List (List Machine.Record)} (h : s.MemOk) : (s.startGang j g args recs).MemOk := by
  unfold State.startGang
  extract_lets ids one
  refine State.MemOk.mapGang (h.foldl fun t e ht => ht.mapCl fun k => ?_)
  split <;> simp

theorem State.MemOk.stopIfSwitching {s : State} {p : Partition} {job gi : ℕ} (h : s.MemOk) :
    (s.stopIfSwitching p job gi).MemOk := by
  unfold State.stopIfSwitching
  split
  · exact h.preemptGang
  · exact h

theorem execGangStart_memOk {job gi : ℕ} {s : State} (h : s.MemOk) :
    Result.MemOk (execGangStart job gi s) := by
  unfold execGangStart
  change State.MemOk _
  split
  · split
    · exact h
    · extract_lets p
      split
      next heq => exact h.startArgs.wait heq
      next heq => exact (h.startArgs.fail heq).startFails
      next heq =>
        have hs1 := h.startArgs.ok heq
        split
        next heq => exact hs1.startRecords.wait heq
        next heq => exact (hs1.startRecords.fail heq).startFails
        next heq => exact (hs1.startRecords.ok heq).startGang.stopIfSwitching
  · exact h

@[simp] theorem Cluster.replay_tiles {k : Cluster} {x : Checkpoint} {step : ℕ} {init : List Record} :
    (k.replay x step init).tiles = k.tiles := by
  unfold Cluster.replay
  extract_lets k1 _ _ k2
  split
  · exact Eq.trans Cluster.foldl_tiles (by simp [k1, k2])
  · simp [k1, k2]

theorem State.MemOk.orphans {s : State} {c : ℕ} (h : s.MemOk) : (s.orphans c).MemOk := by
  unfold State.orphans
  extract_lets _ s1
  have hs1 : s1.MemOk := h
  exact hs1.mapCl

theorem State.MemOk.marginEvent {s : State} {c : ℕ} (h : s.MemOk) : (s.marginEvent c).MemOk := by
  unfold State.marginEvent
  extract_lets s1 _
  have hs1 : s1.MemOk := h.mapPower
  exact hs1

theorem State.MemOk.initAgain {s : State} {c : ℕ} (h : s.MemOk) : (s.initAgain c).1.MemOk := by
  unfold State.initAgain
  extract_lets t
  split
  · exact h
  · split
    next heq => exact h.startRecords.ok heq
    · exact h

theorem execMachineCheck_memOk {cl : ℕ} {residue : Bool} {s : State} (h : s.MemOk) :
    Result.MemOk (execMachineCheck cl residue s) := by
  unfold execMachineCheck
  change State.MemOk _
  extract_lets _ _ s1 _
  have hs1 : s1.MemOk := State.MemOk.either h.marginEvent h
  split
  · split
    · split
      next heq2 => exact (hs1.initAgain.fst heq2).orphans.mapCl
    · exact hs1.terminate
  · exact hs1.terminate

/-! ### Machine/Clocks -/

@[simp] theorem Cluster.clocks_tiles {k : Cluster} {cl n : ℕ} : (k.clocks cl n).tiles = k.tiles := by
  simp [Cluster.clocks]

theorem State.MemOk.clocks {s : State} {cl n : ℕ} (h : s.MemOk) : (s.clocks cl n).MemOk :=
  h.mapCl

/-! ### Machine/Fetch -/

theorem State.MemOk.fetchPart {s : State} {c : ℕ} {q : SeqId} {va n : ℕ} (h : s.MemOk) :
    Got.MemOk (s.fetchPart c q va n) := by
  unfold State.fetchPart
  extract_lets _ _ code
  split
  · exact h
  split
  · extract_lets s1
    have hs1 : s1.MemOk := h.mapCl
    split
    · extract_lets _
      exact hs1.countMiss.touchL2
    · dsimp -zeta only [code]
      split
      next heq2 => exact (hs1.readAt.ok heq2).dropLines
      next heq2 => exact hs1.readAt.fail heq2
      next heq2 => exact hs1.readAt.wait heq2
    · dsimp -zeta only [code]
      split
      next heq2 => exact (hs1.readAt.ok heq2).dropLines
      next heq2 => exact hs1.readAt.fail heq2
      next heq2 => exact hs1.readAt.wait heq2
    · exact h
  · exact h
  · split <;> exact h.mapCl

theorem State.MemOk.fetch {s : State} {c : ℕ} {q : SeqId} {va : ℕ} (h : s.MemOk) :
    Got.MemOk (s.fetch c q va) := by
  unfold State.fetch
  extract_lets _
  split
  next heq =>
    have hs1 := h.fetchPart.ok heq
    split
    · exact hs1
    split
    · exact hs1
    split
    next heq1 => exact hs1.fetchPart.ok heq1
    next heq1 => exact hs1.fetchPart.fail heq1
    next heq1 => exact hs1.fetchPart.wait heq1
  next heq => exact h.fetchPart.fail heq
  next heq => exact h.fetchPart.wait heq

/-! ### Machine/Arith -/

theorem State.MemOk.issueAlu {s : State} {i : Instr} {d : Reg} {v : Word} (h : s.MemOk) :
    (s.issueAlu i d v).MemOk :=
  h.mapMe

theorem execAdd_memOk {g : Guard} {d a b : Reg} {s : State} (h : s.MemOk) :
    Result.MemOk (execAdd g d a b s) :=
  guarded_memOk h (fun _ hs => hs.put)

theorem execSub_memOk {g : Guard} {d a b : Reg} {s : State} (h : s.MemOk) :
    Result.MemOk (execSub g d a b s) :=
  guarded_memOk h (fun _ hs => hs.put)

theorem execMul_memOk {g : Guard} {d a b : Reg} {s : State} (h : s.MemOk) :
    Result.MemOk (execMul g d a b s) :=
  guarded_memOk h (fun _ hs => hs.put)

theorem execMulh_memOk {g : Guard} {d a b : Reg} {s : State} (h : s.MemOk) :
    Result.MemOk (execMulh g d a b s) :=
  guarded_memOk h (fun _ hs => hs.put)

theorem execMulhn_memOk {g : Guard} {d a b : Reg} {s : State} (h : s.MemOk) :
    Result.MemOk (execMulhn g d a b s) :=
  guarded_memOk h (fun _ hs => hs.put)

theorem execDiv_memOk {g : Guard} {d a b : Reg} {s : State} (h : s.MemOk) :
    Result.MemOk (execDiv g d a b s) :=
  guarded_memOk h (fun _ hs => hs.issueAlu)

theorem execDivn_memOk {g : Guard} {d a b : Reg} {s : State} (h : s.MemOk) :
    Result.MemOk (execDivn g d a b s) :=
  guarded_memOk h (fun _ hs => hs.issueAlu)

theorem execRem_memOk {g : Guard} {d a b : Reg} {s : State} (h : s.MemOk) :
    Result.MemOk (execRem g d a b s) :=
  guarded_memOk h (fun _ hs => hs.issueAlu)

theorem execRemn_memOk {g : Guard} {d a b : Reg} {s : State} (h : s.MemOk) :
    Result.MemOk (execRemn g d a b s) :=
  guarded_memOk h (fun _ hs => hs.issueAlu)

theorem execAnd_memOk {g : Guard} {d a b : Reg} {s : State} (h : s.MemOk) :
    Result.MemOk (execAnd g d a b s) :=
  guarded_memOk h (fun _ hs => hs.put)

theorem execOr_memOk {g : Guard} {d a b : Reg} {s : State} (h : s.MemOk) : Result.MemOk (execOr g d a b s) :=
  guarded_memOk h (fun _ hs => hs.put)

theorem execXor_memOk {g : Guard} {d a b : Reg} {s : State} (h : s.MemOk) :
    Result.MemOk (execXor g d a b s) :=
  guarded_memOk h (fun _ hs => hs.put)

theorem execAndn_memOk {g : Guard} {d a b : Reg} {s : State} (h : s.MemOk) :
    Result.MemOk (execAndn g d a b s) :=
  guarded_memOk h (fun _ hs => hs.put)

theorem execShl_memOk {g : Guard} {d a b : Reg} {s : State} (h : s.MemOk) :
    Result.MemOk (execShl g d a b s) :=
  guarded_memOk h (fun _ hs => hs.put)

theorem execShr_memOk {g : Guard} {d a b : Reg} {s : State} (h : s.MemOk) :
    Result.MemOk (execShr g d a b s) :=
  guarded_memOk h (fun _ hs => hs.put)

theorem execSra_memOk {g : Guard} {d a b : Reg} {s : State} (h : s.MemOk) :
    Result.MemOk (execSra g d a b s) :=
  guarded_memOk h (fun _ hs => hs.put)

theorem execMin_memOk {g : Guard} {d a b : Reg} {s : State} (h : s.MemOk) :
    Result.MemOk (execMin g d a b s) :=
  guarded_memOk h (fun _ hs => hs.put)

theorem execMax_memOk {g : Guard} {d a b : Reg} {s : State} (h : s.MemOk) :
    Result.MemOk (execMax g d a b s) :=
  guarded_memOk h (fun _ hs => hs.put)

theorem execMinn_memOk {g : Guard} {d a b : Reg} {s : State} (h : s.MemOk) :
    Result.MemOk (execMinn g d a b s) :=
  guarded_memOk h (fun _ hs => hs.put)

theorem execMaxn_memOk {g : Guard} {d a b : Reg} {s : State} (h : s.MemOk) :
    Result.MemOk (execMaxn g d a b s) :=
  guarded_memOk h (fun _ hs => hs.put)

theorem execClz_memOk {g : Guard} {d a : Reg} {s : State} (h : s.MemOk) : Result.MemOk (execClz g d a s) :=
  guarded_memOk h (fun _ hs => hs.put)

theorem execCtz_memOk {g : Guard} {d a : Reg} {s : State} (h : s.MemOk) : Result.MemOk (execCtz g d a s) :=
  guarded_memOk h (fun _ hs => hs.put)

theorem execPopc_memOk {g : Guard} {d a : Reg} {s : State} (h : s.MemOk) : Result.MemOk (execPopc g d a s) :=
  guarded_memOk h (fun _ hs => hs.put)

theorem execAddi_memOk {g : Guard} {d a : Reg} {imm : BitVec 12} {s : State} (h : s.MemOk) :
    Result.MemOk (execAddi g d a imm s) :=
  guarded_memOk h (fun _ hs => hs.put)

theorem execAndi_memOk {g : Guard} {d a : Reg} {imm : BitVec 12} {s : State} (h : s.MemOk) :
    Result.MemOk (execAndi g d a imm s) :=
  guarded_memOk h (fun _ hs => hs.put)

theorem execOri_memOk {g : Guard} {d a : Reg} {imm : BitVec 12} {s : State} (h : s.MemOk) :
    Result.MemOk (execOri g d a imm s) :=
  guarded_memOk h (fun _ hs => hs.put)

theorem execXori_memOk {g : Guard} {d a : Reg} {imm : BitVec 12} {s : State} (h : s.MemOk) :
    Result.MemOk (execXori g d a imm s) :=
  guarded_memOk h (fun _ hs => hs.put)

theorem execShli_memOk {g : Guard} {d a : Reg} {n : Fin 64} {s : State} (h : s.MemOk) :
    Result.MemOk (execShli g d a n s) :=
  guarded_memOk h (fun _ hs => hs.put)

theorem execShri_memOk {g : Guard} {d a : Reg} {n : Fin 64} {s : State} (h : s.MemOk) :
    Result.MemOk (execShri g d a n s) :=
  guarded_memOk h (fun _ hs => hs.put)

theorem execSrai_memOk {g : Guard} {d a : Reg} {n : Fin 64} {s : State} (h : s.MemOk) :
    Result.MemOk (execSrai g d a n s) :=
  guarded_memOk h (fun _ hs => hs.put)

theorem execBfx_memOk {g : Guard} {d a : Reg} {pos wm1 : Fin 64} {s : State} (h : s.MemOk) :
    Result.MemOk (execBfx g d a pos wm1 s) :=
  guarded_memOk h (fun _ hs => hs.put)

theorem execBfi_memOk {g : Guard} {d a : Reg} {pos wm1 : Fin 64} {s : State} (h : s.MemOk) :
    Result.MemOk (execBfi g d a pos wm1 s) :=
  guarded_memOk h (fun _ hs => hs.put)

theorem execMovi_memOk {g : Guard} {d : Reg} {imm : BitVec 17} {s : State} (h : s.MemOk) :
    Result.MemOk (execMovi g d imm s) :=
  guarded_memOk h (fun _ hs => hs.put)

theorem execMovs_memOk {g : Guard} {d : Reg} {imm : BitVec 16} {s : State} (h : s.MemOk) :
    Result.MemOk (execMovs g d imm s) :=
  guarded_memOk h (fun _ hs => hs.put)

theorem execAddpc_memOk {g : Guard} {d : Reg} {imm : BitVec 17} {s : State} (h : s.MemOk) :
    Result.MemOk (execAddpc g d imm s) :=
  guarded_memOk h (fun _ hs => hs.put)

theorem execCmpEq_memOk {g : Guard} {pd : PReg} {a b : Reg} {s : State} (h : s.MemOk) :
    Result.MemOk (execCmpEq g pd a b s) :=
  guarded_memOk h (fun _ hs => hs.putPred)

theorem execCmpNe_memOk {g : Guard} {pd : PReg} {a b : Reg} {s : State} (h : s.MemOk) :
    Result.MemOk (execCmpNe g pd a b s) :=
  guarded_memOk h (fun _ hs => hs.putPred)

theorem execCmpLt_memOk {g : Guard} {pd : PReg} {a b : Reg} {s : State} (h : s.MemOk) :
    Result.MemOk (execCmpLt g pd a b s) :=
  guarded_memOk h (fun _ hs => hs.putPred)

theorem execCmpGe_memOk {g : Guard} {pd : PReg} {a b : Reg} {s : State} (h : s.MemOk) :
    Result.MemOk (execCmpGe g pd a b s) :=
  guarded_memOk h (fun _ hs => hs.putPred)

theorem execCmpLtn_memOk {g : Guard} {pd : PReg} {a b : Reg} {s : State} (h : s.MemOk) :
    Result.MemOk (execCmpLtn g pd a b s) :=
  guarded_memOk h (fun _ hs => hs.putPred)

theorem execCmpGen_memOk {g : Guard} {pd : PReg} {a b : Reg} {s : State} (h : s.MemOk) :
    Result.MemOk (execCmpGen g pd a b s) :=
  guarded_memOk h (fun _ hs => hs.putPred)

theorem execCmpiEq_memOk {g : Guard} {pd : PReg} {a : Reg} {imm : BitVec 12} {s : State} (h : s.MemOk) :
    Result.MemOk (execCmpiEq g pd a imm s) :=
  guarded_memOk h (fun _ hs => hs.putPred)

theorem execCmpiNe_memOk {g : Guard} {pd : PReg} {a : Reg} {imm : BitVec 12} {s : State} (h : s.MemOk) :
    Result.MemOk (execCmpiNe g pd a imm s) :=
  guarded_memOk h (fun _ hs => hs.putPred)

theorem execCmpiLt_memOk {g : Guard} {pd : PReg} {a : Reg} {imm : BitVec 12} {s : State} (h : s.MemOk) :
    Result.MemOk (execCmpiLt g pd a imm s) :=
  guarded_memOk h (fun _ hs => hs.putPred)

theorem execCmpiGe_memOk {g : Guard} {pd : PReg} {a : Reg} {imm : BitVec 12} {s : State} (h : s.MemOk) :
    Result.MemOk (execCmpiGe g pd a imm s) :=
  guarded_memOk h (fun _ hs => hs.putPred)

theorem execCmpiLtn_memOk {g : Guard} {pd : PReg} {a : Reg} {imm : BitVec 12} {s : State} (h : s.MemOk) :
    Result.MemOk (execCmpiLtn g pd a imm s) :=
  guarded_memOk h (fun _ hs => hs.putPred)

theorem execCmpiGen_memOk {g : Guard} {pd : PReg} {a : Reg} {imm : BitVec 12} {s : State} (h : s.MemOk) :
    Result.MemOk (execCmpiGen g pd a imm s) :=
  guarded_memOk h (fun _ hs => hs.putPred)

theorem execPand_memOk {g : Guard} {pd pa pb : PReg} {s : State} (h : s.MemOk) :
    Result.MemOk (execPand g pd pa pb s) :=
  guarded_memOk h (fun _ hs => hs.putPred)

theorem execPor_memOk {g : Guard} {pd pa pb : PReg} {s : State} (h : s.MemOk) :
    Result.MemOk (execPor g pd pa pb s) :=
  guarded_memOk h (fun _ hs => hs.putPred)

theorem execPxor_memOk {g : Guard} {pd pa pb : PReg} {s : State} (h : s.MemOk) :
    Result.MemOk (execPxor g pd pa pb s) :=
  guarded_memOk h (fun _ hs => hs.putPred)

theorem execPnot_memOk {g : Guard} {pd pa : PReg} {s : State} (h : s.MemOk) :
    Result.MemOk (execPnot g pd pa s) :=
  guarded_memOk h (fun _ hs => hs.putPred)

theorem execPmov_memOk {g : Guard} {pd pa : PReg} {s : State} (h : s.MemOk) :
    Result.MemOk (execPmov g pd pa s) :=
  guarded_memOk h (fun _ hs => hs.putPred)

/-! ### Machine/Control -/

theorem execBr_memOk {g : Guard} {off : BitVec 22} {s : State} (h : s.MemOk) :
    Result.MemOk (execBr g off s) :=
  guarded_memOk h (fun _ hs => hs.mapMe)

theorem execBrl_memOk {g : Guard} {off : BitVec 22} {s : State} (h : s.MemOk) :
    Result.MemOk (execBrl g off s) :=
  guarded_memOk h (fun _ hs => hs.mapMe)

theorem execJr_memOk {g : Guard} {a : Reg} {s : State} (h : s.MemOk) : Result.MemOk (execJr g a s) := by
  unfold execJr
  refine guarded_memOk h fun _ hs => ?_
  extract_lets _
  split
  · exact hs.trap
  · exact hs.mapMe

theorem execJrl_memOk {g : Guard} {d a : Reg} {s : State} (h : s.MemOk) : Result.MemOk (execJrl g d a s) := by
  unfold execJrl
  refine guarded_memOk h fun _ hs => ?_
  extract_lets _
  split
  · exact hs.trap
  · exact hs.mapMe

theorem execNop_memOk {g : Guard} {s : State} (h : s.MemOk) : Result.MemOk (execNop g s) :=
  guarded_memOk h (fun _ hs => hs.skip)

theorem execLoop_memOk {g : Guard} {d : Reg} {imm : BitVec 17} {s : State} (h : s.MemOk) :
    Result.MemOk (execLoop g d imm s) :=
  guarded_memOk h (fun _ hs => hs.mapMe)

/-! ### Machine/Preempt -/

theorem State.MemOk.freeze {s : State} {c : ℕ} {q : SeqId} (h : s.MemOk) : (s.freeze c q).MemOk := by
  unfold State.freeze
  extract_lets _ _
  exact h.dropAsks.mapSeq

@[simp] theorem Cluster.stopEngine_tiles {k : Cluster} {e : ℕ} : (k.stopEngine e).tiles = k.tiles := by
  unfold Cluster.stopEngine
  split <;> exact rfl

theorem State.MemOk.ack {s : State} {c e : ℕ} (h : s.MemOk) : (s.ack c e).MemOk := by
  unfold State.ack
  extract_lets s1
  have hs1 : s1.MemOk := h.mapTask
  split
  · exact hs1.freeze
  · exact hs1

theorem execEnginePreemptStop_memOk {cl engine : ℕ} {s : State} (h : s.MemOk) :
    Result.MemOk (execEnginePreemptStop cl engine s) := by
  unfold execEnginePreemptStop
  change State.MemOk _
  extract_lets _ s1
  have hs1 : s1.MemOk := h.setCl (by simpa using h.cluster _)
  split
  · exact h
  split
  · exact hs1.ack
  · exact hs1

theorem Cluster.recordAreas_wf {k : Cluster} {m : Memory} {base : ℕ} (hk : k.tiles.wf = true)
    (hm : m.wf = true) : (k.recordAreas m base).wf = true := by
  unfold Cluster.recordAreas
  extract_lets m0 m1 m2 m3 m4 m5
  have hm0 : m0.wf = true := Memory.wf_overlay hm rfl _ _
  have hm4 : m4.wf = true :=
    Memory.wf_write (Memory.wf_write (Memory.wf_write (Memory.wf_write hm0 _ _) _ _) _ _) _ _
  exact Memory.wf_overlay (Memory.wf_foldl_write _ hm4) hk _ _

theorem execPreemptSave_memOk {cl : ℕ} {s : State} (h : s.MemOk) : Result.MemOk (execPreemptSave cl s) := by
  unfold execPreemptSave
  change State.MemOk _
  extract_lets k base
  split
  · exact h
  · obtain ⟨_, hh, hc, hs⟩ := h.setCl (c := cl) (k := { k with saving := true }) (h.cluster cl)
    exact ⟨Cluster.recordAreas_wf (h.cluster cl) h.1, hh, hc, hs⟩

@[simp] theorem Cluster.vacate_tiles {k : Cluster} : (k.vacate).tiles = k.tiles := rfl

theorem State.MemOk.park {s : State} {c : ℕ} (h : s.MemOk) : (s.park c).MemOk := by
  unfold State.park
  extract_lets k kept
  exact State.MemOk.setSaved (h.setCl (by simpa using h.cluster c)) (h.cluster c)

theorem execPreemptSaveDone_memOk {cl : ℕ} {s : State} (h : s.MemOk) :
    Result.MemOk (execPreemptSaveDone cl s) := by
  unfold execPreemptSaveDone
  change State.MemOk _
  extract_lets _ s1 _
  have hs1 : s1.MemOk := h.forwardCounts
  split
  · exact h
  · exact hs1.overwrite.park.gangSaved

theorem State.MemOk.dropSaved {s : State} {p : Partition} {job gi w c : ℕ} (h : s.MemOk) :
    (s.dropSaved p job gi w c).MemOk := by
  unfold State.dropSaved
  extract_lets key k t s1
  have hs1 : s1.MemOk := State.MemOk.overwrite h.dropSavedKey
  exact State.MemOk.either h (State.MemOk.either h hs1.mapGang.rankEnds)

theorem execPreemptLimitExpiry_memOk {job gi : ℕ} {s : State} (h : s.MemOk) :
    Result.MemOk (execPreemptLimitExpiry job gi s) := by
  unfold execPreemptLimitExpiry
  change State.MemOk _
  split
  · extract_lets _ _ _ s1 s2
    have hs1 : s1.MemOk := h.foldl (fun _ _ hs => hs.dropSaved)
    have hs2 : s2.MemOk := hs1.foldl (fun _ _ hs => hs.mapCl)
    split
    · split
      · exact h
      · exact hs2.terminateGang.mapGang
    split
    · exact h
    · exact hs2.terminateGang.mapGang
  · exact h

@[simp] theorem Cluster.thawSlot_tiles {k : Cluster} {i : ℕ} : (k.thawSlot i).tiles = k.tiles := by
  simp [Cluster.thawSlot]

@[simp] theorem Cluster.shiftClk_tiles {k : Cluster} {d : ℕ} : (k.shiftClk d).tiles = k.tiles := rfl

theorem Cluster.restore_tiles {k x : Cluster} {ids : List ℕ} {count now n : ℕ} :
    (k.restore x ids count now n).tiles = x.tiles := by
  unfold Cluster.restore
  extract_lets y _ _ _ _ _ _ _ k1
  rw [Cluster.acquireAll_tiles, Cluster.useStaged_tiles, Cluster.foldl_tiles]
  exact Cluster.shiftClk_tiles (d := k.clk - x.clk)

theorem State.MemOk.reloadSlot {s : State} {p : Partition} {ctx i : ℕ} {x : Slot} (h : s.MemOk) :
    (s.reloadSlot p ctx i x).1.MemOk := by
  unfold State.reloadSlot
  split
  · exact h
  extract_lets _ _
  split
  next heq =>
    have hs1 := h.ctxRead.ok heq
    split <;> exact hs1.dropLines
  next heq => exact h.ctxRead.fail heq
  next heq => exact h.ctxRead.wait heq

theorem State.MemOk.reloadPinned {s : State} {p : Partition} {x : Cluster} (h : s.MemOk) :
    (s.reloadPinned p x).1.MemOk ∧ (s.reloadPinned p x).2.tiles = x.tiles := by
  unfold State.reloadPinned
  refine List.foldlRecOn (motive := fun a : State × Cluster => a.1.MemOk ∧ a.2.tiles = x.tiles) _ _ ⟨h, rfl⟩
    fun acc ⟨hs, hx⟩ i _ => ?_
  split
  · exact ⟨hs, hx⟩
  · split
    next s1 y heq => exact ⟨hs.reloadSlot.fst heq, by simpa using hx⟩

theorem State.MemOk.restoreTask {s : State} {p : Partition} {g : Gang} {ids : List ℕ} {c : ℕ} (h : s.MemOk) :
    (s.restoreTask p g ids c).MemOk := by
  unfold State.restoreTask
  extract_lets key
  have hpinned := h.reloadPinned (p := p) (x := s.savedCl.get key .reset)
  split
  next s0 x heq =>
    rw [heq] at hpinned
    obtain ⟨hs0, hx⟩ : s0.MemOk ∧ x.tiles = (s.savedCl.get key .reset).tiles := hpinned
    extract_lets s1 k n heard k1 _ s2
    have hs1 : s1.MemOk := hs0.withSaved (h.saved_drop key)
    have hk1 : k1.MemOk := hs1.setCl (by rw [Cluster.restore_tiles, hx]; exact h.saved key)
    have hs2 : s2.MemOk := hk1.congr rfl rfl rfl rfl
    exact State.MemOk.either (State.MemOk.overwrite hs2).landed.landed.landed hs1

theorem execGangResume_memOk {job gi : ℕ} {s : State} (h : s.MemOk) :
    Result.MemOk (execGangResume job gi s) := by
  unfold execGangResume
  change State.MemOk _
  split
  · split
    · exact h
    extract_lets _ _ _
    exact (h.foldl (fun _ _ hs => hs.restoreTask)).mapGang.stopIfSwitching
  · exact h

/-! ### Machine/Links -/

theorem State.MemOk.unsupported {s : State} (h : s.MemOk) : (s.unsupported).MemOk :=
  h

theorem execInboundWrite_memOk {fn : ℕ} {pasid : Option ℕ} {off : ℕ} {bytes : List Byte} {requester : ℕ}
    {s : State} (h : s.MemOk) : Result.MemOk (execInboundWrite fn pasid off bytes requester s) := by
  unfold execInboundWrite
  change State.MemOk _
  extract_lets _ _
  split
  · exact h.unsupported
  split
  · exact h
  split
  next heq =>
    have hs1 := h.ctxTarget.ok heq
    split
    next heq1 => exact h.ctxWrite.ok heq1
    next heq1 =>
      have hs2 := h.ctxWrite.fail heq1
      exact h
    next heq1 => exact h.ctxWrite.wait heq1
  · exact h

theorem State.MemOk.toRequester {s : State} {requester : ℕ} {bs : List Byte} (h : s.MemOk) :
    (s.toRequester requester bs).MemOk :=
  h

theorem State.MemOk.abort {s : State} (h : s.MemOk) : (s.abort).MemOk :=
  h

theorem execInboundRead_memOk {fn : ℕ} {pasid : Option ℕ} {off len requester : ℕ} {s : State} (h : s.MemOk) :
    Result.MemOk (execInboundRead fn pasid off len requester s) := by
  unfold execInboundRead
  change State.MemOk _
  extract_lets _ _
  split
  · exact h.unsupported
  split
  · exact h.abort
  split
  · exact h.toRequester
  split
  next heq => exact (h.ctxRead.ok heq).dropLines.toRequester
  next heq => exact (h.ctxRead.fail heq).abort
  next heq => exact h.ctxRead.wait heq

theorem execZeroLengthRead_memOk {requester : ℕ} {s : State} (h : s.MemOk) :
    Result.MemOk (execZeroLengthRead requester s) :=
  State.MemOk.either h h

theorem execUnsupportedRequest_memOk {a : ℕ} {s : State} (h : s.MemOk) :
    Result.MemOk (execUnsupportedRequest a s) :=
  h.unsupported

@[simp] theorem Cluster.engineFails_tiles {k : Cluster} {a : Agent} {va : ℕ} :
    (k.engineFails a va).tiles = k.tiles := by
  unfold Cluster.engineFails
  extract_lets _ _ _ _ _
  split <;> exact rfl

theorem State.MemOk.retFails {s : State} {ret : RetTo} {a : Agent} {kind : ReqKind} {va : ℕ} (h : s.MemOk) :
    (s.retFails ret a kind va).MemOk := by
  unfold State.retFails
  split
  · exact h.mapSeq
  · exact h.mapSeq
  · exact h.mapCl
  · extract_lets _
    exact h.raise.mapCl
  · exact h.raise.mapCl
  · exact h
  · split
    · exact h.mapCl
    · exact h
  · exact h
  · exact h

theorem State.MemOk.reqFails {s : State} {fuel : ℕ} {r : MemReq} (h : s.MemOk) :
    (s.reqFails fuel r).MemOk := by
  induction fuel generalizing s r with
  | zero => exact h
  | succ fuel ih =>
    unfold State.reqFails
    split
    · split
      · exact ih (ih h)
      · exact h
    · split
      · exact ih h.withLinks
      · exact h
    · exact h.retFails

theorem State.MemOk.fails {s : State} {r : MemReq} (h : s.MemOk) : (s.fails r).MemOk :=
  h.reqFails

theorem State.MemOk.hostFails {s : State} {h1 : HostReq} (h : s.MemOk) : (s.hostFails h1).MemOk :=
  h.retFails

theorem execAtsInvalidate_memOk {fn page : ℕ} {s : State} (h : s.MemOk) :
    Result.MemOk (execAtsInvalidate fn page s) := by
  unfold execAtsInvalidate
  change State.MemOk _
  extract_lets _ _ _
  exact h

theorem execAtsTranslationCompletion_memOk {id : ℕ} {s : State} (h : s.MemOk) :
    Result.MemOk (execAtsTranslationCompletion id s) := by
  unfold execAtsTranslationCompletion
  change State.MemOk _
  split
  · exact h
  · extract_lets e held
    exact State.MemOk.hostLeaves h.withLinks

theorem execHostReadTimeout_memOk {id : ℕ} {s : State} (h : s.MemOk) :
    Result.MemOk (execHostReadTimeout id s) := by
  unfold execHostReadTimeout
  change State.MemOk _
  split
  · exact h
  split
  · split
    · exact h
    · exact State.MemOk.hostFails h
  · exact h

theorem execHostLinkDown_memOk {s : State} (h : s.MemOk) : Result.MemOk (execHostLinkDown s) := by
  unfold execHostLinkDown
  change State.MemOk _
  extract_lets _ s1
  have hs1 : s1.MemOk := h
  exact hs1.foldl (fun _ _ hs => hs.hostFails)

theorem execGranaryLinkFailure_memOk {port : ℕ} {s : State} (h : s.MemOk) :
    Result.MemOk (execGranaryLinkFailure port s) := by
  unfold execGranaryLinkFailure
  change State.MemOk _
  split
  · exact h
  extract_lets _ s1
  have hs1 : s1.MemOk := h
  exact hs1.foldl (fun _ _ hs => hs.fails)

theorem State.MemOk.linkError {s : State} (h : s.MemOk) : (s.linkError).MemOk :=
  h

theorem State.MemOk.takeTurned {s : State} {f : Flit} (h : s.MemOk) : SomeMemOk (s.takeTurned f) := by
  unfold State.takeTurned
  extract_lets _ _ _
  split
  · exact trivial
  · exact h

theorem State.MemOk.arrive {s : State} {g : Flit} {kind : ℕ} {take : State → Partition → Flit → State}
    (h : s.MemOk) (htake : ∀ (t : State) (a1 : Partition) (a2 : Flit), t.MemOk → (take t a1 a2).MemOk) :
    (s.arrive g kind take).MemOk := by
  unfold State.arrive
  extract_lets _ _ _
  split
  · exact h.linkError
  split
  · exact h
  split
  · split
    · split
      next heq2 => exact htake _ _ _ (h.takeTurned.some heq2)
      · exact h
    · exact htake _ _ _ h
  · split <;> exact h

theorem State.MemOk.flitFails {s : State} {f : Flit} (h : s.MemOk) : (s.flitFails f).MemOk :=
  h.fails

theorem State.MemOk.addReq {s : State} {r : MemReq} (h : s.MemOk) : (s.addReq r).MemOk :=
  h

theorem execYilsinRd_memOk {f : Flit} {s : State} (h : s.MemOk) : Result.MemOk (execYilsinRd f s) := by
  unfold execYilsinRd
  refine h.arrive fun _ _ _ hs => ?_
  split
  · split
    · exact hs.fresh.flitFails
    · exact hs.addReq
  · exact hs.answer
  · exact hs.flitFails

theorem execYilsinWr_memOk {f : Flit} {s : State} (h : s.MemOk) : Result.MemOk (execYilsinWr f s) := by
  rw [show @execYilsinWr = _ by delta execYilsinWr; exact rfl]
  generalize @State.localPlace = localPlace
  refine h.arrive fun t p g ht => ?_
  extract_lets -underBinder rs piece
  split
  · split
    · exact ht.answer
    · exact ht.foldl fun _ _ hs => hs.addReq
  · exact State.MemOk.answer (ht.foldl fun _ _ hs => hs.hostStore)
  · exact ht.flitFails

theorem State.MemOk.flitAtomic {s : State} {p : Partition} {f : Flit} {kind : ReqKind} (h : s.MemOk) :
    (s.flitAtomic p f kind).MemOk := by
  rw [show @State.flitAtomic = _ by delta State.flitAtomic; exact rfl]
  generalize @State.localPlace = localPlace
  split
  · exact State.MemOk.either h.fresh.flitFails h.addReq
  · exact h.flitFails

theorem execYilsinAmo_memOk {f : Flit} {s : State} (h : s.MemOk) : Result.MemOk (execYilsinAmo f s) :=
  h.arrive (fun _ _ _ hs => hs.flitAtomic)

theorem execYilsinCas_memOk {f : Flit} {s : State} (h : s.MemOk) : Result.MemOk (execYilsinCas f s) :=
  h.arrive (fun _ _ _ hs => hs.flitAtomic)

theorem State.MemOk.remoteAnswer {s : State} {f : Flit} {r : MemReq} {bs : List Byte} (h : s.MemOk) :
    (s.remoteAnswer f r bs).MemOk := by
  unfold State.remoteAnswer
  extract_lets _ s1 _
  have hs1 : s1.MemOk := h
  split
  · exact hs1
  · exact hs1.answer

theorem execYilsinRdrsp_memOk {f : Flit} {s : State} (h : s.MemOk) : Result.MemOk (execYilsinRdrsp f s) := by
  unfold execYilsinRdrsp
  refine h.arrive fun _ _ _ hs => ?_
  split
  · split
    · exact hs.remoteAnswer
    · exact hs
  · exact hs

theorem execYilsinWrack_memOk {f : Flit} {s : State} (h : s.MemOk) : Result.MemOk (execYilsinWrack f s) := by
  unfold execYilsinWrack
  refine h.arrive fun _ _ _ hs => ?_
  split
  · split
    · exact hs.remoteAnswer
    · exact hs.remoteAnswer
    · exact hs
  · exact hs

theorem execYilsinAmorsp_memOk {f : Flit} {s : State} (h : s.MemOk) :
    Result.MemOk (execYilsinAmorsp f s) := by
  unfold execYilsinAmorsp
  refine h.arrive fun _ _ _ hs => ?_
  split
  · split
    · extract_lets _ _
      exact hs.remoteAnswer.raiseAgent
    · exact hs.remoteAnswer
    · exact hs
  · exact hs

theorem execYilsinFlush_memOk {f : Flit} {s : State} (h : s.MemOk) : Result.MemOk (execYilsinFlush f s) := by
  unfold execYilsinFlush
  refine h.arrive fun _ _ _ hs => ?_
  extract_lets _ _ _ _
  exact State.MemOk.settleGathers hs

theorem execYilsinFlushack_memOk {f : Flit} {s : State} (h : s.MemOk) :
    Result.MemOk (execYilsinFlushack f s) := by
  unfold execYilsinFlushack
  refine h.arrive fun _ _ _ hs => ?_
  extract_lets _
  split
  · exact hs
  · exact hs.mapCl

theorem execLinkRetrainTimeout_memOk {port : ℕ} {s : State} (h : s.MemOk) :
    Result.MemOk (execLinkRetrainTimeout port s) := by
  unfold execLinkRetrainTimeout
  change State.MemOk _
  split
  · exact h
  extract_lets _ _ _ _ s1
  have hs1 : s1.MemOk := h
  exact hs1.foldl (fun _ _ hs => hs.fails)

theorem execYilsinPortReturn_memOk {port : ℕ} {s : State} (h : s.MemOk) :
    Result.MemOk (execYilsinPortReturn port s) :=
  h

theorem execDiscardedFlit_memOk {f : Flit} {s : State} (h : s.MemOk) : Result.MemOk (execDiscardedFlit f s) :=
  State.MemOk.either h.linkError h

/-! ### Machine/Debug -/

theorem State.MemOk.traceSlot {s : State} {ty c i : ℕ} (h : s.MemOk) : (s.traceSlot ty c i).MemOk := by
  unfold State.traceSlot
  extract_lets _
  exact h.trace

theorem State.MemOk.haltSlot {s : State} {c i : ℕ} (h : s.MemOk) : (s.haltSlot c i).MemOk := by
  unfold State.haltSlot
  extract_lets _
  split
  · exact h
  split
  · exact h.mapCl
  · exact h.mapCl.traceSlot

theorem State.MemOk.haltNow {s : State} {c : ℕ} {q : SeqId} (h : s.MemOk) : (s.haltNow c q).MemOk :=
  h.freeze.mapSeq.traceSeqHalt

theorem State.MemOk.haltSeq {s : State} {c : ℕ} {q : SeqId} (h : s.MemOk) : (s.haltSeq c q).MemOk := by
  unfold State.haltSeq
  extract_lets _
  split
  · exact h
  split
  · exact h.haltNow
  · exact h.mapSeq

theorem execDhaltHalt_memOk {value : Word} {s : State} (h : s.MemOk) :
    Result.MemOk (execDhaltHalt value s) := by
  unfold execDhaltHalt
  change State.MemOk _
  split
  · exact h
  extract_lets _
  exact (h.foldl (fun _ _ hs => hs.haltSlot)).foldl (fun _ _ hs => hs.haltSeq)

@[simp] theorem Cluster.resumeSlot_tiles {k : Cluster} {i : ℕ} : (k.resumeSlot i).tiles = k.tiles := by
  simp [Cluster.resumeSlot]

theorem State.MemOk.resumeSlot {s : State} {c i : ℕ} (h : s.MemOk) : (s.resumeSlot c i).MemOk := by
  unfold State.resumeSlot
  extract_lets _
  split
  · exact h
  · exact h.mapCl.traceSlot

theorem execDhaltResume_memOk {value : Word} {s : State} (h : s.MemOk) :
    Result.MemOk (execDhaltResume value s) := by
  unfold execDhaltResume
  change State.MemOk _
  split
  · exact h
  extract_lets _ s1
  have hs1 : s1.MemOk := h.foldl (fun _ _ hs => hs.resumeSlot)
  exact hs1.foldl (fun _ _ hs => hs.mapSeq)

theorem execWatchdogExpiry_memOk {cl slot : ℕ} {s : State} (h : s.MemOk) :
    Result.MemOk (execWatchdogExpiry cl slot s) := by
  unfold execWatchdogExpiry
  change State.MemOk _
  extract_lets _ _
  split
  · exact h
  · exact h.trace.mapCl

theorem State.MemOk.writePower {s : State} {off : ℕ} {v : Word} (h : s.MemOk) :
    (s.writePower off v).MemOk := by
  unfold State.writePower
  split
  · split
    · exact h
    extract_lets _ _
    exact h
  split
  · split
    · exact h.mapDie
    · exact h
  split
  · extract_lets _
    split
    · split
      · exact h.mapPower
      · exact h
    · split
      · exact h.mapPower
      · exact h
    · exact h
  · exact h

theorem State.MemOk.writeDebug {s : State} {off : ℕ} {v : Word} (h : s.MemOk) :
    (s.writeDebug off v).MemOk := by
  unfold State.writeDebug
  extract_lets _ setD
  have hsetD : ∀ (rz1 : ℕ) (d11 : Debug), (setD rz1 d11).MemOk := by
    intro rz1 d11
    dsimp -zeta only [setD]
    split <;> exact h
  split
  · exact hsetD _ _
  split
  · split
    · exact h
    · exact hsetD _ _
  split
  · split
    · exact h.mapCl
    · exact h
  split
  · exact hsetD _ _
  · exact hsetD _ _
  · split
    · exact hsetD _ _
    · exact h
  · exact hsetD _ _
  · exact hsetD _ _
  · exact hsetD _ _
  · exact h

theorem State.MemOk.writeBoot {s : State} {off : ℕ} {v : Word} (h : s.MemOk) : (s.writeBoot off v).MemOk := by
  unfold State.writeBoot
  split
  · exact h
  · split <;> exact h
  · exact h

theorem State.MemOk.writeBar2 {s : State} {fn off : ℕ} {v : Word} (h : s.MemOk) :
    (s.writeBar2 fn off v).MemOk := by
  unfold State.writeBar2
  split
  · exact h.withLinks
  · split
    · exact State.MemOk.either h.mapCtx h
    · exact State.MemOk.either h.mapCtx h

theorem State.MemOk.writeBar0 {s : State} {off : ℕ} {v : Word} {firmware : Bool} (h : s.MemOk) :
    (s.writeBar0 off v firmware).MemOk := by
  unfold State.writeBar0
  split
  · exact h.writeDebug
  split
  · split
    · exact h.writePower
    · exact h
  split
  · exact h.writeBoot
  · exact h

theorem State.MemOk.setAts {s : State} {fn : ℕ} {on : Bool} (h : s.MemOk) : (s.setAts fn on).MemOk :=
  h

theorem execRegisterWrite_memOk {off : ℕ} {value : Word} {w : Writer} {s : State} (h : s.MemOk) :
    Result.MemOk (execRegisterWrite off value w s) := by
  unfold execRegisterWrite
  change State.MemOk _
  split
  · split
    · exact h
    · exact h.writeBar0
  · exact h
  · split
    · exact h
    · exact h.setAts
  split
  · exact h
  split
  · exact h.writeBar0
  split
  · exact h.writeBar2
  · exact h

/-! ### Machine/Start -/

theorem State.startMem_wf {s : State} {warm : Bool} {i n : ℕ} (h : s.mem.wf = true) :
    (s.startMem warm i n).wf = true := by
  unfold State.startMem
  extract_lets m1 m2
  have hm1 : m1.wf = true := by
    dsimp only [m1]
    split
    · exact Memory.wf_foldl_write _ h
    · exact h
  have hm2 : Memory.wf m2 = true := by
    dsimp only [m2]
    split
    · exact Memory.wf_filter hm1 _
    · exact hm1
  split
  · exact Memory.wf_filter hm2 _
  · exact hm2

theorem State.startClusters_tiles {s : State} {n : ℕ} {bad : List ℕ} (c : ℕ) :
    ((s.startClusters n bad).get c .reset).tiles = [] := by
  refine Table.get_of_forall (P := fun k : Cluster => k.tiles = []) (fun e he => ?_) rfl c
  unfold State.startClusters at he
  split at he
  all_goals
    obtain ⟨x, _, rfl⟩ := List.mem_map.mp he
    rfl

theorem State.MemOk.started {s : State} {warm training : Bool} {n : ℕ} {bad : List ℕ} (h : s.MemOk) :
    (s.started warm training n bad).MemOk := by
  unfold State.started
  extract_lets b i full
  obtain ⟨hm, hh, hc, hs⟩ := h
  refine ⟨State.startMem_wf hm, hh, fun c => ?_, fun k => rfl⟩
  change (Table.get (if _ then s.clusters else s.startClusters n bad) c .reset).tiles.wf = true
  split
  · exact hc c
  · rw [State.startClusters_tiles]; rfl

theorem State.MemOk.recover {s : State} (h : s.MemOk) : (s.recover).MemOk :=
  h

theorem State.MemOk.romRefuses {s : State} (h : s.MemOk) : (s.romRefuses).MemOk :=
  h

theorem State.MemOk.startFailed {s : State} (h : s.MemOk) : (s.startFailed).MemOk := by
  unfold State.startFailed
  extract_lets _ s1
  have hs1 : s1.MemOk := h
  split
  · exact h
  split
  · exact hs1.recover
  · exact hs1

theorem State.MemOk.startReady {s : State} (h : s.MemOk) : (s.startReady).MemOk :=
  h

theorem State.MemOk.runStart {s : State} {asked training : Bool} {e : StartEnd} {bad : List ℕ}
    {rom service : Bool} (h : s.MemOk) : (s.runStart asked training e bad rom service).MemOk := by
  unfold State.runStart
  extract_lets _ _ _
  split
  · exact h.started.startReady
  · split
    · exact h
    split
    · exact h.started.romRefuses
    · exact h.started.startFailed
  split
  · exact h
  · exact h.started

theorem execModuleStart_memOk {warm training : Bool} {failStep : Option ℕ} {bad : List ℕ} {s : State}
    (h : s.MemOk) : Result.MemOk (execModuleStart warm training failStep bad s) := by
  unfold execModuleStart
  change State.MemOk _
  extract_lets _
  split
  · exact h
  · exact h.runStart

theorem execStartWatchdogExpiry_memOk {s : State} (h : s.MemOk) : Result.MemOk (execStartWatchdogExpiry s) :=
  State.MemOk.either h.startFailed h

theorem execImggo_memOk {value : Word} {s : State} (h : s.MemOk) : Result.MemOk (execImggo value s) := by
  unfold execImggo
  change State.MemOk _
  extract_lets _ _ _
  split
  · exact h
  · split <;> exact h

theorem State.MemOk.applyTable {s : State} {t : List (ℕ × ℕ × ℕ × ℕ)} (h : s.MemOk) :
    (s.applyTable t).MemOk :=
  h

theorem execRootMonitorRequest_memOk {r : RootRequest} {s : State} (h : s.MemOk) :
    Result.MemOk (execRootMonitorRequest r s) := by
  unfold execRootMonitorRequest
  change State.MemOk _
  split
  · exact h
  split
  · split
    · exact h
    extract_lets s1 _
    have hs1 : s1.MemOk := h.mapPower
    exact hs1
  · split
    · exact h.applyTable
    · exact h
  · split <;> exact h

theorem execAttestationRequest_memOk {nonce : List Byte} {s : State} (h : s.MemOk) :
    Result.MemOk (execAttestationRequest nonce s) := by
  unfold execAttestationRequest
  change State.MemOk _
  split
  · exact h
  extract_lets _ _ _
  exact h

/-! ### Machine/Dispatch -/

theorem exec_memOk {i : Instr} {s : State} (h : s.MemOk) : Result.MemOk (exec i s) := by
  unfold exec
  split
  · exact execAdd_memOk h
  · exact execSub_memOk h
  · exact execMul_memOk h
  · exact execMulh_memOk h
  · exact execMulhn_memOk h
  · exact execDiv_memOk h
  · exact execDivn_memOk h
  · exact execRem_memOk h
  · exact execRemn_memOk h
  · exact execAnd_memOk h
  · exact execOr_memOk h
  · exact execXor_memOk h
  · exact execAndn_memOk h
  · exact execShl_memOk h
  · exact execShr_memOk h
  · exact execSra_memOk h
  · exact execMin_memOk h
  · exact execMax_memOk h
  · exact execMinn_memOk h
  · exact execMaxn_memOk h
  · exact execClz_memOk h
  · exact execCtz_memOk h
  · exact execPopc_memOk h
  · exact execAddi_memOk h
  · exact execAndi_memOk h
  · exact execOri_memOk h
  · exact execXori_memOk h
  · exact execShli_memOk h
  · exact execShri_memOk h
  · exact execSrai_memOk h
  · exact execBfx_memOk h
  · exact execBfi_memOk h
  · exact execMovi_memOk h
  · exact execMovs_memOk h
  · exact execAddpc_memOk h
  · exact execCmpEq_memOk h
  · exact execCmpNe_memOk h
  · exact execCmpLt_memOk h
  · exact execCmpGe_memOk h
  · exact execCmpLtn_memOk h
  · exact execCmpGen_memOk h
  · exact execCmpiEq_memOk h
  · exact execCmpiNe_memOk h
  · exact execCmpiLt_memOk h
  · exact execCmpiGe_memOk h
  · exact execCmpiLtn_memOk h
  · exact execCmpiGen_memOk h
  · exact execPand_memOk h
  · exact execPor_memOk h
  · exact execPxor_memOk h
  · exact execPnot_memOk h
  · exact execPmov_memOk h
  · exact execBr_memOk h
  · exact execBrl_memOk h
  · exact execJr_memOk h
  · exact execJrl_memOk h
  · exact execNop_memOk h
  · exact execLoop_memOk h
  · exact execLdB_memOk h
  · exact execLdH_memOk h
  · exact execLdW_memOk h
  · exact execLdBn_memOk h
  · exact execLdHn_memOk h
  · exact execLdWn_memOk h
  · exact execLdD_memOk h
  · exact execStB_memOk h
  · exact execStH_memOk h
  · exact execStW_memOk h
  · exact execStD_memOk h
  · exact execLdp_memOk h
  · exact execStp_memOk h
  · exact execPref_memOk h
  · exact execAmoAddW_memOk h
  · exact execAmoAndW_memOk h
  · exact execAmoOrW_memOk h
  · exact execAmoXorW_memOk h
  · exact execAmoMinW_memOk h
  · exact execAmoMaxW_memOk h
  · exact execAmoMinnW_memOk h
  · exact execAmoMaxnW_memOk h
  · exact execAmoSwapW_memOk h
  · exact execAmoFaddRxW_memOk h
  · exact execAmoAddD_memOk h
  · exact execAmoAndD_memOk h
  · exact execAmoOrD_memOk h
  · exact execAmoXorD_memOk h
  · exact execAmoMinD_memOk h
  · exact execAmoMaxD_memOk h
  · exact execAmoMinnD_memOk h
  · exact execAmoMaxnD_memOk h
  · exact execAmoSwapD_memOk h
  · exact execCasW_memOk h
  · exact execCasD_memOk h
  · exact execFenceP_memOk h
  · exact execAcqLd_memOk h
  · exact execRelSt_memOk h
  · exact execSete_memOk h
  · exact execClre_memOk h
  · exact execWaite_memOk h
  · exact execRingDef_memOk h
  · exact execRwaitF_memOk h
  · exact execRwaitE_memOk h
  · exact execRadvP_memOk h
  · exact execRadvC_memOk h
  · exact execRstat_memOk h
  · exact execStepBegin_memOk h
  · exact execStepProg_memOk h
  · exact execStepEnd_memOk h
  · exact execFork_memOk h
  · exact execJoin_memOk h
  · exact execExit_memOk h
  · exact execExitA_memOk h
  · exact execRdv_memOk h
  · exact execSpawn_memOk h
  · exact execSpawnC_memOk h
  · exact execCfgLoad_memOk h
  · exact execCfgStat_memOk h
  · exact execFabGo_memOk h
  · exact execBinPush_memOk h
  · exact execBinCnt_memOk h
  · exact execFabQuiet_memOk h
  · exact execCollRed_memOk h
  · exact execCollBcast_memOk h
  · exact execTrap_memOk h
  · exact execTrapTerminate_memOk h
  · exact execTrapTerminateGang_memOk h
  · exact execTrapPreempt_memOk h
  · exact execSysc_memOk h
  · exact execRetr_memOk h
  · exact execIdle_memOk h
  · exact execBkpt_memOk h
  · exact execTlbiAll_memOk h
  · exact execTlbiAsid_memOk h
  · exact execTlbiVa_memOk h
  · exact execTlbiVaAsid_memOk h
  · exact execCflush_memOk h
  · exact execCinv_memOk h
  · exact execMfs_memOk h
  · exact execMts_memOk h
  · exact execMtsFlags_memOk h
  · exact execMtsReplaycnt_memOk h
  · exact execMtsCtxinv_memOk h
  · exact execMtsWsctl_memOk h
  · exact execMtsWsctlSwreq_memOk h
  · exact execMtsWtbl_memOk h
  · exact execCpy_memOk h
  · exact execCpyF_memOk h
  · exact execCpyR_memOk h
  · exact execCpyG_memOk h
  · exact execCpyS_memOk h
  · exact execCpyMx_memOk h
  · exact execCpyPl_memOk h
  · exact execCpyFill_memOk h
  · exact execCpyWait_memOk h
  · exact execMxcShape_memOk h
  · exact execMxcOpa_memOk h
  · exact execMxcOpb_memOk h
  · exact execMxcArm_memOk h
  · exact execMma_memOk h
  · exact execMmz_memOk h
  · exact execMmp_memOk h
  · exact execMxcDrain_memOk h
  · exact execMxcDrainD_memOk h
  · exact execLongOpComplete_memOk h
  · exact execReleasePerformed_memOk h
  · exact execTrapDelivery_memOk h
  · exact execMachineCheck_memOk h
  · exact execSuperstepEnd_memOk h
  · exact execDlriskPost_memOk h
  · exact execTaskRetire_memOk h
  · exact execJobComplete_memOk h
  · exact execBinEnqueue_memOk h
  · exact execBindeadlock_memOk h
  · exact execBinDispatch_memOk h
  · exact execPartialDispatch_memOk h
  · exact execBinAged_memOk h
  · exact execSchedulerChoose_memOk h
  · exact execConfigFrameWrite_memOk h
  · exact execSlotStart_memOk h
  · exact execRegionDrained_memOk h
  · exact execPinnedRegionEnd_memOk h
  · exact execSlotSwitch_memOk h
  · exact execElementFire_memOk h
  · exact execKillArrival_memOk h
  · exact execLegRoute_memOk h
  · exact execLegBcast_memOk h
  · exact execLegIdx_memOk h
  · exact execLegMerge_memOk h
  · exact execLegSteer_memOk h
  · exact execLegHold_memOk h
  · exact execPortWrd_memOk h
  · exact execPortWwr_memOk h
  · exact execPortDrd_memOk h
  · exact execPortReadReturn_memOk h
  · exact execPortDwr_memOk h
  · exact execPortAmo_memOk h
  · exact execPortRed_memOk h
  · exact execPortExp2_memOk h
  · exact execPortLog2_memOk h
  · exact execPortRcp_memOk h
  · exact execPortRsqrt_memOk h
  · exact execPortTanh_memOk h
  · exact execPortCvd_memOk h
  · exact execPortCvw_memOk h
  · exact execPortBenq_memOk h
  · exact execPortMove_memOk h
  · exact execPortFifov_memOk h
  · exact execPortFifos_memOk h
  · exact execPortLbuf_memOk h
  · exact execPortEos_memOk h
  · exact execRingGeneratorSlot_memOk h
  · exact execRingGeneratorAdvance_memOk h
  · exact execArrayPortServe_memOk h
  · exact execCopyCommandBegin_memOk h
  · exact execCopyRingClaim_memOk h
  · exact execCopyCommandComplete_memOk h
  · exact execCopyAccessFailure_memOk h
  · exact execMatrixNextCommand_memOk h
  · exact execArmSlotStore_memOk h
  · exact execMatrixRingSlot_memOk h
  · exact execMmpEvaluation_memOk h
  · exact execMatrixCommandComplete_memOk h
  · exact execMatrixAccessFailure_memOk h
  · exact execHomeAccess_memOk h
  · exact execL2Fill_memOk h
  · exact execCombineRequest_memOk h
  · exact execSheafReturn_memOk h
  · exact execPageWalkStart_memOk h
  · exact execPageWalkComplete_memOk h
  · exact execSchedulerCycle_memOk h
  · exact execGangLevelRaise_memOk h
  · exact execGangStart_memOk h
  · exact execLaunchWrite_memOk h
  · exact execQuantumExpiry_memOk h
  · exact execEnginePreemptStop_memOk h
  · exact execPreemptSave_memOk h
  · exact execPreemptSaveDone_memOk h
  · exact execPreemptLimitExpiry_memOk h
  · exact execWorldSwitchComplete_memOk h
  · exact execGangResume_memOk h
  · exact execCurrentReport_memOk h
  · exact execGovernorEvaluation_memOk h
  · exact execRailSlewDone_memOk h
  · exact execCanaryTrip_memOk h
  · exact execCorrectableError_memOk h
  · exact execAgeingRead_memOk h
  · exact execReplan_memOk h
  · exact execInboundWrite_memOk h
  · exact execInboundRead_memOk h
  · exact execZeroLengthRead_memOk h
  · exact execAtsInvalidate_memOk h
  · exact execHostReadTimeout_memOk h
  · exact execYilsinRd_memOk h
  · exact execYilsinWr_memOk h
  · exact execYilsinAmo_memOk h
  · exact execYilsinCas_memOk h
  · exact execYilsinRdrsp_memOk h
  · exact execYilsinWrack_memOk h
  · exact execYilsinAmorsp_memOk h
  · exact execYilsinFlush_memOk h
  · exact execYilsinFlushack_memOk h
  · exact execLinkRetrainTimeout_memOk h
  · exact execDhaltHalt_memOk h
  · exact execDhaltResume_memOk h
  · exact execWatchdogExpiry_memOk h
  · exact execCounterForward_memOk h
  · exact execEnloRead_memOk h
  · exact execRegisterWrite_memOk h
  · exact execImggo_memOk h
  · exact execModuleStart_memOk h
  · exact execStartWatchdogExpiry_memOk h
  · exact execRootMonitorRequest_memOk h
  · exact execAttestationRequest_memOk h
  · exact execClusterWithdraw_memOk h
  · exact execHostLinkDown_memOk h
  · exact execGranaryLinkFailure_memOk h
  · exact execYilsinPortReturn_memOk h
  · exact execDiscardedFlit_memOk h
  · exact execUnsupportedRequest_memOk h
  · exact execAtsTranslationCompletion_memOk h

/-! ### Machine/Issue -/

theorem State.MemOk.countIssue {s : State} {i : Instr} {t : State} (ht : t.MemOk) :
    (s.countIssue i t).MemOk := by
  unfold State.countIssue
  split
  · exact ht.mapCl
  · exact ht

theorem State.MemOk.issueInstr {s : State} {i : Instr} (h : s.MemOk) : Result.MemOk (s.issueInstr i) := by
  unfold State.issueInstr
  split
  · exact h
  · have he : Result.MemOk (exec i s) := exec_memOk h
    split
    next t heq =>
      rw [heq] at he
      exact State.MemOk.mapSeq (State.MemOk.countIssue he)
    · exact he

theorem State.MemOk.issueBytes {s : State} {bs : List Byte} (h : s.MemOk) :
    Result.MemOk (s.issueBytes bs) := by
  unfold State.issueBytes
  split
  · exact h.issueInstr
  · exact h.ill

theorem State.MemOk.fetchIssue {s : State} (h : s.MemOk) : Result.MemOk (s.fetchIssue) := by
  unfold State.fetchIssue
  split
  next heq => exact (h.fetch.ok heq).issueBytes
  next heq => exact (h.fetch.fail heq).trap
  next heq => exact h.fetch.wait heq

theorem State.MemOk.issueTurn {s : State} (h : s.MemOk) : Result.MemOk s.issueTurn := by
  unfold State.issueTurn
  extract_lets x
  split
  · exact h
  · split
    · change State.MemOk _
      exact State.MemOk.either h.haltNow h
    · split
      · split
        · exact execTrapDelivery_memOk h
        · have hf : Result.MemOk s.fetchIssue := h.fetchIssue
          split
          next t heq =>
            rw [heq] at hf
            split
            · exact hf
            · exact execTrapDelivery_memOk h.mapMe
          · exact hf
      · split
        · exact h
        · exact h.fetchIssue

theorem State.MemOk.packet {s : State} {f : Flit} (h : s.MemOk) : Result.MemOk (s.packet f) := by
  unfold State.packet
  split
  · exact execYilsinRd_memOk h
  · exact execYilsinWr_memOk h
  · exact execYilsinAmo_memOk h
  · exact execYilsinRdrsp_memOk h
  · exact execYilsinWrack_memOk h
  · exact execYilsinAmorsp_memOk h
  · exact execYilsinFlush_memOk h
  · exact execYilsinFlushack_memOk h
  · exact execYilsinCas_memOk h
  · exact h

theorem State.MemOk.depart {s : State} {i : ℕ} (h : s.MemOk) : (s.depart i).MemOk := by
  unfold State.depart
  split
  · exact h
  extract_lets _ _ _
  split <;> exact h

theorem State.MemOk.turn {s : State} {a : Turn} (h : s.MemOk) : Result.MemOk (s.turn a) := by
  unfold State.turn
  split
  · split
    · split
      · exact h
      · exact State.MemOk.issueTurn h
    · exact trivial
  · split
    · split
      · exact h
      · exact exec_memOk h
    · exact trivial
  · exact h.packet
  · exact h.depart
  · exact h.hostServe
  · exact h
  split
  · exact h.clocks
  · exact trivial

theorem State.MemOk.move {s : State} (h : s.MemOk) : Result.MemOk (s.move) := by
  unfold State.move
  split
  · exact h
  · exact State.MemOk.turn h

/-! ### Machine/Step -/

theorem step_memOk {s : State} (h : s.MemOk) : Result.MemOk (step s) :=
  h.move

end Sys2Proof.Machine

open Sys2Proof.Machine

/-- Settles O59: each function of the step keeps every memory canonical, so a step does. -/
theorem memoryInvariant : Obligations.MemoryInvariant := by
  unfold Obligations.MemoryInvariant
  intro s t h e
  have hstep := step_memOk h
  rw [e] at hstep
  exact hstep

end

/-! SUPPORT. The host's accesses and the register writes (R5, R386 to R393, R400, R408): what an access of one line within one
piece leaves as it was, what a read returns where no write is open, where a failed request's answer goes, and what each register
takes. -/

section
namespace Sys2Proof.Machine

/-! ### Register writes (R5, R386, R388, R400, R408) -/

theorem and_shiftLeft_eq (x m n : Nat) : x &&& (m <<< n) = ((x >>> n) &&& m) <<< n := by
  apply Nat.eq_of_testBit_eq
  intro i
  simp only [Nat.testBit_and, Nat.testBit_shiftLeft, Nat.testBit_shiftRight]
  by_cases h : n ≤ i
  · simp [h]
  · simp [h]

theorem clear_above {n : Nat} (hn : n ≤ 64) (v : Word) : clear v (above n) = decide (v.toNat < 2 ^ n) := by
  have habove : above n = (2 ^ (64 - n) - 1) <<< n := by
    rw [Nat.shiftLeft_eq, Nat.sub_mul, ← Nat.pow_add, Nat.sub_add_cancel hn, Nat.one_mul]; rfl
  have hlt : v.toNat / 2 ^ n < 2 ^ (64 - n) :=
    Nat.div_lt_of_lt_mul (by rw [← Nat.pow_add, Nat.add_sub_cancel' hn]; exact v.isLt)
  have hand : v.toNat &&& above n = v.toNat / 2 ^ n * 2 ^ n := by
    rw [habove, and_shiftLeft_eq, Nat.and_two_pow_sub_one_eq_mod, Nat.shiftRight_eq_div_pow, Nat.mod_eq_of_lt hlt,
      Nat.shiftLeft_eq]
  have hpos : 0 < 2 ^ n := Nat.two_pow_pos n
  unfold clear
  rw [hand, Bool.eq_iff_iff, beq_iff_eq, decide_eq_true_iff, Nat.mul_eq_zero, or_iff_left (by omega),
    Nat.div_eq_zero_iff_lt hpos]

theorem registerWrite_firmware {s : State} (h : s.boot.st ≠ 6) (off : Nat) (v : Word) :
    exec (.registerWrite off v .firmware) s = .next (s.writeBar0 off v true) := by
  change execRegisterWrite off v .firmware s = _
  simp [execRegisterWrite, h]

theorem registerWrite_firmware_recovery {s : State} (h : s.boot.st = 6) (off : Nat) (v : Word) :
    exec (.registerWrite off v .firmware) s = .next s := by
  change execRegisterWrite off v .firmware s = _
  simp [execRegisterWrite, h]

theorem registerWrite_pf (s : State) (off : Nat) (v : Word) :
    exec (.registerWrite off v (.host 0 0)) s = .next (s.writeBar0 off v false) := by
  change execRegisterWrite off v (.host 0 0) s = _
  simp [execRegisterWrite]

theorem registerWrite_bar2 {s : State} {fn : Nat} (hf : fn < 256) (h : s.boot.st ≠ 6) (off : Nat) (v : Word) :
    exec (.registerWrite off v (.host fn 2)) s = .next (s.writeBar2 fn off v) := by
  change execRegisterWrite off v (.host fn 2) s = _
  simp [execRegisterWrite, h, Nat.not_le.mpr hf]

theorem registerWrite_bar2_recovery {s : State} (h : s.boot.st = 6) (fn off : Nat) (v : Word) :
    exec (.registerWrite off v (.host fn 2)) s = .next s := by
  change execRegisterWrite off v (.host fn 2) s = _
  simp [execRegisterWrite, h]

/-- No other function has a BAR 0, and there are 256 functions. -/
theorem registerWrite_host_outside {fn bar : Nat} (h : 256 ≤ fn ∨ fn ≠ 0 ∧ bar = 0) (s : State) (off : Nat) (v : Word) :
    exec (.registerWrite off v (.host fn bar)) s = .next s := by
  change execRegisterWrite off v (.host fn bar) s = _
  obtain h | ⟨h, rfl⟩ := h
  · simp [execRegisterWrite, h]
  · simp [execRegisterWrite, h]

theorem registerWrite_config {s : State} {fn : Nat} (hf : fn < 256) (h : s.boot.st ≠ 6 ∨ fn = 0) (v : Word) :
    exec (.registerWrite 6 v (.config fn)) s = .next (s.setAts fn (v.getLsbD 15)) := by
  change execRegisterWrite 6 v (.config fn) s = _
  obtain h | rfl := h
  · simp [execRegisterWrite, atsControl, Nat.not_le.mpr hf, h]
  · simp [execRegisterWrite, atsControl]

theorem writeBar0_power {off : Nat} (h1 : 0x200000 ≤ off) (h2 : off < 0x300000) (s : State) (v : Word) (fw : Bool) :
    s.writeBar0 off v fw = if fw then s.writePower (off - 0x200000) v else s := by
  unfold State.writeBar0
  rw [if_neg (by omega), if_pos h1]

theorem writeBar0_debug (off : Nat) (s : State) (v : Word) (fw : Bool) :
    s.writeBar0 (0x300000 + off) v fw = s.writeDebug off v := by
  unfold State.writeBar0
  rw [if_pos (by omega), Nat.add_sub_cancel_left]

/-- The least six bits of GOVCTL hold a ratio of 16 to 48; one outside is not taken (R386). -/
theorem writePower_govctl {v : Word} (h : v.toNat < 2 ^ 12) (h1 : 16 ≤ v.toNat % 64) (h2 : v.toNat % 64 ≤ 48) (s : State) :
    s.writePower 0 v = { s with govctl := v } := by
  have hn : bits v 5 0 = v.toNat % 64 := by simp [bits]
  have hv : w64 (v.toNat % 64 + v.toNat / 64 % 64 * 64) = v := by
    apply BitVec.eq_of_toNat_eq
    rw [w64, BitVec.toNat_ofNat]
    omega
  have hc : clear v (above 12) = true := by rw [clear_above (by decide)]; exact decide_eq_true h
  unfold State.writePower
  simp [hc, hn, h1, h2, hv]

theorem writePower_govctl_reserved {v : Word} (h : 2 ^ 12 ≤ v.toNat) (s : State) : s.writePower 0 v = s := by
  have hc : clear v (above 12) = false := by rw [clear_above (by decide)]; exact decide_eq_false (Nat.not_lt.mpr h)
  unfold State.writePower
  simp [hc]

theorem writeDebug_darm (s : State) (i : Fin 16) (v : Word) :
    s.writeDebug (8 * i.val) v =
      if v.toNat < 2 ^ 16 then { s with dbg := { s.dbg with darm := s.dbg.darm.set i v } } else s := by
  have hi : 8 * i.val / 8 = i.val := by omega
  unfold State.writeDebug
  rw [dif_pos (by omega)]
  simp [clear_above, hi]

theorem setAts_ats (s : State) (fn : Nat) (on : Bool) :
    (s.setAts fn on).links.ats = if on then s.links.ats else s.links.ats.filter (·.1 != fn) := by
  cases on <;> rfl

theorem setAts_atsOn (s : State) (fn : Nat) (on : Bool) :
    (s.setAts fn on).links.atsOn = s.links.atsOn.filter (· != fn) ++ if on then [fn] else [] := by
  cases on <;> simp [State.setAts]

theorem setAts_frame (s : State) (fn : Nat) (on : Bool) :
    ({ s.setAts fn on with links :=
        { (s.setAts fn on).links with atsOn := s.links.atsOn, ats := s.links.ats } } : State) = s := by
  cases on <;> rfl

theorem writeBar2_counters {off : Nat} (h1 : 0x48000 ≤ off) (h2 : off < 0x4A000) (s : State) (fn : Nat) (v : Word) :
    s.writeBar2 fn off v = s.mapCtx (64 * fn + (off - 0x48000) / 128) (·.writeCounter ((off - 0x48000) % 128) v) := by
  have ha : ¬ off < 0x40400 := by omega
  have hb : ¬ off < 0x42200 := by omega
  unfold State.writeBar2
  simp only [ha, hb, h1, h2, decide_true, decide_false, Bool.and_false, Bool.false_and, Bool.and_self, Bool.false_eq_true,
    if_false, if_true]

theorem Ctx.writeCounter_cnt (x : Ctx) (i : Fin 8) (v : Word) :
    x.writeCounter (0x10 + 8 * i.val) v = if v.toNat < 2 ^ 48 then { x with cnt := x.cnt.set i v.toNat } else x := by
  have hi : 8 * i.val / 8 = i.val := by omega
  unfold Ctx.writeCounter
  rw [if_neg (by simp), if_neg (by simp; omega), dif_pos (by omega)]
  simp [clear_above, hi]

theorem writeBar2_cnt (s : State) (fn : Nat) {j : Nat} (hj : j < 64) (i : Fin 8) (v : Word) :
    s.writeBar2 fn (0x48010 + 128 * j + 8 * i.val) v =
      s.mapCtx (64 * fn + j) fun x => if v.toNat < 2 ^ 48 then { x with cnt := x.cnt.set i v.toNat } else x := by
  have hd : (0x48010 + 128 * j + 8 * i.val - 0x48000) / 128 = j := by omega
  have hm : (0x48010 + 128 * j + 8 * i.val - 0x48000) % 128 = 0x10 + 8 * i.val := by omega
  rw [writeBar2_counters (by omega) (by omega), hd, hm]
  exact congrArg _ (funext fun x => x.writeCounter_cnt i v)

theorem State.ctx_mapCtx (s : State) (n m : Nat) (f : Ctx → Ctx) :
    (s.mapCtx n f).ctx m = if m = n then f (s.ctx n) else s.ctx m := by
  unfold State.ctx State.mapCtx
  split
  next h => subst h; exact Table.get_set_same ..
  next h => exact Table.get_set_ne _ _ _ _ _ h

/-! ### Translations of the host window (R388, R391, R393) -/

theorem exec_atsInvalidate (s : State) (fn page : Nat) :
    let out := s.links.hostReqs.filter fun h => !h.needAts && fnOf h.ctx == fn && h.addr / 4096 == page
    let l : Links := { s.links with ats := s.links.ats.filter (· != (fn, page)) }
    exec (.atsInvalidate fn page) s =
      .next { s with links := if out = [] then { l with atsDone := l.atsDone + 1 }
                              else { l with atsOpen := l.atsOpen ++ [out.map (·.id)] } } := by
  change execAtsInvalidate fn page s = _
  simp only [execAtsInvalidate, List.isEmpty_iff]

theorem find?_and_of_find? {α : Type} {l : List α} {p q : α → Bool} {a : α} (h : l.find? p = some a) (hq : q a = true) :
    (l.find? fun x => p x && q x) = some a := by
  obtain ⟨hp, as, bs, rfl, has⟩ := List.find?_eq_some_iff_append.mp h
  rw [List.find?_append, List.find?_eq_none.mpr (by simpa using fun x hx hx' => absurd hx' (by simpa using has x hx))]
  simp [hp, hq]

theorem mem_drop_append_singleton {α : Type} (l : List α) (a : α) {n : Nat} (hn : 0 < n) :
    a ∈ (l ++ [a]).drop ((l ++ [a]).length - n) := by
  rw [List.drop_append_of_le_length (by simp; omega)]
  exact List.mem_append_right _ (List.mem_singleton_self a)

theorem find?_map_of_find? {α : Type} {l : List α} {p : α → Bool} {f : α → α} {a : α} (hf : ∀ x, p (f x) = p x)
    (h : l.find? p = some a) : (l.map f).find? p = some (f a) := by
  rw [List.find?_map, show p ∘ f = p from funext hf, h]; rfl

/-! ### A request beyond this module that fails (R79, R171) -/

/-- The operations of a list, by their numbers: the map changes those numbered `n` alone, and no number. -/
theorem find?_serial_map {l : List LongOp} {f : LongOp → LongOp} {k n : Nat} (hk : k ≠ n)
    (hf : ∀ e : LongOp, (f e).serial = e.serial) (hn : ∀ e : LongOp, e.serial ≠ n → f e = e) :
    (l.map f).find? (·.serial == k) = l.find? (·.serial == k) := by
  rw [List.find?_map, show (fun x : LongOp => x.serial == k) ∘ f = fun x => x.serial == k from funext fun e => by
    simp [hf e]]
  cases h : l.find? (·.serial == k) with
  | none => rfl
  | some o =>
    have ho : o.serial = k := by simpa using List.find?_some h
    simp [hn o (by omega)]

/-- The operation of a number that a sequencer has outstanding. -/
def State.opOf (s : State) (c : Nat) (q : SeqId) (k : Nat) : Option LongOp :=
  (s.seq c q).outstanding.find? (·.serial == k)

/-- The operation as it faults with BADPA; one that has faulted stays as it is. -/
def LongOp.failed (o : LongOp) : LongOp := if o.isFaulted then o else { o with phase := .faulted cBADPA 0 o.ea }

theorem LongOp.isFaulted_failed (o : LongOp) : o.failed.isFaulted = true := by
  unfold LongOp.failed
  split
  · assumption
  · rfl

theorem LongOp.failed_failed (o : LongOp) : o.failed.failed = o.failed := if_pos o.isFaulted_failed

theorem Sequencer.find?_opFails_same (x : Sequencer) (k : Nat) :
    (x.opFails k).outstanding.find? (·.serial == k) = (x.outstanding.find? (·.serial == k)).map LongOp.failed := by
  unfold Sequencer.opFails
  cases h : x.outstanding.find? (·.serial == k) with
  | none => simpa using h
  | some o =>
    have ho : o.serial = k := by simpa using List.find?_some h
    by_cases hf : o.isFaulted = true
    · simp [hf, h, LongOp.failed]
    · have hmap := find?_map_of_find? (f := fun e : LongOp =>
        if e.serial == k then { e with phase := .faulted cBADPA 0 o.ea } else e) (fun e => by split <;> rfl) h
      simpa [hf, LongOp.failed, Sequencer.setPhase, ho] using hmap

theorem Sequencer.find?_opFails_ne (x : Sequencer) {k n : Nat} (hk : k ≠ n) :
    (x.opFails n).outstanding.find? (·.serial == k) = x.outstanding.find? (·.serial == k) := by
  unfold Sequencer.opFails
  split
  · split
    · rfl
    · exact find?_serial_map hk (fun e => by split <;> rfl) fun e he => if_neg (by simpa using he)
  · rfl

theorem Sequencer.find?_pairFaults_ne (x : Sequencer) (o : LongOp) (hi : Bool) (v : Option Word) {k : Nat}
    (hk : k ≠ o.serial) :
    (x.pairFaults o hi v).outstanding.find? (·.serial == k) = x.outstanding.find? (·.serial == k) :=
  find?_serial_map hk (fun e => by split <;> rfl) fun e he => if_neg (by simpa using he)

theorem Sequencer.find?_halfFails_ne (x : Sequencer) {k n : Nat} (hi : Bool) (hk : k ≠ n) :
    (x.halfFails n hi).outstanding.find? (·.serial == k) = x.outstanding.find? (·.serial == k) := by
  unfold Sequencer.halfFails
  split
  · rfl
  next o ho =>
    have hn : k ≠ o.serial := by
      rw [show o.serial = n by simpa using List.find?_some ho]; exact hk
    split
    · split
      · exact x.find?_pairFaults_ne o hi _ hn
      · exact find?_serial_map hk (fun e => by split <;> rfl) fun e he => if_neg (by simpa using he)
    · split
      · rfl
      · exact x.find?_pairFaults_ne o false _ hn
    · rfl

theorem State.seq_mapCl (s : State) (d : Nat) {f : Cluster → Cluster} {q : SeqId} (hf : ∀ k, (f k).seq q = k.seq q)
    (c : Nat) : (s.mapCl d f).seq c q = s.seq c q := by
  unfold State.seq
  by_cases h : c = d
  · subst h; rw [State.cluster_mapCl_same, hf]
  · rw [State.cluster_mapCl_ne _ _ _ _ h]

theorem Cluster.seq_mapPort (k : Cluster) (slot tile : Nat) (f : Port → Port) (q : SeqId) :
    (k.mapPort slot tile f).seq q = k.seq q := by
  cases q <;> rfl

theorem Cluster.seq_raise (k : Cluster) (f : Nat) (q : SeqId) : (k.raise f).seq q = k.seq q := by
  cases q <;> rfl

theorem Cluster.seq_engineFails (k : Cluster) (a : Agent) (va : Nat) (q : SeqId) : (k.engineFails a va).seq q = k.seq q := by
  unfold Cluster.engineFails
  split
  · cases q <;> rfl
  · cases q <;> rfl
  · rfl

theorem State.opOf_mapSeq_ne (s : State) {c d : Nat} {q r : SeqId} {k n : Nat} {f : Sequencer → Sequencer}
    (hf : k ≠ n → ∀ x : Sequencer,
      (f x).outstanding.find? (·.serial == k) = x.outstanding.find? (·.serial == k))
    (h : (c, q, k) ≠ (d, r, n)) : (s.mapSeq d r f).opOf c q k = s.opOf c q k := by
  unfold State.opOf
  by_cases hs : d = c ∧ r = q
  · obtain ⟨rfl, rfl⟩ := hs
    rw [State.seq_mapSeq_same]
    exact hf (fun hk => h (by rw [hk])) _
  · rw [State.seq_mapSeq_ne _ _ _ _ _ _ (by
      by_cases hc : c = d
      · exact .inr fun hq => hs ⟨hc.symm, hq.symm⟩
      · exact .inl hc)]

theorem State.opOf_retFails_same (s : State) (c : Nat) (q : SeqId) (k : Nat) (a : Agent) (kind : ReqKind) (va : Nat) :
    (s.retFails (.seqOp c q k) a kind va).opOf c q k = (s.opOf c q k).map LongOp.failed := by
  change (State.seq (s.mapSeq c q _) c q).outstanding.find? _ = _
  rw [State.seq_mapSeq_same]
  exact Sequencer.find?_opFails_same _ _

theorem State.opOf_retFails_ne (s : State) {c : Nat} {q : SeqId} {k : Nat} {ret : RetTo} (a : Agent) (kind : ReqKind)
    (va : Nat) (h : ret ≠ .seqOp c q k) (hh : ∀ hi, ret ≠ .seqHalf c q k hi) :
    (s.retFails ret a kind va).opOf c q k = s.opOf c q k := by
  have hport : ∀ (t : State) (d slot tile : Nat) (f : Port → Port),
      (t.mapCl d (·.mapPort slot tile f)).opOf c q k = t.opOf c q k := fun t d slot tile f => by
    unfold State.opOf; rw [State.seq_mapCl _ _ fun k => k.seq_mapPort slot tile f q]
  have hraise : ∀ d f, (s.raise d f).opOf c q k = s.opOf c q k := fun d f => by
    unfold State.opOf State.raise; rw [State.seq_mapCl _ _ fun k => k.seq_raise f q]
  cases ret with
  | seqOp d r n =>
    exact s.opOf_mapSeq_ne (fun hk x => x.find?_opFails_ne hk) fun e => h (by cases e; rfl)
  | seqHalf d r n hi =>
    exact s.opOf_mapSeq_ne (fun hk x => x.find?_halfFails_ne hi hk) fun e => hh hi (by cases e; rfl)
  | portRead d slot tile i => exact hport ..
  | port d slot tile => exact (hport ..).trans (hraise ..)
  | portDone d slot tile => exact (hport ..).trans (hraise ..)
  | line who line => rfl
  | nowhere =>
    unfold State.retFails State.opOf
    dsimp only
    split
    · rw [State.seq_mapCl _ _ fun k => k.seq_engineFails a va q]
    · rfl
  | remote f => rfl
  | sheaf n => rfl

/-- A failed access changes no memory, nor the link or the requests on it. -/
theorem State.retFails_frame (s : State) (ret : RetTo) (a : Agent) (kind : ReqKind) (va : Nat) :
    (s.retFails ret a kind va).mem = s.mem ∧ (s.retFails ret a kind va).links.hostUp = s.links.hostUp
      ∧ (s.retFails ret a kind va).links.hostReqs = s.links.hostReqs := by
  cases ret with
  | nowhere =>
    unfold State.retFails
    dsimp only
    split
    · exact ⟨rfl, rfl, rfl⟩
    · exact ⟨rfl, rfl, rfl⟩
  | _ => exact ⟨rfl, rfl, rfl⟩

theorem State.opOf_hostFails {s : State} {c : Nat} {q : SeqId} {k : Nat} {o : LongOp} {h : HostReq}
    (hr : h.ret = .seqOp c q k) (ho : s.opOf c q k = some o) : (s.hostFails h).opOf c q k = some o.failed := by
  change (s.retFails h.ret _ _ _).opOf c q k = _
  rw [hr, State.opOf_retFails_same, ho, Option.map_some]

theorem State.opOf_hostFails_ne (s : State) {c : Nat} {q : SeqId} {k : Nat} {h : HostReq} (hr : h.ret ≠ .seqOp c q k)
    (hh : ∀ hi, h.ret ≠ .seqHalf c q k hi) : (s.hostFails h).opOf c q k = s.opOf c q k :=
  s.opOf_retFails_ne _ _ _ hr hh

/-- An operation that has faulted stays so while further requests fail. -/
theorem State.opOf_foldl_hostFails_failed {c : Nat} {q : SeqId} {k : Nat} {o : LongOp} {l : List HostReq}
    (hl : ∀ g ∈ l, ∀ hi, g.ret ≠ .seqHalf c q k hi) {s : State} (ho : s.opOf c q k = some o.failed) :
    (l.foldl (fun t g => t.hostFails g) s).opOf c q k = some o.failed := by
  induction l generalizing s with
  | nil => exact ho
  | cons g l ih =>
    rw [List.forall_mem_cons] at hl
    refine ih hl.2 ?_
    by_cases hg : g.ret = .seqOp c q k
    · rw [State.opOf_hostFails hg ho, LongOp.failed_failed]
    · rw [State.opOf_hostFails_ne _ hg hl.1, ho]

/-- With its request among those that fail, an operation faults. -/
theorem State.opOf_foldl_hostFails {c : Nat} {q : SeqId} {k : Nat} {o : LongOp} {l : List HostReq}
    (hl : ∀ g ∈ l, ∀ hi, g.ret ≠ .seqHalf c q k hi) {h : HostReq} (hm : h ∈ l) (hr : h.ret = .seqOp c q k) {s : State}
    (ho : s.opOf c q k = some o) : (l.foldl (fun t g => t.hostFails g) s).opOf c q k = some o.failed := by
  induction l generalizing s with
  | nil => cases hm
  | cons g l ih =>
    rw [List.forall_mem_cons] at hl
    by_cases hg : g.ret = .seqOp c q k
    · exact State.opOf_foldl_hostFails_failed hl.2 (State.opOf_hostFails hg ho)
    · have hm' : h ∈ l := (List.mem_cons.mp hm).resolve_left fun e => hg (e ▸ hr)
      exact ih hl.2 hm' (by rw [State.opOf_hostFails_ne _ hg hl.1, ho])

theorem State.foldl_hostFails_frame (l : List HostReq) (s : State) :
    let t := l.foldl (fun t g => t.hostFails g) s
    t.mem = s.mem ∧ t.links.hostUp = s.links.hostUp ∧ t.links.hostReqs = s.links.hostReqs := by
  induction l generalizing s with
  | nil => exact ⟨rfl, rfl, rfl⟩
  | cons g l ih =>
    obtain ⟨h1, h2, h3⟩ := ih (s.hostFails g)
    obtain ⟨g1, g2, g3⟩ := s.retFails_frame g.ret g.agent g.kind g.va
    exact ⟨h1.trans g1, h2.trans g2, h3.trans g3⟩

/-! ### What an access does to the caches and counters -/

/-- t is s but for L2 and the buffers before it, the contexts' counters and cached descriptors, and the counter. -/
def State.CachesOf (s t : State) : Prop :=
  ∃ l f g n c, t = { s with l2 := l, l2Fills := f, staging := g, counter := n, ctxs := c }

theorem State.CachesOf.refl (s : State) : s.CachesOf s := ⟨_, _, _, _, _, rfl⟩

theorem State.CachesOf.trans {s t u : State} (h : s.CachesOf t) (h' : t.CachesOf u) : s.CachesOf u := by
  obtain ⟨_, _, _, _, _, rfl⟩ := h
  obtain ⟨_, _, _, _, _, rfl⟩ := h'
  exact ⟨_, _, _, _, _, rfl⟩

theorem State.tableFills_frame (reads : List (Nat × Nat × Nat × Nat)) (s : State) :
    ∃ l, s.tableFills reads = { s with l2 := l } := by
  unfold State.tableFills
  induction reads generalizing s with
  | nil => exact ⟨_, rfl⟩
  | cons x r ih =>
    obtain ⟨l, h⟩ := ih (s.tableFill x.2.2.1)
    exact ⟨l, h⟩

theorem State.cacheDesc_frame (s : State) (p : Partition) (n : Nat) : ∃ c, s.cacheDesc p n = { s with ctxs := c } := by
  unfold State.cacheDesc
  split
  · exact ⟨_, rfl⟩
  · exact ⟨_, rfl⟩

/-- The access is done or fails in a state with the property. -/
def Got.Ends {α : Type} (P : State → Prop) : Got α → Prop
  | .ok s _ => P s
  | .fail s _ _ _ => P s
  | .wait _ => True

/-- A translation by PD0's walkers caches the table lines it reads and the descriptor it uses. -/
theorem State.ctxTarget_ends (s : State) (p : Partition) (ctx va n : Nat) (need : Need) :
    (s.ctxTarget p ctx va n need).Ends s.CachesOf := by
  obtain ⟨l, hl⟩ := s.tableFills_frame (s.walkPath p .reset ctx va)
  obtain ⟨c, hc⟩ := ({ s with l2 := l } : State).cacheDesc_frame p ctx
  unfold State.ctxTarget
  extract_lets s1
  have hs1 : s.CachesOf s1 := ⟨l, _, _, _, c, by dsimp only [s1]; rw [hl]; exact hc⟩
  split
  · exact .refl s
  split
  · exact .refl s
  split
  · exact hs1
  extract_lets pa
  split
  · exact hs1
  split
  · split
    · exact hs1
    · exact hs1
  · exact hs1
  · exact hs1
  · exact hs1

theorem State.ctxTarget_ok {s u : State} {p : Partition} {ctx va n : Nat} {need : Need} {t : Target}
    (h : s.ctxTarget p ctx va n need = .ok u t) : s.CachesOf u := by
  have he := s.ctxTarget_ends p ctx va n need
  rw [h] at he
  exact he

theorem State.ctxTarget_fail {s u : State} {p : Partition} {ctx va n cause d a : Nat} {need : Need}
    (h : s.ctxTarget p ctx va n need = .fail u cause d a) : s.CachesOf u := by
  have he := s.ctxTarget_ends p ctx va n need
  rw [h] at he
  exact he

theorem State.countCtx_zero (s : State) (ctx e : Nat) : ∃ c, s.countCtx ctx e 0 = { s with ctxs := c } := by
  unfold State.countCtx
  generalize List.range 8 = is
  induction is generalizing s with
  | nil => exact ⟨_, rfl⟩
  | cons i is ih =>
    have hb : (s.ctx ctx).bump i e 0 = (s.ctx ctx, false) := by
      unfold Ctx.bump; split <;> simp
    obtain ⟨c, h⟩ := ih (s.mapCtx ctx fun _ => s.ctx ctx)
    refine ⟨c, ?_⟩
    rw [List.foldl_cons]
    simp only [hb, Bool.and_false, Bool.false_eq_true, if_false]
    exact h

/-- An inbound access counts for no context (R408). -/
theorem State.ctxMiss_frame (s : State) {w : Who} (hw : w.cls = 5) (key : Nat) : ∃ c, s.ctxMiss w key = { s with ctxs := c } := by
  unfold State.ctxMiss
  rw [hw]
  exact s.countCtx_zero _ _

theorem State.touchL2_caches (s : State) (key rcls : Nat) (reads : Bool) : s.CachesOf (s.touchL2 key rcls reads) := by
  have hstage : ∀ rct, ∃ g n, s.stage4k key rct = { s with staging := g, counter := n } := fun rct => by
    unfold State.stage4k
    split
    · exact ⟨_, _, rfl⟩
    · exact ⟨_, _, rfl⟩
  unfold State.touchL2
  extract_lets rct line hit s1 young
  obtain ⟨g, n, h1⟩ : ∃ g n, s1 = { s with staging := g, counter := n } := by
    dsimp only [s1]
    split
    · exact hstage rct
    · exact ⟨_, _, rfl⟩
  rw [h1]
  exact ⟨_, _, _, _, _, rfl⟩

/-- Both filters of the slices are off. -/
def State.Untraced (s : State) : Prop := bit s.dbg.lf[2].toNat 30 = false ∧ bit s.dbg.lf[6].toNat 30 = false

theorem State.CachesOf.untraced {s t : State} (h : s.CachesOf t) (hs : s.Untraced) : t.Untraced := by
  obtain ⟨_, _, _, _, _, rfl⟩ := h
  exact hs

theorem State.l2Filter_untraced {s : State} (h : s.Untraced) (r : MemReq) (kind slice : Nat) :
    s.l2Filter r kind slice 0 = s ∧ s.l2Filter r kind slice 1 = s := by
  obtain ⟨h0, h1⟩ := h
  have hf : s.filterHit r kind 0 = false ∧ s.filterHit r kind 1 = false := by
    simp [State.filterHit, h0, h1]
  simp [State.l2Filter, hf]

theorem State.meetsL2_caches {s : State} (h : s.Untraced) {r : MemReq} (hr : r.agent.cls = 5) (merged again : Bool) :
    s.CachesOf (s.meetsL2 r merged again) := by
  unfold State.meetsL2
  extract_lets counts s1 kind s2
  have hs1 : s1 = s := by
    dsimp only [s1, counts]
    split
    · simp [hr]
    · rfl
  have hs2 : s2 = s := by
    dsimp only [s2]
    rw [hs1, (State.l2Filter_untraced h _ _ _).1, (State.l2Filter_untraced h _ _ _).2]
  rw [hs2]
  split
  · exact s.touchL2_caches _ _ _
  · exact .refl s

theorem State.markDirty_caches (s : State) (key : Nat) (bs : List Byte) (wpol : Nat) :
    s.CachesOf (s.markDirty key bs wpol) := by
  unfold State.markDirty
  extract_lets line at_ mark way fill
  split
  · exact .refl s
  · exact ⟨_, _, _, _, _, rfl⟩

/-- A store outside the tiles writes the memory, and joins the writes of its location. -/
theorem State.store_frame (s : State) {key : Nat} (hk : key < 2 ^ 60) (bs : List Byte) (view : List Nat)
    (rels : List RelInfo) (wpol : Nat) :
    ∃ t h, s.CachesOf t ∧ s.store key bs view rels wpol = { t with mem := t.mem.write key bs, hist := h } := by
  obtain ⟨l, f, g, n, c, hd⟩ := s.markDirty_caches key bs wpol
  unfold State.store State.commit State.fresh State.rawWrite
  rw [hd, if_neg (Nat.not_le.mpr hk)]
  exact ⟨_, _, ⟨l, f, g, _, c, rfl⟩, rfl⟩

/-! ### Inbound accesses within one line (R81, R91, R388, R392) -/

theorem linesOf_of_one_line {off n : Nat} (hn : 1 ≤ n) (h : off / 64 = (off + n - 1) / 64) : linesOf off n = [(off, n)] := by
  have hmin : Nat.min n (64 - off % 64) = n := Nat.min_eq_left (by omega)
  unfold linesOf
  rw [lines, if_neg (by omega), hmin, Nat.sub_self, lines, if_pos rfl]

/-- What an inbound access has made and read is kept with its requester. -/
theorem State.note_inbound (s : State) {a : Agent} (hc : a.cluster < 512) (ha : a.cls = 5) (ws rs : List Nat) :
    ∃ t, s.note a ws rs = { s with links := { s.links with hAgents := t } } := by
  unfold State.note
  rw [if_neg (Nat.not_le.mpr hc), ha]
  split
  · exact ⟨_, rfl⟩
  · exact ⟨_, rfl⟩

/-- Where an inbound write of one line is performed: at its location, by its requester, and at MO. -/
theorem State.ctxWrite_mem {s u : State} {p : Partition} {w : Who} {off key pa rcls : Nat} {bs : List Byte}
    (hw : w.cls = 5) (hc : w.cl < 512) (hq : s.Untraced) (hl : linesOf off bs.length = [(off, bs.length)])
    (ht : s.ctxTarget p w.asid off bs.length needW = .ok u (.mem key pa rcls)) (hk : key < 2 ^ 60) :
    ∃ t h a m, s.CachesOf t ∧ s.ctxWrite p w [] off bs = .ok { t with
      mem := s.mem.write key bs, hist := h, links := { s.links with hAgents := a, moDone := m } } () := by
  have hu : s.CachesOf u := State.ctxTarget_ok ht
  obtain ⟨c, hm⟩ := State.ctxMiss_frame u hw key
  have hu1 : s.CachesOf (u.ctxMiss w key) := hu.trans ⟨_, _, _, _, c, hm⟩
  have hu2 := hu1.trans (State.meetsL2_caches (hu1.untraced hq) (r := w.homeReq (.write bs) key pa rcls) hw false false)
  unfold State.ctxWrite State.ctxPuts State.ctxPut
  rw [hl]
  dsimp only
  rw [List.take_length, ht]
  dsimp only
  generalize (u.ctxMiss w key).meetsL2 (w.homeReq (.write bs) key pa rcls) false false = u2 at hu2 ⊢
  obtain ⟨t, h, ht2, hst⟩ := u2.store_frame hk bs (union w.view (u2.ownOf w.agent).1) [] (p.wpol rcls)
  rw [hst]
  obtain ⟨a, ha⟩ := State.note_inbound { t with mem := t.mem.write key bs, hist := h } (a := w.agent) hc hw [u2.counter] []
  rw [ha]
  have hst := hu2.trans ht2
  have hmem : t.mem = s.mem := by obtain ⟨_, _, _, _, _, rfl⟩ := hst; rfl
  have hlinks : t.links = s.links := by obtain ⟨_, _, _, _, _, rfl⟩ := hst; rfl
  refine ⟨t, h, a, union s.links.moDone [u2.counter], hst, ?_⟩
  rw [← hmem, ← hlinks]
  rfl

/-- What an inbound read of one line returns, to its requester alone. -/
theorem State.ctxRead_mem {s u : State} {p : Partition} {w : Who} {off len key pa rcls : Nat}
    (hw : w.cls = 5) (hc : w.cl < 512) (hq : s.Untraced) (hl : linesOf off len = [(off, len)])
    (ht : s.ctxTarget p w.asid off len needR = .ok u (.mem key pa rcls)) :
    ∃ t a, s.CachesOf t ∧ s.ctxRead p w off len = .ok { t with links := { s.links with hAgents := a } }
      (u.readAll (union w.view (u.ownOf w.agent).1) (union w.floor (union (u.ownOf w.agent).2 [])) (partsOf key len)).1 := by
  have hu : s.CachesOf u := State.ctxTarget_ok ht
  obtain ⟨c, hm⟩ := State.ctxMiss_frame u hw key
  have hu1 : s.CachesOf (u.ctxMiss w key) := hu.trans ⟨_, _, _, _, c, hm⟩
  have hown : (u.ctxMiss w key).ownOf w.agent = u.ownOf w.agent := by rw [hm]; rfl
  have hread : (u.ctxMiss w key).readAll = u.readAll := by rw [hm]; rfl
  unfold State.ctxRead
  rw [hl]
  unfold State.ctxPieces State.ctxPiece
  rw [ht]
  dsimp only
  unfold State.readAt
  dsimp only
  rw [hown, hread, hw]
  generalize u.ctxMiss w key = u1 at hu1 ⊢
  rw [if_pos (beq_self_eq_true 5)]
  generalize u.readAll _ _ _ = x
  obtain ⟨a, ha⟩ := u1.note_inbound (a := w.agent) hc hw [] x.2.1
  have hq1 : ({ u1 with links := { u1.links with hAgents := a } } : State).Untraced := hu1.untraced hq
  obtain ⟨l, f, g, n, c', h⟩ := State.meetsL2_caches hq1 (r := w.homeReq (.read len) key pa rcls) hw false false
  rw [ha, h]
  obtain ⟨_, _, _, _, _, rfl⟩ := hu1
  exact ⟨{ s with l2 := l, l2Fills := f, staging := g, counter := n, ctxs := c' }, a, ⟨_, _, _, _, _, rfl⟩, rfl⟩

/-! ### A read of bytes that no write is open for (R87, R90) -/

theorem Memory.read_add (m : Memory) (a i j : Nat) : m.read a (i + j) = m.read a i ++ m.read (a + i) j := by
  unfold Memory.read
  rw [List.range_add, List.map_append, List.map_map]
  exact congrArg _ (List.map_congr_left fun x _ => by rw [Function.comp_apply, Nat.add_assoc])

theorem WriteRec.overlaps_of_part {v : WriteRec} {key n k m : Nat} (h : v.overlaps key n = false) (hk : key ≤ k)
    (hm : k + m ≤ key + n) : v.overlaps k m = false := by
  simp only [WriteRec.overlaps, Bool.and_eq_false_imp, decide_eq_true_eq, decide_eq_false_iff_not] at h ⊢
  omega

theorem State.readOpen_unwritten {s : State} {key n : Nat} (hk : key < 2 ^ 60)
    (h : ∀ v ∈ s.hist, v.overlaps key n = false) (view floor : List Nat) :
    (s.readOpen key n view floor).1 = s.mem.read key n := by
  have hrs : s.hist.filter (·.overlaps key n) = [] := List.filter_eq_nil_iff.mpr fun v hv => by rw [h v hv]; simp
  unfold State.readOpen
  rw [hrs]
  exact if_neg (Nat.not_le.mpr hk)

theorem State.readAll_bytes (s : State) (view floor : List Nat) (l : List (Nat × Nat)) :
    (s.readAll view floor l).1 = l.flatMap fun p => (s.readOpen p.1 p.2 view floor).1 := by
  unfold State.readAll
  generalize hacc : (([], [], []) : ReadOf) = acc
  rw [← List.nil_append (l.flatMap _), show [] = acc.1 by rw [← hacc]]
  clear hacc
  induction l generalizing acc with
  | nil => exact (List.append_nil _).symm
  | cons p l ih => rw [List.foldl_cons, ih, List.flatMap_cons, ← List.append_assoc]

/-- The parts of a range one after another; the fuel covers each aligned 8 bytes that the range touches. -/
theorem Memory.flatMap_parts8 {m : Memory} {f : Nat × Nat → List Byte} {lo hi : Nat}
    (hf : ∀ k n, lo ≤ k → 0 < n → k + n ≤ hi → f (k, n) = m.read k n) {fuel key n : Nat}
    (hn : n = 0 ∨ key % 8 + n ≤ 8 * fuel) (hl : lo ≤ key) (hh : key + n ≤ hi) :
    (parts8 fuel key n).flatMap f = m.read key n := by
  induction fuel generalizing key n with
  | zero =>
    obtain rfl : n = 0 := by omega
    rfl
  | succ fuel ih =>
    unfold parts8
    split
    next h0 => subst h0; rfl
    next h0 =>
      obtain ⟨j, hj⟩ : ∃ j, j = min n (8 - key % 8) := ⟨_, rfl⟩
      rw [show Nat.min n (8 - key % 8) = j from hj.symm, List.flatMap_cons, ih (by omega) (by omega) (by omega),
        hf key j hl (by omega) (by omega), ← Memory.read_add, Nat.add_sub_of_le (by omega)]

theorem State.readAll_unwritten {s : State} {key n : Nat} (hk : key + n ≤ 2 ^ 60)
    (h : ∀ v ∈ s.hist, v.overlaps key n = false) (view floor : List Nat) :
    (s.readAll view floor (partsOf key n)).1 = s.mem.read key n := by
  rw [State.readAll_bytes]
  refine Memory.flatMap_parts8 (lo := key) (hi := key + n) (fun k j hl hj hh => ?_) (.inr (by omega)) (Nat.le_refl _)
    (Nat.le_refl _)
  exact State.readOpen_unwritten (by omega) (fun v hv => WriteRec.overlaps_of_part (h v hv) hl hh) view floor

/-! ### What becomes of an inbound access (R388, R389, R391, R392, R414) -/

section
variable {s : State} {fn off req : Nat} {pasid : Option Nat} (hf : fn < 256) (hp : pasid.getD 0 < 64)

include hf hp in
theorem inbound_supported : (256 ≤ fn || 64 ≤ pasid.getD 0) = false := by simp [hf, hp]

include hf hp in
theorem exec_inboundWrite_dropped (bs : List Byte) (h : s.boot.st ≠ 5 ∨ s.inboundOut req = true) :
    exec (.inboundWrite fn pasid off bs req) s = .next s := by
  have hdrop : (apertureSize < off + bs.length || s.boot.st != 5 || s.inboundOut req) = true := by
    obtain h | h := h
    · simp [h]
    · simp [h]
  change execInboundWrite fn pasid off bs req s = _
  unfold execInboundWrite
  dsimp only
  rw [inbound_supported hf hp, if_neg Bool.false_ne_true, if_pos hdrop]

theorem inboundWrite_taken {n : Nat} (ho : off + n ≤ 2 ^ 46) (hst : s.boot.st = 5) (hq : s.inboundOut req = false) :
    (apertureSize < off + n || s.boot.st != 5 || s.inboundOut req) = false := by
  rw [decide_eq_false (show ¬ apertureSize < off + n from Nat.not_lt.mpr ho), hst, hq]
  rfl

include hf hp in
theorem exec_inboundWrite_fail {bs : List Byte} {u : State} {cause d a : Nat} (ho : off + bs.length ≤ 2 ^ 46)
    (hst : s.boot.st = 5) (hq : s.inboundOut req = false)
    (h : s.ctxTarget (s.partOfFn fn) (64 * fn + pasid.getD 0) off bs.length needW = .fail u cause d a) :
    exec (.inboundWrite fn pasid off bs req) s = .next s := by
  change execInboundWrite fn pasid off bs req s = _
  unfold execInboundWrite
  dsimp only
  rw [inbound_supported hf hp, if_neg Bool.false_ne_true, inboundWrite_taken ho hst hq, if_neg Bool.false_ne_true, h]

include hf hp in
theorem exec_inboundWrite_ok {bs : List Byte} {u t : State} {x : Target} (ho : off + bs.length ≤ 2 ^ 46)
    (hst : s.boot.st = 5) (hq : s.inboundOut req = false)
    (h : s.ctxTarget (s.partOfFn fn) (64 * fn + pasid.getD 0) off bs.length needW = .ok u x)
    (hw : s.ctxWrite (s.partOfFn fn) (s.inbound (s.partOfFn fn) (64 * fn + pasid.getD 0) req) [] off bs = .ok t ()) :
    exec (.inboundWrite fn pasid off bs req) s = .next t := by
  change execInboundWrite fn pasid off bs req s = _
  unfold execInboundWrite
  dsimp only
  rw [inbound_supported hf hp, if_neg Bool.false_ne_true, inboundWrite_taken ho hst hq, if_neg Bool.false_ne_true, h]
  dsimp only
  rw [hw]

include hf hp in
theorem exec_inboundRead_unready (len : Nat) (hst : s.boot.st ≠ 5) :
    exec (.inboundRead fn pasid off len req) s = .next s.abort := by
  change execInboundRead fn pasid off len req s = _
  unfold execInboundRead
  dsimp only
  rw [inbound_supported hf hp, if_neg Bool.false_ne_true, if_pos (bne_iff_ne.mpr hst)]

include hf hp in
theorem exec_inboundRead_beyond {len : Nat} (hst : s.boot.st = 5) (ho : 2 ^ 46 < off + len) :
    exec (.inboundRead fn pasid off len req) s = .next (s.toRequester req (List.replicate len 0)) := by
  change execInboundRead fn pasid off len req s = _
  unfold execInboundRead
  dsimp only
  rw [inbound_supported hf hp, if_neg Bool.false_ne_true, if_neg (by simp [hst]),
    if_pos (show apertureSize < off + len from ho)]

include hf hp in
theorem exec_inboundRead_ok {len : Nat} {t : State} {bs : List Byte} (hst : s.boot.st = 5) (ho : off + len ≤ 2 ^ 46)
    (h : s.ctxRead (s.partOfFn fn) (s.inbound (s.partOfFn fn) (64 * fn + pasid.getD 0) req) off len = .ok t bs) :
    exec (.inboundRead fn pasid off len req) s =
      .next ((t.dropLines (s.inbound (s.partOfFn fn) (64 * fn + pasid.getD 0) req).agent).toRequester req bs) := by
  change execInboundRead fn pasid off len req s = _
  unfold execInboundRead
  dsimp only
  rw [inbound_supported hf hp, if_neg Bool.false_ne_true, if_neg (by simp [hst]),
    if_neg (show ¬ apertureSize < off + len from Nat.not_lt.mpr ho), h]

include hf hp in
theorem exec_inboundRead_fail {len : Nat} {t : State} {cause d a : Nat} (hst : s.boot.st = 5) (ho : off + len ≤ 2 ^ 46)
    (h : s.ctxRead (s.partOfFn fn) (s.inbound (s.partOfFn fn) (64 * fn + pasid.getD 0) req) off len = .fail t cause d a) :
    exec (.inboundRead fn pasid off len req) s = .next t.abort := by
  change execInboundRead fn pasid off len req s = _
  unfold execInboundRead
  dsimp only
  rw [inbound_supported hf hp, if_neg Bool.false_ne_true, if_neg (by simp [hst]),
    if_neg (show ¬ apertureSize < off + len from Nat.not_lt.mpr ho), h]

end

/-- A read whose only line is refused fails as its translation does. -/
theorem State.ctxRead_fail {s u : State} {p : Partition} {w : Who} {off len cause d a : Nat}
    (hl : linesOf off len = [(off, len)]) (h : s.ctxTarget p w.asid off len needR = .fail u cause d a) :
    s.ctxRead p w off len = .fail u cause d a := by
  unfold State.ctxRead
  rw [hl]
  unfold State.ctxPieces State.ctxPiece
  rw [h]

theorem Memory.stores_write {m : Memory} (h : m.wf = true) (a : Nat) (bs : List Byte) : m.Stores (m.write a bs) a bs := by
  intro x
  split
  next hx =>
    obtain ⟨i, rfl⟩ := Nat.exists_eq_add_of_le hx.1
    have hi : i < bs.length := by omega
    rw [Memory.readByte_write_in h a bs i hi, Nat.add_sub_cancel_left, List.getD_eq_getElem _ _ hi]
  next hx => exact Memory.readByte_write_out h a x bs (by omega)

theorem exec_zeroLengthRead (s : State) (req : Nat) :
    exec (.zeroLengthRead req) s = .next (if s.inboundOut req then s
      else { s with links := { s.links with zeroReads := s.links.zeroReads ++ [req] } }) := rfl

/-- The links once the translation of a request has come: the newest of 1,024, with the request no longer waiting for it. -/
def Links.translated (l : Links) (h : HostReq) (now : Nat) : Links :=
  let held := l.ats.filter (· != (fnOf h.ctx, h.addr / 4096)) ++ [(fnOf h.ctx, h.addr / 4096)]
  { l with ats := held.drop (held.length - 1024),
           hostReqs := l.hostReqs.map fun g => if g.id == h.id then { g with needAts := false, issued := now } else g }

theorem Links.mem_translated_ats (l : Links) (h : HostReq) (now : Nat) :
    (fnOf h.ctx, h.addr / 4096) ∈ (l.translated h now).ats := by
  unfold Links.translated
  dsimp only
  apply mem_drop_append_singleton
  decide

theorem Links.find?_translated {l : Links} {h : HostReq} (hf : l.hostReqs.find? (·.id == h.id) = some h) (now : Nat) :
    (l.translated h now).hostReqs.find? (·.id == h.id) = some { h with needAts := false, issued := now } := by
  have hmap := find?_map_of_find? (p := fun g : HostReq => g.id == h.id) (f := fun g : HostReq =>
    if g.id == h.id then { g with needAts := false, issued := now } else g) (fun g => by split <;> rfl) hf
  rw [if_pos (beq_self_eq_true h.id)] at hmap
  exact hmap

theorem State.hostLeaves_frame (s : State) (l : Links) (h : HostReq) :
    (({ s with links := l } : State).hostLeaves h).mem = s.mem
      ∧ (({ s with links := l } : State).hostLeaves h).links.ats = l.ats
      ∧ (({ s with links := l } : State).hostLeaves h).links.hostReqs = l.hostReqs :=
  ⟨rfl, rfl, rfl⟩

theorem exec_atsTranslationCompletion {s : State} {h : HostReq} (hf : s.links.hostReqs.find? (·.id == h.id) = some h)
    (hn : h.needAts = true) :
    exec (.atsTranslationCompletion h.id) s =
      .next (({ s with links := s.links.translated h s.now } : State).hostLeaves h) := by
  change execAtsTranslationCompletion h.id s = _
  unfold execAtsTranslationCompletion
  rw [show (s.links.hostReqs.find? fun g => g.id == h.id && g.needAts) = some h from find?_and_of_find? hf hn]
  rfl

theorem exec_hostReadTimeout_early {s : State} {h : HostReq} {n : Nat}
    (hf : s.links.hostReqs.find? (·.id == h.id) = some h) (hk : h.kind = .read n) (ht : s.now - h.issued < 50000000) :
    exec (.hostReadTimeout h.id) s = .next s := by
  change execHostReadTimeout h.id s = _
  unfold execHostReadTimeout
  rw [hf]
  dsimp only
  rw [hk]
  exact congrArg _ (if_pos ht)

theorem exec_hostReadTimeout_late {s : State} {h : HostReq} {n : Nat}
    (hf : s.links.hostReqs.find? (·.id == h.id) = some h) (hk : h.kind = .read n) (ht : 50000000 ≤ s.now - h.issued) :
    exec (.hostReadTimeout h.id) s =
      .next (({ s with links := s.links.keepHost (·.id != h.id) } : State).hostFails h) := by
  change execHostReadTimeout h.id s = _
  unfold execHostReadTimeout
  rw [hf]
  dsimp only
  rw [hk]
  exact congrArg _ (if_neg (Nat.not_lt.mpr ht))

theorem exec_hostLinkDown (s : State) :
    exec .hostLinkDown s = .next (s.links.hostReqs.foldl (fun t h => t.hostFails h)
      { s with links := { s.links.keepHost (fun _ => false) with hostUp := false } }) := rfl

theorem LongOp.failed_of_not {o : LongOp} (h : o.isFaulted = false) : o.failed = { o with phase := .faulted 6 0 o.ea } :=
  if_neg (by rw [h]; exact Bool.false_ne_true)

/-- Both ways in which an operation's host-window access fails (R79, R393). -/
theorem hostAccess_fails {s : State} {h : HostReq} (hf : s.links.hostReqs.find? (·.id == h.id) = some h) {c : Nat}
    {q : SeqId} {k : Nat} {o : LongOp} (hr : h.ret = .seqOp c q k) (ho : s.opOf c q k = some o) :
    (∀ n, h.kind = .read n → 50000000 ≤ s.now - h.issued → Yields s (.hostReadTimeout h.id) fun t =>
        t.opOf c q k = some o.failed ∧ t.links.hostReqs = s.links.hostReqs.filter (·.id != h.id) ∧ t.mem = s.mem)
      ∧ ((∀ g ∈ s.links.hostReqs, ∀ hi, g.ret ≠ .seqHalf c q k hi) → Yields s .hostLinkDown fun t =>
        t.opOf c q k = some o.failed ∧ t.links.hostUp = false ∧ t.links.hostReqs = [] ∧ t.mem = s.mem) := by
  constructor
  · intro n hk hlate
    obtain ⟨hmem, _, hreqs⟩ :=
      State.retFails_frame { s with links := s.links.keepHost (·.id != h.id) } h.ret h.agent h.kind h.va
    exact ⟨_, exec_hostReadTimeout_late hf hk hlate, State.opOf_hostFails hr ho, hreqs, hmem⟩
  · intro hhalf
    obtain ⟨hmem, hup, hreqs⟩ := State.foldl_hostFails_frame s.links.hostReqs
      { s with links := { s.links.keepHost (fun _ => false) with hostUp := false } }
    refine ⟨_, exec_hostLinkDown s, ?_, hup, ?_, hmem⟩
    · exact State.opOf_foldl_hostFails hhalf (List.mem_of_find?_eq_some hf) hr ho
    · exact hreqs.trans (List.filter_eq_nil_iff.mpr fun _ _ => Bool.false_ne_true)

/-! ### The clauses of the obligation -/

/-- An inbound write of one line is performed at its location, and changes nothing else but what class H has made known. -/
theorem yields_inboundWrite {s u : State} {fn off req key pa r : Nat} {pasid : Option Nat} {bs : List Byte}
    (hf : fn < 256) (hp : pasid.getD 0 < 64) (hl : linesOf off bs.length = [(off, bs.length)])
    (ho : off + bs.length ≤ 2 ^ 46) (hst : s.boot.st = 5) (hout : s.inboundOut req = false)
    (ht : s.ctxTarget (s.partOfFn fn) (64 * fn + pasid.getD 0) off bs.length needW = .ok u (.mem key pa r))
    (hk : key < 2 ^ 60) (hm : s.MemOk) (hq : s.Untraced) (hfirst : (s.partOfFn fn).first < 8) :
    Yields s (.inboundWrite fn pasid off bs req) fun t => s.mem.Stores t.mem key bs ∧ t.host = s.host
      ∧ t.clusters = s.clusters ∧ t.jobs = s.jobs
      ∧ ({ t.links with hAgents := s.links.hAgents, moDone := s.links.moDone } : Links) = s.links := by
  have hcl : (s.inbound (s.partOfFn fn) (64 * fn + pasid.getD 0) req).cl < 512 := by
    change 64 * (s.partOfFn fn).first < 512
    omega
  obtain ⟨t, h, a, m, hst', hw⟩ := State.ctxWrite_mem
    (w := s.inbound (s.partOfFn fn) (64 * fn + pasid.getD 0) req) rfl hcl hq hl ht hk
  refine ⟨_, exec_inboundWrite_ok hf hp ho hst hout ht hw, Memory.stores_write hm.1 key bs, ?_⟩
  obtain ⟨_, _, _, _, _, rfl⟩ := hst'
  exact ⟨rfl, rfl, rfl, rfl⟩

/-- An inbound read of one line is completed to its requester. -/
theorem yields_inboundRead {s u : State} {fn off len req key pa r : Nat} {pasid : Option Nat}
    (hf : fn < 256) (hp : pasid.getD 0 < 64) (hl : linesOf off len = [(off, len)]) (ho : off + len ≤ 2 ^ 46)
    (hst : s.boot.st = 5)
    (ht : s.ctxTarget (s.partOfFn fn) (64 * fn + pasid.getD 0) off len needR = .ok u (.mem key pa r))
    (hq : s.Untraced) (hfirst : (s.partOfFn fn).first < 8) :
    let w := s.inbound (s.partOfFn fn) (64 * fn + pasid.getD 0) req
    let x := u.readAll (union w.view (u.ownOf w.agent).1) (union w.floor (union (u.ownOf w.agent).2 [])) (partsOf key len)
    Yields s (.inboundRead fn pasid off len req) fun t => t.links.hostTlps = s.links.hostTlps ++ [(req, x.1)]
      ∧ t.mem = s.mem ∧ t.host = s.host ∧ t.clusters = s.clusters ∧ t.jobs = s.jobs ∧ t.parts = s.parts
      ∧ t.hist = s.hist := by
  intro w x
  have hcl : w.cl < 512 := by
    change 64 * (s.partOfFn fn).first < 512
    omega
  obtain ⟨t, a, hst', hr⟩ := State.ctxRead_mem (w := w) rfl hcl hq hl ht
  refine ⟨_, exec_inboundRead_ok hf hp hst ho hr, ?_⟩
  obtain ⟨_, _, _, _, _, rfl⟩ := hst'
  exact ⟨rfl, rfl, rfl, rfl, rfl, rfl, rfl⟩

theorem State.CachesOf.readAll_unwritten {s u : State} (h : s.CachesOf u) {key n : Nat} (hk : key + n ≤ 2 ^ 60)
    (hv : ∀ v ∈ s.hist, v.overlaps key n = false) (view floor : List Nat) :
    (u.readAll view floor (partsOf key n)).1 = s.mem.read key n := by
  obtain ⟨_, _, _, _, _, rfl⟩ := h
  refine State.readAll_unwritten hk ?_ view floor
  exact hv

/-- An inbound read that its page tables do not allow ends with Completer Abort. -/
theorem yields_inboundRead_abort {s u : State} {fn off len req cause d a : Nat} {pasid : Option Nat}
    (hf : fn < 256) (hp : pasid.getD 0 < 64) (hl : linesOf off len = [(off, len)]) (ho : off + len ≤ 2 ^ 46)
    (hst : s.boot.st = 5)
    (ht : s.ctxTarget (s.partOfFn fn) (64 * fn + pasid.getD 0) off len needR = .fail u cause d a) :
    Yields s (.inboundRead fn pasid off len req) fun t =>
      t = { u with links := { u.links with aborts := u.links.aborts + 1 } } ∧ u.links = s.links ∧ t.mem = s.mem
        ∧ t.clusters = s.clusters := by
  have hr := State.ctxRead_fail (w := s.inbound (s.partOfFn fn) (64 * fn + pasid.getD 0) req) hl ht
  refine ⟨_, exec_inboundRead_fail hf hp hst ho hr, rfl, ?_⟩
  obtain ⟨_, _, _, _, _, rfl⟩ := State.ctxTarget_fail ht
  exact ⟨rfl, rfl, rfl⟩

theorem yields_atsInvalidate (s : State) (fn page : Nat) :
    Yields s (.atsInvalidate fn page) fun t =>
      let out := s.links.hostReqs.filter fun h => !h.needAts && fnOf h.ctx == fn && h.addr / 4096 == page
      (fn, page) ∉ t.links.ats ∧ t.links.hostReqs = s.links.hostReqs
      ∧ (∀ e, e ≠ (fn, page) → (e ∈ t.links.ats ↔ e ∈ s.links.ats))
      ∧ (out = [] → t.links.atsDone = s.links.atsDone + 1)
      ∧ (out ≠ [] → t.links.atsDone = s.links.atsDone ∧ t.links.atsOpen = s.links.atsOpen ++ [out.map (·.id)])
      ∧ t.mem = s.mem := by
  have he := exec_atsInvalidate s fn page
  dsimp only at he
  by_cases ho : (s.links.hostReqs.filter fun h => !h.needAts && fnOf h.ctx == fn && h.addr / 4096 == page) = []
  · rw [if_pos ho] at he
    exact ⟨_, he, by simp, rfl, fun e he => by simp [he], fun _ => rfl, fun h => absurd ho h, rfl⟩
  · rw [if_neg ho] at he
    exact ⟨_, he, by simp, rfl, fun e he => by simp [he], fun h => absurd h ho, fun _ => ⟨rfl, rfl⟩, rfl⟩

theorem yields_atsTranslationCompletion {s : State} {h : HostReq}
    (hf : s.links.hostReqs.find? (·.id == h.id) = some h) (hn : h.needAts = true) :
    Yields s (.atsTranslationCompletion h.id) fun t => (fnOf h.ctx, h.addr / 4096) ∈ t.links.ats ∧ t.mem = s.mem
      ∧ t.links.hostReqs.find? (·.id == h.id) = some { h with needAts := false, issued := s.now } := by
  obtain ⟨hmem, hats, hreqs⟩ := s.hostLeaves_frame (s.links.translated h s.now) h
  refine ⟨_, exec_atsTranslationCompletion hf hn, ?_, hmem, ?_⟩
  · rw [hats]; exact s.links.mem_translated_ats h s.now
  · rw [hreqs]; exact Links.find?_translated hf s.now

/-- ATS is on for a function as the last write of its ATS Control says, and off it has no translations (R388, R393). -/
theorem yields_registerWrite_config {s : State} {fn : Nat} (hf : fn < 256) (h : s.boot.st ≠ 6 ∨ fn = 0) (v : Word) :
    Yields s (.registerWrite 6 v (.config fn)) fun t =>
      (fn ∈ t.links.atsOn ↔ v.getLsbD 15 = true) ∧ (∀ f, f ≠ fn → (f ∈ t.links.atsOn ↔ f ∈ s.links.atsOn))
        ∧ (v.getLsbD 15 = false → ∀ page, (fn, page) ∉ t.links.ats)
        ∧ ({ t with links := { t.links with atsOn := s.links.atsOn, ats := s.links.ats } } : State) = s := by
  refine ⟨_, registerWrite_config hf h v, ?_, ?_, ?_, setAts_frame s fn _⟩
  · rw [setAts_atsOn]
    cases v.getLsbD 15 <;> simp
  · intro f hne
    rw [setAts_atsOn]
    cases v.getLsbD 15 <;> simp [hne]
  · intro hoff page
    rw [setAts_ats, hoff]
    simp

/-- A counter of 48 bits takes its value; one with a reserved bit set is left (R5, R408). -/
theorem yields_registerWrite_cnt {s : State} {fn j : Nat} (hf : fn < 256) (hj : j < 64) (hst : s.boot.st ≠ 6) (i : Fin 8)
    (v : Word) :
    Yields s (.registerWrite (0x48010 + 128 * j + 8 * i.val) v (.host fn 2)) fun t =>
      (∀ n, t.ctx n = if n = 64 * fn + j then
        (if v.toNat < 2 ^ 48 then { s.ctx n with cnt := (s.ctx n).cnt.set i v.toNat } else s.ctx n) else s.ctx n)
        ∧ ({ t with ctxs := s.ctxs } : State) = s := by
  refine ⟨_, registerWrite_bar2 hf hst _ v, fun n => ?_, ?_⟩
  · rw [writeBar2_cnt s fn hj, State.ctx_mapCtx]
    split
    next h => subst h; rfl
    next => rfl
  · rw [writeBar2_cnt s fn hj]
    rfl

/-- The debug and boot blocks are the management firmware's, but in recovery, and the physical function's (R386, R400). -/
theorem registerWrite_bar0_high {s : State} {w : Writer} (hw : w = .firmware ∧ s.boot.st ≠ 6 ∨ w = .host 0 0) (v : Word) :
    (∀ off, exec (.registerWrite (0x300000 + off) v w) s = .next (s.writeDebug off v))
      ∧ exec (.registerWrite 0x100008 v w) s = .next { s with boot := { s.boot with imgaddr := v } } := by
  obtain ⟨rfl, hst⟩ | rfl := hw
  · exact ⟨fun off => by rw [registerWrite_firmware hst, writeBar0_debug], registerWrite_firmware hst _ v⟩
  · exact ⟨fun off => by rw [registerWrite_pf, writeBar0_debug], registerWrite_pf s _ v⟩

end Sys2Proof.Machine

open Sys2Proof Sys2Proof.Machine

/-- Settles O52: an access of one line is one piece, which its translation lets through or refuses; a failed request reaches
the operation behind it whatever fails with it; and a register takes a write that is below its reserved bits. -/
theorem hostAccesses : Obligations.HostAccesses := by
  unfold Obligations.HostAccesses
  refine ⟨?_, ?_, ?_, ?_⟩
  · intro s fn ctx off req pasid hf hp hctx p w quiet
    subst hctx
    refine ⟨?_, fun bs h => exec_inboundWrite_dropped hf hp bs h, ?_,
      fun len hst ho => exec_inboundRead_beyond hf hp hst ho, fun len hst => exec_inboundRead_unready hf hp len hst⟩
    · intro bs hn ho hline hst hout
      refine ⟨fun u key pa r ht hk hm hq => ?_, fun u cause d a ht => exec_inboundWrite_fail hf hp ho hst hout ht⟩
      obtain ⟨hq0, hq1, hfirst⟩ := hq
      exact yields_inboundWrite hf hp (linesOf_of_one_line hn hline) ho hst hout ht (by omega) hm ⟨hq0, hq1⟩ hfirst
    · intro len hn ho hline hst
      have hl := linesOf_of_one_line hn hline
      refine ⟨fun u key pa r ht hk hq => ⟨?_, fun hv => ?_⟩, fun u cause d a ht => yields_inboundRead_abort hf hp hl ho hst ht⟩
      · obtain ⟨hq0, hq1, hfirst⟩ := hq
        exact yields_inboundRead hf hp hl ho hst ht ⟨hq0, hq1⟩ hfirst
      · exact (State.ctxTarget_ok ht).readAll_unwritten (by omega) hv _ _
  · intro s req fn page
    exact ⟨fun h => by rw [exec_zeroLengthRead, if_neg (by rw [h]; exact Bool.false_ne_true)],
      fun h => by rw [exec_zeroLengthRead, if_pos h], rfl, yields_atsInvalidate s fn page⟩
  · intro s h hfind
    refine ⟨fun hn => yields_atsTranslationCompletion hfind hn, ?_⟩
    intro c q k o hr ho hfault failed
    obtain ⟨htimeout, hdown⟩ := hostAccess_fails hfind hr ho
    rw [LongOp.failed_of_not hfault] at htimeout hdown
    exact ⟨fun n hk => ⟨htimeout n hk, exec_hostReadTimeout_early hfind hk⟩, hdown⟩
  · intro s v off w
    refine ⟨?_, ?_, ?_, ?_, ?_, ?_, ?_, ?_, ?_, ?_⟩
    · intro hst h h1 h2
      rw [registerWrite_firmware hst, writeBar0_power (by decide) (by decide)]
      exact congrArg _ (writePower_govctl h h1 h2 s)
    · intro h
      by_cases hst : s.boot.st = 6
      · exact registerWrite_firmware_recovery hst _ v
      · rw [registerWrite_firmware hst, writeBar0_power (by decide) (by decide)]
        exact congrArg _ (writePower_govctl_reserved h s)
    · intro h1 h2
      rw [registerWrite_pf, writeBar0_power h1 h2]
      rfl
    · exact fun fn bar h => registerWrite_host_outside h s off v
    · exact fun hst => registerWrite_firmware_recovery hst off v
    · exact fun fn bar => rfl
    · exact fun fn hf h => yields_registerWrite_config hf h v
    · intro hw
      obtain ⟨hdebug, himg⟩ := registerWrite_bar0_high (s := s) hw v
      exact ⟨fun i h => by rw [hdebug, writeDebug_darm, if_pos h],
        fun i h => by rw [hdebug, writeDebug_darm, if_neg (Nat.not_lt.mpr h)], himg⟩
    · exact fun fn hst => registerWrite_bar2_recovery hst fn off v
    · intro fn j i hf hj hst
      obtain ⟨t, he, hctx, hrest⟩ := yields_registerWrite_cnt hf hj hst i v
      constructor
      · intro h
        refine ⟨t, he, by rw [hctx, if_pos rfl, if_pos h], fun n hn => by rw [hctx, if_neg hn], hrest⟩
      · intro h
        refine ⟨t, he, fun n => ?_, hrest⟩
        rw [hctx, if_neg (Nat.not_lt.mpr h), ite_self]

end

section
namespace Sys2Proof.Machine

/-! ### The sequencers at reset (R30, R144) -/

theorem Sequencer.reg_reset (r : Reg) : Sequencer.reset.reg r = 0 := by
  unfold Sequencer.reg Sequencer.reset
  split
  · rfl
  · exact Vector.getElem_replicate ..

theorem Sequencer.pred_reset (p : PReg) : Sequencer.reset.pred p = decide (p = 0) := by
  revert p; decide

theorem State.seq_reset (c : Nat) (q : SeqId) : State.reset.seq c q = Sequencer.reset := by
  cases q <;> rfl

/-! ### Updates and accessors -/

theorem guarded_on {g : Guard} {s : State} (h : s.guardOn g = true) (len : Nat) (act : State → State) :
    guarded g len s act = .next (act s) := by
  unfold guarded
  rw [if_pos h]

theorem State.onControl_control {s : State} (h : s.cur.2 = .control) (act : State → State) : s.onControl act = act s := by
  simp [State.onControl, h]

theorem State.onControl_other {s : State} (h : s.cur.2 ≠ .control) (act : State → State) :
    s.onControl act = s.trap cSEQSTATE 0 0 := by
  simp [State.onControl, h]

theorem State.gang_mapGang (s : State) (m i : Nat) {f : Gang → Gang} (hf : ∀ g, (f g).gi = g.gi) (n gi : Nat) :
    (s.mapGang m i f).gang n gi = if n = m ∧ gi = i then (s.gang n gi).map f else s.gang n gi := by
  have hnum : ∀ j : Job, ((fun j : Job => if j.num == m then
      { j with gangs := j.gangs.map fun g => if g.gi == i then f g else g } else j) j).num = j.num :=
    fun j => by dsimp only; split <;> rfl
  have hgi : ∀ g : Gang, (if g.gi == i then f g else g).gi = g.gi := fun g => by split <;> simp [hf]
  unfold State.gang State.job State.mapGang State.mapJob
  rw [List.find?_map, show (fun j : Job => j.num == n) ∘ _ = fun j : Job => j.num == n from
    funext fun j => congrArg (· == n) (hnum j)]
  cases hj : s.jobs.find? (·.num == n) with
  | none => simp
  | some j =>
    have hn : j.num = n := by simpa using List.find?_some hj
    simp only [Option.map_some, Option.bind_some, hn]
    by_cases hm : n = m
    · subst hm
      simp only [beq_self_eq_true, if_true, true_and, List.find?_map]
      rw [show (fun g : Gang => g.gi == gi) ∘ _ = fun g : Gang => g.gi == gi from
        funext fun g => congrArg (· == gi) (hgi g)]
      cases hg : j.gangs.find? (·.gi == gi) with
      | none => simp
      | some g =>
        have hi : g.gi = gi := by simpa using List.find?_some hg
        by_cases h : gi = i <;> simp [hi, h]
    · simp [hm]

theorem State.gang_mapGang_same (s : State) (n gi : Nat) {f : Gang → Gang} (hf : ∀ g, (f g).gi = g.gi) :
    (s.mapGang n gi f).gang n gi = (s.gang n gi).map f := by
  rw [s.gang_mapGang n gi hf, if_pos ⟨rfl, rfl⟩]

theorem State.here_mapTask (s : State) (f : Task → Task) :
    (s.mapTask s.cur.1 f).here = { s.here with task := f s.here.task } :=
  State.cluster_mapCl_same _ _ _

theorem State.seq_mapTask (s : State) (d : Nat) (f : Task → Task) (c : Nat) (q : SeqId) :
    (s.mapTask d f).seq c q = s.seq c q :=
  s.seq_mapCl d (fun k => by cases q <;> rfl) c

theorem State.me_mapTask (s : State) (c : Nat) (f : Task → Task) : (s.mapTask c f).me = s.me :=
  s.seq_mapTask c f _ _

theorem State.task_mapMe (s : State) (f : Sequencer → Sequencer) : (s.mapMe f).here.task = s.here.task := by
  rw [State.here_mapMe, Cluster.setSeq_task]

theorem State.gangOf_skip (s : State) (n : Nat) :
    (s.skip n).gangOf s.cur.1 = s.gang s.here.task.job s.here.task.gi := by
  change s.gang (s.mapMe _).here.task.job (s.mapMe _).here.task.gi = _
  rw [State.task_mapMe]

theorem Sequencer.waitAt_setWait (x : Sequencer) (k : WaitKind) : (x.setWait k).waitAt = some k := by
  have hnone : (x.waits.filter fun w => w.pc != x.pc).find? (·.pc == x.pc) = none :=
    List.find?_eq_none.mpr fun w hw => by simpa using (List.mem_filter.mp hw).2
  unfold Sequencer.waitAt Sequencer.setWait
  simp only [List.find?_append, hnone]
  simp

/-- Nothing but the waits, what has been observed and the pc of the issuing sequencer has moved. -/
theorem hereBut_mapMe {s : State} {f : Sequencer → Sequencer} (h : s.me.Waited (f s.me)) :
    s.HereBut (s.mapMe f) (f s.me).pc id := by
  have hseq : ∀ q, q ≠ s.cur.2 → (s.mapMe f).here.seq q = s.here.seq q := fun q hq => by
    rw [State.here_mapMe, Cluster.seq_setSeq_ne _ _ _ _ hq]
  refine ⟨(onlySeq_mapMe s f).only, ?_, fun q => ?_, by rw [State.me_mapMe], fun q hq => by rw [hseq q hq]⟩
  · rw [State.here_mapMe]
    cases s.cur.2 <;> rfl
  · by_cases hq : q = s.cur.2
    · subst hq
      rw [State.here_mapMe, Cluster.seq_setSeq_same]
      exact h
    · rw [hseq q hq]
      exact rfl

theorem hereBut_complete (s : State) (n : Nat) : s.HereBut (s.complete n) (s.me.pc + w64 n) id :=
  hereBut_mapMe (f := fun x => x.endWait.skip n) rfl

/-! ### Steps (R41 to R43, R184) -/

/-- What STEP.BEGIN of a rank with an interval of v ns makes of its gang: the first of rank 0 sets the deadline (R42). -/
def Gang.begun (g : Gang) (rank v : Nat) : Gang :=
  if rank != 0 || g.deadlineSet then g
  else { g with deadlineSet := true, deadline := if v == 0 then none else some (g.stepStart + v) }

theorem Gang.begun_gi (g : Gang) (rank v : Nat) : (g.begun rank v).gi = g.gi := by
  unfold Gang.begun
  split <;> rfl

theorem exec_stepBegin {s : State} {g : Guard} (hg : s.guardOn g = true) (hc : s.cur.2 = .control) (a : Reg) :
    exec (.stepBegin g a) s = .next ((s.mapGang s.here.task.job s.here.task.gi
      (·.begun s.here.task.rank ((s.me.reg a).toNat % 2 ^ 32))).skip 4) := by
  change execStepBegin g a s = _
  unfold execStepBegin
  rw [guarded_on hg, State.onControl_control hc]
  simp only [bits, Nat.pow_zero, Nat.div_one]
  rfl

theorem exec_stepProg {s : State} {g : Guard} (hg : s.guardOn g = true) (hc : s.cur.2 = .control) (a : Reg) :
    exec (.stepProg g a) s = .next ((s.mapTask s.cur.1 fun t => { t with prog := (s.me.reg a).toNat % 2 ^ 16 }).skip 4) := by
  change execStepProg g a s = _
  unfold execStepProg
  rw [guarded_on hg, State.onControl_control hc]
  simp only [bits, Nat.pow_zero, Nat.div_one]

theorem exec_stepEnd_arrives {s : State} {g : Guard} (hg : s.guardOn g = true) (hc : s.cur.2 = .control)
    (hw : s.me.waitAt = none) :
    exec (.stepEnd g) s = .next ((s.mapTask s.cur.1 fun t => { t with arrived := true }).mapMe
      (·.setWait (.stepEnd (s.stepOf s.cur.1)))) := by
  change execStepEnd g s = _
  unfold execStepEnd
  rw [guarded_on hg, State.onControl_control hc, hw]

theorem exec_stepEnd_waiting {s : State} {g : Guard} (hg : s.guardOn g = true) (hc : s.cur.2 = .control) {k : Nat}
    (hw : s.me.waitAt = some (.stepEnd k)) :
    exec (.stepEnd g) s = .next (if k = s.stepOf s.cur.1 then s else s.complete 4) := by
  have hw' : (s.seq s.cur.1 s.cur.2).waitAt = some (.stepEnd k) := hw
  change execStepEnd g s = _
  unfold execStepEnd
  rw [guarded_on hg, State.onControl_control hc, hw]
  simp only [State.landed, hw', beq_iff_eq]
  rfl

theorem State.stepOf_eq {s : State} {c : Nat} {g : Gang} (h : s.gangOf c = some g) : s.stepOf c = g.step := by
  unfold State.stepOf
  rw [h]; rfl

theorem Gang.begun_eq (g : Gang) (rank v : Nat) :
    g.begun rank v = if rank = 0 ∧ g.deadlineSet = false then
      { g with deadlineSet := true, deadline := if v = 0 then none else some (g.stepStart + v) } else g := by
  unfold Gang.begun
  by_cases hr : rank = 0 <;> cases g.deadlineSet <;> simp [hr]

/-- Another sequencer takes SEQSTATE at an instruction of the control sequencer's alone. -/
theorem traps_offControl {s : State} {i : Instr} {g : Guard} {len : Nat} {act : State → State} (hg : s.guardOn g = true)
    (hc : s.cur.2 ≠ .control) (ht : s.CanTrap) (h : exec i s = guarded g len s fun s => s.onControl act) :
    Traps s i 0xB 0 0 s.me.pc false :=
  traps_trap ht (by rw [h, guarded_on hg, State.onControl_other hc]; rfl)

end Sys2Proof.Machine

open Sys2Proof Sys2Proof.Machine

/-- Settles O58: every table of the reset state is empty, so every cluster reads as the cluster at reset. -/
theorem resetState : Obligations.ResetState := by
  unfold Obligations.ResetState
  refine ⟨rfl, rfl, rfl, rfl, rfl, rfl, rfl, fun _ => rfl, fun _ => rfl, fun c q => ?_, fun _ => rfl, ?_, ?_⟩
  · rw [State.seq_reset]
    exact ⟨rfl, Sequencer.reg_reset, Sequencer.pred_reset⟩
  · exact ⟨rfl, rfl, fun _ => rfl, fun _ => rfl⟩
  · exact fun p hp => absurd hp List.not_mem_nil

/-- Settles O14: each form is one update of the gang, of the task or of the waits. -/
theorem steps : Obligations.Steps := by
  unfold Obligations.Steps
  intro s g a gg hg hgang pc v
  refine ⟨fun hc => ⟨?_, ?_, fun hw => ?_, fun hw => ?_, fun k hk hw => ?_⟩, fun hc ht => ⟨?_, ?_, ?_⟩⟩
  · have hgi := fun x : Gang => x.begun_gi s.here.task.rank v
    refine ⟨_, exec_stepBegin hg hc a, onlySeq_mapMe s (·.skip 4), ?_, fun n i hne => ?_, _, ?_, rfl⟩
    · exact State.me_mapMe _ _
    · exact (s.gang_mapGang _ _ hgi n i).trans (if_neg fun h => hne (by rw [h.1, h.2]))
    · refine (State.gangOf_skip _ 4).trans ((s.gang_mapGang_same s.here.task.job s.here.task.gi hgi).trans ?_)
      rw [show s.gang s.here.task.job s.here.task.gi = some gg from hgang, Option.map_some, gg.begun_eq]
  · refine ⟨_, exec_stepProg hg hc a, ?_, ?_⟩
    · exact onlyCluster_trans (onlyCluster_mapCl _ _ _) (onlySeq_mapMe _ _).only
    · rw [State.skip, State.here_mapMe, State.me_mapTask, State.here_mapTask]
      simp only [State.mapTask_cur, hc]
      rfl
  · refine ⟨_, exec_stepEnd_arrives hg hc hw, ?_, ?_, ?_⟩
    · exact onlyCluster_trans (onlyCluster_mapCl _ _ _) (onlySeq_mapMe _ _).only
    · rw [State.here_mapMe, State.me_mapMe, State.me_mapTask, State.here_mapTask]
      simp only [State.mapTask_cur, hc]
      rfl
    · rw [State.me_mapMe, State.me_mapTask, Sequencer.waitAt_setWait, State.stepOf_eq hgang]
  · rw [exec_stepEnd_waiting hg hc hw, State.stepOf_eq hgang, if_pos rfl]
  · rw [Yields, exec_stepEnd_waiting hg hc hw, State.stepOf_eq hgang, if_neg hk]
    exact ⟨_, rfl, hereBut_complete s 4⟩
  · exact traps_offControl hg hc ht rfl
  · exact traps_offControl hg hc ht rfl
  · exact traps_offControl hg hc ht rfl
end

section
namespace Sys2Proof.Machine

/-! ### Sequencers that meet (R32 to R36, R180) -/

theorem mem_seqsOf {q : SeqId} {m : BitVec 4} : q ∈ seqsOf m ↔ m.getLsbD (seqBit q) = true := by
  cases q <;> simp [seqsOf, seqBit, seqNo]

theorem seqsOf_nodup : ∀ m : BitVec 4, (seqsOf m).Nodup := by decide

/-- FORK copies s1 to s7, the registers below 8 that are not s0 (R32). -/
theorem Sequencer.getElem_forked_regs (y x : Sequencer) (e : Word) (known : List Nat) {i : Nat} (hi : i < 32) :
    (y.forked x e known).regs[i] = if 0 < i ∧ i < 8 then x.regs[i] else 0 := by
  have hrange : List.range 8 = [0, 1, 2, 3, 4, 5, 6, 7] := rfl
  unfold Sequencer.forked Sequencer.learn
  simp only [hrange, List.foldl_cons, List.foldl_nil]
  by_cases h : 0 < i ∧ i < 8
  · rw [if_pos h]
    obtain ⟨h0, h8⟩ := h
    interval_cases i <;> simp
  · rw [if_neg h]
    have hne : ∀ k, 0 < k → k < 8 → k ≠ i := by omega
    simp [hne]

theorem Sequencer.reg_forked (y x : Sequencer) (e : Word) (known : List Nat) (r : Reg) :
    (y.forked x e known).reg r = if r.val ≤ 7 then x.reg r else 0 := by
  have h := y.getElem_forked_regs x e known r.isLt
  unfold Sequencer.reg
  by_cases hr : r = 0
  · simp [hr]
  · rw [if_neg hr, if_neg hr]
    refine h.trans (if_congr ?_ rfl rfl)
    have : r.val ≠ 0 := fun h => hr (Fin.ext h)
    omega

/-- A started sequencer is as after reset, but for its registers and the pc (R32). -/
theorem Sequencer.forked_starts (y x : Sequencer) (e : Word) (known : List Nat) :
    let z := y.forked x e known
    z.pc = e ∧ z.idle = false ∧ z.exited = false ∧ z.pl = false ∧ z.outstanding = [] ∧ z.waits = []
      ∧ (∀ r : Reg, z.reg r = if r.val ≤ 7 then x.reg r else 0) ∧ ∀ p, z.pred p = decide (p = 0) :=
  ⟨rfl, rfl, rfl, rfl, rfl, rfl, y.reg_forked x e known, Sequencer.pred_reset⟩

/-- A cluster but for its sequencers. -/
def Cluster.withSeqs (k l : Cluster) : Cluster := { k with seqC := l.seqC, seqY := l.seqY, seqM := l.seqM }

theorem Cluster.withSeqs_setSeq (k l : Cluster) (q : SeqId) (x : Sequencer) :
    (k.setSeq q x).withSeqs l = k.withSeqs l := by
  cases q <;> rfl

/-- The cluster with the sequencers of a list changed, one after another. -/
def Cluster.mapSeqs (k : Cluster) (f : Cluster → SeqId → Sequencer) (qs : List SeqId) : Cluster :=
  qs.foldl (fun k q => k.setSeq q (f k q)) k

theorem Cluster.withSeqs_mapSeqs (f : Cluster → SeqId → Sequencer) (l : Cluster) (qs : List SeqId) (k : Cluster) :
    (k.mapSeqs f qs).withSeqs l = k.withSeqs l := by
  induction qs generalizing k with
  | nil => rfl
  | cons q qs ih => exact (ih _).trans (k.withSeqs_setSeq l q _)

/-- What each sequencer of the list becomes is not changed by those before it: every one becomes what it would alone. -/
theorem Cluster.seq_mapSeqs {f : Cluster → SeqId → Sequencer} {qs : List SeqId} (hn : qs.Nodup)
    (hf : ∀ k : Cluster, ∀ q ∈ qs, ∀ r ∈ qs, r ≠ q → ∀ x, f (k.setSeq q x) r = f k r) (k : Cluster) (r : SeqId) :
    (k.mapSeqs f qs).seq r = if r ∈ qs then f k r else k.seq r := by
  induction qs generalizing k with
  | nil => rfl
  | cons q qs ih =>
    obtain ⟨hq, hn⟩ := List.nodup_cons.mp hn
    change ((k.setSeq q (f k q)).mapSeqs f qs).seq r = _
    rw [ih hn fun k p hp r hr => hf k p (List.mem_cons_of_mem _ hp) r (List.mem_cons_of_mem _ hr)]
    by_cases hr : r ∈ qs
    · have hne : r ≠ q := fun h => hq (h ▸ hr)
      rw [if_pos hr, if_pos (List.mem_cons_of_mem _ hr)]
      exact hf k q List.mem_cons_self r (List.mem_cons_of_mem _ hr) hne _
    · rw [if_neg hr]
      by_cases h : r = q
      · subst h; simp
      · rw [Cluster.seq_setSeq_ne _ _ _ _ h, if_neg (by simp [h, hr])]

/-- The FORK of the sequencers of a list. -/
def Cluster.forks (k : Cluster) (e : Word) (known : List Nat) (qs : List SeqId) : Cluster :=
  k.mapSeqs (fun k q => (k.seq q).forked k.seqC e known) qs

theorem Cluster.seq_forks {qs : List SeqId} (hn : qs.Nodup) (hc : .control ∉ qs) (k : Cluster) (e : Word)
    (known : List Nat) (r : SeqId) :
    (k.forks e known qs).seq r = if r ∈ qs then (k.seq r).forked k.seqC e known else k.seq r := by
  refine Cluster.seq_mapSeqs hn (fun k q hq r _ hr x => ?_) k r
  have hC : (k.setSeq q x).seqC = k.seqC := by
    cases q
    · exact absurd hq hc
    · rfl
    · rfl
  rw [Cluster.seq_setSeq_ne _ _ _ _ hr, hC]

/-- What a FORK or JOIN may name: not the control sequencer, nor the reserved bit, and it is executed there (R180). -/
abbrev State.NamesOthers (s : State) (mask : BitVec 4) : Prop :=
  s.cur.2 = .control ∧ mask.getLsbD 0 = false ∧ mask.getLsbD 3 = false

/-- All the sequencers named are idle. -/
abbrev Cluster.AllIdle (k : Cluster) (mask : BitVec 4) : Prop := ∀ q ∈ seqsOf mask, (k.seq q).idle = true

section
variable {s : State} {g : Guard} {mask : BitVec 4} (hg : s.guardOn g = true)
include hg

theorem exec_fork (a : Reg) : exec (.fork g a mask) s = .next
    (if ¬(s.NamesOthers mask ∧ s.here.AllIdle mask) then s.trap cSEQSTATE 0 0
     else if (s.me.reg a).toNat % 4 ≠ 0 then s.trap cALIGN 0 (s.me.reg a)
     else if s.me.outstanding.any (fun o => !o.isDone && o.kind != .alu) then s
     else (s.mapHere (·.forks (s.me.reg a) (s.here.covered .control maskC) (seqsOf mask))).skip 4) := by
  change execFork g a mask s = _
  unfold execFork
  rw [guarded_on hg]
  refine congrArg _ (if_congr ?_ rfl (if_congr (by simp [misaligned4]) rfl rfl))
  simp only [Bool.or_eq_true, bne_iff_ne, List.any_eq_true, Bool.not_eq_true', State.NamesOthers, Cluster.AllIdle,
    not_and_or, not_forall, exists_prop, Bool.not_eq_true, Bool.not_eq_false, or_assoc, ne_eq]

theorem exec_join : exec (.join g mask) s = .next
    (if ¬s.NamesOthers mask then s.trap cSEQSTATE 0 0
     else if s.here.AllIdle mask then
       (s.mapMe (·.acquire ((seqsOf mask).foldl (fun m q => m ||| engineMask q) maskC)
         ((seqsOf mask).foldl (fun l q => union l (s.here.covered q (maskC ||| engineMask q))) [])
         (s.here.engDone (seqsOf mask)) s.counter)).complete 4
     else s) := by
  change execJoin g mask s = _
  unfold execJoin
  rw [guarded_on hg]
  refine congrArg _ (if_congr ?_ rfl (if_congr List.all_eq_true rfl rfl))
  simp only [Bool.or_eq_true, bne_iff_ne, State.NamesOthers, not_and_or, Bool.not_eq_false, or_assoc, ne_eq]

end

theorem State.here_mapHere (s : State) (f : Cluster → Cluster) : (s.mapHere f).here = f s.here :=
  State.cluster_mapCl_same _ _ _

theorem State.me_mapHere (s : State) (f : Cluster → Cluster) : (s.mapHere f).me = (f s.here).seq s.cur.2 :=
  congrArg (·.seq s.cur.2) (s.here_mapHere f)

theorem State.here_skip (s : State) (n : Nat) : (s.skip n).here = s.here.setSeq s.cur.2 (s.me.skip n) :=
  State.here_mapMe _ _

theorem State.me_skip (s : State) (n : Nat) : (s.skip n).me = s.me.skip n := State.me_mapMe _ _

theorem onlyCluster_mapHere_mapMe (s : State) (f : Cluster → Cluster) (h : Sequencer → Sequencer) :
    OnlyCluster s ((s.mapHere f).mapMe h) s.cur.1 :=
  onlyCluster_trans (onlyCluster_mapCl _ _ _) (onlySeq_mapMe _ _).only

theorem Sequencer.waited_acquire (x : Sequencer) (m : Mask) (ids : List Nat) (done : Table (List Nat)) (now n : Nat) :
    x.Waited ((x.acquire m ids done now).endWait.skip n) := by
  cases x; rfl

theorem Sequencer.acquire_pc (x : Sequencer) (m : Mask) (ids : List Nat) (done : Table (List Nat)) (now : Nat) :
    (x.acquire m ids done now).pc = x.pc := rfl

theorem hereBut_acquire_complete (s : State) (m : Mask) (ids : List Nat) (done : Table (List Nat)) (now n : Nat) :
    s.HereBut ((s.mapMe (·.acquire m ids done now)).complete n) (s.me.pc + w64 n) id := by
  rw [State.complete, State.mapMe_mapMe, ← s.me.acquire_pc m ids done now]
  exact hereBut_mapMe (f := fun x => (x.acquire m ids done now).endWait.skip n) (s.me.waited_acquire m ids done now n)

/-- FORK of idle sequencers (R32). -/
theorem yields_fork {s : State} {g : Guard} {mask : BitVec 4} {a : Reg} (hg : s.guardOn g = true)
    (hl : s.NamesOthers mask) (hi : s.here.AllIdle mask) (ha : (s.me.reg a).toNat % 4 = 0) (ho : s.me.outstanding = []) :
    Yields s (.fork g a mask) fun t =>
      OnlyCluster s t s.cur.1 ∧ t.me = { s.me with pc := s.me.pc + 4 }
        ∧ (∀ q ∈ seqsOf mask, ∃ known, t.here.seq q = (s.here.seq q).forked s.me (s.me.reg a) known)
        ∧ (∀ q, q ≠ .control → q ∉ seqsOf mask → t.here.seq q = s.here.seq q)
        ∧ t.here.withSeqs s.here = s.here := by
  have hc : SeqId.control ∉ seqsOf mask := fun h => by rw [mem_seqsOf] at h; exact absurd h (by simpa [seqBit, seqNo] using hl.2.1)
  have hseq := Cluster.seq_forks (seqsOf_nodup mask) hc s.here (s.me.reg a) (s.here.covered .control maskC)
  have hme : s.me = s.here.seqC := by simp [State.me, State.seq, State.here, hl.1, Cluster.seq]
  have hx := exec_fork (mask := mask) hg a
  rw [if_neg (not_not_intro ⟨hl, hi⟩), if_neg (by simp [ha]), if_neg (by simp [ho])] at hx
  refine ⟨_, hx, onlyCluster_mapHere_mapMe _ _ _, ?_, ?_, ?_, ?_⟩
  · rw [State.me_skip, State.me_mapHere, hl.1, hseq, if_neg hc, hme]
    rfl
  · intro q hq
    have hne : q ≠ .control := fun h => hc (h ▸ hq)
    rw [State.here_skip, Cluster.seq_setSeq_ne _ _ _ _ (by simpa [hl.1] using hne), State.here_mapHere, hseq, if_pos hq, hme]
    exact ⟨_, rfl⟩
  · intro q hne hq
    rw [State.here_skip, Cluster.seq_setSeq_ne _ _ _ _ (by simpa [hl.1] using hne), State.here_mapHere, hseq, if_neg hq]
  · rw [State.here_skip, Cluster.withSeqs_setSeq, State.here_mapHere]
    exact Cluster.withSeqs_mapSeqs _ _ _ _

end Sys2Proof.Machine

open Sys2Proof Sys2Proof.Machine

/-- Settles O15: what FORK leaves is the fork of each sequencer named, and JOIN is an acquire of the issuing one. -/
theorem forkAndJoin : Obligations.ForkAndJoin := by
  unfold Obligations.ForkAndJoin
  intro s g a mask hg legal idle e
  refine ⟨fun hl hi he ho => ?_, fun hl hi ht he => ?_, fun ht h => ?_, fun hl hi => ?_, fun hl hi => ?_, fun ht hl => ?_⟩
  · obtain ⟨t, hx, hoc, hme, hq, hothers, hrest⟩ := yields_fork hg hl hi he ho
    refine ⟨t, hx, hoc, hme, fun q hm => ?_, hothers, hrest⟩
    obtain ⟨known, h⟩ := hq q hm
    rw [h]
    exact Sequencer.forked_starts _ _ _ _
  · exact traps_trap ht (by rw [exec_fork hg, if_neg (not_not_intro ⟨hl, hi⟩), if_pos he]; rfl)
  · exact traps_trap ht (by rw [exec_fork hg, if_pos h]; rfl)
  · rw [Yields, exec_join hg, if_neg (not_not_intro hl), if_pos hi]
    exact ⟨_, rfl, hereBut_acquire_complete s _ _ _ _ 4⟩
  · rw [exec_join hg, if_neg (not_not_intro hl), if_neg hi]
  · exact traps_trap ht (by rw [exec_join hg, if_pos hl]; rfl)

end

section
namespace Sys2Proof.Machine

/-! ### Ends of programs (R33 to R37) -/

theorem State.mapHere_mapHere (s : State) (f h : Cluster → Cluster) :
    (s.mapHere f).mapHere h = s.mapHere fun k => h (f k) := by
  simp [State.mapHere, State.mapCl, State.setCl, State.cluster, Table.get_set_same, Table.set_set]

theorem State.mapMe_eq_mapHere (s : State) (f : Sequencer → Sequencer) :
    s.mapMe f = s.mapHere fun k => k.setSeq s.cur.2 (f (k.seq s.cur.2)) := rfl

/-- What a sequencer waiting at a rendezvous of p's masks becomes: its RDV fails (R34). -/
def Sequencer.missRdv (x : Sequencer) (p : BitVec 4 → Bool) : Sequencer :=
  match x.rdvAt with
  | some (m, _, _) => if p m then x.setWait (.failed cRDVFAULT 0 0) else x
  | none => x

theorem Sequencer.missRdv_none (x : Sequencer) : x.missRdv (fun _ => false) = x := by
  unfold Sequencer.missRdv
  split <;> simp

theorem Cluster.setSeq_seq (k : Cluster) (q : SeqId) : k.setSeq q (k.seq q) = k := by
  cases q <;> rfl

theorem Cluster.failRdv_eq (k : Cluster) (p : SeqId → BitVec 4 → Bool) :
    k.failRdv p = k.mapSeqs (fun k q => (k.seq q).missRdv (p q)) [.control, .copy, .matrix] := by
  have hstep : ∀ (k : Cluster) (q : SeqId), (match (k.seq q).rdvAt with
      | some (m, _, _) => if p q m then k.setSeq q ((k.seq q).setWait (.failed cRDVFAULT 0 0)) else k
      | none => k) = k.setSeq q ((k.seq q).missRdv (p q)) := fun k q => by
    unfold Sequencer.missRdv
    split
    · split
      · rfl
      · rw [k.setSeq_seq]
    · rw [k.setSeq_seq]
  unfold Cluster.failRdv Cluster.mapSeqs
  exact congrArg (fun f => List.foldl f k _) (funext fun k => funext fun q => hstep k q)

theorem Cluster.seq_failRdv (k : Cluster) (p : SeqId → BitVec 4 → Bool) (r : SeqId) :
    (k.failRdv p).seq r = (k.seq r).missRdv (p r) := by
  rw [Cluster.failRdv_eq, Cluster.seq_mapSeqs (by decide)
    (fun k q _ r _ hr x => by rw [Cluster.seq_setSeq_ne _ _ _ _ hr])]
  cases r <;> rfl

theorem Cluster.withSeqs_failRdv (k l : Cluster) (p : SeqId → BitVec 4 → Bool) :
    (k.failRdv p).withSeqs l = k.withSeqs l := by
  rw [Cluster.failRdv_eq, Cluster.withSeqs_mapSeqs]

/-- Sequencer q's program ends: those waiting for it at a rendezvous will fail (R33, R34). -/
def Cluster.exits (k : Cluster) (q : SeqId) : Cluster :=
  let k1 := k.failRdv fun p m => p != q && m.getLsbD (seqBit q)
  k1.setSeq q { k1.seq q with exited := true }

theorem Cluster.seq_exits (k : Cluster) (q : SeqId) : (k.exits q).seq q = { k.seq q with exited := true } := by
  have : (fun m : BitVec 4 => q != q && m.getLsbD (seqBit q)) = fun _ => false := by simp
  unfold Cluster.exits
  rw [Cluster.seq_setSeq_same, Cluster.seq_failRdv, this, Sequencer.missRdv_none]

theorem Cluster.withSeqs_exits (k l : Cluster) (q : SeqId) : (k.exits q).withSeqs l = k.withSeqs l := by
  unfold Cluster.exits
  rw [Cluster.withSeqs_setSeq, Cluster.withSeqs_failRdv]

/-- A sequencer as its engine's commands leave it: idle once it has exited and nothing is outstanding (R33). -/
def Sequencer.settled (x : Sequencer) (cmds : List Nat) : Sequencer :=
  if x.dropFaulted.exited && x.dropFaulted.outstanding.isEmpty && cmds.isEmpty then { x.dropFaulted with idle := true }
  else x.dropFaulted

theorem Sequencer.dropFaulted_ops (x : Sequencer) : ∃ l, x.dropFaulted = { x with outstanding := l } := by
  unfold Sequencer.dropFaulted
  split
  · exact ⟨_, rfl⟩
  · exact ⟨x.outstanding, rfl⟩

theorem Sequencer.settled_eq (x : Sequencer) (cmds : List Nat) :
    ∃ l b, x.settled cmds = { x with outstanding := l, idle := b } := by
  obtain ⟨l, h⟩ := x.dropFaulted_ops
  unfold Sequencer.settled
  rw [h]
  split
  · exact ⟨l, true, rfl⟩
  · exact ⟨l, x.idle, rfl⟩

theorem Sequencer.settled_idle {x : Sequencer} (he : x.exited = true) (ho : x.outstanding = []) :
    (x.settled []).idle = true := by
  have hd : x.dropFaulted = x := by simp [Sequencer.dropFaulted, ho]
  simp [Sequencer.settled, hd, he, ho]

theorem Cluster.openCmds_setSeq (k : Cluster) (q r : SeqId) (x : Sequencer) : (k.setSeq q x).openCmds r = k.openCmds r := by
  cases q <;> rfl

theorem Cluster.seq_settleIdle (k : Cluster) (r : SeqId) :
    k.settleIdle.seq r = if r = .control then k.seq r else (k.seq r).settled (k.openCmds r) := by
  have h := Cluster.seq_mapSeqs (f := fun k q => (k.seq q).settled (k.openCmds q)) (qs := [.copy, .matrix]) (by decide)
    (fun k q _ r _ hr x => by rw [Cluster.seq_setSeq_ne _ _ _ _ hr, Cluster.openCmds_setSeq]) k r
  refine (Eq.trans ?_ h).trans ?_
  · rfl
  · cases r <;> rfl

theorem Cluster.withSeqs_settleIdle (k l : Cluster) : k.settleIdle.withSeqs l = k.withSeqs l := rfl

/-- Whether a sequencer has exited is not changed when it settles, and neither are its registers. -/
theorem Cluster.seq_settleIdle_eq (k : Cluster) (q : SeqId) :
    (k.settleIdle.seq q).exited = (k.seq q).exited ∧ (k.settleIdle.seq q).regs = (k.seq q).regs := by
  obtain ⟨l, b, h⟩ := (k.seq q).settled_eq (k.openCmds q)
  rw [Cluster.seq_settleIdle, h]
  split <;> exact ⟨rfl, rfl⟩

/-- The task is abandoned and no sequencer of its engines goes on (R36). -/
def Cluster.abandonTask (k : Cluster) : Cluster :=
  { k with task := { k.task with st := if k.task.st == .running then .abandoning else k.task.st, abandoned := true, left := true },
           seqY := { k.seqY with exited := true }, seqM := { k.seqM with exited := true } }

/-- The commands not begun go, and the groups in flight drain (R36). -/
def Cluster.quits (k : Cluster) : Cluster := k.discardCopy.discardMatrix.abandonFabric

/-- The state in which the issuing sequencer's program has ended. -/
def State.exitsHere (s : State) : State :=
  (s.mapHere fun k => k.failRdv fun p m => p != s.cur.2 && m.getLsbD (seqBit s.cur.2)).mapMe fun x => { x with exited := true }

theorem State.exitsHere_eq (s : State) : s.exitsHere = s.mapHere (·.exits s.cur.2) := by
  rw [State.exitsHere, State.mapMe_eq_mapHere, State.mapHere_mapHere]
  rfl

/-- The control sequencer's program has ended: the task waits to retire, and its pinned regions drain (R35). -/
def Cluster.departs (k : Cluster) : Cluster :=
  ({ k with task := { k.task with left := true, st := if k.task.st == .running then .exiting else k.task.st } }
    : Cluster).drainPinned

/-- What EXIT.A of a sequencer discards (R36). -/
def Cluster.quitsAs (k : Cluster) (q : SeqId) : Cluster :=
  match q with
  | .control => k.quits.discardBins.abandonTask.settleIdle
  | .copy => k.discardCopy.settleIdle
  | .matrix => k.discardMatrix.settleIdle

section
variable {s : State} {g : Guard} (hg : s.guardOn g = true) (ho : s.me.outstanding = [])
include hg ho

theorem exec_exit : exec (.exit g) s = .next (if s.cur.2 = .control then
    s.exitsHere.mapHere (·.departs) else s.exitsHere.mapHere (·.settleIdle)) := by
  change execExit g s = _
  unfold execExit
  rw [guarded_on hg]
  refine congrArg _ ((if_neg (by simp [ho])).trans ?_)
  exact if_congr beq_iff_eq rfl rfl

theorem exec_exitA : exec (.exitA g) s = .next (s.exitsHere.mapHere (·.quitsAs s.cur.2)) := by
  change execExitA g s = _
  unfold execExitA
  rw [guarded_on hg]
  refine congrArg _ ((if_neg (by simp [ho])).trans ?_)
  unfold Cluster.quitsAs
  cases h : s.cur.2
  · simp only [h, State.exitsHere]
    rfl
  · simp only [h, State.exitsHere]
  · simp only [h, State.exitsHere]

end

/-! ### Bins discarded with a task (R11, R36) -/

theorem Cluster.counts_congr {k l : Cluster} (h : l.task.dir = k.task.dir) : l.counts = k.counts := by
  funext r
  unfold Cluster.counts Cluster.blockOf
  rw [h]

theorem Cluster.binRecords_congr {k l : Cluster} (hb : l.bins = k.bins) (hq : l.startQ = k.startQ)
    (hp : l.pushSlot = k.pushSlot) (hf : l.fab.ports = k.fab.ports) (hd : l.task.dir = k.task.dir) :
    l.binRecords = k.binRecords := by
  unfold Cluster.binRecords Cluster.heldRecords
  rw [hb, hq, hp, hf, Cluster.counts_congr hd]

/-- Records discarded are counted, and no flag but ET moves (R11). -/
theorem Cluster.discardRecs_eq (k : Cluster) (rs : List Record) :
    ∃ f, k.discardRecs rs = { k with task := { k.task with disc := k.task.disc + rs.length, flags := f } } := by
  unfold Cluster.discardRecs
  dsimp only
  split
  · exact ⟨_, rfl⟩
  · exact ⟨k.task.flags, rfl⟩

/-- The bins and the records held for them, emptied. -/
def Cluster.emptied (k : Cluster) : Cluster :=
  { k with bins := k.bins.map fun e => (e.1, { e.2 with recs := [] }), startQ := [], pushSlot := none,
           fab := { k.fab with ports := k.fab.ports.map fun e => (e.1, { e.2 with heldRec := e.2.heldRec.filter (!k.counts ·) }) } }

theorem Cluster.discardBins_eq (k : Cluster) : ∃ f, k.discardBins
    = { k.emptied with task := { k.task with disc := k.task.disc + k.binRecords.length, flags := f } } :=
  k.emptied.discardRecs_eq k.binRecords

theorem Cluster.binRecords_emptied (k : Cluster) : k.emptied.binRecords = [] := by
  have hheld : k.emptied.heldRecords.filter k.counts = [] := by
    simp [Cluster.heldRecords, Cluster.emptied, List.filter_flatten, List.filter_filter]
  have hbins : (k.emptied.bins.map fun e => e.2.recs).flatten = [] := by simp [Cluster.emptied]
  unfold Cluster.binRecords
  rw [Cluster.counts_congr (k := k) (l := k.emptied) rfl, hheld, hbins]
  rfl

theorem Cluster.binRecords_discardBins (k : Cluster) : k.discardBins.binRecords = [] := by
  obtain ⟨f, h⟩ := k.discardBins_eq
  rw [h]
  exact (Cluster.binRecords_congr rfl rfl rfl rfl rfl).trans k.binRecords_emptied

/-- What discarding the bins leaves alone, and what it counts. -/
theorem Cluster.discardBins_frame (k : Cluster) :
    k.discardBins.withSeqs k.discardBins = k.discardBins ∧ k.discardBins.copy = k.copy ∧ k.discardBins.mat = k.mat
      ∧ (∀ q, k.discardBins.seq q = k.seq q) ∧ k.discardBins.task.st = k.task.st
      ∧ k.discardBins.task.disc = k.task.disc + k.binRecords.length := by
  obtain ⟨f, h⟩ := k.discardBins_eq
  rw [h]
  exact ⟨rfl, rfl, rfl, fun q => by cases q <;> rfl, rfl, rfl⟩

theorem Cluster.binRecords_quits (k : Cluster) : k.quits.binRecords = k.binRecords :=
  Cluster.binRecords_congr rfl rfl rfl rfl rfl

theorem Cluster.binRecords_abandonTask (k : Cluster) : k.abandonTask.binRecords = k.binRecords :=
  Cluster.binRecords_congr rfl rfl rfl rfl rfl

/-- What EXIT.A of the control sequencer leaves of the task, its records and its commands (R36). -/
theorem Cluster.abandonTask_spec {k : Cluster} (hr : k.task.st = .running) :
    let l := k.quits.discardBins.abandonTask
    l.task.st = .abandoning ∧ l.task.abandoned = true ∧ l.task.disc = k.task.disc + k.binRecords.length ∧ l.binRecords = []
      ∧ l.copy.queue = [] ∧ l.mat.queue = [] ∧ ∀ q, (k.seq .control).exited = true → (l.seq q).exited = true := by
  obtain ⟨-, hcopy, hmat, hseq, hst, hdisc⟩ := k.quits.discardBins_frame
  intro l
  refine ⟨?_, rfl, ?_, ?_, ?_, ?_, fun q hx => ?_⟩
  · exact if_pos (beq_iff_eq.mpr (hst.trans hr))
  · exact hdisc.trans (by rw [Cluster.binRecords_quits]; rfl)
  · exact (Cluster.binRecords_abandonTask _).trans (Cluster.binRecords_discardBins _)
  · exact congrArg CopyEngine.queue hcopy
  · exact congrArg Matrix.queue hmat
  · cases q
    · exact (congrArg Sequencer.exited (hseq .control)).trans hx
    · rfl
    · rfl

theorem Cluster.departs_task (k : Cluster) : k.departs.task =
    { k.task with left := true, st := if k.task.st == .running then .exiting else k.task.st } := rfl

theorem Cluster.mem_departs_slots {k : Cluster} {e : Nat × Slot} (he : e ∈ k.slots) (hst : e.2.st = .running)
    (hs : k.sched e.1 = false) : (e.1, { e.2 with st := .draining, wasRunning := false }) ∈ k.departs.slots := by
  have hs' : bit k.task.smask e.1 = false := hs
  refine List.mem_map.mpr ⟨e, he, ?_⟩
  change (if bit k.task.smask e.1 then e else _) = _
  rw [hs', hst]
  rfl

end Sys2Proof.Machine

open Sys2Proof Sys2Proof.Machine

/-- Settles O16: ending a program changes the waits of those that would meet it, and each form then only what it names. -/
theorem exits : Obligations.Exits := by
  unfold Obligations.Exits
  intro s g hg ho
  have hrest : (s.here.exits s.cur.2).withSeqs s.here = s.here := s.here.withSeqs_exits s.here s.cur.2
  have hexited : ((s.here.exits s.cur.2).seq s.cur.2).exited = true := by rw [Cluster.seq_exits]
  have hx := exec_exit hg ho
  have hxA := exec_exitA hg ho
  rw [State.exitsHere_eq] at hx hxA
  have honly : ∀ f : Cluster → Cluster, OnlyCluster s ((s.mapHere (·.exits s.cur.2)).mapHere f) s.cur.1 := fun f =>
    onlyCluster_trans (onlyCluster_mapCl _ _ _) (onlyCluster_mapCl _ _ _)
  have hhere : ∀ f : Cluster → Cluster, ((s.mapHere (·.exits s.cur.2)).mapHere f).here = f (s.here.exits s.cur.2) := fun f =>
    (State.here_mapHere _ f).trans (congrArg f (s.here_mapHere _))
  have hme : ∀ f : Cluster → Cluster,
      ((s.mapHere (·.exits s.cur.2)).mapHere f).me = (f (s.here.exits s.cur.2)).seq s.cur.2 := fun f =>
    congrArg (·.seq s.cur.2) (hhere f)
  have hsettle : ∀ f : Cluster → Cluster, (∀ k q, (f k).seq q = k.seq q) →
      ((s.mapHere (·.exits s.cur.2)).mapHere fun k => (f k).settleIdle).me.exited = true := fun f hf => by
    rw [hme, (Cluster.seq_settleIdle_eq _ _).1, hf, hexited]
  refine ⟨fun hc => ?_, fun hc hr => ?_, fun hc => ?_, fun hc => ?_, fun hc hr => ?_⟩
  · rw [if_neg hc] at hx
    refine ⟨_, hx, honly _, hsettle id fun _ _ => rfl, ?_, fun hcmd => ?_⟩
    · rw [hme, (Cluster.seq_settleIdle_eq _ _).2, Cluster.seq_exits]
      rfl
    · have hopen : (s.here.exits s.cur.2).openCmds s.cur.2 = [] := (congrArg (·.openCmds s.cur.2) hrest :).trans hcmd
      rw [hme, Cluster.seq_settleIdle, if_neg hc, hopen, Cluster.seq_exits]
      exact Sequencer.settled_idle rfl ho
  · rw [if_pos hc] at hx
    refine ⟨_, hx, honly _, ?_, ?_, fun e he hst hsched => ?_⟩
    · rw [hme, hc]
      rw [hc] at hexited
      exact hexited
    · have htask : (s.here.exits s.cur.2).task = s.here.task := (congrArg Cluster.task hrest :)
      rw [hhere, Cluster.departs_task, htask, hr]
      rfl
    · have hslots : (s.here.exits s.cur.2).slots = s.here.slots := (congrArg Cluster.slots hrest :)
      have hmask : (s.here.exits s.cur.2).sched e.1 = s.here.sched e.1 := (congrArg (·.sched e.1) hrest :)
      rw [hhere]
      exact Cluster.mem_departs_slots (hslots ▸ he) hst (hmask.trans hsched)
  · have hq : ∀ k : Cluster, k.quitsAs s.cur.2 = k.discardCopy.settleIdle := fun k => by rw [hc]; rfl
    simp only [hq] at hxA
    refine ⟨_, hxA, honly _, hsettle Cluster.discardCopy fun _ q => by cases q <;> rfl, ?_, ?_⟩
    · rw [hhere]
      exact (congrArg (fun k : Cluster => { k.copy with queue := [] }) hrest :)
    · rw [hhere]
      exact (congrArg Cluster.mat hrest :)
  · have hq : ∀ k : Cluster, k.quitsAs s.cur.2 = k.discardMatrix.settleIdle := fun k => by rw [hc]; rfl
    simp only [hq] at hxA
    refine ⟨_, hxA, honly _, hsettle Cluster.discardMatrix fun _ q => by cases q <;> rfl, ?_, ?_, ?_, ?_⟩
    · rw [hhere]; rfl
    · rw [hhere]; rfl
    · rw [hhere]
      exact (congrArg (·.mat.cur) hrest :)
    · rw [hhere]
      exact (congrArg Cluster.copy hrest :)
  · have hrun : (s.here.exits s.cur.2).task.st = .running := (congrArg (·.task.st) hrest :).trans hr
    obtain ⟨hst, hab, hdisc, hbins, hcopy, hmat, hseq⟩ := Cluster.abandonTask_spec hrun
    have hrecs : (s.here.exits s.cur.2).binRecords = s.here.binRecords := (congrArg Cluster.binRecords hrest :)
    have htask : (s.here.exits s.cur.2).task = s.here.task := (congrArg Cluster.task hrest :)
    have hq : ∀ k : Cluster, k.quitsAs s.cur.2 = k.quits.discardBins.abandonTask.settleIdle := fun k => by rw [hc]; rfl
    simp only [hq] at hxA
    refine ⟨_, hxA, honly _, ?_⟩
    rw [hhere]
    refine ⟨hst, hab, ?_, hbins, hcopy, hmat, fun q => ?_⟩
    · rw [← htask, ← hrecs]
      exact hdisc
    · rw [(Cluster.seq_settleIdle_eq _ _).1]
      exact hseq q (hc ▸ hexited)

end

section
namespace Sys2Proof.Machine

/-! ### Rendezvous (R34, R180) -/

theorem State.releaseReady_mapMe (s : State) {f : Sequencer → Sequencer} (hf : (f s.me).outstanding = s.me.outstanding)
    (p : SeqId) (r : Release) : (s.mapMe f).releaseReady s.cur.1 p r = s.releaseReady s.cur.1 p r := by
  have hcl : (s.mapMe f).cluster s.cur.1 = s.here.setSeq s.cur.2 (f s.me) := s.here_mapMe f
  have hout : ((s.mapMe f).here.seq p).outstanding = (s.here.seq p).outstanding := by
    rw [State.here_mapMe]
    by_cases h : p = s.cur.2
    · subst h; rw [Cluster.seq_setSeq_same, hf]; rfl
    · rw [Cluster.seq_setSeq_ne _ _ _ _ h]
  have hdrained : (s.mapMe f).releaseDrained s.cur.1 p r = s.releaseDrained s.cur.1 p r := by
    have hout' : (((s.mapMe f).cluster s.cur.1).seq p).outstanding = ((s.cluster s.cur.1).seq p).outstanding := hout
    have hopen : ((s.mapMe f).cluster s.cur.1).openCmds p = (s.cluster s.cur.1).openCmds p := by
      rw [hcl, Cluster.openCmds_setSeq]; rfl
    unfold State.releaseDrained
    simp only [hout', hopen]
    rfl
  have howes : (s.mapMe f).owesZero s.cur.1 r = s.owesZero s.cur.1 r := by
    have hhost : ((s.mapMe f).cluster s.cur.1).usedHost = (s.cluster s.cur.1).usedHost := by
      rw [hcl, Cluster.setSeq_usedHost]; rfl
    unfold State.owesZero
    rw [hhost]
    rfl
  unfold State.releaseReady
  rw [hdrained, howes]

/-- The sequencer p waits at a rendezvous that names q, another one than q's (R34). -/
def Cluster.rdvOff (k : Cluster) (q : SeqId) (mask : BitVec 4) (id : BitVec 8) (p : SeqId) : Bool :=
  match (k.seq p).rdvAt with
  | some (m, i, _) => m.getLsbD (seqBit q) && !(m == mask && i == id)
  | none => false

/-- The sequencer p is named and can no longer come. -/
def Cluster.rdvGone (k : Cluster) (mask : BitVec 4) (p : SeqId) : Bool :=
  mask.getLsbD (seqBit p) && ((k.seq p).idle || (k.seq p).exited)

/-- A rendezvous of q that can never be met. -/
def Cluster.rdvLost (k : Cluster) (q : SeqId) (mask : BitVec 4) (id : BitVec 8) : Bool :=
  let others := [SeqId.control, .copy, .matrix].filter (· != q)
  others.any (k.rdvOff q mask id) || others.any (k.rdvGone mask)

theorem Cluster.rdvLost_iff (k : Cluster) (q : SeqId) (mask : BitVec 4) (id : BitVec 8) :
    k.rdvLost q mask id = true ↔ ∃ p, p ≠ q ∧ (k.rdvOff q mask id p = true ∨ k.rdvGone mask p = true) := by
  have hmem : ∀ p : SeqId, p ∈ [SeqId.control, .copy, .matrix].filter (· != q) ↔ p ≠ q := fun p => by
    rw [List.mem_filter, bne_iff_ne]
    cases p <;> simp
  simp only [Cluster.rdvLost, Bool.or_eq_true, List.any_eq_true, hmem, and_or_left, exists_or]

/-- The rendezvous fails, for the issuing sequencer and for those waiting with it (R34). -/
def State.rdvFails (s : State) (mask : BitVec 4) : State :=
  s.mapHere (·.failRdv fun p m => p != s.cur.2 && (m.getLsbD (seqBit s.cur.2) || mask.getLsbD (seqBit p)))

section
variable {s : State} {g : Guard} {mask : BitVec 4} {id : BitVec 8} (hg : s.guardOn g = true)
include hg

theorem exec_rdv_alone (h3 : mask.getLsbD 3 = false) (hq : seqsOf mask = [s.cur.2]) :
    exec (.rdv g mask id) s = .next (s.complete 4) := by
  have hbit : mask.getLsbD (seqBit s.cur.2) = true := mem_seqsOf.mp (hq ▸ List.mem_singleton_self _)
  change execRdv g mask id s = _
  unfold execRdv
  rw [guarded_on hg]
  exact congrArg _ ((if_neg (by rw [h3, hbit]; decide)).trans (if_pos (beq_iff_eq.mpr hq)))

theorem exec_rdv_outside (h : mask.getLsbD 3 = true ∨ s.cur.2 ∉ seqsOf mask) :
    exec (.rdv g mask id) s = .next (s.trap cSEQSTATE 0 0) := by
  rw [mem_seqsOf, Bool.not_eq_true] at h
  change execRdv g mask id s = _
  unfold execRdv
  rw [guarded_on hg]
  exact congrArg _ (if_pos (by simpa using h))

theorem exec_rdv_comes (h3 : mask.getLsbD 3 = false) (hq : s.cur.2 ∈ seqsOf mask) (hne : seqsOf mask ≠ [s.cur.2])
    (hw : s.me.waitAt = none) :
    exec (.rdv g mask id) s = .next
      (if s.here.rdvLost s.cur.2 mask id
       then (s.rdvFails mask).failWait cRDVFAULT 0 0
       else
         let b := s.beginRelease s.cur.1 s.cur.2 (maskC ||| engineMask s.cur.2) .cl
         (b.1.mapMe (·.setWait (.rdv mask id b.2))).meet mask id) := by
  change execRdv g mask id s = _
  unfold execRdv
  rw [guarded_on hg]
  refine congrArg _ ((if_neg (by rw [h3, mem_seqsOf.mp hq]; decide)).trans ((if_neg (by simpa using hne)).trans ?_))
  rw [hw]
  rfl

end

theorem State.trap_eq {s : State} (hc : s.CanTrap) (cause detail : Nat) (arg : Word) :
    s.trap cause detail arg = s.unasked.mapMe fun x => x.settle.enter (s.handler s.cur.1 s.cur.2 cause detail).1
      (s.handler s.cur.1 s.cur.2 cause detail).2
      ⟨s.me.pc, causeWord cause detail false, arg, s.me.settle.outstanding⟩ := by
  unfold State.trap
  rw [not_any_sent hc, if_neg Bool.false_ne_true]
  simp only [State.me_mapMe]
  rw [State.deliver_settled _ _ _ _ _ _ _ hc.1, Sequencer.settle_pc]

theorem Sequencer.enter_frame (x : Sequencer) (sup : Bool) (entry : Word) (f : Frame) :
    (x.enter sup entry f).frame = { f with pc := w64 (bits f.pc 54 0) } := by
  unfold Sequencer.enter
  cases sup <;> rfl

theorem State.seq_unasked (s : State) (q : SeqId) : s.unasked.here.seq q = s.here.seq q := by
  unfold State.unasked
  rw [State.here_mapHere, Cluster.seq_dropReports]
  rfl

theorem State.cluster_unasked_ne {s : State} {d : Nat} (h : d ≠ s.cur.1) : s.unasked.cluster d = s.cluster d :=
  State.cluster_mapCl_ne _ _ _ _ h

theorem State.seq_mapMe_ne (s : State) (f : Sequencer → Sequencer) {q : SeqId} (h : q ≠ s.cur.2) :
    (s.mapMe f).here.seq q = s.here.seq q := by
  rw [State.here_mapMe, Cluster.seq_setSeq_ne _ _ _ _ h]

/-- A rendezvous of another identifier or mask than one it is named in (R34). -/
theorem State.rdvFails_spec {s : State} (hc : s.CanTrap) {mask m : BitVec 4} {i : BitVec 8} {r : Release} {p : SeqId}
    (hp : p ≠ s.cur.2) (hr : (s.here.seq p).rdvAt = some (m, i, r)) (hm : s.cur.2 ∈ seqsOf m) :
    let t := (s.rdvFails mask).failWait cRDVFAULT 0 0
    OnlyCluster s.unasked t s.cur.1
      ∧ t.me.frame = ⟨w64 (bits s.me.pc 54 0), causeWord 0xC 0 false, 0, s.me.settle.outstanding⟩
      ∧ (t.here.seq p).waitAt = some (.failed 0xC 0 0) := by
  have hnone : (fun m : BitVec 4 => s.cur.2 != s.cur.2 && (m.getLsbD (seqBit s.cur.2) || mask.getLsbD (seqBit s.cur.2)))
      = fun _ => false := by simp
  have hme : (s.rdvFails mask).me = s.me := by
    rw [State.rdvFails, State.me_mapHere, Cluster.seq_failRdv, hnone, Sequencer.missRdv_none]
    rfl
  have hc' : ((s.rdvFails mask).mapMe (·.endWait)).CanTrap := by
    constructor <;> rw [State.me_mapMe, hme]
    · exact hc.1
    · exact hc.2
  have ht : (s.rdvFails mask).failWait cRDVFAULT 0 0 = ((s.rdvFails mask).mapMe (·.endWait)).trap cRDVFAULT 0 0 := by
    unfold State.failWait
    rw [hme, not_any_sent hc, if_neg Bool.false_ne_true]
  have hme' : ((s.rdvFails mask).mapMe (·.endWait)).me = s.me.endWait := by rw [State.me_mapMe, hme]
  intro t
  have htt : t = _ := ht.trans (State.trap_eq hc' _ _ _)
  rw [htt]
  refine ⟨onlyCluster_of rfl fun d hd => ?_, ?_, ?_⟩
  · calc _ = ((s.rdvFails mask).mapMe (·.endWait)).unasked.cluster d := State.cluster_mapCl_ne _ _ _ _ hd
      _ = ((s.rdvFails mask).mapMe (·.endWait)).cluster d := State.cluster_unasked_ne hd
      _ = (s.rdvFails mask).cluster d := State.cluster_mapCl_ne _ _ _ _ hd
      _ = s.cluster d := State.cluster_mapCl_ne _ _ _ _ hd
      _ = s.unasked.cluster d := (State.cluster_unasked_ne hd).symm
  · rw [State.me_mapMe, Sequencer.enter_frame, hme']
    rfl
  · rw [State.seq_mapMe_ne _ _ (by exact hp), State.seq_unasked, State.seq_mapMe_ne _ _ (by exact hp), State.rdvFails,
    State.here_mapHere, Cluster.seq_failRdv]
    have hmiss : (fun m : BitVec 4 => p != s.cur.2 && (m.getLsbD (seqBit s.cur.2) || mask.getLsbD (seqBit p))) m = true := by
      simp [hp, mem_seqsOf.mp hm]
    rw [Sequencer.missRdv, hr]
    dsimp only
    rw [if_pos hmiss, Sequencer.waitAt_setWait]
    rfl

/-- What the participants of a met rendezvous become (R34). -/
def Cluster.meets (k : Cluster) (m : Mask) (ids : List Nat) (done : Table (List Nat)) (now : Nat) (qs : List SeqId) : Cluster :=
  k.mapSeqs (fun k q => ((k.seq q).acquire m ids done now).setWait .released) qs

theorem Cluster.seq_meets (k : Cluster) (m : Mask) (ids : List Nat) (done : Table (List Nat)) (now : Nat) {qs : List SeqId}
    (hn : qs.Nodup) (r : SeqId) : (k.meets m ids done now qs).seq r =
      if r ∈ qs then ((k.seq r).acquire m ids done now).setWait .released else k.seq r :=
  Cluster.seq_mapSeqs hn (fun k q _ r _ hr x => by rw [Cluster.seq_setSeq_ne _ _ _ _ hr]) k r

/-- Once all are there and their releases have performed, all go on (R34). -/
theorem State.meet_ready {s : State} {mask : BitVec 4} {id : BitVec 8}
    (h : ∀ q ∈ seqsOf mask, ∃ r, (s.here.seq q).rdvAt = some (mask, id, r) ∧ s.releaseReady s.cur.1 q r = true) :
    ∃ m ids done, s.meet mask id = (s.mapHere fun k => k.meets m ids done s.counter (seqsOf mask)).complete 4 := by
  refine ⟨_, _, _, if_pos (List.all_eq_true.mpr fun q hq => ?_)⟩
  obtain ⟨r, hr, hready⟩ := h q hq
  rw [hr]
  simp [hready]

theorem Sequencer.acquire_setWait (x : Sequencer) (k : WaitKind) (m : Mask) (ids : List Nat) (done : Table (List Nat))
    (now : Nat) : let y := (x.acquire m ids done now).setWait k
      y.pc = x.pc ∧ y.regs = x.regs ∧ y.preds = x.preds := by
  cases x
  exact ⟨rfl, rfl, rfl⟩

@[simp] theorem Sequencer.setWait_pc (x : Sequencer) (k : WaitKind) : (x.setWait k).pc = x.pc := rfl
@[simp] theorem Sequencer.endWait_pc (x : Sequencer) : x.endWait.pc = x.pc := rfl
@[simp] theorem Sequencer.endWait_regs (x : Sequencer) : x.endWait.regs = x.regs := rfl
@[simp] theorem Sequencer.endWait_preds (x : Sequencer) : x.endWait.preds = x.preds := rfl

/-- The last of two participants comes, with nothing of theirs on its way (R34). -/
theorem State.rdv_last_of_two {s : State} (hquiet : s.Quiet) {mask : BitVec 4} {id : BitVec 8} {p : SeqId} {r : Release}
    (hp : p ≠ s.cur.2) (hmask : ∀ x, x ∈ seqsOf mask ↔ x = s.cur.2 ∨ x = p)
    (hr : (s.here.seq p).rdvAt = some (mask, id, r)) (hready : s.releaseReady s.cur.1 p r = true) :
    let b := s.beginRelease s.cur.1 s.cur.2 (maskC ||| engineMask s.cur.2) .cl
    let t := (b.1.mapMe (·.setWait (.rdv mask id b.2))).meet mask id
    OnlyCluster s t s.cur.1 ∧ t.me.pc = s.me.pc + 4
      ∧ (t.here.seq p).waitAt = some .released ∧ (t.here.seq p).pc = (s.here.seq p).pc
      ∧ ∀ x, (t.here.seq x).regs = (s.here.seq x).regs ∧ (t.here.seq x).preds = (s.here.seq x).preds := by
  obtain ⟨hb, -, hown⟩ := State.beginRelease_quiet hquiet (maskC ||| engineMask s.cur.2) .cl
  intro b t
  let u := s.mapMe (·.setWait (.rdv mask id b.2))
  have hume : u.here.seq s.cur.2 = s.me.setWait (.rdv mask id b.2) := by
    rw [State.here_mapMe, Cluster.seq_setSeq_same]
  have hready' : ∀ q x, s.releaseReady s.cur.1 q x = true → u.releaseReady u.cur.1 q x = true := fun q x h =>
    (s.releaseReady_mapMe (f := (·.setWait (.rdv mask id b.2))) rfl q x).trans h
  have hall : ∀ q ∈ seqsOf mask, ∃ x, (u.here.seq q).rdvAt = some (mask, id, x) ∧ u.releaseReady u.cur.1 q x = true := by
    intro q hq
    rcases (hmask q).mp hq with rfl | rfl
    · refine ⟨b.2, ?_, hready' _ _ hown⟩
      rw [hume, Sequencer.rdvAt, Sequencer.waitAt_setWait]
    · refine ⟨r, ?_, hready' _ _ hready⟩
      rw [State.seq_mapMe_ne _ _ hp, hr]
  obtain ⟨m, ids, done, hmeet⟩ := State.meet_ready hall
  have ht : t = (u.mapHere fun k => k.meets m ids done u.counter (seqsOf mask)).complete 4 := by
    rw [← hmeet]
    exact congrArg (fun s : State => (s.mapMe _).meet mask id) hb
  have hq : s.cur.2 ∈ seqsOf mask := (hmask _).mpr (.inl rfl)
  have hpm : p ∈ seqsOf mask := (hmask p).mpr (.inr rfl)
  have hmeets := Cluster.seq_meets u.here m ids done u.counter (seqsOf_nodup mask)
  have hme : t.here.seq s.cur.2
      = (((s.me.setWait (.rdv mask id b.2)).acquire m ids done u.counter).setWait .released).endWait.skip 4 := by
    rw [ht, State.complete, State.here_mapMe]
    refine (Cluster.seq_setSeq_same _ _ _).trans ?_
    rw [State.me_mapHere]
    exact congrArg (·.endWait.skip 4) ((hmeets s.cur.2).trans (by rw [if_pos hq, hume]))
  have hother : ∀ x, x ≠ s.cur.2 → t.here.seq x
      = if x ∈ seqsOf mask then ((s.here.seq x).acquire m ids done u.counter).setWait .released else s.here.seq x := by
    intro x hx
    rw [ht, State.complete, State.seq_mapMe_ne _ _ (by exact hx), State.here_mapHere, hmeets, State.seq_mapMe_ne _ _ hx]
  refine ⟨?_, ?_, ?_, ?_, fun x => ?_⟩
  · rw [ht]
    exact onlyCluster_trans (onlySeq_mapMe s _).only (onlyCluster_mapHere_mapMe u _ _)
  · have hcur : t.cur = s.cur := by rw [ht]; rfl
    rw [show t.me = t.here.seq t.cur.2 from rfl, hcur, hme]
    rw [Sequencer.skip_pc, Sequencer.endWait_pc, (Sequencer.acquire_setWait _ _ _ _ _ _).1, Sequencer.setWait_pc]
    rfl
  · rw [hother p hp, if_pos hpm, Sequencer.waitAt_setWait]
  · rw [hother p hp, if_pos hpm, (Sequencer.acquire_setWait _ _ _ _ _ _).1]
  · by_cases hx : x = s.cur.2
    · rw [hx, hme]
      rw [Sequencer.skip_regs, Sequencer.skip_preds, Sequencer.endWait_regs, Sequencer.endWait_preds]
      exact (Sequencer.acquire_setWait (s.me.setWait _) _ _ _ _ _).2
    · rw [hother x hx]
      split
      · exact (Sequencer.acquire_setWait _ _ _ _ _ _).2
      · exact ⟨rfl, rfl⟩

end Sys2Proof.Machine

open Sys2Proof Sys2Proof.Machine

/-- Settles O17: a rendezvous that is met lets each participant acquire and go on, and one that can not be met fails for all. -/
theorem rendezvous : Obligations.Rendezvous := by
  unfold Obligations.Rendezvous
  intro s g mask id hg q
  refine ⟨fun h3 hq => ⟨_, exec_rdv_alone hg h3 hq, hereBut_complete s 4⟩, fun hc h => ?_, ?_, ?_⟩
  · exact traps_trap hc (exec_rdv_outside hg h)
  · intro p r hp h3 hmask hquiet hr hready hidle hexit hothers
    have hq : q ∈ seqsOf mask := (hmask _).mpr (.inl rfl)
    have hne : seqsOf mask ≠ [q] := fun h => hp (by simpa [h] using (hmask p).mpr (.inr rfl))
    have hlost : ¬ s.here.rdvLost q mask id = true := by
      rw [Cluster.rdvLost_iff]
      rintro ⟨x, hx, h⟩
      by_cases hxp : x = p
      · subst hxp
        simp [Cluster.rdvOff, Cluster.rdvGone, hr, hidle, hexit] at h
      · have hbit : mask.getLsbD (seqBit x) = false := by
          rw [← Bool.not_eq_true, ← mem_seqsOf, hmask]
          exact not_or_intro hx hxp
        simp [Cluster.rdvOff, Cluster.rdvGone, hothers x hx hxp, hbit] at h
    have hx := exec_rdv_comes (id := id) hg h3 hq hne hquiet.2.1
    rw [if_neg hlost] at hx
    exact ⟨_, hx, State.rdv_last_of_two hquiet hp hmask hr hready⟩
  · intro p m i r hp hr hm hne h3 hq hmask hw hc
    have hlost : s.here.rdvLost q mask id = true := by
      rw [Cluster.rdvLost_iff]
      refine ⟨p, hp, .inl ?_⟩
      have hpair : ¬(m = mask ∧ i = id) := fun h => hne (Prod.ext h.1 h.2)
      rw [Cluster.rdvOff, hr, ← Bool.not_eq_false]
      simpa [mem_seqsOf.mp hm] using hpair
    have hx := exec_rdv_comes (id := id) hg h3 hq hmask hw
    rw [if_pos hlost] at hx
    exact ⟨_, hx, State.rdvFails_spec hc hp hr hm⟩

end

section
namespace Sys2Proof.Machine

/-! ### The sequencer that issues stays the same while it reads (R125) -/

theorem State.note_cur (s : State) (a : Agent) (ws rs : List Nat) : (s.note a ws rs).cur = s.cur := by
  unfold State.note
  split
  · rfl
  split
  · rfl
  split
  · split <;> rfl
  · split <;> rfl
  all_goals rfl

theorem State.trace_cur (s : State) (ty ctx region blk ver : Nat) (payload : List Byte) :
    (s.trace ty ctx region blk ver payload).cur = s.cur := by
  unfold State.trace
  extract_lets d
  split
  · rfl
  split <;> rfl

theorem State.l2Filter_cur (s : State) (r : MemReq) (kind slice f : Nat) : (s.l2Filter r kind slice f).cur = s.cur := by
  unfold State.l2Filter
  split
  · rfl
  extract_lets n samp s1
  split
  · unfold State.traceL2
    extract_lets clk
    split
    · split <;> rfl
    · exact State.trace_cur _ _ _ _ _ _ _
  · rfl

theorem State.touchL2_cur (s : State) (key rcls : Nat) (reads : Bool) : (s.touchL2 key rcls reads).cur = s.cur := by
  obtain ⟨_, _, _, _, _, h⟩ := s.touchL2_caches key rcls reads
  rw [h]

theorem State.meetsL2_cur (s : State) (r : MemReq) (merged again : Bool) : (s.meetsL2 r merged again).cur = s.cur := by
  unfold State.meetsL2
  extract_lets counts s1 kind s2
  have h1 : s1.cur = s.cur := by
    dsimp only [s1]
    split
    · split <;> rfl
    · rfl
  have h2 : s2.cur = s.cur := (State.l2Filter_cur _ _ _ _ _).trans ((State.l2Filter_cur _ _ _ _ _).trans h1)
  split
  · exact (State.touchL2_cur _ _ _ _).trans h2
  · exact h2

/-- The access ends, when it does, with the same sequencer issuing. -/
abbrev Got.KeepsCur {α : Type} (s : State) (g : Got α) : Prop := g.Ends fun t => t.cur = s.cur

theorem State.resolve_keepsCur (s : State) (w : Who) (va n : Nat) (need : Need) : (s.resolve w va n need).KeepsCur s := by
  unfold State.resolve Got.KeepsCur
  extract_lets k
  split
  · exact rfl
  split
  · exact rfl
  split
  · exact rfl
  split
  · trivial
  split
  · extract_lets s1
    split
    · split <;> exact rfl
    all_goals exact rfl
  · exact rfl
  · split
    · split
      · exact rfl
      · trivial
    · trivial

theorem State.readFar_keepsCur (s : State) (w : Who) (line va n off : Nat) (ask : State → State) :
    (s.readFar w line va n off ask).KeepsCur s := by
  unfold State.readFar Got.KeepsCur
  split
  · exact rfl
  extract_lets out
  split
  · exact rfl
  split <;> trivial

theorem State.readAt_keepsCur (s : State) (w : Who) (t : Target) (va n : Nat) : (s.readAt w t va n).KeepsCur s := by
  cases t with
  | tile key =>
    unfold State.readAt
    dsimp only
    split
    · trivial
    · exact rfl
  | mem key pa rcls => exact (State.meetsL2_cur _ _ _ _).trans (State.note_cur _ _ _ _)
  | host off =>
    unfold State.readAt
    exact s.readFar_keepsCur _ _ _ _ _ _
  | remote pa =>
    unfold State.readAt
    exact s.readFar_keepsCur _ _ _ _ _ _

theorem State.readPiece_keepsCur (s : State) (w : Who) (va n : Nat) : (s.readPiece w va n).KeepsCur s := by
  have hr := s.resolve_keepsCur w va n needR
  unfold State.readPiece
  cases h : s.resolve w va n needR with
  | ok s1 t =>
    rw [h] at hr
    have ha := s1.readAt_keepsCur w t va n
    unfold Got.KeepsCur at ha ⊢
    rw [show s.cur = s1.cur from hr.symm]
    exact ha
  | fail s1 c d a => rw [h] at hr; exact hr
  | wait s1 => trivial

theorem State.readPieces_keepsCur (w : Who) (l : List (Nat × Nat)) (s : State) (acc : List Byte × List RelInfo) :
    (s.readPieces w l acc).KeepsCur s := by
  induction l generalizing s acc with
  | nil => exact rfl
  | cons e l ih =>
    have hp := s.readPiece_keepsCur w e.1 e.2
    unfold State.readPieces
    cases h : s.readPiece w e.1 e.2 with
    | ok s1 x =>
      rw [h] at hp
      have hi := ih s1 (acc.1 ++ x.1, acc.2 ++ x.2)
      unfold Got.KeepsCur at hi ⊢
      rw [show s.cur = s1.cur from hp.symm]
      exact hi
    | fail s1 c d a => rw [h] at hp; exact hp
    | wait s1 => trivial

/-- A read that is done has observed some releases, and the same sequencer issues. -/
theorem State.vread_ok {s s1 : State} {w : Who} {va n : Nat} {bs : List Byte} (h : s.vread w va n = .ok s1 bs) :
    s1.cur = s.cur ∧ ∃ rels, s.vreadRel w va n = .ok s1 (bs, rels) := by
  have hk := State.readPieces_keepsCur w (linesOf va n) s ([], [])
  unfold State.vread State.vreadRel at *
  cases hr : s.readPieces w (linesOf va n) ([], []) with
  | ok s2 x =>
    rw [hr] at h hk
    obtain ⟨rfl, rfl⟩ : s2 = s1 ∧ x.1 = bs := by simpa using h
    exact ⟨hk, x.2, rfl⟩
  | fail s2 c d a => rw [hr] at h; exact nomatch h
  | wait s2 => rw [hr] at h; exact nomatch h

/-- The instruction finds its record, and acts in the machine as it then stands (R125, R158). -/
theorem State.withRecordRel_ok {s u : State} {va : Word} {bs : List Byte} (h : s.Record va bs u) :
    u.cur = s.cur ∧ ∃ rels, ∀ (i : Instr) (act : State → List Byte × List RelInfo → State),
      s.withRecordRel i va act = act u (bs, rels) := by
  obtain ⟨hea, hfree, s1, hread, rfl⟩ := h
  obtain ⟨hcur, rels, hrel⟩ := State.vread_ok hread
  refine ⟨hcur, rels, fun i act => ?_⟩
  have hagent : (s1.mapMe (·.access)).myAgent = s.myAgent := by
    unfold State.myAgent
    rw [State.mapMe_cur, hcur]
  unfold State.withRecordRel State.withRead
  rw [checkEa_ok hea]
  dsimp only
  rw [hfree, if_neg Bool.false_ne_true, hrel, hagent]
  rfl

end Sys2Proof.Machine
end

section
namespace Sys2Proof.Machine

/-! ### Contexts and jobs that an update leaves as they are (R310, R311, R324) -/

section
variable {s t : State} (hl : t.links = s.links) (hb : t.boot = s.boot) (hp : t.parts = s.parts)
include hl

theorem State.localPlace_congr (p : Partition) (l : Nat) : t.localPlace p l = s.localPlace p l := by
  have hg : t.granaryBacks = s.granaryBacks := by
    funext port off
    unfold State.granaryBacks
    rw [hl]
  unfold State.localPlace
  rw [hg, hl]

include hb hp

theorem State.pathsUp_congr (m : Nat) : t.pathsUp m = s.pathsUp m := by
  have ho : t.outPort = s.outPort := by
    funext m path
    unfold State.outPort State.position State.hopPort State.direction State.extent State.domainEntry
    rw [hb, hp]
  unfold State.pathsUp
  rw [ho, hl]

/-- Where an access goes depends on the partitions, the domain map and the links alone (R79, R395). -/
theorem State.placeOf_congr (p : Partition) (pa : Nat) : t.placeOf p pa = s.placeOf p pa := by
  have hd : t.domainEntry = s.domainEntry := by
    funext m
    unfold State.domainEntry
    rw [hb]
  unfold State.placeOf
  simp only [State.localPlace_congr hl, State.pathsUp_congr hl hb hp, hd, hp]

/-- What a context's descriptor reads as depends besides on its cached copy and on memory (R310, R311). -/
theorem State.descOf_congr (hm : t.mem = s.mem) {n : Nat} (hx : (t.ctx n).desc = (s.ctx n).desc) (p : Partition) :
    t.descOf p n = s.descOf p n := by
  unfold State.descOf
  rw [hx, State.placeOf_congr hl hb hp, hm]

theorem State.ctxField_congr (hm : t.mem = s.mem) {n : Nat} (hx : (t.ctx n).desc = (s.ctx n).desc) (a len : Nat) :
    t.ctxField n a len = s.ctxField n a len := by
  have hpart : t.partOfCtx n = s.partOfCtx n := by
    unfold State.partOfCtx State.partOfFn
    rw [hp]
  unfold State.ctxField
  rw [hpart, State.descOf_congr hl hb hp hm hx]

end

theorem State.ctxField_mapMe (s : State) (f : Sequencer → Sequencer) (n a len : Nat) :
    (s.mapMe f).ctxField n a len = s.ctxField n a len :=
  State.ctxField_congr (s.mapMe_links f) (s.mapMe_boot f) (s.mapMe_parts f) (s.mapMe_mem f) rfl a len

theorem State.room_mapMe (s : State) (f : Sequencer → Sequencer) (n : Nat) (cont : Bool) :
    (s.mapMe f).room n cont = s.room n cont := by
  unfold State.room
  rw [State.ctxField_mapMe]
  rfl

theorem State.badLaunch_mapMe (s : State) (f : Sequencer → Sequencer) (n : Nat) (l : Launch) (b : Bool) :
    (s.mapMe f).badLaunch n l b = s.badLaunch n l b := rfl

theorem State.ctx_cacheDesc (s : State) (p : Partition) (n m : Nat) :
    ∃ d, (s.cacheDesc p n).ctx m = { s.ctx m with desc := d } := by
  unfold State.cacheDesc
  split
  · rw [State.ctx_mapCtx]
    split
    next h => exact h ▸ ⟨_, rfl⟩
    next => exact ⟨_, rfl⟩
  · exact ⟨_, rfl⟩

/-- A descriptor reads the same from the cache (R311). -/
theorem State.descOf_cacheDesc (s : State) (p : Partition) (n : Nat) : (s.cacheDesc p n).descOf p n = s.descOf p n := by
  unfold State.cacheDesc
  split
  next h =>
    have hd : ((s.mapCtx n fun x => { x with desc := some (s.descOf p n) }).ctx n).desc = some (s.descOf p n) := by
      rw [State.ctx_mapCtx, if_pos rfl]
    conv_lhs => rw [State.descOf, if_neg (by simp [h]), hd]
  next => rfl

theorem State.ctxField_cacheDesc (s : State) (n a len : Nat) :
    (s.cacheDesc (s.partOfCtx n) n).ctxField n a len = s.ctxField n a len := by
  obtain ⟨c, hc⟩ := s.cacheDesc_frame (s.partOfCtx n) n
  have hp : (s.cacheDesc (s.partOfCtx n) n).partOfCtx n = s.partOfCtx n := by rw [hc]; rfl
  unfold State.ctxField
  rw [hp, State.descOf_cacheDesc]

theorem State.room_cacheDesc (s : State) (n : Nat) (cont : Bool) :
    (s.cacheDesc (s.partOfCtx n) n).room n cont = s.room n cont := by
  obtain ⟨c, hc⟩ := s.cacheDesc_frame (s.partOfCtx n) n
  unfold State.room
  rw [State.ctxField_cacheDesc, hc]
  rfl

theorem State.badLaunch_cacheDesc (s : State) (p : Partition) (n : Nat) (l : Launch) (b : Bool) :
    (s.cacheDesc p n).badLaunch n l b = s.badLaunch n l b := by
  obtain ⟨d, hd⟩ := s.ctx_cacheDesc p n n
  unfold State.badLaunch State.badDep
  rw [hd]
  rfl

/-- The jobs, the numbers the contexts' origins have reached and the issuing sequencer stay as they are. -/
structure State.Submits (s t : State) : Prop where
  cur : t.cur = s.cur
  jobs : t.jobs = s.jobs
  seq : ∀ n, (t.ctx n).seqSpawn = (s.ctx n).seqSpawn
  seqHost : ∀ n, (t.ctx n).seqHost = (s.ctx n).seqHost
  me : t.me = s.me

theorem State.Submits.trans {s t u : State} (h : s.Submits t) (h' : t.Submits u) : s.Submits u :=
  ⟨h'.cur.trans h.cur, h'.jobs.trans h.jobs, fun n => (h'.seq n).trans (h.seq n),
    fun n => (h'.seqHost n).trans (h.seqHost n), h'.me.trans h.me⟩

theorem State.submits_cacheDesc (s : State) (p : Partition) (n : Nat) : s.Submits (s.cacheDesc p n) := by
  have hx := s.ctx_cacheDesc p n
  obtain ⟨c, hc⟩ := s.cacheDesc_frame p n
  refine ⟨by rw [hc], by rw [hc], fun m => ?_, fun m => ?_, by rw [hc]; rfl⟩
  · obtain ⟨d, hd⟩ := hx m
    rw [hd]
  · obtain ⟨d, hd⟩ := hx m
    rw [hd]

theorem State.submits_rawWrite (s : State) (key : Nat) (bs : List Byte) : s.Submits (s.rawWrite key bs) := by
  unfold State.rawWrite
  split
  · exact ⟨rfl, rfl, fun _ => rfl, fun _ => rfl, s.seq_mapCl _ (fun k => by cases s.cur.2 <;> rfl) _⟩
  · exact ⟨rfl, rfl, fun _ => rfl, fun _ => rfl, rfl⟩

theorem State.submits_markDirty (s : State) (key : Nat) (bs : List Byte) (wpol : Nat) :
    s.Submits (s.markDirty key bs wpol) := by
  unfold State.markDirty
  extract_lets line at_ mark way fill
  split
  · exact ⟨rfl, rfl, fun _ => rfl, fun _ => rfl, rfl⟩
  · exact ⟨rfl, rfl, fun _ => rfl, fun _ => rfl, rfl⟩

theorem State.submits_store (s : State) (key : Nat) (bs : List Byte) (view : List Nat) (rels : List RelInfo) (wpol : Nat) :
    s.Submits (s.store key bs view rels wpol) := by
  obtain ⟨hc, hj, hs, hh, hm⟩ := (s.submits_markDirty key bs wpol).trans (State.submits_rawWrite _ key bs)
  exact ⟨hc, hj, hs, hh, hm⟩

theorem State.submits_siloPut (s : State) (ctx num : Nat) (rec_ : List Byte) : s.Submits (s.siloPut ctx num rec_) := by
  have hu : s.Submits (s.useCtx ctx) := s.submits_cacheDesc _ _
  unfold State.siloPut
  extract_lets s0 i s1
  have h1 : s.Submits s1 := by
    dsimp only [s1]
    split
    · exact hu.trans (State.submits_store _ _ _ _ _ _)
    · exact hu
  exact ⟨h1.cur, h1.jobs, h1.seq, h1.seqHost, h1.me⟩

/-! ### A spawned record becomes a job (R46, R185, R323, R324) -/

/-- What a state holds once a spawned record is accepted (R185, R323). -/
def State.Spawned (s t : State) (ctx : Nat) (l : Launch) (cont pool : Bool) (num : Nat) : Prop :=
  (t.ctx ctx).seqSpawn = ((s.ctx ctx).seqSpawn + 1) % 2 ^ 33
    ∧ ∃ j, t.jobs = s.jobs ++ [j] ∧ j.num = num ∧ j.ctx = ctx ∧ j.cont = cont ∧ j.inPool = pool ∧ j.live = true
        ∧ j.gangs.length = l.ngm1 + 1 ∧ j.gtab = w64 l.gtab ∧ j.crec = w64 l.crec

theorem State.newJob_spawned (s : State) (ctx : Nat) (l : Launch) (sp : Spawner) (pool : Bool) :
    let num := ctx * 2 ^ 34 + 2 ^ 33 + ((s.ctx ctx).seqSpawn + 1) % 2 ^ 33
    (s.newJob ctx l (some sp) 0 pool).2 = num ∧ s.Spawned (s.newJob ctx l (some sp) 0 pool).1 ctx l sp.cont pool num
      ∧ (s.newJob ctx l (some sp) 0 pool).1.cur = s.cur ∧ (s.newJob ctx l (some sp) 0 pool).1.me = s.me := by
  have hnum : ctx * 2 ^ 34 + 1 * 2 ^ 33 + ((s.ctx ctx).seqSpawn + 1) % 2 ^ 33
      = ctx * 2 ^ 34 + 2 ^ 33 + ((s.ctx ctx).seqSpawn + 1) % 2 ^ 33 := by rw [Nat.one_mul]
  refine ⟨hnum, ⟨?_, _, rfl, hnum, rfl, rfl, rfl, rfl, ?_, rfl, rfl⟩, rfl, rfl⟩
  · change ((s.mapCtx ctx fun x => { x with seqSpawn := ((s.ctx ctx).seqSpawn + 1) % 2 ^ 33 }).ctx ctx).seqSpawn = _
    rw [State.ctx_mapCtx, if_pos rfl]
  · exact (List.length_map _).trans List.length_range

theorem State.placeJob_spawned (s : State) (ctx : Nat) (b : List Byte) (sp : Spawner) (pool : Bool) :
    let num := ctx * 2 ^ 34 + 2 ^ 33 + ((s.ctx ctx).seqSpawn + 1) % 2 ^ 33
    (s.placeJob ctx b (some sp) pool).2 = num ∧ s.Spawned (s.placeJob ctx b (some sp) pool).1 ctx (launchOf b) sp.cont pool num
      ∧ (s.placeJob ctx b (some sp) pool).1.cur = s.cur ∧ (s.placeJob ctx b (some sp) pool).1.me = s.me := by
  obtain ⟨hnum, ⟨hseq, j, hj, hf⟩, hcur, hme⟩ := s.newJob_spawned ctx (launchOf b) sp pool
  refine ⟨hnum, ?_⟩
  cases pool with
  | true => exact ⟨⟨hseq, j, hj, hf⟩, hcur, hme⟩
  | false =>
    have hp := (s.newJob ctx (launchOf b) (some sp) 0 false).1.submits_siloPut ctx
      (s.newJob ctx (launchOf b) (some sp) 0 false).2 b
    exact ⟨⟨(hp.seq ctx).trans hseq, j, hp.jobs.trans hj, hf⟩, hp.cur.trans hcur, hp.me.trans hme⟩

/-- The three answers of R185. -/
theorem State.acceptSpawn_cases (s : State) (ctx : Nat) (b : List Byte) (sp : Spawner) :
    let no : Prop := bit (s.ctxField ctx 8 1) 1 = true ∨ s.badLaunch ctx (launchOf b) true = true
    let num := ctx * 2 ^ 34 + 2 ^ 33 + ((s.ctx ctx).seqSpawn + 1) % 2 ^ 33
    let r := s.acceptSpawn ctx b sp
    (r.1.cur = s.cur ∧ r.1.me = s.me)
      ∧ (no → r.2 = w64 (2 * 2 ^ 48) ∧ r.1.jobs = s.jobs)
      ∧ (¬no → s.room ctx sp.cont = none → r.2 = w64 (2 ^ 48) ∧ r.1.jobs = s.jobs)
      ∧ ∀ p, ¬no → s.room ctx sp.cont = some p → r.2 = w64 num ∧ s.Spawned r.1 ctx (launchOf b) sp.cont p num := by
  intro no num r
  have h0 := s.submits_cacheDesc (s.partOfCtx ctx) ctx
  have hno : (bit ((s.cacheDesc (s.partOfCtx ctx) ctx).ctxField ctx 8 1) 1
      || (s.cacheDesc (s.partOfCtx ctx) ctx).badLaunch ctx (launchOf b) true) = true ↔ no := by
    rw [State.ctxField_cacheDesc, State.badLaunch_cacheDesc, Bool.or_eq_true]
  by_cases h : no
  · have hr : r = (s.cacheDesc (s.partOfCtx ctx) ctx, w64 (2 * 2 ^ 48)) := if_pos (hno.mpr h)
    rw [hr]
    exact ⟨⟨h0.cur, h0.me⟩, fun _ => ⟨rfl, h0.jobs⟩, fun hn => absurd h hn, fun _ hn => absurd h hn⟩
  · have hr : r = match s.room ctx sp.cont with
        | none => (s.cacheDesc (s.partOfCtx ctx) ctx, w64 (2 ^ 48))
        | some p => (((s.cacheDesc (s.partOfCtx ctx) ctx).placeJob ctx b (some sp) p).1,
            w64 ((s.cacheDesc (s.partOfCtx ctx) ctx).placeJob ctx b (some sp) p).2) := by
      rw [← State.room_cacheDesc]
      exact if_neg (mt hno.mp h)
    cases hroom : s.room ctx sp.cont with
    | none =>
      rw [hroom] at hr
      rw [hr]
      exact ⟨⟨h0.cur, h0.me⟩, fun h' => absurd h' h, fun _ _ => ⟨rfl, h0.jobs⟩, fun _ _ hp => nomatch hp⟩
    | some p =>
      rw [hroom] at hr
      obtain ⟨hnum, ⟨hseq, j, hj, hf⟩, hcur, hme⟩ := (s.cacheDesc (s.partOfCtx ctx) ctx).placeJob_spawned ctx b sp p
      rw [h0.seq ctx] at hnum hseq hf
      rw [h0.jobs] at hj
      rw [hr]
      refine ⟨⟨hcur.trans h0.cur, hme.trans h0.me⟩, fun h' => absurd h' h, ?_, fun p' _ hp => ?_⟩
      · exact fun _ hp => nomatch hp
      obtain rfl : p = p' := Option.some.inj hp
      exact ⟨congrArg w64 hnum, hseq, j, hj, hf⟩

/-- The word w in s[d], and the step can no longer be replayed (R185, R360). -/
abbrev State.Answers (u t : State) (d : Reg) (w : Nat) : Prop :=
  t.me.pc = u.me.pc + 4 ∧ (∀ r, t.me.reg r = if r = d ∧ r ≠ 0 then w64 w else u.me.reg r) ∧ t.here.task.noReplay = true

/-- What follows the answer: the task's step is not replayed, the wait ends and s[d] receives the word. -/
def State.spawnEnd (s : State) (c : Nat) (d : Reg) (w : Word) : State :=
  ((s.mapTask c fun t => { t with noReplay := true }).mapMe (·.endWait)).put d w

theorem State.answers_spawnEnd {u s : State} {x : Sequencer} {c : Nat} (hc : c = s.cur.1) (hme : s.me = x) (hpc : x.pc = u.me.pc)
    (hregs : x.regs = u.me.regs) (d : Reg) (w : Nat) : u.Answers (s.spawnEnd c d (w64 w)) d w := by
  have hreg : ∀ r, x.endWait.reg r = u.me.reg r := fun r => by unfold Sequencer.reg; rw [Sequencer.endWait_regs, hregs]
  have hm : (s.spawnEnd c d (w64 w)).me = (x.endWait.setReg d (w64 w)).skip 4 := by
    unfold State.spawnEnd State.put
    rw [State.me_mapMe, State.me_mapMe, State.me_mapTask, hme]
  refine ⟨?_, fun r => ?_, ?_⟩
  · rw [hm, Sequencer.skip_pc, Sequencer.setReg_pc, Sequencer.endWait_pc, hpc]
    rfl
  · rw [hm, Sequencer.skip_reg, Sequencer.reg_setReg, hreg]
  · unfold State.spawnEnd State.put
    rw [State.task_mapMe, State.task_mapMe, hc, State.here_mapTask]

theorem Sequencer.acquire_regs (x : Sequencer) (m : Mask) (ids : List Nat) (done : Table (List Nat)) (now : Nat) :
    (x.acquire m ids done now).regs = x.regs := by cases x; rfl

/-- The effective level of the task's gang (R46). -/
def State.taskLevel (s : State) : Nat :=
  match s.job s.here.task.job, s.gangOf s.cur.1 with
  | some j, some g => s.levelOf j g
  | _, _ => 0

/-- Once its record is read and acquired, the form submits it for the task's job (R46, R95, R185). -/
theorem exec_spawns {s u : State} {g : Guard} {d a : Reg} {bs : List Byte} (cont : Bool) (hg : s.guardOn g = true)
    (hc : s.cur.2 = .control) (hr : s.Record (s.me.reg a) bs u) :
    ∃ (f : Sequencer → Sequencer) (sp : Spawner), (f u.me).pc = u.me.pc ∧ (f u.me).regs = u.me.regs ∧ sp.cont = cont ∧
      exec (if cont then .spawnC g d a else .spawn g d a) s = .next
        (((u.mapMe f).acceptSpawn u.here.task.ctx bs sp).1.spawnEnd u.cur.1 d ((u.mapMe f).acceptSpawn u.here.task.ctx bs sp).2) := by
  obtain ⟨-, rels, h⟩ := State.withRecordRel_ok hr
  refine ⟨(·.acquire maskC (u.learned rels u.cur.1 .sy) (doneOf rels u.cur.1) u.counter),
    ⟨u.here.task.job, u.taskLevel, cont⟩, Sequencer.acquire_pc _ _ _ _ _, Sequencer.acquire_regs _ _ _ _ _, rfl, ?_⟩
  cases cont
  · change execSpawn g d a s = _
    unfold execSpawn State.spawn
    rw [guarded_on hg, State.onControl_control hc, h]
    rfl
  · change execSpawnC g d a s = _
    unfold execSpawnC State.spawn
    rw [guarded_on hg, State.onControl_control hc, h]
    rfl

end Sys2Proof.Machine

open Sys2Proof Sys2Proof.Machine

/-- Settles O18: the record is read, and each of the three answers of the submission is written to s[d]. -/
theorem spawning : Obligations.Spawning := by
  unfold Obligations.Spawning
  intro s u g d a bs hg hc hr ctx l no num cont
  obtain ⟨f, sp, hpc, hregs, rfl, hx⟩ := exec_spawns (d := d) cont hg hc hr
  obtain ⟨⟨hcur, hme⟩, hno, hfull, hroom⟩ := (u.mapMe f).acceptSpawn_cases ctx bs sp
  rw [State.ctxField_mapMe, State.badLaunch_mapMe] at hno hfull hroom
  rw [State.room_mapMe] at hfull hroom
  have hans := State.answers_spawnEnd (u := u) (congrArg Prod.fst hcur).symm (hme.trans (State.me_mapMe u f)) hpc hregs d
  refine ⟨fun h => ?_, fun h hp => ?_, fun p h hp => ?_⟩
  · obtain ⟨hw, hj⟩ := hno h
    rw [hw] at hx
    exact ⟨_, hx, hans _, hj⟩
  · obtain ⟨hw, hj⟩ := hfull h hp
    rw [hw] at hx
    exact ⟨_, hx, hans _, hj⟩
  · obtain ⟨hw, hs⟩ := hroom p h hp
    rw [hw] at hx
    exact ⟨_, hx, hans _, hs⟩
end

section
namespace Sys2Proof.Machine

/-! ### An update of one sequencer of any cluster -/

theorem State.task_mapSeq (s : State) (c : Nat) (q : SeqId) (f : Sequencer → Sequencer) (d : Nat) :
    ((s.mapSeq c q f).cluster d).task = (s.cluster d).task := by
  unfold State.mapSeq
  by_cases h : d = c
  · subst h
    rw [State.cluster_mapCl_same, Cluster.setSeq_task]
  · rw [State.cluster_mapCl_ne _ _ _ _ h]

/-- The handler of a cause depends on the task, on whether the sequencer is in its handler, and on the partition (R350). -/
theorem State.handler_mapSeq (s : State) (c : Nat) (q : SeqId) {f : Sequencer → Sequencer}
    (h : (f (s.seq c q)).inProg = (s.seq c q).inProg) (cause detail : Nat) :
    (s.mapSeq c q f).handler c q cause detail = s.handler c q cause detail := by
  unfold State.handler
  rw [State.task_mapSeq, State.seq_mapSeq_same, h]
  rfl

/-! ### What settles depends on the registers and the operations alone (R145) -/

theorem Sequencer.setReg_congr {x y : Sequencer} (h : y.regs = x.regs) (d : Reg) (v : Word) :
    (y.setReg d v).regs = (x.setReg d v).regs := by
  unfold Sequencer.setReg
  split
  · exact h
  · exact congrArg (·.set d.val v) h

theorem Sequencer.writeBack_congr {x y : Sequencer} (h : y.regs = x.regs) (o : LongOp) :
    (y.writeBack o).regs = (x.writeBack o).regs := by
  unfold Sequencer.writeBack
  split
  · split
    case h_5 => exact Sequencer.setReg_congr (Sequencer.setReg_congr h _ _) _ _
    case h_6 => exact h
    all_goals exact Sequencer.setReg_congr h _ _
  · exact h

theorem Sequencer.foldl_writeBack_congr (l : List LongOp) {x y : Sequencer} (h : y.regs = x.regs) :
    (l.foldl (fun z o => if o.isDone then z.writeBack o else z) y).regs
      = (l.foldl (fun z o => if o.isDone then z.writeBack o else z) x).regs := by
  induction l generalizing x y with
  | nil => exact h
  | cons o l ih =>
    refine ih ?_
    dsimp only
    split
    · exact Sequencer.writeBack_congr h o
    · exact h

theorem Sequencer.settle_congr {x y : Sequencer} (hr : y.regs = x.regs) (ho : y.outstanding = x.outstanding) :
    y.settle.regs = x.settle.regs ∧ y.settle.outstanding = x.settle.outstanding := by
  have h := Sequencer.foldl_writeBack_congr x.outstanding hr
  unfold Sequencer.settle
  rw [ho]
  exact ⟨h, rfl⟩

/-- A sequencer as it takes a cause: but for what it has pending it is the same. -/
structure Sequencer.TakenFrom (x y : Sequencer) : Prop where
  regs : y.regs = x.regs
  preds : y.preds = x.preds
  outstanding : y.outstanding = x.outstanding
  pl : y.pl = x.pl
  inProg : y.inProg = x.inProg

/-- What a sequencer's frame and registers hold once it has entered a handler (R351). -/
theorem Sequencer.enter_spec (x : Sequencer) (toSup : Bool) (entry : Word) (f : Frame) (hp : x.pl = false) :
    (x.enter toSup entry f).frame = { f with pc := w64 (bits f.pc 54 0) } ∧ (x.enter toSup entry f).pc = entry
      ∧ (x.enter toSup entry f).pl = toSup ∧ (x.enter toSup entry f).outstanding = []
      ∧ (x.enter toSup entry f).regs = x.regs ∧ (x.enter toSup entry f).preds = x.preds := by
  cases toSup
  · exact ⟨rfl, rfl, hp, rfl, rfl, rfl⟩
  · exact ⟨rfl, rfl, rfl, rfl, rfl, rfl⟩

/-! ### The delivery of a cause (R350 to R354) -/

/-- What a sequencer at PL 0 that takes a cause leaves (R351). -/
def State.Takes (s : State) (c : Nat) (q : SeqId) (cause detail : Nat) (arg : Word) (t : State) : Prop :=
  OnlyCluster (s.dropAsks ⟨c, 0, seqNo q⟩) { t with counter := s.counter } c
    ∧ (t.seq c q).frame.cause = causeWord cause detail false ∧ (t.seq c q).frame.arg = arg
    ∧ (t.seq c q).frame.pc = w64 (bits (s.boundary c q).1 54 0)
    ∧ (t.seq c q).frame.replay = (s.seq c q).settle.outstanding ++ (s.boundary c q).2
    ∧ (t.seq c q).pc = (s.handler c q cause detail).2 ∧ (t.seq c q).pl = (s.handler c q cause detail).1
    ∧ (t.seq c q).outstanding = [] ∧ (∀ r, (t.seq c q).reg r = (s.seq c q).settle.reg r)
    ∧ ∀ p, (t.seq c q).pred p = (s.seq c q).pred p

/-- A sequencer as it stands when it goes to its handler from a boundary: what has performed is written (R171). -/
def Sequencer.atTrap (y : Sequencer) : Sequencer := { y.settle with exited := false }

theorem Sequencer.atTrap_taken {x y : Sequencer} (h : x.TakenFrom y) :
    y.atTrap.regs = x.settle.regs ∧ y.atTrap.outstanding = x.settle.outstanding ∧ y.atTrap.preds = x.preds
      ∧ y.atTrap.pl = x.pl ∧ y.atTrap.inProg = x.inProg := by
  obtain ⟨hr, ho⟩ := Sequencer.settle_congr h.regs h.outstanding
  have hpreds : y.settle.preds = y.preds := by obtain ⟨_, _, e⟩ := y.settle_regs; rw [e]
  exact ⟨hr, ho, hpreds.trans h.preds, y.settle_pl.trans h.pl, y.settle_inProg.trans h.inProg⟩

theorem State.takes_deliver {s : State} {c : Nat} {q : SeqId} (hp : (s.seq c q).pl = false) {y : Sequencer}
    (hy : (s.seq c q).TakenFrom y) (cause detail : Nat) (arg : Word) :
    s.Takes c q cause detail arg ((s.mapSeq c q fun _ => y.atTrap).fresh.deliver c q cause detail arg (s.boundary c q).1 false
      (y.atTrap.outstanding ++ (s.boundary c q).2)) := by
  obtain ⟨hregs, hout, hpreds, hpl, hprog⟩ := Sequencer.atTrap_taken hy
  have hseq : (s.mapSeq c q fun _ => y.atTrap).fresh.seq c q = y.atTrap :=
    s.seq_mapSeq_same c q fun _ => y.atTrap
  have hh : (s.mapSeq c q fun _ => y.atTrap).fresh.handler c q cause detail = s.handler c q cause detail :=
    s.handler_mapSeq c q (f := fun _ => y.atTrap) hprog cause detail
  unfold State.deliver
  rw [hseq, if_neg (by simp [hpl, hp]), hh]
  set u := (s.mapSeq c q fun _ => y.atTrap).fresh.dropAsks ⟨c, 0, seqNo q⟩ with hu
  set f : Frame := ⟨(s.boundary c q).1, causeWord cause detail false, arg, y.atTrap.outstanding ++ (s.boundary c q).2⟩ with hf
  have hut : ((u.mapCl c (·.dropReports)).mapSeq c q (·.enter (s.handler c q cause detail).1 (s.handler c q cause detail).2 f)).seq c q
      = y.atTrap.enter (s.handler c q cause detail).1 (s.handler c q cause detail).2 f := by
    rw [State.seq_mapSeq_same, State.seq_mapCl _ _ (fun k => k.seq_dropReports q), show u.seq c q = y.atTrap from hseq]
  have hother : ∀ d, d ≠ c → ((u.mapCl c (·.dropReports)).mapSeq c q
      (·.enter (s.handler c q cause detail).1 (s.handler c q cause detail).2 f)).cluster d = s.cluster d := fun d hd =>
    (State.cluster_mapCl_ne _ _ _ _ hd).trans ((State.cluster_mapCl_ne _ _ _ _ hd).trans 
      (s.cluster_mapCl_ne c d (fun k => k.setSeq q y.atTrap) hd))
  obtain ⟨h1, h2, h3, h4, h5, h6⟩ := y.atTrap.enter_spec (s.handler c q cause detail).1 (s.handler c q cause detail).2 f
    (hpl.trans hp)
  unfold State.Takes
  dsimp only
  rw [hut]
  refine ⟨?_, by rw [h1], by rw [h1], by rw [h1], ?_, h2, h3, h4, fun r => ?_, fun p => ?_⟩
  · exact onlyCluster_of rfl hother
  · rw [h1, hf, hout]
  · unfold Sequencer.reg
    rw [h5, hregs]
  · unfold Sequencer.pred
    rw [h6, hpreds]

theorem State.pendingAt_taken {s : State} {c : Nat} {q : SeqId} {p : Pending} (h : s.pendingAt c q = some p) :
    (s.seq c q).TakenFrom p.after := by
  have hself : (s.seq c q).TakenFrom (s.seq c q) := ⟨rfl, rfl, rfl, rfl, rfl⟩
  unfold State.pendingAt at h
  dsimp only at h
  split at h
  · obtain rfl := Option.some.inj h
    exact ⟨rfl, rfl, rfl, rfl, rfl⟩
  · split at h
    · obtain rfl := Option.some.inj h
      exact hself
    · exact nomatch h
  · split at h
    · obtain rfl := Option.some.inj h
      exact ⟨rfl, rfl, rfl, rfl, rfl⟩
    split at h
    · split at h
      · obtain rfl := Option.some.inj h
        exact ⟨rfl, rfl, rfl, rfl, rfl⟩
      · split at h
        · exact nomatch h
        · obtain rfl := Option.some.inj h
          exact ⟨rfl, rfl, rfl, rfl, rfl⟩
      · exact nomatch h
    · exact nomatch h

/-- At a boundary the sequencer takes the cause that is pending. -/
theorem yields_trapDelivery {s : State} {c : Nat} {q : SeqId} {cause detail : Nat} {arg : Word} {y : Sequencer}
    (hb : s.atBoundary c q = true) (hp : (s.seq c q).pl = false) (h : s.pendingAt c q = some ⟨cause, detail, arg, y⟩) :
    Yields s (.trapDelivery c q) (s.Takes c q cause detail arg) := by
  have hx : exec (.trapDelivery c q) s = .next ((s.mapSeq c q fun _ => y.atTrap).fresh.deliver c q cause detail arg
      (s.boundary c q).1 false (((s.mapSeq c q fun _ => y.atTrap).seq c q).outstanding ++ (s.boundary c q).2)) := by
    change execTrapDelivery c q s = _
    unfold execTrapDelivery
    rw [hb, h]
    rfl
  rw [State.seq_mapSeq_same] at hx
  exact ⟨_, hx, State.takes_deliver hp (State.pendingAt_taken h) cause detail arg⟩

theorem Sequencer.settled_of_running {x : Sequencer} (h : x.exited = false) (cmds : List Nat) : x.settled cmds = x := by
  have hd : x.dropFaulted = x := by simp [Sequencer.dropFaulted, h]
  simp [Sequencer.settled, hd, h]

/-- A program that runs keeps its engine faults, which are its own (R357). -/
theorem State.redirect_of_running {s : State} {c : Nat} {q : SeqId} (hi : (s.seq c q).idle = false)
    (he : (s.seq c q).exited = false) (hl : q = .control → (s.cluster c).task.left = false) :
    s.redirect c q = s.mapCl c (·.settleIdle) := by
  have hseq : (s.mapCl c (·.settleIdle)).seq c q = s.seq c q := by
    unfold State.seq
    rw [State.cluster_mapCl_same, Cluster.seq_settleIdle]
    split
    · rfl
    · exact Sequencer.settled_of_running he _
  have htask : ((s.mapCl c (·.settleIdle)).cluster c).task = (s.cluster c).task := by
    rw [State.cluster_mapCl_same]
    exact (congrArg Cluster.task ((s.cluster c).withSeqs_settleIdle (s.cluster c)) :)
  have hleft : (q == .control && (s.cluster c).task.left) = false := by
    by_cases h : q = .control
    · simp [hl h]
    · simp [h]
  unfold State.redirect
  dsimp only
  rw [hseq, htask]
  split
  · exact if_neg (by simp [hi, he, hleft])
  · rfl

theorem State.idle_of_atBoundary {s : State} {c : Nat} {q : SeqId} (h : s.atBoundary c q = true) : (s.seq c q).idle = false := by
  unfold State.atBoundary at h
  simp only [Bool.and_eq_true, Bool.not_eq_true'] at h
  obtain ⟨⟨⟨⟨-, hi⟩, -⟩, -⟩, -⟩ := h
  exact hi

/-- Where no cause is pending at a program that runs, only the engines' sequencers settle. -/
theorem exec_trapDelivery_none {s : State} {c : Nat} {q : SeqId} (hb : s.atBoundary c q = true) (h : s.pendingAt c q = none)
    (he : (s.seq c q).exited = false) (hl : q = .control → (s.cluster c).task.left = false) :
    exec (.trapDelivery c q) s = .next (s.mapCl c (·.settleIdle)) := by
  change execTrapDelivery c q s = _
  unfold execTrapDelivery
  rw [hb, h, ← State.redirect_of_running (State.idle_of_atBoundary hb) he hl]
  rfl

/-! ### The causes in their order (R352, R353) -/

/-- The cause that a sequencer takes, given whether it has left and the fault queue's index. -/
def Sequencer.pending (x : Sequencer) (left : Bool) (pidx : Word) : Option Pending :=
  match x.mchk, x.outstanding.find? (·.isFaulted) with
  | some (d, a), _ => some ⟨cMCHK, d, a, { x with mchk := none }⟩
  | none, some o =>
    match o.phase with
    | .faulted cause d a => some ⟨cause, d, a, x⟩
    | _ => none
  | none, none =>
    if (!x.inProg && !x.inSup) && x.engPage then some ⟨cENGPAGE, 0, pidx, { x with engPage := false }⟩
    else if (!x.inProg && !x.inSup) && !left then
      match x.engFaults, x.dlrisk with
      | (d, a) :: r, _ => some ⟨cENGFAULT, d, a, { x with engFaults := r }⟩
      | [], some a => if x.amask then none else some ⟨cDLRISK, 0, a, { x with dlrisk := none }⟩
      | [], none => none
    else none

theorem State.pendingAt_eq (s : State) (c : Nat) (q : SeqId) :
    s.pendingAt c q = (s.seq c q).pending ((s.seq c q).exited || (q == .control && (s.cluster c).task.left)) (s.pidx c) := rfl

section
variable {x : Sequencer} {left : Bool} {pidx : Word}

theorem Sequencer.pending_mchk {d : Nat} {a : Word} (h : x.mchk = some (d, a)) :
    x.pending left pidx = some ⟨0x14, d, a, { x with mchk := none }⟩ := by
  unfold Sequencer.pending
  rw [h]
  rfl

variable (hm : x.mchk = none)
include hm

theorem Sequencer.pending_faulted {o : LongOp} {cause d : Nat} {a : Word} (ho : x.outstanding.find? (·.isFaulted) = some o)
    (hp : o.phase = .faulted cause d a) : x.pending left pidx = some ⟨cause, d, a, x⟩ := by
  unfold Sequencer.pending
  rw [hm, ho]
  dsimp only
  rw [hp]

variable (ho : x.outstanding.find? (·.isFaulted) = none)
include ho

theorem Sequencer.pending_in_handler (h : x.inProg = true ∨ x.inSup = true) : x.pending left pidx = none := by
  have hfree : (!x.inProg && !x.inSup) = false := by rcases h with h | h <;> simp [h]
  unfold Sequencer.pending
  rw [hm, ho]
  dsimp only
  rw [hfree]
  rfl

variable (hp : x.inProg = false) (hs : x.inSup = false)
include hp hs

theorem Sequencer.pending_engPage (h : x.engPage = true) :
    x.pending left pidx = some ⟨0x13, 0, pidx, { x with engPage := false }⟩ := by
  unfold Sequencer.pending
  rw [hm, ho]
  dsimp only
  rw [hp, hs, h]
  rfl

variable (he : x.engPage = false)
include he

theorem Sequencer.pending_engFault {d : Nat} {a : Word} {l : List (Nat × Word)} (h : x.engFaults = (d, a) :: l) :
    x.pending false pidx = some ⟨0x11, d, a, { x with engFaults := l }⟩ := by
  unfold Sequencer.pending
  rw [hm, ho]
  dsimp only
  rw [hp, hs, he, h]
  rfl

theorem Sequencer.pending_dlrisk {a : Word} (h : x.engFaults = []) (hd : x.dlrisk = some a) :
    x.pending false pidx = if x.amask then none else some ⟨0x12, 0, a, { x with dlrisk := none }⟩ := by
  unfold Sequencer.pending
  rw [hm, ho]
  dsimp only
  rw [hp, hs, he, h, hd]
  rfl

end

/-- An instruction whose record read has been sent stands behind the long operations, and TRAPPC names the next (R351). -/
theorem State.boundary_reading {s : State} {c : Nat} {q : SeqId} {i : Instr} {ea : Word} {st : Bool}
    (hw : (s.seq c q).waitAt = some (.reading i ea st)) (ha : s.asks ⟨c, 0, seqNo q⟩ = true) (hr : (s.seq c q).resume = none) :
    (s.boundary c q).1 = (s.seq c q).pc + w64 i.len
      ∧ ∃ e, (s.boundary c q).2 = [e] ∧ e.ins = i ∧ e.pc = (s.seq c q).pc ∧ e.kind = .command ∧ e.ea = ea := by
  unfold State.boundary
  dsimp only
  rw [hw]
  dsimp only
  rw [ha, hr]
  exact ⟨rfl, _, rfl, rfl, rfl, rfl, rfl⟩

theorem State.boundary_other {s : State} {c : Nat} {q : SeqId}
    (h : ∀ i ea st, (s.seq c q).waitAt ≠ some (.reading i ea st)) : s.boundary c q = ((s.seq c q).pc, []) := by
  unfold State.boundary
  dsimp only
  split
  next i ea st hw => exact absurd hw (h i ea st)
  next => rfl

end Sys2Proof.Machine

open Sys2Proof Sys2Proof.Machine

/-- Settles O33: each cause is the one pending under its conditions, and a delivery leaves the frame and goes to the handler. -/
theorem trapDeliveries : Obligations.TrapDeliveries := by
  unfold Obligations.TrapDeliveries
  intro s c q x hb hp takes
  have htakes : ∀ {cause d : Nat} {a : Word} {y : Sequencer}, s.pendingAt c q = some ⟨cause, d, a, y⟩ → takes cause d a :=
    fun h => yields_trapDelivery hb hp h
  refine ⟨State.boundary_other, fun i ea st => State.boundary_reading, fun d a h => ?_, fun hm o cause d a ho hph => ?_,
    fun hm ho hl => ⟨fun h he => ?_, fun hpr hs => ⟨fun h => ?_, fun hpg he => ?_⟩⟩⟩
  · exact htakes (Sequencer.pending_mchk h)
  · exact htakes (Sequencer.pending_faulted hm ho hph)
  · exact exec_trapDelivery_none hb (Sequencer.pending_in_handler hm ho h) he hl
  · exact htakes (Sequencer.pending_engPage hm ho hpr hs h)
  · have hleft : (x.exited || (q == .control && (s.cluster c).task.left)) = false := by
      by_cases h : q = .control
      · simp [he, hl h]
      · simp [he, h]
    have hpend : s.pendingAt c q = x.pending false (s.pidx c) := (s.pendingAt_eq c q).trans (by rw [hleft])
    refine ⟨fun d a l h => ?_, fun a h hd ham => ?_, fun a h hd ham => ?_⟩
    · exact htakes (hpend.trans (Sequencer.pending_engFault hm ho hpr hs hpg h))
    · exact htakes (hpend.trans ((Sequencer.pending_dlrisk hm ho hpr hs hpg h hd).trans (if_neg (by simp [ham]))))
    · exact exec_trapDelivery_none hb (hpend.trans ((Sequencer.pending_dlrisk hm ho hpr hs hpg h hd).trans (if_pos ham))) he hl
end

section
namespace Sys2Proof.Machine

/-! ### The same update of the clusters of a list -/

/-- t is s but for how its table of clusters is written: every cluster reads the same. -/
def State.Alike (s t : State) : Prop := ({ t with clusters := s.clusters } : State) = s ∧ ∀ d, t.cluster d = s.cluster d

theorem State.Alike.refl (s : State) : s.Alike s := ⟨rfl, fun _ => rfl⟩

theorem State.Alike.trans {s t u : State} (h : s.Alike t) (h' : t.Alike u) : s.Alike u := by
  refine ⟨?_, fun d => (h'.2 d).trans (h.2 d)⟩
  conv_rhs => rw [← h.1, ← h'.1]

theorem State.alike_mapCl {s : State} {c : Nat} {f : Cluster → Cluster} (h : f (s.cluster c) = s.cluster c) :
    s.Alike (s.mapCl c f) := by
  refine ⟨rfl, fun d => ?_⟩
  by_cases hd : d = c
  · subst hd
    rw [State.cluster_mapCl_same, h]
  · exact State.cluster_mapCl_ne _ _ _ _ hd

/-- A cluster that stands in the list is changed once for each place it has there, and no other. -/
theorem State.cluster_foldl_mapCl (f : Cluster → Cluster) (l : List Nat) (s : State) (d : Nat) :
    (l.foldl (fun t c => t.mapCl c f) s).cluster d = f^[l.count d] (s.cluster d) := by
  induction l generalizing s with
  | nil => rfl
  | cons c l ih =>
    rw [List.foldl_cons, ih]
    by_cases h : d = c
    · subst h
      rw [State.cluster_mapCl_same, List.count_cons_self, Function.iterate_succ_apply]
    · rw [State.cluster_mapCl_ne _ _ _ _ h, List.count_cons_of_ne (Ne.symm h)]

theorem State.foldl_mapCl_rest (f : Cluster → Cluster) (l : List Nat) (s : State) :
    ({ l.foldl (fun t c => t.mapCl c f) s with clusters := s.clusters } : State) = s := by
  induction l generalizing s with
  | nil => rfl
  | cons c l ih =>
    have h := ih (s.mapCl c f)
    rw [List.foldl_cons]
    exact (congrArg (fun t : State => ({ t with clusters := s.clusters } : State)) h :)

/-! ### The release at a step's end (R95, R97) -/

theorem State.sendMarkers_none {s : State} {c : Nat} {sc : Scope} (h : ((s.cluster c).takePaths sc).1 = []) :
    s.sendMarkers c sc = (s, []) := by
  unfold State.sendMarkers
  dsimp only
  rw [h]
  rfl

/-- With no path used and no write of the host window there is nothing to send at a step's end. -/
theorem State.flush_quiet {s : State} {c : Nat} {sc : Scope} (h : ((s.cluster c).takePaths sc).1 = [])
    (hu : (s.cluster c).usedHost = false) : s.Alike ((s.sendFlush sc c).taskZero c) := by
  have hf : s.Alike (s.sendFlush sc c) := by
    unfold State.sendFlush
    rw [State.sendMarkers_none h]
    exact State.alike_mapCl (congrArg (fun l => { s.cluster c with task := { (s.cluster c).task with flush := l } }) (List.append_nil _))
  have hz : (s.sendFlush sc c).taskZero c = s.sendFlush sc c := by
    unfold State.taskZero
    rw [hf.2 c, hu]
    rfl
  rw [hz]
  exact hf

/-- The release at a step's end goes out from every cluster of a list. -/
def State.flushes (s : State) (sc : Scope) (l : List Nat) : State := l.foldl (fun t c => (t.sendFlush sc c).taskZero c) s

theorem State.flushes_quiet {s : State} {sc : Scope} (l : List Nat)
    (h : ∀ c ∈ l, ((s.cluster c).takePaths sc).1 = [] ∧ (s.cluster c).usedHost = false) :
    s.Alike (s.flushes sc l) := by
  suffices hw : ∀ t, s.Alike t → s.Alike (l.foldl (fun t c => (t.sendFlush sc c).taskZero c) t) from hw s (.refl s)
  intro t ht
  induction l generalizing t with
  | nil => exact ht
  | cons c l ih =>
    obtain ⟨hp, hu⟩ := h c List.mem_cons_self
    refine ih (fun d hd => h d (List.mem_cons_of_mem _ hd)) _ (ht.trans (State.flush_quiet ?_ ?_))
    · rw [ht.2 c, hp]
    · rw [ht.2 c, hu]

/-- The jobs stay, and a marker that is awaited is awaited still. -/
structure State.Awaits (s t : State) : Prop where
  jobs : t.jobs = s.jobs
  flush : ∀ d, (s.cluster d).task.flush ≠ [] → (t.cluster d).task.flush ≠ []

theorem State.Awaits.trans {s t u : State} (h : s.Awaits t) (h' : t.Awaits u) : s.Awaits u :=
  ⟨h'.jobs.trans h.jobs, fun d hd => h'.flush d (h.flush d hd)⟩

theorem State.awaits_mapCl (s : State) (c : Nat) {f : Cluster → Cluster}
    (h : ∀ k : Cluster, k.task.flush ≠ [] → (f k).task.flush ≠ []) : s.Awaits (s.mapCl c f) := by
  refine ⟨rfl, fun d hd => ?_⟩
  by_cases hc : d = c
  · subst hc
    rw [State.cluster_mapCl_same]
    exact h _ hd
  · rwa [State.cluster_mapCl_ne _ _ _ _ hc]

theorem Cluster.takePaths_task (k : Cluster) (sc : Scope) : (k.takePaths sc).2.task = k.task := by
  cases sc <;> rfl

theorem State.awaits_sendMarkers (s : State) (c : Nat) (sc : Scope) : s.Awaits (s.sendMarkers c sc).1 := by
  unfold State.sendMarkers
  dsimp only
  split
  · exact ⟨rfl, fun _ hd => hd⟩
  · refine ⟨rfl, fun d hd => ?_⟩
    change ((s.setCl c ((s.cluster c).takePaths sc).2).cluster d).task.flush ≠ []
    by_cases hc : d = c
    · subst hc
      rw [State.cluster_setCl_same, Cluster.takePaths_task]
      exact hd
    · rwa [State.cluster_setCl_ne _ _ _ _ hc]

theorem State.awaits_flush (s : State) (c : Nat) (sc : Scope) : s.Awaits ((s.sendFlush sc c).taskZero c) := by
  have hm : s.sendFlush sc c = (s.sendMarkers c sc).1.mapTask c
    fun t => { t with flush := t.flush ++ (s.sendMarkers c sc).2 } := rfl
  have hf : s.Awaits (s.sendFlush sc c) := by
    rw [hm]
    exact (s.awaits_sendMarkers c sc).trans (State.awaits_mapCl _ c fun k hk => List.append_ne_nil_of_left_ne_nil hk _)
  refine hf.trans ?_
  unfold State.taskZero
  split
  · obtain ⟨hj, hk⟩ := (s.sendFlush sc c).awaits_mapCl c (f := fun k => { k with usedHost := false }) fun _ h => h
    unfold State.askZero State.toHost
    dsimp only
    split
    · exact ⟨hj, hk⟩
    · exact ⟨hj, hk⟩
  · exact ⟨rfl, fun _ h => h⟩

theorem State.awaits_flushes (s : State) (sc : Scope) (l : List Nat) :
    s.Awaits (s.flushes sc l) := by
  induction l generalizing s with
  | nil => exact ⟨rfl, fun _ h => h⟩
  | cons c l ih => exact (s.awaits_flush c sc).trans (ih _)

/-! ### The next step begins (R41, R106, R360) -/

/-- A cluster in which a new step of the task has begun, as k stood before. -/
structure Cluster.Steps (k x : Cluster) : Prop where
  arrived : x.task.arrived = false
  prog : x.task.prog = 0
  stepClk : x.task.stepClk = k.clk
  noReplay : x.task.noReplay = false
  ckpt : x.task.ckpt.isSome = k.task.reexec
  dlrisk : x.seqC.dlrisk = none
  awake : ∀ q, (x.seq q).sleeping = false

/-- What does not change when a step begins. -/
structure Cluster.StepKeeps (k x : Cluster) : Prop where
  clk : x.clk = k.clk
  reexec : x.task.reexec = k.task.reexec
  regs : ∀ q, (x.seq q).regs = (k.seq q).regs

theorem Sequencer.acquireAll_regs (x : Sequencer) (k : Cluster) (ids : List Nat) (count : Nat) :
    (x.acquireAll k ids count).regs = x.regs := x.acquire_regs _ _ _ _

theorem Cluster.isSome_checkpoint (k : Cluster) (pc : Word) : (k.checkpoint pc).isSome = k.task.reexec := by
  unfold Cluster.checkpoint
  cases k.task.reexec <;> rfl

/-- The next step begins in a cluster whose sequencers have acquired what the step before has written. -/
def Cluster.stepWith (k : Cluster) (now : Nat) (xC xY xM : Sequencer) : Cluster :=
  let k0 := ({ k with seqC := { xC with dlrisk := none }, seqY := xY, seqM := xM } : Cluster).wakeAll
  { k0 with power := { k0.power.restart now with short := false }, task := { k0.task with
      arrived := false, prog := 0, prevClk := k0.clk - k0.task.stepClk, stepClk := k0.clk, noReplay := false,
      ckpt := k0.checkpoint k0.seqC.afterStep } }

theorem Cluster.nextStep_eq (k : Cluster) (ids : List Nat) (count now : Nat) :
    k.nextStep ids count now = (k.engAcquire ids).stepWith now (k.seqC.acquireAll k ids count)
      (k.seqY.acquireAll k ids count) (k.seqM.acquireAll k ids count) := rfl

theorem Cluster.stepWith_keeps (k : Cluster) (now : Nat) {xC xY xM : Sequencer} (hC : xC.regs = k.seqC.regs)
    (hY : xY.regs = k.seqY.regs) (hM : xM.regs = k.seqM.regs) : k.StepKeeps (k.stepWith now xC xY xM) := by
  refine ⟨rfl, rfl, fun q => ?_⟩
  cases q
  · exact hC
  · exact hY
  · exact hM

theorem Cluster.stepWith_steps (k : Cluster) (now : Nat) (xC xY xM : Sequencer) : k.Steps (k.stepWith now xC xY xM) :=
  ⟨rfl, rfl, rfl, rfl, Cluster.isSome_checkpoint _ _, rfl, fun q => by cases q <;> rfl⟩

theorem Cluster.nextStep_keeps (k : Cluster) (ids : List Nat) (count now : Nat) : k.StepKeeps (k.nextStep ids count now) := by
  rw [Cluster.nextStep_eq]
  obtain ⟨h1, h2, h3⟩ := (k.engAcquire ids).stepWith_keeps now (k.seqC.acquireAll_regs k ids count)
    (k.seqY.acquireAll_regs k ids count) (k.seqM.acquireAll_regs k ids count)
  exact ⟨h1, h2, fun q => (h3 q).trans (by cases q <;> rfl)⟩

theorem Cluster.nextStep_steps (k : Cluster) (ids : List Nat) (count now : Nat) : k.Steps (k.nextStep ids count now) := by
  rw [Cluster.nextStep_eq]
  obtain ⟨h1, h2, h3, h4, h5, h6, h7⟩ := (k.engAcquire ids).stepWith_steps now (k.seqC.acquireAll k ids count)
    (k.seqY.acquireAll k ids count) (k.seqM.acquireAll k ids count)
  exact ⟨h1, h2, h3, h4, h5, h6, h7⟩

/-- However often a step begins, each time is as the first. -/
theorem Cluster.nextStep_iterate (k : Cluster) (ids : List Nat) (count now n : Nat) :
    k.Steps ((fun k => k.nextStep ids count now)^[n + 1] k) ∧ k.StepKeeps ((fun k => k.nextStep ids count now)^[n + 1] k) := by
  suffices h : ∀ m, k.StepKeeps ((fun k => k.nextStep ids count now)^[m] k) by
    refine ⟨?_, h _⟩
    obtain ⟨hclk, hre, -⟩ := h n
    rw [Function.iterate_succ_apply']
    obtain ⟨h1, h2, h3, h4, h5, h6, h7⟩ := Cluster.nextStep_steps ((fun k => k.nextStep ids count now)^[n] k) ids count now
    exact ⟨h1, h2, h3.trans hclk, h4, h5.trans hre, h6, h7⟩
  intro m
  induction m with
  | zero => exact ⟨rfl, rfl, fun _ => rfl⟩
  | succ m ih =>
    rw [Function.iterate_succ_apply']
    obtain ⟨h1, h2, h3⟩ := Cluster.nextStep_keeps ((fun k => k.nextStep ids count now)^[m] k) ids count now
    exact ⟨h1.trans ih.clk, h2.trans ih.reexec, fun q => (h3 q).trans (ih.regs q)⟩

/-- What a gang's next step begins with (R41). -/
def Gang.nextStep (g : Gang) (now : Nat) : Gang :=
  { g with step := g.step + 1, stepStart := now, deadline := none, deadlineSet := false, dlRaised := false,
           dlPosted := false, dlPend := none }

/-- The gang's next step begins in all its clusters, with the writes that every task knows of. -/
def State.nextStep (s s1 : State) (job gi : Nat) (ids live : List Nat) : State :=
  ((live.foldl (fun t c => t.mapCl c (·.nextStep ids s.counter s.now)) s1).knownFar .mo ids).mapGang job gi (·.nextStep s.now)

section
variable {s : State} {job gi : Nat} {g : Gang} (hg : s.gang job gi = some g)
include hg

theorem exec_superstepEnd_waits (h : s.stepOver job g = false) : exec (.superstepEnd job gi) s = .next s := by
  change execSuperstepEnd job gi s = _
  unfold execSuperstepEnd
  rw [hg]
  exact congrArg _ (if_pos (by simp [h]))

/-- While a marker or an answer of the host is still to come the step goes on. -/
theorem exec_superstepEnd_owes (h : s.stepOver job g = true) {c : Nat} (hc : c ∈ s.seats job g)
    (ho : ((s.flushes .mo (s.seats job g)).cluster c).task.flush ≠ []) :
    exec (.superstepEnd job gi) s = .next (s.flushes .mo (s.seats job g)) := by
  change execSuperstepEnd job gi s = _
  unfold execSuperstepEnd
  rw [hg]
  refine congrArg _ ((if_neg ?_).trans (if_pos ?_))
  · simpa [h] using List.ne_nil_of_mem hc
  · refine List.any_eq_true.mpr ⟨c, hc, ?_⟩
    change (!((s.flushes .mo (s.seats job g)).cluster c).task.flush.isEmpty || _) = true
    simp [ho]

theorem exec_superstepEnd_ends (h : s.stepOver job g = true) (hne : s.seats job g ≠ [])
    (ho : ∀ c ∈ s.seats job g,
      ((s.flushes .mo (s.seats job g)).cluster c).task.flush = []
        ∧ (s.flushes .mo (s.seats job g)).owesHost c = false) :
    ∃ ids, exec (.superstepEnd job gi) s = .next
      (s.nextStep (s.flushes .mo (s.seats job g)) job gi ids (s.seats job g)) := by
  refine ⟨(s.seats job g).foldl (fun acc c => union acc (s.cluster c).knows) g.knew, ?_⟩
  change execSuperstepEnd job gi s = _
  unfold execSuperstepEnd
  rw [hg]
  refine congrArg _ ((if_neg ?_).trans ((if_neg ?_).trans ?_))
  · simpa [h] using hne
  · rw [List.any_eq_true]
    rintro ⟨c, hc, hn⟩
    obtain ⟨hf, hh⟩ := ho c hc
    change (!((s.flushes .mo (s.seats job g)).cluster c).task.flush.isEmpty || (s.flushes .mo (s.seats job g)).owesHost c) = true at hn
    simp [hf, hh] at hn
  · rfl

end

theorem State.gang_gi {s : State} {job gi : Nat} {g : Gang} (h : s.gang job gi = some g) : g.gi = gi := by
  obtain ⟨j, -, hf⟩ := Option.bind_eq_some_iff.mp h
  simpa using List.find?_some hf

theorem State.gang_congr {s t : State} (h : t.jobs = s.jobs) (job gi : Nat) : t.gang job gi = s.gang job gi := by
  unfold State.gang State.job
  rw [h]

theorem State.cluster_nextStep (s s1 : State) (job gi : Nat) (ids live : List Nat) (d : Nat) :
    (s.nextStep s1 job gi ids live).cluster d = (fun k => k.nextStep ids s.counter s.now)^[live.count d] (s1.cluster d) :=
  State.cluster_foldl_mapCl _ live s1 d

theorem State.nextStep_rest (s s1 : State) (job gi : Nat) (ids live : List Nat) :
    (s.nextStep s1 job gi ids live).mem = s1.mem ∧ (s.nextStep s1 job gi ids live).host = s1.host
      ∧ (s.nextStep s1 job gi ids live).gang job gi = (s1.gang job gi).map (·.nextStep s.now) := by
  have h := s1.foldl_mapCl_rest (·.nextStep ids s.counter s.now) live
  refine ⟨(congrArg State.mem h :), (congrArg State.host h :), ?_⟩
  unfold State.nextStep
  refine (State.gang_mapGang_same _ job gi (f := (·.nextStep s.now)) fun _ => rfl).trans ?_
  exact congrArg (Option.map _) (State.gang_congr (congrArg State.jobs h :) job gi)

/-! ### DLRISK on the status page (R44, R313) -/

theorem State.dlrc_useCtx (s : State) (n : Nat) : ((s.useCtx n).ctx n).dlrc = (s.ctx n).dlrc := by
  obtain ⟨d, hd⟩ := s.ctx_cacheDesc (s.partOfCtx n) n n
  unfold State.useCtx
  rw [hd]

/-- The registers DLRC and DLRP count and describe the DLRISK posted (R313). -/
def Ctx.posts (y : Ctx) (w : Word) (n : Nat) : Ctx := { y with dlrp := w, dlrc := n }

theorem State.statusPage_posts (s : State) (n : Nat) (w : Word) (m : Nat) :
    ((s.useCtx n).mapCtx n (·.posts w m)).statusPage n = s.statusPage n := by
  have hx : (((s.useCtx n).mapCtx n (·.posts w m)).ctx n).desc = ((s.useCtx n).ctx n).desc := by
    rw [State.ctx_mapCtx, if_pos rfl]
    rfl
  exact (State.ctxField_congr (s := s.useCtx n) (t := (s.useCtx n).mapCtx n (·.posts w m)) rfl rfl rfl rfl hx 16 8).trans
    (s.ctxField_cacheDesc n 16 8)

theorem State.postHost_rest (s : State) (ctx a : Nat) (bs : List Byte) :
    (s.postHost ctx a bs).mem = s.mem ∧ (s.postHost ctx a bs).ctxs = s.ctxs ∧ (s.postHost ctx a bs).jobs = s.jobs
      ∧ (s.postHost ctx a bs).links.hostUp = s.links.hostUp
      ∧ (s.postHost ctx a bs).host = if s.links.hostUp then s.host.write a bs else s.host := by
  unfold State.postHost
  split
  · exact ⟨rfl, rfl, rfl, rfl, rfl⟩
  · exact ⟨rfl, rfl, rfl, rfl, rfl⟩

theorem State.mapRank0_rest (s : State) (job : Nat) (g : Gang) (f : Sequencer → Sequencer) :
    (s.mapRank0 job g f).mem = s.mem ∧ (s.mapRank0 job g f).ctxs = s.ctxs ∧ (s.mapRank0 job g f).host = s.host := by
  unfold State.mapRank0
  split
  · exact ⟨rfl, rfl, rfl⟩
  · split
    · exact ⟨rfl, rfl, rfl⟩
    · exact ⟨rfl, rfl, rfl⟩

/-- The word of DLRP: the step and the slack (R313). -/
def Gang.dlrp (g : Gang) (slack : Word) : Word := w64 (g.step % 2 ^ 32 + slack.toNat % 2 ^ 32 * 2 ^ 32)

/-- DLRP and DLRC take their values, and the gang's DLRISK is no longer to be posted (R44, R313). -/
def State.countsDlrisk (s : State) (job gi n : Nat) (w : Word) (m : Nat) : State :=
  ((s.useCtx n).mapCtx n (·.posts w m)).mapGang job gi fun g => { g with dlPosted := true, dlPend := none }

/-- DLRP and then DLRC written to the status page (R44, R313). -/
def State.postsPage (s : State) (n : Nat) (w : Word) (m : Nat) : State :=
  (s.postHost n (s.statusPage n + 0x18) (toBytes 8 w)).postHost n (s.statusPage n + 0x20) (leBytes 8 m)

theorem exec_dlriskPost {s : State} {job gi : Nat} {g : Gang} {j : Job} {slack : Word} (hg : s.gang job gi = some g)
    (hj : s.job job = some j)
    (hs : (if g.retired.contains 0 then g.dlPend else (s.rank0 job g).bind (·.seqC.dlrisk)) = some slack)
    (hr : g.dlRaised = true) (hp : g.dlPosted = false) (ht : g.dlAt + 10000 ≤ s.now) :
    ∃ b : Bool, exec (.dlriskPost job gi) s = .next (if b then
        ((s.countsDlrisk job gi j.ctx (g.dlrp slack) ((((s.useCtx j.ctx).ctx j.ctx).dlrc + 1) % 2 ^ 64)).postsPage j.ctx
          (g.dlrp slack) ((((s.useCtx j.ctx).ctx j.ctx).dlrc + 1) % 2 ^ 64)).mapRank0 job g fun x => { x with dlrisk := none }
      else (s.countsDlrisk job gi j.ctx (g.dlrp slack) ((((s.useCtx j.ctx).ctx j.ctx).dlrc + 1) % 2 ^ 64)).postsPage j.ctx
          (g.dlrp slack) ((((s.useCtx j.ctx).ctx j.ctx).dlrc + 1) % 2 ^ 64)) := by
  refine ⟨!g.retired.contains 0 && (g.retired.contains 0 || (s.rank0 job g).any fun k => k.seqC.exited || k.task.left), ?_⟩
  change execDlriskPost job gi s = _
  unfold execDlriskPost
  rw [hg, hj]
  dsimp only
  rw [hs]
  refine congrArg _ ((if_neg (by simp [hr, hp, ht])).trans rfl)

theorem State.countsDlrisk_ctx (s : State) (job gi n : Nat) (w : Word) (m : Nat) :
    (s.countsDlrisk job gi n w m).ctx n = ((s.useCtx n).ctx n).posts w m := by
  change ((s.useCtx n).mapCtx n (·.posts w m)).ctx n = _
  rw [State.ctx_mapCtx, if_pos rfl]

theorem State.countsDlrisk_rest (s : State) (job gi n : Nat) (w : Word) (m : Nat) :
    (s.countsDlrisk job gi n w m).mem = s.mem ∧ (s.countsDlrisk job gi n w m).host = s.host
      ∧ (s.countsDlrisk job gi n w m).links = s.links := by
  obtain ⟨c, hc⟩ := s.cacheDesc_frame (s.partOfCtx n) n
  change (s.cacheDesc (s.partOfCtx n) n).mem = s.mem ∧ (s.cacheDesc (s.partOfCtx n) n).host = s.host
    ∧ (s.cacheDesc (s.partOfCtx n) n).links = s.links
  rw [hc]
  exact ⟨rfl, rfl, rfl⟩

theorem State.postsPage_spec (s : State) (n : Nat) (w : Word) (m : Nat) (hw : s.host.wf = true) :
    (s.postsPage n w m).ctxs = s.ctxs ∧ (s.postsPage n w m).mem = s.mem
      ∧ (s.links.hostUp = true → (s.postsPage n w m).host.read (s.statusPage n + 0x20) 8 = leBytes 8 m)
      ∧ (s.links.hostUp = false → (s.postsPage n w m).host = s.host) := by
  obtain ⟨m1, x1, -, u1, h1⟩ := s.postHost_rest n (s.statusPage n + 0x18) (toBytes 8 w)
  obtain ⟨m2, x2, -, -, h2⟩ := (s.postHost n (s.statusPage n + 0x18) (toBytes 8 w)).postHost_rest n (s.statusPage n + 0x20)
    (leBytes 8 m)
  rw [u1, h1] at h2
  unfold State.postsPage
  refine ⟨x2.trans x1, m2.trans m1, fun hup => ?_, fun hup => ?_⟩
  · rw [h2, if_pos hup, if_pos hup]
    have h := Memory.read_write (Memory.wf_write hw (s.statusPage n + 0x18) (toBytes 8 w)) (s.statusPage n + 0x20) (leBytes 8 m)
    rwa [length_leBytes] at h
  · rw [h2, hup, if_neg Bool.false_ne_true, if_neg Bool.false_ne_true]

/-- What the posts leave: the context's registers, and the count on the host's page when the link is up (R313). -/
theorem State.postsDlrisk_spec (s : State) (job gi n : Nat) (w : Word) (hw : s.host.wf = true) (m : Nat) :
    let t := (s.countsDlrisk job gi n w m).postsPage n w m
    (t.ctx n).dlrc = m ∧ (t.ctx n).dlrp = w ∧ t.mem = s.mem
      ∧ (s.links.hostUp = true → t.host.read (s.statusPage n + 0x20) 8 = leBytes 8 m)
      ∧ (s.links.hostUp = false → t.host = s.host) := by
  intro t
  obtain ⟨hm, hh, hl⟩ := s.countsDlrisk_rest job gi n w m
  have hpage : (s.countsDlrisk job gi n w m).statusPage n = s.statusPage n :=
    (State.ctxField_congr (s := (s.useCtx n).mapCtx n (·.posts w m)) (t := s.countsDlrisk job gi n w m) rfl rfl rfl rfl rfl
      16 8).trans (s.statusPage_posts n w m)
  obtain ⟨x1, m1, h1, h2⟩ := (s.countsDlrisk job gi n w m).postsPage_spec n w m (by rw [hh, hw])
  rw [hl, hpage] at h1
  rw [hl, hh] at h2
  have hctx : t.ctx n = ((s.useCtx n).ctx n).posts w m :=
    (congrArg (·.get n Ctx.reset) x1 :).trans (s.countsDlrisk_ctx job gi n w m)
  rw [hctx]
  exact ⟨rfl, rfl, m1.trans hm, h1, h2⟩

/-- Waiting raises the gang's level by one each millisecond (R326). -/
def Gang.raise (g : Gang) (now : Nat) : Gang := { g with bonus := Nat.max g.bonus ((now - g.readyAt) / 1000000) }

theorem exec_gangLevelRaise {s : State} {job gi : Nat} {g : Gang} (hg : s.gang job gi = some g) (h : g.ready = true) :
    exec (.gangLevelRaise job gi) s = .next (s.mapGang job gi (·.raise s.now)) := by
  change execGangLevelRaise job gi s = _
  unfold execGangLevelRaise
  rw [hg]
  exact congrArg _ (if_pos h)

end Sys2Proof.Machine

open Sys2Proof Sys2Proof.Machine

/-- Settles O36: with nothing on its way the flushes change nothing, and the next step begins once in every seat. -/
theorem stepEnds : Obligations.StepEnds := by
  unfold Obligations.StepEnds
  intro s job gi g hg
  have hgi := State.gang_gi hg
  refine ⟨fun hover hne hquiet => ?_, exec_superstepEnd_waits hg, fun ⟨c, hc, hf⟩ => ?_,
    fun j c l slack hj hcl hslack hr hp ht hok => ?_, fun hready => ?_⟩
  · have hs1 := State.flushes_quiet (s := s) (sc := .mo) (s.seats job g) fun c hc => by
      obtain ⟨-, hmo, hhost, -⟩ := hquiet c hc
      exact ⟨hmo, hhost⟩
    obtain ⟨ids, hx⟩ := exec_superstepEnd_ends hg hover hne fun c hc => by
      obtain ⟨hfl, -, hhost, hz⟩ := hquiet c hc
      refine ⟨by rw [hs1.2 c, hfl], ?_⟩
      have hzero : ∀ t : State, ({ t with clusters := s.clusters } : State) = s → t.zeroOut c = s.zeroOut c := fun t h =>
        (congrArg (·.zeroOut c) h :)
      unfold State.owesHost
      rw [hs1.2 c, hhost, hzero _ hs1.1, hz]
      rfl
    obtain ⟨hmem, hhost, hgang⟩ := s.nextStep_rest (s.flushes .mo (s.seats job g))
      job gi ids (s.seats job g)
    have hcl := s.cluster_nextStep (s.flushes .mo (s.seats job g)) job gi ids (s.seats job g)
    have hjobs : (s.flushes .mo (s.seats job g)).jobs = s.jobs := (congrArg State.jobs hs1.1 :)
    rw [State.gang_congr hjobs, hg] at hgang
    refine ⟨_, hx, hmem.trans (congrArg State.mem hs1.1 :), hhost.trans (congrArg State.host hs1.1 :),
      ⟨_, hgang, rfl, rfl, rfl, rfl, rfl, rfl, rfl⟩, fun c hc => ?_, fun c hc => ?_⟩
    · obtain ⟨n, hn⟩ := Nat.exists_eq_succ_of_ne_zero (List.count_pos_iff.mpr hc).ne'
      obtain ⟨hst, hk⟩ := (s.cluster c).nextStep_iterate ids s.counter s.now n
      have h := hcl c
      rw [hs1.2 c, hn] at h
      unfold State.seq
      dsimp only
      rw [h]
      exact ⟨hst.arrived, hst.prog, hst.stepClk, hst.noReplay, hst.ckpt, hst.dlrisk, fun q => ⟨hst.awake q, hk.regs q⟩⟩
    · rw [hcl c, List.count_eq_zero_of_not_mem hc, hs1.2 c]
      rfl
  · by_cases hover : s.stepOver job g = true
    · have ha := s.awaits_flushes .mo (s.seats job g)
      exact ⟨_, exec_superstepEnd_owes hg hover hc (ha.flush c hf), (State.gang_congr ha.jobs job gi).trans hg⟩
    · exact ⟨s, exec_superstepEnd_waits hg (by simpa using hover), hg⟩
  · obtain ⟨b, hx⟩ := exec_dlriskPost (slack := slack) hg hj (by
      by_cases h0 : g.retired.contains 0 = true
      · rw [if_pos h0] at hslack ⊢
        exact hslack
      · rw [if_neg h0] at hslack ⊢
        obtain ⟨hsit, hd⟩ := hslack
        unfold State.rank0
        simp [hcl, hgi, hsit, hd]) hr hp ht
    obtain ⟨-, hhost, -⟩ := hok
    rw [s.dlrc_useCtx] at hx
    have hspec := s.postsDlrisk_spec job gi j.ctx (g.dlrp slack) hhost (((s.ctx j.ctx).dlrc + 1) % 2 ^ 64)
    refine ⟨_, hx, ?_⟩
    cases b with
    | false =>
      rw [if_neg Bool.false_ne_true]
      exact hspec
    | true =>
      obtain ⟨h1, h2, h3, h4, h5⟩ := hspec
      generalize (s.countsDlrisk job gi j.ctx (g.dlrp slack) (((s.ctx j.ctx).dlrc + 1) % 2 ^ 64)).postsPage j.ctx
        (g.dlrp slack) (((s.ctx j.ctx).dlrc + 1) % 2 ^ 64) = u at h1 h2 h3 h4 h5 ⊢
      obtain ⟨hm, hc, hh⟩ := u.mapRank0_rest job g fun x => { x with dlrisk := none }
      have hctx : (u.mapRank0 job g fun x => { x with dlrisk := none }).ctx j.ctx = u.ctx j.ctx :=
        congrArg (·.get j.ctx Ctx.reset) hc
      rw [if_pos rfl]
      dsimp only
      rw [hctx, hm, hh]
      exact ⟨h1, h2, h3, h4, h5⟩
  · refine ⟨_, exec_gangLevelRaise hg hready, rfl, ?_⟩
    refine (s.gang_mapGang_same job gi (f := (·.raise s.now)) fun _ => rfl).trans ?_
    rw [hg]
    rfl
end

section
namespace Sys2Proof.Machine

/-! ### Bins, ports and slots of a cluster, and their updates -/

@[simp] theorem Cluster.bin_mapBin_same (k : Cluster) (b : Nat) (f : Bin → Bin) : (k.mapBin b f).bin b = f (k.bin b) :=
  Table.get_set_same ..

theorem Cluster.bin_mapBin_ne (k : Cluster) (f : Bin → Bin) {b m : Nat} (h : m ≠ b) : (k.mapBin b f).bin m = k.bin m :=
  Table.get_set_ne _ _ _ _ _ h

@[simp] theorem Cluster.port_mapPort_same (k : Cluster) (slot tile : Nat) (f : Port → Port) :
    (k.mapPort slot tile f).port slot tile = f (k.port slot tile) :=
  Table.get_set_same ..

@[simp] theorem Cluster.slot_mapSlot_same (k : Cluster) (i : Nat) (f : Slot → Slot) : (k.mapSlot i f).slot i = f (k.slot i) :=
  Table.get_set_same ..

theorem Cluster.slot_mapSlot_ne (k : Cluster) (f : Slot → Slot) {i n : Nat} (h : n ≠ i) : (k.mapSlot i f).slot n = k.slot n :=
  Table.get_set_ne _ _ _ _ _ h

theorem Cluster.count_eq (k : Cluster) (e n : Nat) : ∃ v, k.count e n = { k with events10 := v } := by
  unfold Cluster.count
  split
  · exact ⟨_, rfl⟩
  · exact ⟨k.events10, rfl⟩

/-! ### Records enter bins (R9, R10, R24) -/

/-- The bin of block n takes a record that has come. -/
def Cluster.takes (k : Cluster) (n : Nat) (r : Record) : Cluster :=
  k.mapBin n fun x => { x with recs := x.recs ++ [r.hop], newest := k.clk }

theorem Cluster.takes_bin (k : Cluster) (n : Nat) (r : Record) :
    ((k.takes n r).bin n).recs = (k.bin n).recs ++ [r.hop] ∧ ∀ m, m ≠ n → (k.takes n r).bin m = k.bin m :=
  ⟨congrArg Bin.recs (k.bin_mapBin_same n _), fun _ h => k.bin_mapBin_ne _ h⟩

theorem Cluster.enqueue_room {k : Cluster} {r : Record} {n : Nat} (hb : k.blockOf r = .inl n) (hn : n ≠ 0xFFF)
    (hroom : (k.bin n).recs.length < k.binCap n) : k.enqueue r = some (k.takes n r) := by
  unfold Cluster.enqueue
  rw [hb]
  exact (if_neg (by simpa using hn)).trans (if_pos hroom)

theorem Cluster.endsBin_of_running {k : Cluster} (h : k.task.st ≠ .abandoning) (h' : k.task.st ≠ .failing) (r : Record) :
    k.endsBin r = k.enqueue r := by
  unfold Cluster.endsBin
  split
  next e => exact absurd e h
  next e => exact absurd e h'
  next => rfl

section
variable {s : State} {c : Nat} (hs : (s.cluster c).saving = false) (hr : (s.cluster c).task.resident = true)
include hs hr

theorem exec_binEnqueue_push {r : Record} {k1 : Cluster} (hp : (s.cluster c).pushSlot = some r)
    (he : (s.cluster c).enqueue r = some k1) :
    exec (.binEnqueue c 128) s = .next (s.setCl c { k1 with pushSlot := none }) := by
  change execBinEnqueue c 128 s = _
  unfold execBinEnqueue
  dsimp only
  rw [hs, hr, hp, Option.bind_some, he]
  rfl

theorem exec_binEnqueue_port {slot tile : Nat} (hslot : slot < 4) (htile : tile < 32) {r : Record} {l : List Record}
    {k1 : Cluster} (hp : ((s.cluster c).port slot tile).heldRec = r :: l) (he : (s.cluster c).endsBin r = some k1) :
    exec (.binEnqueue c (32 * slot + tile)) s = .next
      (s.setCl c ((k1.mapPort slot tile fun p => { p with heldRec := l }).fires slot (unitKey 2 (tilePos tile)))) := by
  have hdiv : (32 * slot + tile) / 32 = slot := by omega
  have hmod : (32 * slot + tile) % 32 = tile := by omega
  have hlt : 32 * slot + tile < 128 := by omega
  change execBinEnqueue c (32 * slot + tile) s = _
  unfold execBinEnqueue
  dsimp only
  rw [hs, hr, hdiv, hmod, hp]
  dsimp only
  rw [he, if_pos hlt]
  rfl

end

/-! ### Groups leave bins (R13, R28) -/

/-- The words of BDEQ for a group (R13). -/
def groupWords (rs : List Record) : List Token :=
  (rs.map fun (r : Record) => Token.word (r.hdr.truncate 32) :: .word ((r.hdr >>> 32).truncate 32) :: r.vals.map .word).flatten

/-- A bin from which the n oldest records have gone at a clk (R13). -/
def Bin.sent (x : Bin) (n clk : Nat) : Bin := { x with recs := x.recs.drop n, since := clk, aged := false }

/-- A port whose BDEQ holds a group, with its lane mask (R13). -/
def Port.deals (p : Port) (rs : List Record) : Port :=
  { p with coQ := [.ctl (BitVec.ofNat 16 (2 ^ rs.length - 1))], outQ := groupWords rs }

/-- What a dispatch of the n oldest records leaves. -/
theorem Cluster.dispatch_spec {k : Cluster} {i n : Nat} {e : Nat × Nat} (he : k.binTile i = some e)
    (hn : n ≤ (k.bin (k.slot i).blk).recs.length) :
    let b := (k.slot i).blk
    let u := k.dispatch i n
    (u.bin b).recs = (k.bin b).recs.drop n ∧ (u.bin b).since = k.clk
      ∧ (u.port i e.1).coQ = [.ctl (BitVec.ofNat 16 (2 ^ n - 1))] ∧ (u.port i e.1).outQ = groupWords ((k.bin b).recs.take n)
      ∧ (u.slot i).groups = (k.slot i).groups + 1 := by
  intro b u
  let v := ((k.mapBin b (·.sent n k.clk)).mapPort i e.1 (·.deals ((k.bin b).recs.take n))).mapSlot i fun x =>
    { x with groups := x.groups + 1 }
  have hu : u = v.count 9 1 := by
    dsimp only [u]
    unfold Cluster.dispatch
    rw [he]
    rfl
  obtain ⟨w, hw⟩ := v.count_eq 9 1
  have hbin : u.bin b = (k.bin b).sent n k.clk := by
    rw [hu, hw]
    exact k.bin_mapBin_same b (·.sent n k.clk)
  have hport : u.port i e.1 = (k.port i e.1).deals ((k.bin b).recs.take n) := by
    rw [hu, hw]
    exact Cluster.port_mapPort_same (k.mapBin b (·.sent n k.clk)) i e.1 (·.deals ((k.bin b).recs.take n))
  have hslot : u.slot i = { k.slot i with groups := (k.slot i).groups + 1 } := by
    rw [hu, hw]
    exact Cluster.slot_mapSlot_same _ i fun x => { x with groups := x.groups + 1 }
  rw [hbin, hport, hslot]
  refine ⟨rfl, rfl, ?_, rfl, rfl⟩
  unfold Port.deals
  rw [List.length_take_of_le hn]

theorem Cluster.stopDispatch_spec (k : Cluster) (i : Nat) :
    (k.stopDispatch i).slot i = { k.slot i with st := .draining, dispatching := false } :=
  k.slot_mapSlot_same i _

section
variable {s : State} {c slot : Nat} (hd : (s.cluster c).mayDispatch slot = true)
include hd

theorem Cluster.dispatches_of_mayDispatch : (s.cluster c).dispatches slot = true := (Bool.and_eq_true_iff.mp hd).1

theorem exec_binDispatch_met (hq : (s.cluster c).quotaMet slot = true) :
    exec (.binDispatch c slot) s = .next (s.setCl c ((s.cluster c).stopDispatch slot)) := by
  change execBinDispatch c slot s = _
  unfold execBinDispatch
  dsimp only
  rw [Cluster.dispatches_of_mayDispatch hd, hq]
  rfl

theorem exec_partialDispatch_met (hq : (s.cluster c).quotaMet slot = true) :
    exec (.partialDispatch c slot) s = .next (s.setCl c ((s.cluster c).stopDispatch slot)) := by
  change execPartialDispatch c slot s = _
  unfold execPartialDispatch
  dsimp only
  rw [Cluster.dispatches_of_mayDispatch hd, hq]
  rfl

variable (hq : (s.cluster c).quotaMet slot = false)
include hq

theorem exec_binDispatch_full (hn : 16 ≤ ((s.cluster c).bin ((s.cluster c).slot slot).blk).recs.length) :
    exec (.binDispatch c slot) s = .next (s.setCl c ((s.cluster c).dispatch slot 16)) := by
  change execBinDispatch c slot s = _
  unfold execBinDispatch
  exact congrArg _ ((if_neg (by simp [Cluster.dispatches_of_mayDispatch hd])).trans ((if_neg (by simp [hq])).trans
    (if_pos (by simp [hd, hn]))))

theorem exec_partialDispatch_some (hne : ((s.cluster c).bin ((s.cluster c).slot slot).blk).recs ≠ [])
    (hn : ((s.cluster c).bin ((s.cluster c).slot slot).blk).recs.length < 16)
    (hdel : (s.cluster c).binDelay slot ≤ (s.cluster c).clk - ((s.cluster c).bin ((s.cluster c).slot slot).blk).newest) :
    exec (.partialDispatch c slot) s = .next (s.setCl c ((s.cluster c).dispatch slot
      ((s.cluster c).bin ((s.cluster c).slot slot).blk).recs.length)) := by
  change execPartialDispatch c slot s = _
  unfold execPartialDispatch
  exact congrArg _ ((if_neg (by simp [Cluster.dispatches_of_mayDispatch hd])).trans ((if_neg (by simp [hq])).trans
    ((if_neg (by simpa using hne)).trans (if_pos (by simp [hd, hn, hdel])))))

theorem exec_partialDispatch_none (he : ((s.cluster c).bin ((s.cluster c).slot slot).blk).recs = [])
    (hdel : (s.cluster c).binDelay slot ≤ (s.cluster c).clk
      - Nat.max ((s.cluster c).bin ((s.cluster c).slot slot).blk).since ((s.cluster c).slot slot).startClk) :
    exec (.partialDispatch c slot) s = .next (s.setCl c ((s.cluster c).stopDispatch slot)) := by
  change execPartialDispatch c slot s = _
  unfold execPartialDispatch
  exact congrArg _ ((if_neg (by simp [Cluster.dispatches_of_mayDispatch hd])).trans ((if_neg (by simp [hq])).trans
    ((if_pos (by simp [he])).trans (if_pos hdel))))

end

theorem Bin.eq_of_aged {x : Bin} (h : x.aged = true) : x = { x with aged := true } := by
  cases x
  cases h
  rfl

theorem exec_binAged {s : State} {c b : Nat} (hn : 0 < (s.cluster c).binCount b)
    (ha : 4096 ≤ (s.cluster c).clk - ((s.cluster c).bin b).since) :
    exec (.binAged c b) s = .next (if ((s.cluster c).bin b).aged then s
      else s.setCl c ((s.cluster c).mapBin b fun b => { b with aged := true })) := by
  have ha' : 4096 ≤ (s.cluster c).binAge b := ha
  change execBinAged c b s = _
  unfold execBinAged
  cases haged : ((s.cluster c).bin b).aged
  · exact congrArg _ (if_pos (by simp [haged, hn, ha']))
  · exact congrArg _ (if_neg (by simp [haged]))

/-! ### A task fails (R24, R356) -/

/-- t is s but for flags that tasks have taken, and the rest of the module. -/
def State.Flagged (s t : State) : Prop :=
  ∀ c, ∃ f, t.cluster c = { s.cluster c with task := { (s.cluster c).task with flags := f } }

theorem State.Flagged.refl (s : State) : s.Flagged s := fun _ => ⟨_, rfl⟩

theorem State.Flagged.trans {s t u : State} (h : s.Flagged t) (h' : t.Flagged u) : s.Flagged u := fun c => by
  obtain ⟨f, hf⟩ := h c
  obtain ⟨f', hf'⟩ := h' c
  exact ⟨f', by rw [hf', hf]⟩

theorem State.flagged_raise (s : State) (c f : Nat) : s.Flagged (s.raise c f) := fun d => by
  by_cases h : d = c
  · subst h
    exact ⟨_, State.cluster_mapCl_same _ _ _⟩
  · exact ⟨_, State.cluster_mapCl_ne _ _ _ _ h⟩

theorem State.flagged_raiseRank (s : State) (job : Nat) (g : Gang) (f r : Nat) : s.Flagged (s.raiseRank job g f r) := by
  unfold State.raiseRank
  split
  · exact .refl s
  next c _ =>
    extract_lets key mine s1
    have h1 : s.Flagged s1 := by
      dsimp only [s1]
      split
      · exact s.flagged_raise c f
      · exact .refl s
    split
    · split
      · exact h1
      · exact h1
    · exact h1

theorem State.Flagged.foldl {α : Type} {f : State → α → State} (hf : ∀ (t : State) a, t.Flagged (f t a)) (l : List α) (s : State) :
    s.Flagged (l.foldl f s) := by
  induction l generalizing s with
  | nil => exact .refl s
  | cons a l ih => exact (hf s a).trans (ih _)

theorem State.flagged_finishColl (s : State) (job gi id : Nat) (p : Bool) : s.Flagged (s.finishColl job gi id p) := by
  unfold State.finishColl
  split
  · exact .refl s
  next g i _ =>
    dsimp only
    split
    · exact .refl s
    · exact State.Flagged.foldl (fun t r => t.flagged_raiseRank job g _ r) _ _

/-- The collectives that complete short change nothing of a cluster but its task's flags (R187). -/
theorem State.flagged_rankEnds (s : State) (job gi r : Nat) : s.Flagged (s.rankEnds job gi r) := by
  unfold State.rankEnds State.settleColls
  split
  · exact .refl s
  · exact State.Flagged.foldl (fun t i => t.flagged_finishColl job gi _ true) _ _

/-- A cluster but for its task's flags, as it has failed. -/
theorem Cluster.Failed.flags {k : Cluster} {code cause detail : Nat} (h : k.Failed code cause detail) (f : Word) :
    ({ k with task := { k.task with flags := f } } : Cluster).Failed code cause detail := by
  obtain ⟨h1, h2, h3, h4, h5, h6, h7⟩ := h
  refine ⟨h1, h2, h3, h4, fun q => ?_, ?_, h7⟩
  · have := h5 q
    cases q <;> exact this
  · exact (Cluster.binRecords_congr rfl rfl rfl rfl rfl).trans h6

theorem Sequencer.stop_stopped (x : Sequencer) :
    x.stop.idle = true ∧ x.stop.exited = true ∧ ∀ o ∈ x.stop.outstanding, o.isSent = true := by
  refine ⟨rfl, rfl, fun o ho => ?_⟩
  have h := (List.mem_filter.mp ho).2
  unfold LongOp.isSent
  cases hp : o.phase <;> simp_all

theorem Slot.discard_st (x : Slot) : x.discard.st = .empty ∨ x.discard.st = .idle := by
  unfold Slot.discard
  split
  next h => exact .inl h
  next => exact .inl rfl
  next => exact .inr rfl

theorem Cluster.slot_of_map {k : Cluster} {P : Slot → Prop} (hr : P .reset) (h : ∀ e ∈ k.slots, P e.2) (i : Nat) : P (k.slot i) :=
  Table.get_of_forall h hr i

/-- The task of a cluster fails (R356). -/
theorem Cluster.fail_failed (k : Cluster) (code cause detail : Nat) : (k.fail code cause detail).Failed code cause detail := by
  refine ⟨rfl, rfl, rfl, rfl, fun q => ?_, ?_, rfl, rfl, rfl, rfl, rfl, fun i => ?_⟩
  · cases q
    · exact Sequencer.stop_stopped _
    · exact Sequencer.stop_stopped _
    · exact Sequencer.stop_stopped _
  · obtain ⟨f, hf⟩ := k.dropRest.discardBins_eq
    unfold Cluster.fail
    rw [hf]
    unfold Cluster.binRecords Cluster.heldRecords Cluster.emptied
    simp [Fabric.reset]
  · refine Cluster.slot_of_map (P := fun x => x.st = .empty ∨ x.st = .idle) (.inl rfl) (fun e he => ?_) i
    obtain ⟨e', -, rfl⟩ := List.mem_map.mp he
    exact e'.2.discard_st

theorem State.terminate_failed {s : State} {c : Nat} (h : (s.cluster c).Alive) (code cause detail : Nat) :
    ((s.terminate c code cause detail).cluster c).Failed code cause detail := by
  obtain ⟨hr, hf⟩ := h
  unfold State.terminate
  dsimp only
  rw [if_neg (by simp [hr, hf])]
  obtain ⟨f, hfl⟩ := State.flagged_rankEnds (s.setCl c ((s.cluster c).fail code cause detail)) (s.cluster c).task.job
    (s.cluster c).task.gi (s.cluster c).task.rank c
  rw [hfl, State.cluster_setCl_same]
  exact ((s.cluster c).fail_failed code cause detail).flags f

end Sys2Proof.Machine

open Sys2Proof Sys2Proof.Machine

/-- Settles O39: each event is one update of the cluster, and a deadlock is the failure of its task. -/
theorem bins : Obligations.Bins := by
  unfold Obligations.Bins
  intro s c k enters groupOf
  refine ⟨fun r hp n hs hr hb hn hroom => ?_, fun r l slot tile hslot htile hp hab hfa n hs hr hb hn hroom => ?_,
    fun h => ?_, fun h ha => ?_, fun slot e hd he => ?_, fun b hn ha => ?_⟩
  · refine ⟨_, exec_binEnqueue_push hs hr hp (Cluster.enqueue_room hb hn hroom), onlyCluster_setCl _ _ _, ?_⟩
    rw [State.cluster_setCl_same]
    obtain ⟨hin, hother⟩ := k.takes_bin n r
    exact ⟨hin, hother, rfl⟩
  · have hx := exec_binEnqueue_port hs hr hslot htile hp
      ((Cluster.endsBin_of_running hab hfa r).trans (Cluster.enqueue_room hb hn hroom))
    refine ⟨_, hx, onlyCluster_setCl _ _ _, ?_⟩
    rw [State.cluster_setCl_same]
    obtain ⟨hin, hother⟩ := k.takes_bin n r
    exact ⟨hin, hother, congrArg Port.heldRec (Cluster.port_mapPort_same (k.takes n r) slot tile fun p => { p with heldRec := l })⟩
  · exact congrArg Host.Outcome.next (if_pos h)
  · refine ⟨_, congrArg Host.Outcome.next (if_neg (Nat.not_lt.mpr h)), ?_⟩
    exact State.terminate_failed ha 9 0 0
  · intro b rs sends stops
    have hsend : ∀ {i : Instr} {n : Nat}, exec i s = .next (s.setCl c (k.dispatch slot n)) → n ≤ rs.length → sends i n :=
      fun hx hn => by
        refine ⟨_, hx, onlyCluster_setCl _ _ _, ?_⟩
        rw [State.cluster_setCl_same]
        exact Cluster.dispatch_spec he hn
    have hstop : ∀ {i : Instr}, exec i s = .next (s.setCl c (k.stopDispatch slot)) → stops i := fun hx => by
      refine ⟨_, hx, onlyCluster_setCl _ _ _, ?_⟩
      rw [State.cluster_setCl_same]
      exact ⟨k.stopDispatch_spec slot, rfl⟩
    refine ⟨fun hq hn => ?_, fun hq => ⟨?_, ?_⟩, fun hq hne hn hdel => ?_, fun hq hnil hdel => ?_⟩
    · exact hsend (exec_binDispatch_full hd hq hn) hn
    · exact hstop (exec_binDispatch_met hd hq)
    · exact hstop (exec_partialDispatch_met hd hq)
    · exact hsend (exec_partialDispatch_some hd hq hne hn hdel) le_rfl
    · exact hstop (exec_partialDispatch_none hd hq hnil hdel)
  · have hx := exec_binAged hn ha
    cases haged : (k.bin b).aged with
    | true =>
      rw [haged, if_pos rfl] at hx
      exact ⟨_, hx, onlyCluster_refl s c, Bin.eq_of_aged haged, fun _ _ => rfl⟩
    | false =>
      rw [haged, if_neg Bool.false_ne_true] at hx
      refine ⟨_, hx, onlyCluster_setCl _ _ _, ?_⟩
      rw [State.cluster_setCl_same]
      exact ⟨k.bin_mapBin_same b _, fun m hm => k.bin_mapBin_ne _ hm⟩
end

section
namespace Sys2Proof.Machine

/-! ### What an element leaves of a channel it does not read (R191, R193) -/

@[simp] theorem Cluster.chan_setChan_same (k : Cluster) (key : Nat) (x : Chan) : (k.setChan key x).chan key = x :=
  Table.get_set_same ..

theorem Cluster.chan_setChan_ne (k : Cluster) {key key' : Nat} (x : Chan) (h : key' ≠ key) :
    (k.setChan key x).chan key' = k.chan key' :=
  Table.get_set_ne _ _ _ _ _ h

/-- The slots, the counts of events and one channel of a cluster stay as they are. -/
structure Cluster.Spares (key : Nat) (k l : Cluster) : Prop where
  slots : l.slots = k.slots
  events10 : l.events10 = k.events10
  chan : l.chan key = k.chan key

theorem Cluster.Spares.refl (key : Nat) (k : Cluster) : k.Spares key k := ⟨rfl, rfl, rfl⟩

theorem Cluster.Spares.trans {key : Nat} {k l m : Cluster} (h : Cluster.Spares key k l) (h' : Cluster.Spares key l m) :
    Cluster.Spares key k m :=
  ⟨h'.slots.trans h.slots, h'.events10.trans h.events10, h'.chan.trans h.chan⟩

theorem Cluster.Spares.ite {key : Nat} {k l m : Cluster} {p : Prop} [Decidable p] (h : Cluster.Spares key k l)
    (h' : Cluster.Spares key k m) : Cluster.Spares key k (if p then l else m) := by
  split
  · exact h
  · exact h'

section
variable {key : Nat} (k : Cluster)

theorem Cluster.spares_setElem (slot pos n : Nat) (x : Elem) : Cluster.Spares key k (k.setElem slot pos n x) := ⟨rfl, rfl, rfl⟩

theorem Cluster.spares_raise (f : Nat) : Cluster.Spares key k (k.raise f) := ⟨rfl, rfl, rfl⟩

variable {key' : Nat} (h : key ≠ key')
include h

theorem Cluster.spares_setChan (x : Chan) : Cluster.Spares key k (k.setChan key' x) := ⟨rfl, rfl, k.chan_setChan_ne x h⟩

theorem Cluster.spares_pop : Cluster.Spares key k (k.pop key') := k.spares_setChan h _

theorem Cluster.spares_killValue : Cluster.Spares key k (k.killValue key') := by
  obtain ⟨h1, h2, h3⟩ := k.spares_setChan h { k.chan key' with
    buf := (dropValue (k.chan key').buf).1, consumed := (k.chan key').consumed + 1,
    late := (k.chan key').late && !(dropValue (k.chan key').buf).1.isEmpty }
  unfold Cluster.killValue
  dsimp only
  split
  · exact ⟨h1, h2, h3⟩
  · exact ⟨h1, h2, h3⟩

theorem Cluster.spares_want (n : Nat) : Cluster.Spares key k (k.want key' n) := by
  unfold Cluster.want
  split
  · exact k.spares_setChan h _
  · exact .refl key k

end

theorem Cluster.spares_wants {key : Nat} (l : List (Nat × Nat)) (h : ∀ e ∈ l, key ≠ e.1) (k : Cluster) :
    Cluster.Spares key k (k.wants l) := by
  induction l generalizing k with
  | nil => exact .refl key k
  | cons e l ih =>
    exact (k.spares_want (h e List.mem_cons_self) e.2).trans (ih (fun e' he => h e' (List.mem_cons_of_mem _ he)) _)

/-! ### An element's outputs are none of its inputs (R222) -/

theorem elX_ne_elA (slot pos : Nat) {n : Nat} (hn : n < 4) : elX slot pos n ≠ elA slot pos n := by
  unfold elX elA outKey inKey
  split <;> omega

theorem elX_ne_elB (slot pos : Nat) {n : Nat} (hn : n < 4) : elX slot pos n ≠ elB slot pos n := by
  unfold elX elB outKey inKey
  split <;> omega

theorem elX_ne_elC (slot pos : Nat) {n : Nat} (hn : n < 4) : elX slot pos n ≠ elC slot pos n := by
  unfold elX elC outKey inKey
  split <;> omega

/-! ### An element fires (R191, R193, R196) -/

section
variable {slot pos n f : Nat} (hn : n < 4) (k : Cluster)
include hn

theorem Cluster.spares_elemTake (second : Bool) :
    Cluster.Spares (elX slot pos n) k (k.elemTake slot pos n f second).1 := by
  have hkey : elX slot pos n ≠ if second then elB slot pos n else elA slot pos n := by
    cases second
    · exact elX_ne_elA slot pos hn
    · exact elX_ne_elB slot pos hn
  have hpop : ∀ b : Bool, Cluster.Spares (elX slot pos n) k
      (if b then k.pop (if second then elB slot pos n else elA slot pos n) else k) := fun b => by
    cases b
    · exact .refl _ k
    · exact k.spares_pop hkey
  unfold Cluster.elemTake
  dsimp only
  split
  · split
    · exact .refl _ k
    · exact (hpop _).trans (Cluster.spares_setElem _ slot pos n _)
  · exact .refl _ k

theorem Cluster.spares_elemTakeC : Cluster.Spares (elX slot pos n) k (k.elemTakeC slot pos n f).1 := by
  have hpop := k.spares_pop (elX_ne_elC slot pos hn)
  unfold Cluster.elemTakeC
  dsimp only
  split
  · split
    · exact hpop.trans (Cluster.spares_setElem _ slot pos n _)
    · split
      · exact hpop
      · exact .refl _ k
  · exact .refl _ k

theorem Cluster.spares_elemKill (second : Bool) : Cluster.Spares (elX slot pos n) k (k.elemKill slot pos n second) := by
  have hkey : elX slot pos n ≠ if second then elB slot pos n else elA slot pos n := by
    cases second
    · exact elX_ne_elA slot pos hn
    · exact elX_ne_elB slot pos hn
  exact .ite (.refl _ k) (.ite ((k.spares_pop hkey).trans (Cluster.spares_setElem _ slot pos n _))
    ((k.spares_killValue hkey).trans (Cluster.spares_setElem _ slot pos n _)))

theorem Cluster.spares_elemSettle : Cluster.Spares (elX slot pos n) k (k.elemSettle slot pos n f) := by
  unfold Cluster.elemSettle
  extract_lets x0 inProg
  refine .ite (.ite (.refl _ k) (k.spares_setElem slot pos n _)) (.ite (.refl _ k) ?_)
  split
  next x fl _ =>
  extract_lets c k1 sated
  have h1 : Cluster.Spares (elX slot pos n) k k1 :=
    (Cluster.Spares.ite (.refl _ k) (k.spares_raise fl)).trans (Cluster.spares_setElem _ slot pos n x)
  split
  next ea eb _ =>
  extract_lets k2 k3 y
  have h2 : Cluster.Spares (elX slot pos n) k k2 := .ite (h1.trans (k1.spares_elemKill hn false)) h1
  have h3 : Cluster.Spares (elX slot pos n) k k3 := .ite (h2.trans (k2.spares_elemKill hn true)) h2
  exact .ite (h3.trans ((Cluster.Spares.ite (k3.spares_raise _) (.refl _ k3)).trans (Cluster.spares_setElem _ slot pos n _))) h3

theorem Cluster.spares_elemReqs : Cluster.Spares (elX slot pos n) k (k.elemReqs slot pos n f) := by
  refine Cluster.spares_wants _ (fun e he => ?_) k
  unfold Cluster.elemAsks at he
  simp only [List.mem_append, List.mem_singleton] at he
  rcases he with (rfl | he) | he
  · exact elX_ne_elA slot pos hn
  · split at he
    · rw [List.mem_singleton.mp he]
      exact elX_ne_elB slot pos hn
    · exact nomatch he
  · split at he
    · rw [List.mem_singleton.mp he]
      exact elX_ne_elC slot pos hn
    · exact nomatch he

end

/-- An element with X alone emits its next beat there against a REQ. -/
theorem Cluster.elemEmit_x {k : Cluster} {slot pos n f : Nat} {tok : Token} {o : OutVal} (hX : deEnX f = true)
    (hY : deEnY f = false) (hCo : deEnCo f = false) (hr : k.ready (elX slot pos n) = true)
    (hb : (Cell.mk f (k.elem slot pos n)).beat false (k.elem slot pos n).x = some (tok, o)) :
    ∃ x, k.elemEmit slot pos n f = ((k.push (elX slot pos n) tok).setElem slot pos n x, true) := by
  unfold Cluster.elemEmit
  extract_lets vec co r1 r2 r3
  have hvec : ∃ x, vec k false = ((k.push (elX slot pos n) tok).setElem slot pos n x, true) := by
    dsimp only [vec]
    rw [if_neg Bool.false_ne_true, if_neg Bool.false_ne_true, hr, hb]
    exact ⟨_, rfl⟩
  obtain ⟨x, hx⟩ := hvec
  have h1 : r1 = vec k false := if_pos hX
  have h2 : r2 = (r1.1, false) := if_neg (by simp [hY])
  have h3 : r3 = (r2.1, false) := if_neg (by simp [hCo])
  exact ⟨x, by rw [h3, h2, h1, hx]; rfl⟩

/-- A beat that has gone out on a channel on which none waits (R193, R223). -/
theorem Cluster.carried_push {k : Cluster} {key : Nat} (tok : Token) (hr : k.ready key = true) :
    (k.push key tok).carried key = (k.chan key).push tok := by
  have hlate : (k.chan key).late = false := by
    unfold Cluster.ready at hr
    simpa using (Bool.and_eq_true_iff.mp hr).2
  have hpush : ((k.chan key).push tok).late = false := hlate
  have heta : ∀ c : Chan, c.late = false → { c with late := false } = c := fun c h => by
    cases c
    cases h
    rfl
  unfold Cluster.carried Cluster.push
  rw [Cluster.chan_setChan_same]
  split
  · exact heta _ hpush
  · exact heta _ hpush

/-- The element's beat goes out; what follows in its clk leaves that channel alone. -/
theorem Cluster.elemFire_x {k : Cluster} {slot pos n f : Nat} (hn : n < 4) {tok : Token} {o : OutVal}
    (hf : k.frame slot 1 (pos + 64 * n) = some f) (hX : deEnX f = true) (hY : deEnY f = false) (hCo : deEnCo f = false)
    (hr : k.ready (elX slot pos n) = true)
    (hb : (Cell.mk f (k.elem slot pos n)).beat false (k.elem slot pos n).x = some (tok, o)) :
    (k.elemFire slot pos n).2 = true
      ∧ Cluster.Spares (elX slot pos n) (k.push (elX slot pos n) tok) (k.elemFire slot pos n).1 := by
  obtain ⟨x, hx⟩ := Cluster.elemEmit_x hX hY hCo hr hb
  unfold Cluster.elemFire
  rw [hf]
  dsimp only
  rw [hx]
  dsimp only
  refine ⟨by simp, ?_⟩
  have hB : ∀ l : Cluster, Cluster.Spares (elX slot pos n) l (if deEnB f then l.elemTake slot pos n f true else (l, false)).1 := by
    intro l
    split
    · exact l.spares_elemTake hn true
    · exact .refl _ l
  exact ((((Cluster.spares_setElem _ slot pos n x).trans (Cluster.spares_elemTake hn _ false)).trans (hB _)).trans
    (Cluster.spares_elemTakeC hn _)).trans ((Cluster.spares_elemSettle hn _).trans (Cluster.spares_elemReqs hn _))

theorem Cluster.push_rest (k : Cluster) (key : Nat) (t : Token) :
    (k.push key t).slots = k.slots ∧ (k.push key t).events10 = k.events10 := ⟨rfl, rfl⟩

theorem Cluster.slot_count (k : Cluster) (e n i : Nat) : (k.count e n).slot i = k.slot i := by
  obtain ⟨v, h⟩ := k.count_eq e n
  rw [h]
  rfl

theorem Cluster.carried_count (k : Cluster) (e n key : Nat) : (k.count e n).carried key = k.carried key := by
  obtain ⟨v, h⟩ := k.count_eq e n
  rw [h]
  rfl

theorem Cluster.events10_count_two (k : Cluster) (n : Nat) : (k.count 2 n).events10[2] = k.events10[2] + n := by
  have h : k.count 2 n = { k with events10 := k.events10.set 2 (k.events10[2] + n) } := dif_pos (by decide)
  rw [h]
  exact Vector.getElem_set_self _

theorem exec_elementFire {s : State} {c slot pos n : Nat} (hruns : (s.cluster c).runs slot = true)
    (hs : (s.cluster c).saving = false) (hrun : (s.cluster c).runningSlot pos n = slot)
    (hm : ((s.cluster c).elemFire slot pos n).2 = true) :
    exec (.elementFire c slot pos n) s = .next (s.setCl c
      ((((s.cluster c).elemFire slot pos n).1.fires slot (unitKey 1 (pos + 64 * n))).count 2 1)) := by
  change execElementFire c slot pos n s = _
  unfold execElementFire
  refine congrArg _ ((if_neg (by simp [hruns, hs])).trans ?_)
  have hmoved : ¬ (!((s.cluster c).elemFire slot pos n).2) = true := by rw [hm]; decide
  exact (if_neg hmoved).trans (if_neg (by simp [hrun]))

/-- The slot that an element gives way to: the first ready one after the running slot (R16). -/
def Cluster.switched (k : Cluster) (slot pos n : Nat) : Cluster :=
  ({ k with fab := { k.fab with running := k.fab.running.set (pos * 4 + n) slot } } : Cluster).mapSlot slot fun x =>
    { x with fired := x.fired ++ [(unitKey 1 (pos + 64 * n), 1)] }

theorem exec_slotSwitch {s : State} {c slot pos n : Nat}
    (hcur : (s.cluster c).canFire ((s.cluster c).runningSlot pos n) pos n = false)
    (hnext : ((List.range 3).map fun i => ((s.cluster c).runningSlot pos n + 1 + i) % 4).find?
      (fun j => (s.cluster c).canFire j pos n) = some slot) :
    exec (.slotSwitch c slot pos n) s = .next (s.setCl c ((s.cluster c).switched slot pos n)) := by
  change execSlotSwitch c slot pos n s = _
  unfold execSlotSwitch
  refine congrArg _ ((if_neg (by simp [hcur])).trans ?_)
  rw [hnext]
  exact if_neg (by simp)

/-! ### KILLs arrive (R194 to R196) -/

/-- The KILL has gone from its path. -/
def Cluster.killGone (k : Cluster) (n : Nat) : Cluster := { k with fab := { k.fab with kills := dropNth k.fab.kills n } }

section
variable {s : State} {c n : Nat} {d : Kill} (hd : (s.cluster c).fab.kills[n]? = some d)
  (hfirst : ∀ e ∈ (s.cluster c).fab.kills.take n, e.chan ≠ d.chan) (hs : (s.cluster c).saving = false)
include hd hfirst hs

theorem exec_killArrival_late (h : ((s.cluster c).chan d.chan).produced ≠ d.ordinal) :
    exec (.killArrival c n) s = .next (s.setCl c ((s.cluster c).killGone n)) := by
  change execKillArrival c n s = _
  unfold execKillArrival
  dsimp only
  rw [hd]
  exact congrArg _ ((if_neg (by simpa [hs] using hfirst)).trans (if_pos (by simp [h])))

theorem exec_killArrival_stops (h : ((s.cluster c).chan d.chan).produced = d.ordinal)
    (hp : (s.cluster c).producer c d.chan = .nothing) :
    exec (.killArrival c n) s = .next (s.setCl c (((s.cluster c).killGone n).setChan d.chan
      { (s.cluster c).chan d.chan with produced := ((s.cluster c).chan d.chan).produced + 1, req := 0 })) := by
  change execKillArrival c n s = _
  unfold execKillArrival
  dsimp only
  rw [hd]
  refine congrArg _ ((if_neg (by simpa [hs] using hfirst)).trans ?_)
  rw [hp]
  exact if_neg (by simp [h, Cluster.streamOver])

end

end Sys2Proof.Machine

open Sys2Proof Sys2Proof.Machine

/-- Settles O41: what follows an element's emission spares the channel it has gone out on. -/
theorem elements : Obligations.Elements := by
  unfold Obligations.Elements
  refine ⟨fun s c slot pos n f tok o hpos hn => ?_, fun s c slot pos n => ?_, fun s c n d hd => ?_⟩
  · intro k x hruns hs hrun hf hX hY hCo hB hC hr hb
    obtain ⟨hm, hsp⟩ := Cluster.elemFire_x hn hf hX hY hCo hr hb
    refine ⟨_, exec_elementFire hruns hs hrun hm, onlyCluster_setCl _ _ _, ?_⟩
    rw [State.cluster_setCl_same]
    set y := (k.elemFire slot pos n).1 with hy
    have hfired : y.slot slot = k.slot slot := congrArg (·.get slot Slot.reset) (hsp.slots.trans (k.push_rest _ tok).1)
    have hchan : y.carried (elX slot pos n) = (k.chan (elX slot pos n)).push tok := by
      rw [← Cluster.carried_push tok hr]
      unfold Cluster.carried
      rw [hsp.chan]
    have hcount : y.events10 = k.events10 := hsp.events10.trans (k.push_rest _ tok).2
    rw [Cluster.carried_count, Cluster.slot_count, Cluster.events10_count_two]
    refine ⟨hchan, ?_, ?_⟩
    · refine (congrArg Slot.fired (Cluster.slot_mapSlot_same y slot _)).trans ?_
      rw [hfired]
    · exact congrArg (fun v : Vector Nat 11 => v[2] + 1) hcount
  · intro k cur hcur hnext
    refine ⟨_, exec_slotSwitch hcur hnext, onlyCluster_setCl _ _ _, ?_⟩
    rw [State.cluster_setCl_same]
    refine ⟨Table.get_set_same .., ?_, rfl⟩
    exact congrArg Slot.fired (Cluster.slot_mapSlot_same _ slot _)
  · intro k hfirst hs
    refine ⟨fun h => ?_, fun h hp => ?_⟩
    · refine ⟨_, exec_killArrival_late hd hfirst hs h, onlyCluster_setCl _ _ _, ?_⟩
      rw [State.cluster_setCl_same]
      rfl
    · refine ⟨_, exec_killArrival_stops hd hfirst hs h hp, onlyCluster_setCl _ _ _, ?_⟩
      rw [State.cluster_setCl_same, Cluster.chan_setChan_same, h]
      exact ⟨rfl, rfl⟩
end

section
namespace Sys2Proof.Machine

/-! ### The candidate no other is better than (R26) -/

/-- What the candidates are compared by when both, or neither, are aged. -/
def Cluster.binRank (k : Cluster) (b : Nat) : Nat := if (k.bin b).aged then k.binAge b else k.binCount b

/-- Aged bins come first, then the greater rank, then the lower number (R26). -/
theorem Cluster.better_iff (k : Cluster) (a b : Nat) : k.better a b = true ↔
    ((k.bin a).aged = true ∧ (k.bin b).aged = false) ∨ ((k.bin a).aged = (k.bin b).aged
      ∧ (k.binRank b < k.binRank a ∨ k.binRank a = k.binRank b ∧ a < b)) := by
  unfold Cluster.better Cluster.binRank
  cases ha : (k.bin a).aged <;> cases hb : (k.bin b).aged <;> simp [ha, hb]

theorem Cluster.better_irrefl (k : Cluster) (a : Nat) : k.better a a = false := by
  rw [← Bool.not_eq_true, Cluster.better_iff]
  rintro (⟨h, h'⟩ | ⟨-, h⟩)
  · rw [h] at h'
    exact nomatch h'
  · omega

theorem Cluster.better_trans (k : Cluster) {a b c : Nat} (h : k.better a b = true) (h' : k.better b c = true) :
    k.better a c = true := by
  rw [Cluster.better_iff] at *
  rcases h with ⟨ha, hb⟩ | ⟨hab, hr⟩
  · rcases h' with ⟨hb', -⟩ | ⟨hbc, -⟩
    · rw [hb] at hb'
      exact nomatch hb'
    · exact .inl ⟨ha, hbc ▸ hb⟩
  · rcases h' with ⟨hb', hc⟩ | ⟨hbc, hr'⟩
    · exact .inl ⟨hab.trans hb', hc⟩
    · exact .inr ⟨hab.trans hbc, by omega⟩

/-- The better of the candidate found so far and the next (R26). -/
def Cluster.pick (k : Cluster) (best : Option Nat) (b : Nat) : Option Nat :=
  match best with
  | none => some b
  | some a => if k.better b a then some b else some a

/-- b is among the candidates of a list, and none of them is better. -/
def Cluster.Best (k : Cluster) (l : List Nat) (b : Nat) : Prop := b ∈ l ∧ ∀ a ∈ l, k.better a b = false

theorem Cluster.Best.pick {k : Cluster} {l : List Nat} {a : Nat} (h : k.Best l a) (b : Nat) :
    ∃ x, k.pick (some a) b = some x ∧ k.Best (l ++ [b]) x := by
  obtain ⟨hmem, hbest⟩ := h
  by_cases hb : k.better b a = true
  · refine ⟨b, if_pos hb, List.mem_append_right _ (List.mem_singleton_self b), fun c hc => ?_⟩
    rcases List.mem_append.mp hc with hc | hc
    · rw [← Bool.not_eq_true]
      exact fun hcb => Bool.false_ne_true ((hbest c hc).symm.trans (k.better_trans hcb hb))
    · rw [List.mem_singleton.mp hc]
      exact k.better_irrefl b
  · refine ⟨a, if_neg hb, List.mem_append_left _ hmem, fun c hc => ?_⟩
    rcases List.mem_append.mp hc with hc | hc
    · exact hbest c hc
    · rw [List.mem_singleton.mp hc, ← Bool.not_eq_true]
      exact hb

theorem Cluster.foldl_pick (k : Cluster) (r l : List Nat) (a : Nat) (h : k.Best l a) :
    ∃ x, r.foldl k.pick (some a) = some x ∧ k.Best (l ++ r) x := by
  induction r generalizing l a with
  | nil => exact ⟨a, rfl, by rwa [List.append_nil]⟩
  | cons b r ih =>
    obtain ⟨x, hx, hbest⟩ := h.pick b
    rw [List.foldl_cons, hx]
    have := ih (l ++ [b]) x hbest
    rwa [List.append_assoc] at this

theorem Cluster.choose_best {k : Cluster} {b : Nat} (h : k.choose = some b) : k.Best k.candidates b := by
  have hfold : k.choose = k.candidates.foldl k.pick none := rfl
  rw [hfold] at h
  cases hc : k.candidates with
  | nil =>
    rw [hc] at h
    exact nomatch h
  | cons a r =>
    rw [hc] at h
    obtain ⟨x, hx, hbest⟩ := k.foldl_pick r [a] a ⟨List.mem_singleton_self a, fun c hc => by
      rw [List.mem_singleton.mp hc]
      exact k.better_irrefl a⟩
    rw [show x = b from Option.some.inj (hx.symm.trans h)] at hbest
    exact hbest

/-! ### Slots of the block scheduler (R26, R27) -/

section
variable {s : State} {c i b : Nat} (hsch : (s.cluster c).schedules = true)
  (hopen : (List.range 4).find? (s.cluster c).openSlot = some i) (hb : (s.cluster c).choose = some b)
include hsch hopen hb

theorem exec_schedulerChoose_loads {e : Nat × Nat × Nat}
    (hnew : ¬(((s.cluster c).slot i).st = .idle ∧ ((s.cluster c).slot i).blk = b))
    (he : (s.cluster c).task.dir.find? (·.1 == b) = some e) :
    exec (.schedulerChoose c) s = .next (s.setCl c ((s.cluster c).beginLoad i b ((s.cluster c).task.image + w64 e.2.2) true
      (s.cluster c).task.ctx)) := by
  change execSchedulerChoose c s = _
  unfold execSchedulerChoose
  refine congrArg _ ((if_neg (by simp [hsch])).trans ?_)
  rw [hopen, hb]
  refine (if_neg (by simpa using hnew)).trans ?_
  rw [he]

theorem exec_schedulerChoose_idle (hst : ((s.cluster c).slot i).st = .idle) (hblk : ((s.cluster c).slot i).blk = b) :
    exec (.schedulerChoose c) s = .next (s.setCl c ((s.cluster c).mapSlot i fun x =>
      { x with st := SlotState.ready, readyClk := (s.cluster c).clk })) := by
  change execSchedulerChoose c s = _
  unfold execSchedulerChoose
  refine congrArg _ ((if_neg (by simp [hsch])).trans ?_)
  rw [hopen, hb]
  exact if_pos (by simp [hst, hblk])

end

/-- The slot in which a load begins. -/
def Slot.loads (x : Slot) (b : Nat) (img : Word) : Slot := { x.cleared with st := SlotState.loading, blk := b, img := img }

/-- A load of a block that no slot holds (R18). -/
theorem Cluster.beginLoad_spec {k : Cluster} {b : Nat} (hh : k.holder b = none) (i : Nat) (img : Word) (sched : Bool)
    (asid : Nat) :
    (k.beginLoad i b img sched asid).slot i = (k.slot i).loads b img
      ∧ (∀ n, n ≠ i → (k.beginLoad i b img sched asid).slot n = k.slot n)
      ∧ (k.beginLoad i b img sched asid).loads
          = addLoad ⟨i, b, img, sched, asid, union (k.seqC.seenBy 0) k.seqC.own, k.clk, 0, 0, 0xFFFFFFFF#32⟩ k.loads := by
  unfold Cluster.beginLoad
  rw [hh]
  exact ⟨k.slot_mapSlot_same i (·.loads b img), fun n hn => k.slot_mapSlot_ne (·.loads b img) hn, rfl⟩

theorem exec_slotStart {s : State} {c i : Nat} (hi : i < 4) (hs : (s.cluster c).sched i = true)
    (hst : ((s.cluster c).slot i).st = .ready) (hh : ((s.cluster c).slot i).halted = false)
    (hsch : (s.cluster c).schedules = true) :
    exec (.slotStart c i) s = .next (s.setCl c ((s.cluster c).startSlot i)) := by
  change execSlotStart c i s = _
  unfold execSlotStart
  exact congrArg _ (if_pos (by simp [hi, hs, hst, hh, hsch]))

/-- A slot whose configuration period begins (R17, R27). -/
def Slot.starts (x : Slot) (sched : Bool) (clk : Nat) : Slot :=
  { x with st := .running, groups := 0, dispatching := sched, startClk := clk, wdCount := 0, fired := [],
           sums := Vector.replicate 8 0, keep := false }

theorem Cluster.startSlot_spec (k : Cluster) (i : Nat) :
    (k.startSlot i).slot i = (k.slot i).starts (k.sched i) k.clk ∧ ∀ n, n ≠ i → (k.startSlot i).slot n = k.slot n :=
  ⟨k.slot_mapSlot_same i (·.starts (k.sched i) k.clk), fun _ hn => k.slot_mapSlot_ne (·.starts (k.sched i) k.clk) hn⟩

/-! ### Periods that end (R19, R422) -/

theorem State.trace_off {s : State} {ty : Nat} (h : bit s.dbg.tren ty = false) (ctx region blk ver : Nat) (payload : List Byte) :
    s.trace ty ctx region blk ver payload = s := by
  unfold State.trace
  exact if_pos (by simp [h])

/-- A slot whose period has ended (R19). -/
def Slot.ends (x : Slot) : Slot :=
  { x with st := .idle, dispatching := false, halted := x.halted || x.haltPending, haltPending := false }

theorem Slot.ends_eq {x : Slot} (h : x.haltPending = false) : x.ends = { x with st := .idle, dispatching := false } := by
  unfold Slot.ends
  cases x
  cases h
  simp

theorem State.endPeriod_spec {s : State} {c i : Nat} (hh : ((s.cluster c).slot i).haltPending = false)
    (ht : bit s.dbg.tren 1 = false) :
    OnlyCluster s (s.endPeriod c i) c
      ∧ ((s.endPeriod c i).cluster c).slot i = { (s.cluster c).slot i with st := .idle, dispatching := false }
      ∧ ∀ n, n ≠ i → ((s.endPeriod c i).cluster c).slot n = (s.cluster c).slot n := by
  have hrec : s.periodRecord c i = s := State.trace_off ht _ _ _ _ _
  have hend : ∃ k1, s.endPeriod c i = s.setCl c k1 ∧ ∀ n, k1.slot n = ((s.cluster c).mapSlot i (·.ends)).slot n := by
    unfold State.endPeriod
    rw [hrec]
    dsimp only
    rw [hh]
    refine ⟨_, rfl, fun n => ?_⟩
    split
    · rfl
    · rfl
  obtain ⟨k1, hk, hslot⟩ := hend
  rw [hk, State.cluster_setCl_same, hslot i]
  refine ⟨onlyCluster_setCl _ _ _, ?_, fun n hn => ?_⟩
  · rw [Cluster.slot_mapSlot_same, Slot.ends_eq hh]
  · rw [hslot n, Cluster.slot_mapSlot_ne _ _ hn]

section
variable {s : State} {c i : Nat}

theorem exec_regionDrained (hst : ((s.cluster c).slot i).st = .draining) (hs : (s.cluster c).sched i = true)
    (hq : s.regionQuiet c i = true) : exec (.regionDrained c i) s = .next (s.endPeriod c i) := by
  change execRegionDrained c i s = _
  unfold execRegionDrained
  exact congrArg _ (if_pos (by simp [hst, hs, hq]))

theorem exec_pinnedRegionEnd (hst : ((s.cluster c).slot i).st = .running) (hs : (s.cluster c).sched i = false)
    (hp : (s.cluster c).portsDone c i = true) (hq : s.regionQuiet c i = true) :
    exec (.pinnedRegionEnd c i) s = .next (s.endPeriod c i) := by
  change execPinnedRegionEnd c i s = _
  unfold execPinnedRegionEnd
  exact congrArg _ (if_pos (by simp [hst, hs, hp, hq]))

theorem exec_region_busy (hq : s.regionQuiet c i = false) :
    exec (.regionDrained c i) s = .next s ∧ exec (.pinnedRegionEnd c i) s = .next s :=
  ⟨congrArg Host.Outcome.next (if_neg (by simp [hq])), congrArg Host.Outcome.next (if_neg (by simp [hq]))⟩

end

/-! ### The configuration bus (R18, R132, R215, R221) -/

section
variable (k : Cluster) {l : Load} (hs : l.sched = false)
include hs

/-- A load that is not the block scheduler's fails: its slot is empty and no other load moves (R215). -/
theorem Cluster.loadFail_spec (detail : Nat) :
    ((k.loadFail l detail).slot l.slot).st = .empty ∧ ((k.loadFail l detail).slot l.slot).lasterr = detail
      ∧ (k.loadFail l detail).loads = k.loads.drop 1 ∧ (k.loadFail l detail).task = k.task := by
  have hx : k.loadFail l detail
      = ({ k.mapSlot l.slot (fun x => { x.cleared with lasterr := detail }) with loads := k.loads.drop 1 } :
        Cluster).quietDone l.slot :=
    if_neg (by simp [hs])
  rw [hx]
  have hslot := k.slot_mapSlot_same l.slot fun x => { x.cleared with lasterr := detail }
  exact ⟨(congrArg Slot.st hslot :), (congrArg Slot.lasterr hslot :), rfl, rfl⟩

end

section
variable {k : Cluster} {l : Load} {f : Nat} {bs : List Byte}

theorem Cluster.loadFrame_header (hn : l.next = 0) (he : headerError f l.blk = 0) :
    k.loadFrame l f bs = { k.mapSlot l.slot (fun x => { x with ver := hVer f }) with
      loads := { l with header := f, next := 1, crc := crcBytes l.crc (crcHeader f) } :: k.loads.drop 1 } := by
  unfold Cluster.loadFrame
  rw [if_pos (by simp [hn])]
  exact if_neg (by simp [he])

theorem Cluster.loadFrame_badHeader (hn : l.next = 0) (he : headerError f l.blk ≠ 0) :
    k.loadFrame l f bs = k.loadFail l (headerError f l.blk) := by
  unfold Cluster.loadFrame
  rw [if_pos (by simp [hn])]
  exact if_pos (by simp [he])

variable (hn : l.next ≠ 0)
include hn

theorem Cluster.loadFrame_bad (he : frameError f ((k.slot l.slot).frames.map unslotted) ≠ 0) :
    k.loadFrame l f bs = k.loadFail l (frameError f ((k.slot l.slot).frames.map unslotted)) := by
  unfold Cluster.loadFrame
  rw [if_neg (by simp [hn])]
  exact if_pos (by simp [he])

variable (he : frameError f ((k.slot l.slot).frames.map unslotted) = 0)
include he

theorem Cluster.loadFrame_next (hlt : l.next < hNfr l.header) :
    k.loadFrame l f bs = { k.mapSlot l.slot (fun x => { x with frames := (k.slot l.slot).frames ++ [withSlot f l.slot] }) with
      loads := { l with next := l.next + 1, crc := crcBytes l.crc bs } :: k.loads.drop 1 } := by
  unfold Cluster.loadFrame
  rw [if_neg (by simp [hn])]
  exact (if_neg (by simp [he])).trans (if_pos hlt)

variable (hlast : hNfr l.header ≤ l.next) (hs : l.sched = false)
  (hle : lastError ((k.slot l.slot).frames ++ [withSlot f l.slot]) false = 0)
include hlast hs hle

theorem Cluster.loadFrame_last (hcrc : (~~~crcBytes l.crc bs).toNat = hCrc l.header) :
    k.loadFrame l f bs = ({ k.mapSlot l.slot (fun x => { x with
        frames := (k.slot l.slot).frames ++ [withSlot f l.slot], st := SlotState.ready, readyClk := k.clk }) with
      loads := k.loads.drop 1 } : Cluster).quietDone l.slot := by
  unfold Cluster.loadFrame
  rw [if_neg (by simp [hn])]
  exact (if_neg (by simp [he])).trans ((if_neg (Nat.not_lt.mpr hlast)).trans
    ((if_neg (by simp [hs, hle])).trans (if_neg (by simp [hcrc]))))

theorem Cluster.loadFrame_badCrc (hcrc : (~~~crcBytes l.crc bs).toNat ≠ hCrc l.header) :
    k.loadFrame l f bs = k.loadFail l 6 := by
  unfold Cluster.loadFrame
  rw [if_neg (by simp [hn])]
  exact (if_neg (by simp [he])).trans ((if_neg (Nat.not_lt.mpr hlast)).trans
    ((if_neg (by simp [hs, hle])).trans (if_pos (bne_iff_ne.mpr hcrc))))

end

/-- A frame leaves the task as it is, when its load is not the block scheduler's. -/
theorem Cluster.loadFrame_task (k : Cluster) {l : Load} (hs : l.sched = false) (f : Nat) (bs : List Byte) :
    (k.loadFrame l f bs).task = k.task := by
  have hfail : ∀ d, (k.loadFail l d).task = k.task := fun d => by
    obtain ⟨-, -, -, h⟩ := k.loadFail_spec hs d
    exact h
  unfold Cluster.loadFrame
  extract_lets e e' fs e2 crc all e3
  split
  · split
    · exact hfail _
    · rfl
  · split
    · exact hfail _
    · split
      · rfl
      · split
        · exact hfail _
        · split
          · exact hfail _
          · rfl

/-- The bus takes the next frame of the first load. -/
theorem exec_configFrameWrite {s u : State} {c : Nat} {l : Load} {ls : List Load} {bs : List Byte}
    (hl : (s.cluster c).loads = l :: ls) (hsv : (s.cluster c).saving = false) (hs : l.sched = false)
    (hfree : ((s.cluster c).seqC.outstanding ++ (s.cluster c).seqC.frame.replay).any
      (s.blocksRecord c .control (l.img.toNat + 32 * l.next) 32) = false)
    (hr : s.vread (l.who (s.cluster c) c) (l.img.toNat + 32 * l.next) 32 = .ok u bs)
    (hst : (u.cluster c).task.st ≠ .failing) :
    exec (.configFrameWrite c) s = .next
      ((u.dropLines (l.who (s.cluster c) c).agent).mapCl c (·.loadFrame l (leNat bs) bs)) := by
  have htask : (((u.dropLines (l.who (s.cluster c) c).agent).mapCl c (·.loadFrame l (leNat bs) bs)).cluster c).task
      = (u.cluster c).task := by
    rw [State.cluster_mapCl_same, Cluster.loadFrame_task _ hs]
    rfl
  change execConfigFrameWrite c s = _
  unfold execConfigFrameWrite
  rw [hl]
  refine congrArg _ ((if_neg (by simp)).trans ?_)
  unfold State.frameWrite
  dsimp only
  rw [hl]
  refine (if_neg (by simp [hsv, hfree])).trans ?_
  rw [hr]
  refine if_neg ?_
  rw [htask]
  simp [hst]

end Sys2Proof.Machine

open Sys2Proof Sys2Proof.Machine

/-- Settles O40: each event is one update of the cluster, and being better is a strict order on the candidates. -/
theorem slots : Obligations.Slots := by
  unfold Obligations.Slots
  intro s c k
  refine ⟨fun b => Cluster.choose_best, fun i b hsch hopen hb => ⟨fun e hnew hh he => ?_, fun hst hblk => ?_⟩,
    fun i hi hs hst hh hsch => ?_, fun l ls u bs hl hsv hs hfree hr hst => ?_, fun i hh ht => ?_⟩
  · refine ⟨_, exec_schedulerChoose_loads hsch hopen hb hnew he, onlyCluster_setCl _ _ _, ?_⟩
    rw [State.cluster_setCl_same]
    obtain ⟨hslot, hother, hloads⟩ := Cluster.beginLoad_spec hh i (k.task.image + w64 e.2.2) true k.task.ctx
    rw [hslot]
    exact ⟨rfl, rfl, hother, hloads⟩
  · refine ⟨_, exec_schedulerChoose_idle hsch hopen hb hst hblk, onlyCluster_setCl _ _ _, ?_⟩
    rw [State.cluster_setCl_same]
    exact ⟨k.slot_mapSlot_same i _, rfl⟩
  · refine ⟨_, exec_slotStart hi hs hst hh hsch, onlyCluster_setCl _ _ _, ?_⟩
    rw [State.cluster_setCl_same]
    obtain ⟨hslot, hother⟩ := k.startSlot_spec i
    rw [hslot]
    exact ⟨rfl, hs, rfl, rfl, hother⟩
  · have hx := exec_configFrameWrite hl hsv hs hfree hr hst
    intro v y rest f fs e empty
    have hgoal : ∀ {y' : Cluster} {P : Cluster → Prop}, y.loadFrame l f bs = y' → P y' →
        Yields s (.configFrameWrite c) fun t => OnlyCluster v t c ∧ P (t.cluster c) := fun hy hP =>
      ⟨_, hx, onlyCluster_mapCl _ _ _, by rw [State.cluster_mapCl_same, hy]; exact hP⟩
    have hempty : ∀ {d : Nat}, y.loadFrame l f bs = y.loadFail l d → Yields s (.configFrameWrite c) (empty d) := fun {d} hy => by
      obtain ⟨h1, h2, h3, -⟩ := y.loadFail_spec hs d
      exact hgoal (P := fun k => (k.slot l.slot).st = .empty ∧ (k.slot l.slot).lasterr = d ∧ k.loads = rest) hy ⟨h1, h2, h3⟩
    refine ⟨fun hn he => ?_, fun hn he => ?_, fun hn he => ?_, fun hn he hlt => ?_,
      fun hn he hlast hle => ⟨fun hcrc => ?_, fun hcrc => ?_⟩⟩
    · exact hgoal (P := fun k => k.slot l.slot = _ ∧ k.loads = _) (Cluster.loadFrame_header hn he)
        ⟨y.slot_mapSlot_same l.slot (fun x => { x with ver := hVer f }), rfl⟩
    · exact hempty (Cluster.loadFrame_badHeader hn he)
    · exact hempty (Cluster.loadFrame_bad hn he)
    · exact hgoal (P := fun k => k.slot l.slot = _ ∧ k.loads = _) (Cluster.loadFrame_next hn he hlt)
        ⟨y.slot_mapSlot_same l.slot (fun x => { x with frames := fs ++ [withSlot f l.slot] }), rfl⟩
    · exact hgoal (P := fun k => k.slot l.slot = _ ∧ k.loads = _) (Cluster.loadFrame_last hn he hlast hs hle hcrc)
        ⟨y.slot_mapSlot_same l.slot (fun x =>
          { x with frames := fs ++ [withSlot f l.slot], st := SlotState.ready, readyClk := y.clk }), rfl⟩
    · exact hempty (Cluster.loadFrame_badCrc hn he hlast hs hle hcrc)
  · intro idles
    have hidle : ∀ {e : Instr}, exec e s = .next (s.endPeriod c i) → idles e := fun hx => ⟨_, hx, State.endPeriod_spec hh ht⟩
    refine ⟨fun hst hs hq => ?_, exec_region_busy, fun hst hs hp hq => ?_⟩
    · exact hidle (exec_regionDrained hst hs hq)
    · exact hidle (exec_pinnedRegionEnd hst hs hp hq)
end

section
namespace Sys2Proof.Machine

/-! ### Counters forwarded (R409) -/

theorem State.msix_frame (s : State) (f k : Nat) : ∃ m p,
    s.msix f k = { s with links := { s.links with msix := m, msixPend := p } } := by
  unfold State.msix
  dsimp only
  split
  · exact ⟨_, _, rfl⟩
  · split
    · exact ⟨_, _, rfl⟩
    · exact ⟨_, _, rfl⟩

theorem State.countCtx_frame (s : State) (ctx e n : Nat) : ∃ c l, s.countCtx ctx e n = { s with ctxs := c, links := l } := by
  unfold State.countCtx
  generalize List.range 8 = is
  induction is generalizing s with
  | nil => exact ⟨_, _, rfl⟩
  | cons i is ih =>
    rw [List.foldl_cons]
    generalize hx : (s.ctx ctx).bump i e n = x
    dsimp only
    split
    · obtain ⟨m, p, hm⟩ := (s.mapCtx ctx fun _ => x.1).msix_frame (fnOf ctx) (ctx % 64)
      obtain ⟨c, l, h⟩ := ih ((s.mapCtx ctx fun _ => x.1).msix (fnOf ctx) (ctx % 64))
      rw [h, hm]
      exact ⟨_, _, rfl⟩
    · obtain ⟨c, l, h⟩ := ih (s.mapCtx ctx fun _ => x.1)
      rw [h]
      exact ⟨_, _, rfl⟩

/-- Forwarding clears the cluster's counts, and else moves counters and messages alone. -/
theorem State.forwardCounts_frame (s : State) (c : Nat) :
    ∃ x l, s.forwardCounts c = ({ s with ctxs := x, links := l } : State).mapCl c fun k =>
      { k with events10 := Vector.replicate 11 0 } := by
  have hfold : ∀ (f : State → Nat → State), (∀ t i, ∃ x l, f t i = { t with ctxs := x, links := l }) →
      ∀ (is : List Nat) (t : State), ∃ x l, is.foldl f t = { t with ctxs := x, links := l } := by
    intro f hf is
    induction is with
    | nil => exact fun t => ⟨_, _, rfl⟩
    | cons i is ih =>
      intro t
      obtain ⟨x, l, h⟩ := hf t i
      obtain ⟨x', l', h'⟩ := ih (f t i)
      rw [List.foldl_cons, h', h]
      exact ⟨_, _, rfl⟩
  unfold State.forwardCounts
  extract_lets k one
  obtain ⟨x, l, h⟩ := hfold one (fun t i => by
    dsimp only [one]
    split
    · exact t.countCtx_frame _ _ _
    · exact ⟨_, _, rfl⟩) (List.range 11) s
  exact ⟨x, l, by rw [h]⟩

/-! ### Gangs of a job that changes -/

theorem State.job_mapJob (s : State) (n : Nat) {f : Job → Job} (hf : ∀ j, (f j).num = j.num) :
    (s.mapJob n f).job n = (s.job n).map f := by
  unfold State.job State.mapJob
  rw [List.find?_map, show (fun j : Job => j.num == n) ∘ _ = fun j : Job => j.num == n from funext fun j => by
    dsimp only [Function.comp_apply]
    split
    · rw [hf]
    · rfl]
  cases h : s.jobs.find? (·.num == n) with
  | none => rfl
  | some j =>
    have hn : j.num = n := by simpa using List.find?_some h
    simp [hn]

theorem Job.absorb_num (j : Job) (g : Gang) : (j.absorb g).num = j.num := by
  unfold Job.absorb
  dsimp only
  split
  · rfl
  · rfl

/-- The gangs of a job that has not admitted them are discarded with the first that fails (R327). -/
def Gang.discarded (x : Gang) : Gang :=
  match x.st with
  | .waiting => { x with st := .discarded }
  | .entered => { x with st := .discarded }
  | .checking => { x with st := .discarded }
  | .candidate => { x with st := .discarded }
  | _ => x

theorem Gang.discarded_gi (x : Gang) : x.discarded.gi = x.gi := by
  unfold Gang.discarded
  split
  all_goals rfl

theorem Gang.discarded_of_done {x : Gang} (h : x.st = .done) : x.discarded = x := by
  unfold Gang.discarded
  rw [h]

theorem Job.absorb_gangs (j : Job) (g : Gang) : (j.absorb g).gangs = j.gangs ∨ (j.absorb g).gangs = j.gangs.map (·.discarded) := by
  unfold Job.absorb
  dsimp only
  split
  · exact .inr rfl
  · exact .inl rfl

/-- A gang that is done stands when its job takes its status. -/
theorem State.gang_absorb {s : State} {job gi : Nat} {h : Gang} (hg : s.gang job gi = some h) (hd : h.st = .done) (g : Gang) :
    (s.mapJob job (·.absorb g)).gang job gi = some h := by
  obtain ⟨j, hj, hf⟩ := Option.bind_eq_some_iff.mp hg
  unfold State.gang
  rw [s.job_mapJob job (f := (·.absorb g)) (fun j => j.absorb_num g), hj]
  change (j.absorb g).gangs.find? (·.gi == gi) = some h
  rcases j.absorb_gangs g with he | he
  · rw [he]
    exact hf
  · rw [he, find?_map_of_find? (fun x => by rw [Gang.discarded_gi]) hf, Gang.discarded_of_done hd]

/-! ### A task retires (R35, R38, R332) -/

theorem Gang.absorb_spec (g : Gang) (t : Task) :
    (g.absorb t).retired = t.rank :: g.retired ∧ (g.absorb t).flags = g.flags ||| t.flags ∧ (g.absorb t).disc = g.disc + t.disc
      ∧ (g.absorb t).st = g.st ∧ (g.absorb t).gi = g.gi ∧ (g.absorb t).colls = g.colls ∧ (g.absorb t).size = g.size
      ∧ (g.absorb t).clusters = g.clusters := by
  unfold Gang.absorb
  dsimp only
  split
  · exact ⟨rfl, rfl, rfl, rfl, rfl, rfl, rfl, rfl⟩
  · exact ⟨rfl, rfl, rfl, rfl, rfl, rfl, rfl, rfl⟩

theorem Gang.retire_gi (g : Gang) (k : Cluster) : (g.retire k).gi = g.gi := by
  obtain ⟨-, -, -, -, h, -⟩ := g.absorb_spec k.task
  exact h

theorem State.settleColls_none {s : State} {job gi : Nat} {g : Gang} (hg : s.gang job gi = some g) (hc : g.colls = []) :
    s.settleColls job gi = s := by
  unfold State.settleColls
  rw [hg]
  dsimp only
  rw [hc]
  rfl

/-- The state in which the task's status is with its gang and its cluster is free (R332). -/
def State.retires (s : State) (c job gi : Nat) (k : Cluster) : State :=
  (((s.mapGang job gi (·.retire k)).mapCl c (·.freed)).settleColls job gi).knownFar .sy k.knows

theorem State.retires_spec {s : State} {c job gi : Nat} {k : Cluster} {g : Gang} (hg : s.gang job gi = some g) (hc : g.colls = []) :
    (s.retires c job gi k).mem = s.mem ∧ (s.retires c job gi k).gang job gi = some (g.retire k)
      ∧ ((s.retires c job gi k).cluster c).task = .reset ∧ ∀ d, d ≠ c → (s.retires c job gi k).cluster d = s.cluster d := by
  obtain ⟨-, -, -, -, -, hcolls, -⟩ := g.absorb_spec k.task
  have hgang : ((s.mapGang job gi (·.retire k)).mapCl c (·.freed)).gang job gi = some (g.retire k) := by
    refine (s.gang_mapGang_same job gi (f := (·.retire k)) fun g => g.retire_gi k).trans ?_
    rw [hg]
    rfl
  unfold State.retires
  rw [State.settleColls_none hgang (hcolls.trans hc)]
  refine ⟨rfl, hgang, ?_, fun d hd => ?_⟩
  · exact congrArg Cluster.task ((s.mapGang job gi (·.retire k)).cluster_mapCl_same c (·.freed))
  · exact (s.mapGang job gi (·.retire k)).cluster_mapCl_ne c d (·.freed) hd

/-- A gang is done when its last task has retired: its clusters are free. -/
theorem State.gangDone_spec {s : State} {job gi : Nat} {g : Gang} (hg : s.gang job gi = some g) {c : Nat}
    (hc : (s.cluster c).task = .reset) :
    (s.gangDone job gi).mem = s.mem ∧ ((s.gangDone job gi).cluster c).task = .reset
      ∧ ∃ h, (s.gangDone job gi).gang job gi = some h ∧ h.st = .done := by
  unfold State.gangDone
  rw [hg]
  dsimp only
  set u := s.mapGang job gi fun g => { g with st := .done } with hu
  have hgu : u.gang job gi = some { g with st := .done } := by
    refine (s.gang_mapGang_same job gi (f := fun g => { g with st := .done }) fun _ => rfl).trans ?_
    rw [hg]
    rfl
  have hrest := u.foldl_mapCl_rest (·.freed) (s.seats job g)
  have hcl := u.cluster_foldl_mapCl (·.freed) (s.seats job g) c
  refine ⟨(congrArg State.mem hrest :), ?_, _,
    State.gang_absorb ((State.gang_congr (congrArg State.jobs hrest :) job gi).trans hgu) rfl g, rfl⟩
  change (((s.seats job g).foldl (fun t c => t.mapCl c (·.freed)) u).cluster c).task = .reset
  rw [hcl]
  cases List.count c (s.seats job g) with
  | zero => exact hc
  | succ n =>
    rw [Function.iterate_succ_apply']
    rfl

theorem State.gangSaved_spec {s : State} {job gi : Nat} {g : Gang} (hg : s.gang job gi = some g) :
    (s.gangSaved job gi).mem = s.mem ∧ (∀ d, (s.gangSaved job gi).cluster d = s.cluster d)
      ∧ ∃ st, (s.gangSaved job gi).gang job gi = some { g with st := st } ∧ (g.st ≠ .preempting → st = g.st) := by
  unfold State.gangSaved
  rw [hg]
  dsimp only
  split
  · exact ⟨rfl, fun _ => rfl, g.st, hg, fun _ => rfl⟩
  next h =>
    have hp : g.st = .preempting := by
      by_contra hne
      exact h (by simp [hne])
    refine ⟨rfl, fun _ => rfl, .saved, ?_, fun hn => absurd hp hn⟩
    refine (s.gang_mapGang_same job gi (f := fun g => { g with st := .saved }) fun _ => rfl).trans ?_
    rw [hg]
    rfl

theorem State.forwardCounts_spec (s : State) (c : Nat) :
    (s.forwardCounts c).mem = s.mem ∧ (s.forwardCounts c).jobs = s.jobs
      ∧ ((s.forwardCounts c).cluster c).task = (s.cluster c).task
      ∧ ∀ d, d ≠ c → (s.forwardCounts c).cluster d = s.cluster d := by
  obtain ⟨x, l, h⟩ := s.forwardCounts_frame c
  rw [h]
  refine ⟨rfl, rfl, ?_, fun d hd => ?_⟩
  · rw [State.cluster_mapCl_same]
    rfl
  · exact State.cluster_mapCl_ne _ _ _ _ hd

/-- What TASK_RETIRE does once the release has gone out and come back. -/
def State.retireFrom (u : State) (c : Nat) : State :=
  let t := (u.cluster c).task
  let s2 := u.retires c t.job t.gi (u.cluster c)
  match s2.gang t.job t.gi with
  | some g => if g.size ≤ g.retired.length then s2.gangDone t.job t.gi else s2.gangSaved t.job t.gi
  | none => s2

theorem State.retireFrom_eq {u : State} {c : Nat} {g : Gang}
    (hg : u.gang (u.cluster c).task.job (u.cluster c).task.gi = some g) (hc : g.colls = []) :
    u.retireFrom c = if g.size ≤ g.retired.length + 1
      then (u.retires c (u.cluster c).task.job (u.cluster c).task.gi (u.cluster c)).gangDone (u.cluster c).task.job (u.cluster c).task.gi
      else (u.retires c (u.cluster c).task.job (u.cluster c).task.gi (u.cluster c)).gangSaved (u.cluster c).task.job
        (u.cluster c).task.gi := by
  obtain ⟨hret, -, -, -, -, -, hsize, -⟩ := g.absorb_spec (u.cluster c).task
  have hlen : (g.retire (u.cluster c)).retired.length = g.retired.length + 1 := congrArg List.length hret
  have hsz : (g.retire (u.cluster c)).size = g.size := hsize
  obtain ⟨-, hug, -, -⟩ := State.retires_spec (c := c) (k := u.cluster c) hg hc
  unfold State.retireFrom
  dsimp only
  rw [hug]
  dsimp only
  rw [hlen, hsz]

/-- A task that has ended, with nothing to send, leaves its cluster, and its gang is looked at (R35, R332). -/
theorem State.exec_taskRetire {s : State} {c : Nat} (hr : s.mayRetire c = true) (hst : (s.cluster c).task.st = .exiting)
    (hf : (s.cluster c).task.flush = []) (hsy : (s.cluster c).usedSy = []) (hu : (s.cluster c).usedHost = false)
    (hz : s.zeroOut c = false) :
    ∃ u : State, u.mem = s.mem ∧ u.jobs = s.jobs ∧ (u.cluster c).task = (s.cluster c).task
      ∧ (∀ d, d ≠ c → u.cluster d = s.cluster d) ∧ exec (.taskRetire c) s = .next (u.retireFrom c) := by
  set s0 := (s.sendFlush .sy c).taskZero c with hs0
  obtain ⟨hrest, hcl⟩ : s.Alike s0 := State.flush_quiet (sc := .sy) hsy hu
  set s1 := s0.mapCl c fun k => if k.task.st == TaskState.exiting then k else k.discardBins with hs1
  have h1 : s1.cluster c = s.cluster c := by
    rw [hs1, State.cluster_mapCl_same, hcl c, if_pos (by rw [hst]; rfl)]
  obtain ⟨hm, hj, ht, hd⟩ := s1.forwardCounts_spec c
  refine ⟨s1.forwardCounts c, hm.trans (congrArg State.mem hrest :), hj.trans (congrArg State.jobs hrest :), by rw [ht, h1],
    fun d h => (hd d h).trans ((State.cluster_mapCl_ne _ _ _ _ h).trans (hcl d)), ?_⟩
  have hlinks : s0.links = s.links := (congrArg State.links hrest :)
  have hq : ¬(!(s0.cluster c).task.flush.isEmpty || s0.owesHost c) = true := by
    unfold State.owesHost State.zeroOut
    rw [hcl c, hf, hu, hlinks]
    exact fun h => Bool.noConfusion (hz.symm.trans h)
  change execTaskRetire c s = _
  unfold execTaskRetire
  exact congrArg _ ((if_neg (by simp [hr])).trans (if_neg hq))

end Sys2Proof.Machine

open Sys2Proof Sys2Proof.Machine

theorem taskRetire_completion (s : State) (c : Nat) (g : Gang) (hr : s.mayRetire c = true) (hst : (s.cluster c).task.st = .exiting)
    (hg : s.gang (s.cluster c).task.job (s.cluster c).task.gi = some g) (hc : g.colls = []) (hf : (s.cluster c).task.flush = [])
    (hsy : (s.cluster c).usedSy = []) (hu : (s.cluster c).usedHost = false) (hz : s.zeroOut c = false) :
    (g.retired.length + 1 < g.size → Yields s (.taskRetire c) fun t => t.mem = s.mem
        ∧ (t.cluster c).task = .reset ∧ (∀ d, d ≠ c → t.cluster d = s.cluster d)
        ∧ ∃ h, t.gang (s.cluster c).task.job (s.cluster c).task.gi = some h ∧ h.retired = (s.cluster c).task.rank :: g.retired
            ∧ h.flags = g.flags ||| (s.cluster c).task.flags ∧ h.disc = g.disc + (s.cluster c).task.disc
            ∧ (g.st ≠ .preempting → h.st = g.st))
    ∧ (g.size ≤ g.retired.length + 1 → Yields s (.taskRetire c) fun t => t.mem = s.mem ∧ (t.cluster c).task = .reset
        ∧ ∃ h, t.gang (s.cluster c).task.job (s.cluster c).task.gi = some h ∧ h.st = .done) := by
  obtain ⟨u, hm, hj, ht, hd, hx⟩ := State.exec_taskRetire hr hst hf hsy hu hz
  have hug : u.gang (u.cluster c).task.job (u.cluster c).task.gi = some g := by
    rw [ht]
    exact (State.gang_congr hj _ _).trans hg
  obtain ⟨hvm, hvg, hvc, hvd⟩ := State.retires_spec (c := c) (k := u.cluster c) hug hc
  obtain ⟨hret, hflags, hdisc, hgst, -, -, -, -⟩ := g.absorb_spec (u.cluster c).task
  have hq := State.retireFrom_eq hug hc
  have hret := hret.trans (congrArg (fun t : Task => t.rank :: g.retired) ht)
  have hflags := hflags.trans (congrArg (fun t : Task => g.flags ||| t.flags) ht)
  have hdisc := hdisc.trans (congrArg (fun t : Task => g.disc + t.disc) ht)
  rw [ht] at hvm hvg hvc hvd hq
  refine ⟨fun hlt => ⟨_, hx, ?_⟩, fun hle => ⟨_, hx, ?_⟩⟩
  · rw [hq, if_neg (by omega)]
    obtain ⟨hwm, hcl, st, hwg, hwst⟩ := State.gangSaved_spec hvg
    refine ⟨hwm.trans (hvm.trans hm), (congrArg Cluster.task (hcl c)).trans hvc, fun e h => (hcl e).trans ((hvd e h).trans
      (hd e h)), _, hwg,
      hret, hflags, hdisc, fun hne => ?_⟩
    exact (hwst fun he => hne (hgst.symm.trans he)).trans hgst
  · rw [hq, if_pos hle]
    obtain ⟨hwm, hwc, hdone⟩ := State.gangDone_spec hvg hvc
    exact ⟨hwm.trans (hvm.trans hm), hwc, hdone⟩

end

section
namespace Sys2Proof.Machine

/-! ### DONE and LASTJOB on the status page (R313) -/

theorem State.postHost_frame (s : State) (ctx a : Nat) (bs : List Byte) :
    ∃ h l, s.postHost ctx a bs = { s with host := h, links := { s.links with hostSent := l } } := by
  unfold State.postHost
  split
  · exact ⟨_, _, rfl⟩
  · exact ⟨_, _, rfl⟩

/-- The registers DONE and LASTJOB of the status page (R313). -/
def Ctx.completes (y : Ctx) (n last : Nat) : Ctx := { y with done := n, lastjob := last }

/-- The state in which a context's DONE and LASTJOB have their new values, on the device alone. -/
def State.countsDone (s : State) (ctx n last : Nat) : State := (s.useCtx ctx).mapCtx ctx (·.completes n last)

theorem State.countsDone_frame (s : State) (ctx n last : Nat) : ∃ c, s.countsDone ctx n last = { s with ctxs := c } := by
  obtain ⟨c, hc⟩ := s.cacheDesc_frame (s.partOfCtx ctx) ctx
  unfold State.countsDone State.useCtx
  rw [hc]
  exact ⟨_, rfl⟩

theorem State.countsDone_ctx (s : State) (ctx n last : Nat) :
    ((s.countsDone ctx n last).ctx ctx).done = n ∧ ((s.countsDone ctx n last).ctx ctx).lastjob = last
      ∧ ((s.countsDone ctx n last).ctx ctx).desc = ((s.useCtx ctx).ctx ctx).desc := by
  unfold State.countsDone
  rw [State.ctx_mapCtx, if_pos rfl]
  exact ⟨rfl, rfl, rfl⟩

theorem State.countsDone_statusPage (s : State) (ctx n last : Nat) :
    (s.countsDone ctx n last).statusPage ctx = s.statusPage ctx := by
  obtain ⟨-, -, hd⟩ := s.countsDone_ctx ctx n last
  exact (State.ctxField_congr (s := s.useCtx ctx) (t := s.countsDone ctx n last) rfl rfl rfl rfl hd 16 8).trans
    (s.ctxField_cacheDesc ctx 16 8)

/-- The two posts to the status page: LASTJOB, and behind it DONE (R313). -/
def State.postsDone (s : State) (ctx n last : Nat) : State :=
  (s.postHost ctx (s.statusPage ctx + 8) (leBytes 8 last)).postHost ctx (s.statusPage ctx) (leBytes 8 n)

theorem State.postsDone_frame (s : State) (ctx n last : Nat) :
    ∃ h l, s.postsDone ctx n last = { s with host := h, links := { s.links with hostSent := l } } := by
  obtain ⟨h, l, hp⟩ := s.postHost_frame ctx (s.statusPage ctx + 8) (leBytes 8 last)
  obtain ⟨h', l', hp'⟩ :=
    (s.postHost ctx (s.statusPage ctx + 8) (leBytes 8 last)).postHost_frame ctx (s.statusPage ctx) (leBytes 8 n)
  refine ⟨h', l', hp'.trans ?_⟩
  rw [hp]

theorem State.postsDone_host (s : State) (ctx n last : Nat) (hw : s.host.wf = true) (hu : s.links.hostUp = true) :
    (s.postsDone ctx n last).host.read (s.statusPage ctx) 8 = leBytes 8 n := by
  obtain ⟨-, -, -, u1, h1⟩ := s.postHost_rest ctx (s.statusPage ctx + 8) (leBytes 8 last)
  obtain ⟨-, -, -, -, h2⟩ :=
    (s.postHost ctx (s.statusPage ctx + 8) (leBytes 8 last)).postHost_rest ctx (s.statusPage ctx) (leBytes 8 n)
  rw [u1, h1, hu, if_pos rfl, if_pos rfl] at h2
  unfold State.postsDone
  rw [h2]
  have h := Memory.read_write (Memory.wf_write hw (s.statusPage ctx + 8) (leBytes 8 last)) (s.statusPage ctx) (leBytes 8 n)
  rwa [length_leBytes] at h

theorem State.done_useCtx (s : State) (n : Nat) : ((s.useCtx n).ctx n).done = (s.ctx n).done := by
  obtain ⟨d, hd⟩ := s.ctx_cacheDesc (s.partOfCtx n) n n
  unfold State.useCtx
  rw [hd]

theorem State.postDone_eq (s : State) (j : Job) :
    s.postDone j = ((s.countsDone j.ctx (((s.ctx j.ctx).done + 1) % 2 ^ 64) (j.num + j.status * 2 ^ 48)).postsDone j.ctx
      (((s.ctx j.ctx).done + 1) % 2 ^ 64) (j.num + j.status * 2 ^ 48)).msix (fnOf j.ctx) (j.ctx % 64) := by
  rw [← s.done_useCtx]
  rfl

/-- What a completed job leaves: its context's registers, the count on the host's page, and nothing else but a message. -/
theorem State.postDone_spec (s : State) (j : Job) (hw : s.host.wf = true) :
    ((s.postDone j).ctx j.ctx).done = ((s.ctx j.ctx).done + 1) % 2 ^ 64
      ∧ ((s.postDone j).ctx j.ctx).lastjob = j.num + j.status * 2 ^ 48
      ∧ (s.links.hostUp = true → (s.postDone j).host.read (s.statusPage j.ctx) 8 = leBytes 8 (((s.ctx j.ctx).done + 1) % 2 ^ 64))
      ∧ ∃ c h l m p, s.postDone j =
          { s with ctxs := c, host := h, links := { s.links with hostSent := l, msix := m, msixPend := p } } := by
  rw [s.postDone_eq]
  generalize ((s.ctx j.ctx).done + 1) % 2 ^ 64 = n
  generalize j.num + j.status * 2 ^ 48 = last
  obtain ⟨c, hc⟩ := s.countsDone_frame j.ctx n last
  obtain ⟨hdone, hlast, -⟩ := s.countsDone_ctx j.ctx n last
  have hpage := s.countsDone_statusPage j.ctx n last
  have hhost := (s.countsDone j.ctx n last).postsDone_host j.ctx n last
  rw [hpage] at hhost
  generalize s.countsDone j.ctx n last = u at hc hdone hlast hhost ⊢
  obtain ⟨h, l, hp⟩ := u.postsDone_frame j.ctx n last
  generalize u.postsDone j.ctx n last = v at hp hhost ⊢
  obtain ⟨m, p, hm⟩ := v.msix_frame (fnOf j.ctx) (j.ctx % 64)
  rw [hm]
  subst hp hc
  exact ⟨hdone, hlast, fun hup => hhost hw hup, c, h, l, m, p, rfl⟩

/-! ### The pieces of the completion record (R333) -/

theorem Job.length_record (j : Job) (now : Nat) : (j.record now).length = 64 := by
  unfold Job.record
  simp [length_leBytes]

/-- The bytes of a piece of a line: those from its address on. -/
def pieceOf (base : Nat) (b : List Byte) (e : Nat × Nat) : Nat × List Byte := (e.1, (b.drop (e.1 - base)).take e.2)

theorem lines_succ {fuel va n : Nat} (h : n ≠ 0) :
    lines (fuel + 1) va n = (va,
      Nat.min n (64 - va % 64)) :: lines fuel (va + Nat.min n (64 - va % 64)) (n - Nat.min n (64 - va % 64)) := by
  rw [lines, if_neg h]

/-- Each piece is as long as its line says. -/
theorem length_pieceOf_lines {base : Nat} {b : List Byte} (fuel : Nat) {va n : Nat} (hb : base ≤ va)
    (hl : va - base + n = b.length) :
    ((lines fuel va n).map (pieceOf base b)).map (fun e => (e.1, e.2.length)) = lines fuel va n := by
  induction fuel generalizing va n with
  | zero => rfl
  | succ fuel ih =>
    by_cases h : n = 0
    · rw [lines, if_pos h]
      rfl
    · have hmin : Nat.min n (64 - va % 64) ≤ n := Nat.min_le_left _ _
      rw [lines_succ h, List.map_cons, List.map_cons, ih (by omega) (by omega)]
      congr 2
      simp only [pieceOf, List.length_take, List.length_drop]
      omega

/-- The pieces put together are the bytes they cut. -/
theorem flatten_pieceOf_lines {base : Nat} {b : List Byte} (fuel : Nat) {va n : Nat} (hb : base ≤ va)
    (hl : va - base + n = b.length) (hf : n ≠ 0 → va % 64 + n ≤ 64 * fuel) :
    (((lines fuel va n).map (pieceOf base b)).map (·.2)).flatten = b.drop (va - base) := by
  induction fuel generalizing va n with
  | zero =>
    have hn : n = 0 := by
      by_contra h
      have := hf h
      omega
    exact (List.drop_eq_nil_of_le (by omega)).symm
  | succ fuel ih =>
    by_cases h : n = 0
    · rw [lines, if_pos h]
      exact (List.drop_eq_nil_of_le (by omega)).symm
    · have hmin : Nat.min n (64 - va % 64) = min n (64 - va % 64) := rfl
      have hfit := hf h
      rw [lines_succ h, List.map_cons, List.map_cons, List.flatten_cons, ih (by omega) (by omega) (by omega)]
      rw [show va + Nat.min n (64 - va % 64) - base = va - base + Nat.min n (64 - va % 64) by omega, ← List.drop_drop]
      exact List.take_append_drop _ _

/-- The record that has no piece written yet. -/
theorem Job.pieces_none {j : Job} {now : Nat} (h : j.recLeft = none) (hc : j.crec ≠ 0) :
    j.pieces now = (linesOf j.crec.toNat 64).map (pieceOf j.crec.toNat (j.record now)) := by
  unfold Job.pieces
  rw [h]
  exact if_neg (by simpa using hc)

theorem Job.pieces_nil {j : Job} {now : Nat} (h : j.crec = 0 ∨ j.recLeft = some []) : j.pieces now = [] := by
  unfold Job.pieces
  rcases h with h | h
  · exact if_pos (by simp [h])
  · rw [h]
    exact ite_self _

/-! ### JOB_COMPLETE (R92, R333, R334) -/

theorem mem_union_right {a b : List Nat} {w : Nat} (h : w ∈ b) : w ∈ union a b := List.mem_append_left _ h

theorem State.knownFar_sy_mem (s : State) (ids : List Nat) : ∀ w ∈ ids, w ∈ (s.knownFar .sy ids).links.syDone
    ∧ w ∈ (s.knownFar .sy ids).links.rKnown :=
  fun _ h => ⟨mem_union_right h, mem_union_right h⟩

theorem State.placeOf_knownFar (s : State) (ids : List Nat) (p : Partition) (pa : Nat) :
    (s.knownFar .sy ids).placeOf p pa = s.placeOf p pa := by
  have hl : ∀ q l, (s.knownFar .sy ids).localPlace q l = s.localPlace q l := fun _ _ => rfl
  have hd : (s.knownFar .sy ids).domainEntry = s.domainEntry := rfl
  have hu : (s.knownFar .sy ids).pathsUp = s.pathsUp := rfl
  have hp : (s.knownFar .sy ids).parts = s.parts := rfl
  unfold State.placeOf
  simp only [hl, hd, hu, hp]

theorem State.statusPage_knownFar (s : State) (ids : List Nat) (n : Nat) :
    (s.knownFar .sy ids).statusPage n = s.statusPage n := by
  have hp : (s.knownFar .sy ids).partOfCtx n = s.partOfCtx n := rfl
  have hx : (s.knownFar .sy ids).ctx n = s.ctx n := rfl
  have hm : (s.knownFar .sy ids).mem = s.mem := rfl
  unfold State.statusPage State.ctxField State.descOf
  rw [hp, hx, hm, State.placeOf_knownFar]

theorem State.siloToPool_nil {s : State} (h : s.silos = []) : s.siloToPool = s := by
  unfold State.siloToPool
  rw [h]
  rfl

theorem exec_jobComplete_finish {s : State} {j : Job} (hj : s.job j.num = some j) (hl : j.live = true) (ho : j.over = true)
    (hp : j.pieces s.now = []) (hh : j.recHost = false) (hr : s.recordOut (s.partOfCtx j.ctx) j.ctx = false) :
    exec (.jobComplete j.num) s = .next (((s.knownFar .sy j.recIds).postDone j).jobGone j.num) := by
  change execJobComplete j.num s = _
  unfold execJobComplete
  rw [hj]
  refine congrArg _ ((if_neg (by simp [hl, ho])).trans ?_)
  dsimp only
  rw [hp]
  unfold State.jobFinish
  exact (if_neg (by simp [hr])).trans (if_neg (by simp [hh]))

theorem exec_jobComplete_piece {s u : State} {j : Job} {ids : List Nat} {va : Nat} {bs : List Byte} {rest : List (Nat × List Byte)}
    (hj : s.job j.num = some j) (hl : j.live = true) (ho : j.over = true) (hp : j.pieces s.now = (va, bs) :: rest)
    (hh : s.ctxHeld (s.partOfCtx j.ctx) j.ctx va bs.length = false)
    (hu : s.ctxPut (s.partOfCtx j.ctx) { (s.partOfCtx j.ctx).who j.ctx with view := union j.knew j.recIds }
      [⟨j.knew, .sy, 64 * (s.partOfCtx j.ctx).first, []⟩] va bs = .ok u ids) :
    exec (.jobComplete j.num) s = .next ((u.knownFar .sy j.knew).mapJob j.num
      (·.wrotePiece rest ids (s.ctxToHost (s.partOfCtx j.ctx) j.ctx va bs.length))) := by
  change execJobComplete j.num s = _
  unfold execJobComplete
  rw [hj]
  refine congrArg _ ((if_neg (by simp [hl, ho])).trans ?_)
  dsimp only
  rw [hp]
  dsimp only
  rw [hh, hu]
  rfl

end Sys2Proof.Machine

open Sys2Proof Sys2Proof.Machine

/-- A job whose record is written counts in DONE and is gone (R313, R334). -/
theorem jobComplete_finish {s : State} {j : Job} (hj : s.job j.num = some j) (hl : j.live = true) (ho : j.over = true)
    (hp : j.crec = 0 ∨ j.recLeft = some []) (hh : j.recHost = false) (hr : s.recordOut (s.partOfCtx j.ctx) j.ctx = false)
    (hs : s.silos = []) (hok : s.MemOk) :
    Yields s (.jobComplete j.num) fun t =>
      t.mem = s.mem ∧ t.clusters = s.clusters ∧ t.jobs = s.jobs.filter (fun i => i.num != j.num)
        ∧ (t.ctx j.ctx).done = ((s.ctx j.ctx).done + 1) % 2 ^ 64
        ∧ (t.ctx j.ctx).lastjob = j.num + j.status * 2 ^ 48
        ∧ (s.links.hostUp = true → t.host.read (s.statusPage j.ctx) 8 = leBytes 8 (((s.ctx j.ctx).done + 1) % 2 ^ 64))
        ∧ ∀ w ∈ j.recIds, w ∈ t.links.syDone ∧ w ∈ t.links.rKnown := by
  refine ⟨_, exec_jobComplete_finish hj hl ho (Job.pieces_nil hp) hh hr, ?_⟩
  obtain ⟨-, hhost, -⟩ := hok
  have hknown := s.knownFar_sy_mem j.recIds
  obtain ⟨hdone, hlast, hread, c, h, l, m, p, he⟩ := (s.knownFar .sy j.recIds).postDone_spec j hhost
  rw [State.statusPage_knownFar] at hread
  generalize (s.knownFar .sy j.recIds).postDone j = v at *
  unfold State.jobGone
  rw [State.siloToPool_nil (by rw [he]; exact hs)]
  refine ⟨by rw [he]; rfl, by rw [he]; rfl, by rw [he]; rfl, hdone, hlast, hread, fun w hw => ?_⟩
  rw [he]
  exact hknown w hw

theorem jobComplete_piece {s u : State} {j : Job} {ids : List Nat} {va : Nat} {bs : List Byte} {rest : List (Nat × List Byte)}
    (hj : s.job j.num = some j) (hl : j.live = true) (ho : j.over = true) (hp : j.pieces s.now = (va, bs) :: rest)
    (hh : s.ctxHeld (s.partOfCtx j.ctx) j.ctx va bs.length = false)
    (hu : s.ctxPut (s.partOfCtx j.ctx) { (s.partOfCtx j.ctx).who j.ctx with view := union j.knew j.recIds }
      [⟨j.knew, .sy, 64 * (s.partOfCtx j.ctx).first, []⟩] va bs = .ok u ids) (huj : u.job j.num = some j) :
    Yields s (.jobComplete j.num) fun t => t.mem = u.mem ∧ (∀ w ∈ j.knew, w ∈ t.links.syDone ∧ w ∈ t.links.rKnown)
      ∧ ∃ k, t.job j.num = some k ∧ k.recLeft = some rest ∧ ∀ w ∈ ids, w ∈ k.recIds := by
  refine ⟨_, exec_jobComplete_piece hj hl ho hp hh hu, rfl, u.knownFar_sy_mem j.knew,
    j.wrotePiece rest ids (s.ctxToHost (s.partOfCtx j.ctx) j.ctx va bs.length), ?_, rfl, fun w hw => mem_union_right hw⟩
  refine ((u.knownFar .sy j.knew).job_mapJob j.num
    (f := (·.wrotePiece rest ids (s.ctxToHost (s.partOfCtx j.ctx) j.ctx va bs.length))) fun _ => rfl).trans ?_
  exact congrArg (Option.map _) huj

theorem pieces_cut_record {j : Job} {now : Nat} (h : j.recLeft = none) (hc : j.crec ≠ 0) :
    (j.pieces now).map (fun e => (e.1, e.2.length)) = linesOf j.crec.toNat 64
      ∧ ((j.pieces now).map (·.2)).flatten = j.record now := by
  have hl : j.crec.toNat - j.crec.toNat + 64 = (j.record now).length := by rw [j.length_record]; omega
  rw [Job.pieces_none h hc]
  refine ⟨length_pieceOf_lines _ le_rfl hl, (flatten_pieceOf_lines _ le_rfl hl (by omega)).trans ?_⟩
  rw [Nat.sub_self]
  rfl

end

section
namespace Sys2Proof.Machine

/-! ### Launch writes (R312, R313, R324, R390, R423) -/

theorem fnOf_launch (fn : Nat) {off : Nat} (h : off < 0x40000) : fnOf (64 * fn + off / 4096) = fn := by
  unfold fnOf
  omega

/-- A launch write that is neither dropped nor held is checked against its context's descriptor (R390). -/
theorem exec_launchWrite {s : State} {fn off : Nat} {a : InboundAttr} (bs : List Byte) (hr : a.rootPort = true) (hf : fn < 256)
    (ho : off < 0x40000) (hb : s.boot.st = 5) (hi : s.inboundOut a.requester = false) :
    exec (.launchWrite fn off bs a) s = .next (
      let ctx := 64 * fn + off / 4096
      let p := s.partOfCtx ctx
      let s1 := s.cacheDesc p ctx
      if !descValid (s.descOf p ctx) then s1.updPartition p fun p => { p with dropcnt := Nat.min (p.dropcnt + 1) (2 ^ 32 - 1) }
      else if !a.oneTlp || bs.length != 64 || off % 64 != 0 || a.poisoned then s1.reject ctx 1
      else if a.relaxed || a.idOrdered then s1.reject ctx 2
      else s1.acceptHost ctx bs) := by
  have hp : s.partOfFn fn = s.partOfCtx (64 * fn + off / 4096) := by
    unfold State.partOfCtx
    rw [fnOf_launch fn ho]
  change execLaunchWrite fn off bs a s = _
  unfold execLaunchWrite
  rw [hp]
  exact congrArg _ (if_neg (by simp [hr, hb, hi, hf, ho]))

/-- REJ and its reason (R313). -/
theorem State.reject_spec (s : State) (ctx reason : Nat) :
    (s.reject ctx reason).jobs = s.jobs ∧ (s.reject ctx reason).mem = s.mem
      ∧ ((s.reject ctx reason).ctx ctx).rej = ((s.ctx ctx).rej + 1) % 2 ^ 56
        ∧ ((s.reject ctx reason).ctx ctx).rejReason = reason := by
  obtain ⟨d, hd⟩ := s.ctx_cacheDesc (s.partOfCtx ctx) ctx ctx
  obtain ⟨c, hc⟩ := s.cacheDesc_frame (s.partOfCtx ctx) ctx
  have hrej : ((s.useCtx ctx).ctx ctx).rej = (s.ctx ctx).rej := by
    unfold State.useCtx
    rw [hd]
  unfold State.reject
  dsimp only
  rw [hrej]
  generalize ((s.ctx ctx).rej + 1) % 2 ^ 56 = n
  set u := (s.useCtx ctx).mapCtx ctx fun x => { x with rej := n, rejReason := reason } with hu
  obtain ⟨h, l, hp⟩ := u.postHost_frame ctx ((s.useCtx ctx).statusPage ctx + 0x10) (leBytes 8 (n + reason * 2 ^ 56))
  have hctx : u.ctx ctx = { (s.useCtx ctx).ctx ctx with rej := n, rejReason := reason } := by
    rw [hu, State.ctx_mapCtx, if_pos rfl]
  have hrest : u.jobs = s.jobs ∧ u.mem = s.mem := by
    rw [hu]
    unfold State.useCtx
    rw [hc]
    exact ⟨rfl, rfl⟩
  obtain ⟨hj, hm⟩ := hrest
  rw [hp]
  refine ⟨hj, hm, ?_, ?_⟩
  · exact congrArg Ctx.rej hctx
  · exact congrArg Ctx.rejReason hctx

theorem State.reject_cacheDesc_spec (s : State) (p : Partition) (ctx reason : Nat) :
    ((s.cacheDesc p ctx).reject ctx reason).jobs = s.jobs ∧ ((s.cacheDesc p ctx).reject ctx reason).mem = s.mem
      ∧ (((s.cacheDesc p ctx).reject ctx reason).ctx ctx).rej = ((s.ctx ctx).rej + 1) % 2 ^ 56
      ∧ (((s.cacheDesc p ctx).reject ctx reason).ctx ctx).rejReason = reason := by
  obtain ⟨hj, hm, hrej, hreason⟩ := (s.cacheDesc p ctx).reject_spec ctx reason
  obtain ⟨d, hd⟩ := s.ctx_cacheDesc p ctx ctx
  obtain ⟨c, hc⟩ := s.cacheDesc_frame p ctx
  rw [hd] at hrej
  rw [hc] at hj hm
  exact ⟨(congrArg State.jobs (congrArg (·.reject ctx reason) hc)).trans hj,
    (congrArg State.mem (congrArg (·.reject ctx reason) hc)).trans hm,
    hrej, hreason⟩

/-- t is s with one more job, a host's record under the next number of its context. -/
structure State.Launched (s t : State) (ctx : Nat) (l : Launch) (pool : Bool) : Prop where
  mem : pool = true → t.mem = s.mem
  seq : (t.ctx ctx).seqHost = ((s.ctx ctx).seqHost + 1) % 2 ^ 33
  job : ∃ j, t.jobs = s.jobs ++ [j] ∧ j.num = ctx * 2 ^ 34 + ((s.ctx ctx).seqHost + 1) % 2 ^ 33 ∧ j.ctx = ctx ∧ j.inPool = pool
    ∧ j.code = 0 ∧ j.gangs.length = l.ngm1 + 1 ∧ j.live = true

theorem State.newJob_launched (s : State) (ctx : Nat) (l : Launch) (pool : Bool) :
    s.Launched (s.newJob ctx l none 0 pool).1 ctx l pool := by
  have hnum : ctx * 2 ^ 34 + 0 * 2 ^ 33 + ((s.ctx ctx).seqHost + 1) % 2 ^ 33 = ctx * 2 ^ 34 + ((s.ctx ctx).seqHost + 1) % 2 ^ 33 := by
    rw [Nat.zero_mul, Nat.add_zero]
  refine ⟨fun _ => rfl, ?_, _, rfl, hnum, rfl, rfl, rfl, ?_, rfl⟩
  · change ((s.mapCtx ctx fun x => { x with seqHost := ((s.ctx ctx).seqHost + 1) % 2 ^ 33 }).ctx ctx).seqHost = _
    rw [State.ctx_mapCtx, if_pos rfl]
  · exact (List.length_map _).trans List.length_range

theorem State.placeJob_launched (s : State) (ctx : Nat) (b : List Byte) (pool : Bool) :
    s.Launched (s.placeJob ctx b none pool).1 ctx (launchOf b) pool := by
  have h := s.newJob_launched ctx (launchOf b) pool
  cases pool with
  | true => exact h
  | false =>
    have hp := (s.newJob ctx (launchOf b) none 0 false).1.submits_siloPut ctx (s.newJob ctx (launchOf b) none 0 false).2 b
    obtain ⟨j, hj, hf⟩ := h.job
    exact ⟨fun hn => Bool.noConfusion hn, (hp.seqHost ctx).trans h.seq, j, hp.jobs.trans hj, hf⟩

theorem State.launched_cacheDesc {s t : State} {p : Partition} {ctx : Nat} {l : Launch} {pool : Bool}
    (h : (s.cacheDesc p ctx).Launched t ctx l pool) : s.Launched t ctx l pool := by
  obtain ⟨d, hd⟩ := s.ctx_cacheDesc p ctx ctx
  obtain ⟨c, hc⟩ := s.cacheDesc_frame p ctx
  obtain ⟨hm, hs, hj⟩ := h
  rw [hd] at hs hj
  rw [hc] at hm hj
  exact ⟨hm, hs, hj⟩

/-- A record that passes its checks and finds room becomes a job (R324). -/
theorem State.acceptHost_launched {s : State} {ctx : Nat} {b : List Byte} {p : Bool} (hb :
    s.badLaunch ctx (launchOf b) false = false)
    (hr : s.room ctx false = some p) : s.Launched (s.acceptHost ctx b) ctx (launchOf b) p := by
  have he : s.acceptHost ctx b = ((s.cacheDesc (s.partOfCtx ctx) ctx).placeJob ctx b none p).1 := by
    unfold State.acceptHost
    refine (if_neg ?_).trans ?_
    · rw [State.badLaunch_cacheDesc, hb]
      exact Bool.false_ne_true
    · rw [State.room_cacheDesc, hr]
  rw [he]
  exact State.launched_cacheDesc (State.placeJob_launched _ _ _ _)

theorem State.acceptHost_cacheDesc_launched {s : State} {ctx : Nat} {b : List Byte} {p : Bool}
    (hb : s.badLaunch ctx (launchOf b) false = false) (hr : s.room ctx false = some p) :
    s.Launched ((s.cacheDesc (s.partOfCtx ctx) ctx).acceptHost ctx b) ctx (launchOf b) p :=
  State.launched_cacheDesc (State.acceptHost_launched (by rw [State.badLaunch_cacheDesc, hb]) (by rw [State.room_cacheDesc, hr]))

end Sys2Proof.Machine

open Sys2Proof Sys2Proof.Machine

/-- Settles O37: a task's status goes to its gang before the gang is looked at, the record's pieces are its lines, and a launch
write is checked against a descriptor that reads the same from the cache. -/
theorem completion : Obligations.Completion := by
  unfold Obligations.Completion
  refine ⟨?_, ?_, ?_⟩
  · intro s c g hr k hst hg hc _ hf hsy hu hz
    exact taskRetire_completion s c g hr hst hg hc hf hsy hu hz
  · intro s j hj hl ho p
    exact ⟨fun hp hh hr hs hok => jobComplete_finish hj hl ho hp hh hr hs hok, pieces_cut_record,
      fun u ids va bs rest hp hh hu huj => jobComplete_piece hj hl ho hp hh hu huj⟩
  · intro s fn off bs a hr hf ho hb hi ctx l rejected whole
    have hx := exec_launchWrite bs hr hf ho hb hi
    have hp : s.partOfFn fn = s.partOfCtx ctx := by
      unfold State.partOfCtx
      rw [fnOf_launch fn ho]
    rw [hp]
    have hwhole : (!a.oneTlp || bs.length != 64 || off % 64 != 0 || a.poisoned) = true ↔ ¬whole := by
      simp only [whole, Bool.or_eq_true, Bool.not_eq_true', bne_iff_ne, not_and_or, Bool.not_eq_true, Bool.not_eq_false, or_assoc]
    refine ⟨fun hv => ?_, fun hv => ?_⟩
    · replace hx := hx.trans (congrArg _ (if_neg (by simp [ctx, hv])))
      refine ⟨fun hn => ⟨_, hx.trans (congrArg _ (if_pos (hwhole.mpr hn))), s.reject_cacheDesc_spec _ ctx 1⟩, fun hw hor => ?_,
        fun hw hrel hid hbad p hroom => ?_⟩
      · refine ⟨_, hx.trans (congrArg _ ((if_neg (mt hwhole.mp (not_not_intro hw))).trans (if_pos (by simpa using hor)))),
          s.reject_cacheDesc_spec _ ctx 2⟩
      · obtain ⟨hm, hs, hjob⟩ := State.acceptHost_cacheDesc_launched hbad hroom
        exact ⟨_, hx.trans (congrArg _ ((if_neg (mt hwhole.mp (not_not_intro hw))).trans (if_neg (by simp [hrel, hid])))), hm,
          hs, hjob⟩
    · refine ⟨_, hx.trans (congrArg _ (if_pos (by simp [ctx, hv]))), ?_⟩
      obtain ⟨c, hc⟩ := s.cacheDesc_frame (s.partOfCtx ctx) ctx
      have hd := s.ctx_cacheDesc (s.partOfCtx ctx) ctx
      generalize s.cacheDesc (s.partOfCtx ctx) ctx = u at hc hd ⊢
      refine ⟨(congrArg State.jobs hc :), fun n => ?_, (congrArg State.mem hc :)⟩
      obtain ⟨d, hd⟩ := hd n
      exact (congrArg (fun x : Ctx => ({ x with desc := (s.ctx n).desc } : Ctx)) hd :)

end

section
namespace Sys2Proof.Machine

/-! ### What an access of the scheduler leaves unchanged (R331, R334) -/

/-- The cluster is as it was, but for the paths on which a release owes a marker (R97). -/
def Cluster.SameButPaths (k x : Cluster) : Prop := ∃ a b d, x = { k with usedMo := a, usedDo := b, usedSy := d }

theorem Cluster.SameButPaths.refl (k : Cluster) : k.SameButPaths k := ⟨_, _, _, rfl⟩

theorem Cluster.SameButPaths.trans {k x y : Cluster} (h : k.SameButPaths x) (h' : x.SameButPaths y) : k.SameButPaths y := by
  obtain ⟨_, _, _, rfl⟩ := h
  obtain ⟨a, b, d, rfl⟩ := h'
  exact ⟨a, b, d, rfl⟩

/-- The state after an access of the scheduler: memory, jobs, partitions, time and saved tasks stand, and every cluster but for
its paths. -/
structure State.Sees (s t : State) : Prop where
  mem : t.mem = s.mem
  jobs : t.jobs = s.jobs
  parts : t.parts = s.parts
  now : t.now = s.now
  savedCl : t.savedCl = s.savedCl
  cluster : ∀ c, (s.cluster c).SameButPaths (t.cluster c)

theorem State.Sees.refl (s : State) : s.Sees s := ⟨rfl, rfl, rfl, rfl, rfl, fun _ => .refl _⟩

theorem State.Sees.trans {s t u : State} (h : s.Sees t) (h' : t.Sees u) : s.Sees u :=
  ⟨h'.mem.trans h.mem, h'.jobs.trans h.jobs, h'.parts.trans h.parts, h'.now.trans h.now, h'.savedCl.trans h.savedCl,
    fun c => (h.cluster c).trans (h'.cluster c)⟩

/-- What the device's caches, counters, links and traces take up is nothing an access of the scheduler leaves unchanged. -/
theorem State.sees_of_eq {s t : State} {ctxs dbg host links counter l2 fills staging}
    (h : t = { s with ctxs := ctxs, dbg := dbg, host := host, links := links, counter := counter, l2 := l2, l2Fills := fills,
                      staging := staging }) : s.Sees t := by
  rw [h]
  exact ⟨rfl, rfl, rfl, rfl, rfl, fun _ => .refl _⟩

theorem State.CachesOf.sees {s t : State} (h : s.CachesOf t) : s.Sees t := by
  obtain ⟨_, _, _, _, _, h⟩ := h
  exact State.sees_of_eq h

theorem State.sees_trace (s : State) (ty ctx region blk ver : Nat) (payload : List Byte) :
    s.Sees (s.trace ty ctx region blk ver payload) := by
  unfold State.trace
  extract_lets d
  split
  · exact .refl s
  split
  · exact State.sees_of_eq rfl
  · exact State.sees_of_eq rfl

theorem State.sees_l2Filter (s : State) (r : MemReq) (kind slice f : Nat) : s.Sees (s.l2Filter r kind slice f) := by
  unfold State.l2Filter
  split
  · exact .refl s
  extract_lets n samp d s1
  have h1 : s.Sees s1 := State.sees_of_eq rfl
  split
  · refine h1.trans ?_
    unfold State.traceL2
    extract_lets clk sl ofRegion d2 s2
    split
    · split
      · exact State.sees_of_eq rfl
      · exact .refl _
    · exact (State.sees_of_eq rfl : s1.Sees s2).trans (State.sees_trace _ _ _ _ _ _ _)
  · exact h1

theorem State.sees_meetsL2 {s : State} {r : MemReq} (h : r.agent.sub = schedulerSub) (merged again : Bool) :
    s.Sees (s.meetsL2 r merged again) := by
  unfold State.meetsL2
  extract_lets counts s1 kind s2
  have h1 : s1 = s := by
    dsimp only [s1, counts]
    split
    · simp [h]
    · rfl
  have h2 : s.Sees s2 := by
    dsimp only [s2]
    rw [h1]
    exact (s.sees_l2Filter _ _ _ _).trans (State.sees_l2Filter _ _ _ _ _)
  split
  · exact h2.trans (State.touchL2_caches _ _ _ _).sees
  · exact h2

theorem State.sees_note {s : State} {a : Agent} (hc : a.cls = 0) (h : a.sub = schedulerSub) (ws rs : List Nat) :
    s.Sees (s.note a ws rs) := by
  unfold State.note
  split
  · exact .refl s
  split
  · exact State.sees_of_eq rfl
  · rw [hc, h]
    exact .refl s

theorem State.sees_ctxMiss (s : State) (w : Who) (key : Nat) : s.Sees (s.ctxMiss w key) := by
  obtain ⟨c, l, h⟩ := s.countCtx_frame w.asid 6 (if w.cls == 5 || s.hitsL2 key then 0 else 1)
  exact State.sees_of_eq h

theorem State.sees_toHost_read (s : State) (a : Agent) (ctx off n : Nat) (ret : RetTo) (rel : Option RelInfo) (leaf :
    Option TlbEntry) :
    s.Sees (s.toHost a ctx off (.read n) ret rel leaf) := by
  unfold State.toHost
  extract_lets ats h s0 s1
  have h0 : s0 = s := rfl
  have h1 : s.Sees s1 := by
    dsimp only [s1]
    rw [h0]
    split
    · exact .refl s
    · exact State.sees_of_eq rfl
  exact h1.trans (State.sees_of_eq rfl)

theorem Cluster.sameButPaths_usePath (k : Cluster) (m p : Nat) : k.SameButPaths (k.usePath m p) := ⟨_, _, _, rfl⟩

theorem State.sees_mapCl {s : State} {c : Nat} {f : Cluster → Cluster} (h : (s.cluster c).SameButPaths (f (s.cluster c))) :
    s.Sees (s.mapCl c f) := by
  refine ⟨rfl, rfl, rfl, rfl, rfl, fun d => ?_⟩
  by_cases hd : d = c
  · subst hd
    rw [State.cluster_mapCl_same]
    exact h
  · rw [State.cluster_mapCl_ne _ _ _ _ hd]
    exact .refl _

theorem State.sees_sendRemote (s : State) (r : MemReq) : s.Sees (s.sendRemote r) := by
  unfold State.sendRemote
  extract_lets busy tag smod path s1
  have h1 : s.Sees s1 := (State.sees_mapCl (Cluster.sameButPaths_usePath _ (paModule r.pa) path)).trans (State.sees_of_eq rfl)
  exact h1.trans (State.sees_of_eq rfl)

/-- The access ends or waits in a state with the property. -/
def Got.After {α : Type} (P : State → Prop) : Got α → Prop
  | .ok s _ => P s
  | .fail s _ _ _ => P s
  | .wait s => P s

theorem State.readFar_sees {s : State} {ask : State → State} (ha : s.Sees (ask s)) (w : Who) (line va n off : Nat) :
    (s.readFar w line va n off ask).After s.Sees := by
  unfold State.readFar
  split
  · exact .refl s
  extract_lets out
  split
  · exact State.sees_of_eq rfl
  split
  · exact .refl s
  · exact ha

/-- The agent is a partition's own scheduler. -/
def Who.Schedules (w : Who) : Prop := w.cls = 0 ∧ w.sub = schedulerSub

theorem Partition.who_schedules (p : Partition) (ctx : Nat) : (p.who ctx).Schedules := ⟨rfl, rfl⟩

theorem State.readAt_sees {s : State} {w : Who} (hw : w.Schedules) (t : Target) (va n : Nat) :
    (s.readAt w t va n).After s.Sees := by
  obtain ⟨hc, hs⟩ := hw
  cases t with
  | tile key =>
    unfold State.readAt
    dsimp only
    split
    · exact .refl s
    · exact .refl s
  | mem key pa rcls =>
    unfold State.readAt
    exact (State.sees_note (a := w.agent) hc hs _ _).trans (State.sees_meetsL2 (r := w.homeReq (.read n) key pa rcls) hs _ _)
  | host off =>
    unfold State.readAt
    exact State.readFar_sees (by exact s.sees_toHost_read _ _ _ _ _ _ _) _ _ _ _ _
  | remote pa =>
    unfold State.readAt
    exact State.readFar_sees (by exact s.sees_sendRemote _) _ _ _ _ _

/-- A translation by PD0's walkers never waits. -/
theorem State.ctxTarget_no_wait (s u : State) (p : Partition) (ctx va n : Nat) (need : Need) :
    s.ctxTarget p ctx va n need ≠ .wait u := by
  unfold State.ctxTarget
  extract_lets s1
  split
  · exact nofun
  split
  · exact nofun
  split
  · exact nofun
  extract_lets pa
  split
  · exact nofun
  split
  · split
    · exact nofun
    · exact nofun
  · exact nofun
  · exact nofun
  · exact nofun

theorem State.ctxTarget_sees (s : State) (p : Partition) (ctx va n : Nat) (need : Need) :
    (s.ctxTarget p ctx va n need).After s.Sees := by
  have he := s.ctxTarget_ends p ctx va n need
  cases h : s.ctxTarget p ctx va n need with
  | ok s1 t => rw [h] at he; exact State.CachesOf.sees he
  | fail s1 c d a => rw [h] at he; exact State.CachesOf.sees he
  | wait s1 => exact absurd h (s.ctxTarget_no_wait _ _ _ _ _ _)

theorem Got.After.of_sees {α : Type} {s u : State} {g : Got α} (h : s.Sees u) (hg : g.After u.Sees) : g.After s.Sees := by
  cases g with
  | ok t x => exact h.trans hg
  | fail t c d a => exact h.trans hg
  | wait t => exact h.trans hg

theorem State.ctxPiece_sees {s : State} {w : Who} (hw : w.Schedules) (p : Partition) (va n : Nat) :
    (s.ctxPiece p w va n).After s.Sees := by
  have ht := s.ctxTarget_sees p w.asid va n needR
  unfold State.ctxPiece
  cases h : s.ctxTarget p w.asid va n needR with
  | fail s1 c d a => rw [h] at ht; exact ht
  | wait s1 => rw [h] at ht; exact ht
  | ok s1 t =>
    rw [h] at ht
    have h1 : s.Sees s1 := ht
    have hgive : ∀ g : Got (List Byte × List RelInfo), g.After s.Sees → (match g with
        | .ok s1 x => (.ok s1 x.1 : Got (List Byte))
        | .fail s1 c d a => .fail s1 c d a
        | .wait s1 => .wait s1).After s.Sees := fun g hg => by
      cases g with
      | ok u x => exact hg
      | fail u c d a => exact hg
      | wait u => exact hg
    cases t with
    | tile key => exact h1
    | mem key pa rcls => exact hgive ((s1.ctxMiss w key).readAt w (.mem key pa rcls) va n) (.of_sees (h1.trans
      (s1.sees_ctxMiss w key)) (State.readAt_sees hw _ _ _))
    | host off => exact hgive (s1.readAt w (.host off) va n) (.of_sees h1 (State.readAt_sees hw _ _ _))
    | remote pa => exact hgive (s1.readAt w (.remote pa) va n) (.of_sees h1 (State.readAt_sees hw _ _ _))

theorem State.ctxPieces_sees {w : Who} (hw : w.Schedules) (p : Partition) (l : List (Nat × Nat)) (s : State) (acc : List Byte) :
    (s.ctxPieces p w l acc).After s.Sees := by
  induction l generalizing s acc with
  | nil => exact .refl s
  | cons e l ih =>
    obtain ⟨va, n⟩ := e
    have hp := s.ctxPiece_sees hw p va n
    rw [State.ctxPieces]
    cases h : s.ctxPiece p w va n with
    | ok s1 bs => rw [h] at hp; exact .of_sees hp (ih s1 _)
    | fail s1 c d a => rw [h] at hp; exact hp
    | wait s1 => rw [h] at hp; exact hp

/-- A read of the scheduler leaves memory, jobs, partitions and every cluster but its paths as they are. -/
theorem State.ctxRead_sees (s : State) (p : Partition) (ctx va n : Nat) : (s.ctxRead p (p.who ctx) va n).After s.Sees :=
  State.ctxPieces_sees (p.who_schedules ctx) p _ s _

end Sys2Proof.Machine
end

section
namespace Sys2Proof.Machine

/-! ### Gangs that are past their checks (R325) -/

theorem State.gang_mem {s : State} {num gi : Nat} {g : Gang} (h : s.gang num gi = some g) :
    ∃ j ∈ s.jobs, g ∈ j.gangs := by
  obtain ⟨j, hj, hg⟩ := Option.bind_eq_some_iff.mp h
  exact ⟨j, List.mem_of_find?_eq_some hj, List.mem_of_find?_eq_some hg⟩

/-- No gang's entry or image is still to be read. -/
def State.AllRead (s : State) : Prop := ∀ i ∈ s.jobs, ∀ x ∈ i.gangs, x.st ≠ .waiting ∧ x.st ≠ .entered ∧ x.st ≠ .checking

/-- What changes nothing where the gang is found changes nothing. -/
theorem State.withGang_fixed {s : State} {num gi : Nat} {f : Job → Gang → State}
    (h : ∀ j g, s.gang num gi = some g → f j g = s) :
    (match s.job num, s.gang num gi with | some j, some g => f j g | _, _ => s) = s := by
  split
  next hg => exact h _ _ hg
  · rfl

theorem State.AllRead.gang {s : State} (h : s.AllRead) {num gi : Nat} {g : Gang} (hg : s.gang num gi = some g) :
    g.st ≠ .waiting ∧ g.st ≠ .entered ∧ g.st ≠ .checking := by
  obtain ⟨j, hj, hmem⟩ := State.gang_mem hg
  exact h j hj g hmem

theorem State.advanceGang_read {s : State} (h : s.AllRead) (p : Partition) (num gi : Nat) : s.advanceGang p num gi = s := by
  unfold State.advanceGang
  extract_lets read stamp ready
  have hread : read s = s := State.withGang_fixed fun j g hg => if_neg (by
    obtain ⟨hw, -, -⟩ := h.gang hg
    simpa using hw)
  have hstamp : stamp s = s := State.withGang_fixed fun j g hg => if_neg (by
    obtain ⟨-, he, -⟩ := h.gang hg
    simp [he])
  have hready : ready s = s := State.withGang_fixed fun j g hg => if_neg (by
    obtain ⟨-, -, hc⟩ := h.gang hg
    simpa using hc)
  rw [hread, hstamp, hready]

theorem State.advanceGangs_read {s : State} (h : s.AllRead) (p : Partition) : s.advanceGangs p = s := by
  unfold State.advanceGangs
  exact List.foldl_fixed' (fun (j : Job) => List.foldl_fixed' (fun (g : Gang) => State.advanceGang_read h p j.num g.gi) _) _

/-- A cycle in which nothing is left to read makes its choice (R325, R328). -/
theorem exec_schedulerCycle {s : State} {part : Nat} {p : Partition} {j : Job} {g : Gang} (hp : s.partAt part = some p)
    (hs : p.switching = none) (hr : s.AllRead) (hw : s.reworldAll p = s) (hf : s.first p = some (j, g)) :
    exec (.schedulerCycle part) s = .next (if s.fits p g then (s.admission p j g).unstage p else s.stage p j g) := by
  change execSchedulerCycle part s = _
  unfold execSchedulerCycle
  rw [hp]
  dsimp only
  rw [hw, State.advanceGangs_read hr, hs]
  refine congrArg _ ((if_neg Bool.false_ne_true).trans ?_)
  rw [hf]

/-! ### Tasks that staging leaves alone (R330) -/

theorem Table.get_map_congr {α β : Type} {f : Nat × α → Nat × α} {d : α} {v : α → β} (hk : ∀ e, (f e).1 = e.1)
    (hv : ∀ e, v (f e).2 = v e.2) (t : Table α) (k : Nat) : v (Table.get (t.map f) k d) = v (Table.get t k d) := by
  induction t with
  | nil => rfl
  | cons e t ih =>
    obtain ⟨i, x⟩ := e
    rw [List.map_cons, show f (i, x) = (i, (f (i, x)).2) from Prod.ext (hk _) rfl, Table.get, Table.get]
    split
    · exact hv _
    · exact ih

theorem State.task_mapPartCls (s : State) (p : Partition) {f : Cluster → Cluster} (hf : ∀ k, (f k).task = k.task) (c : Nat) :
    ((s.mapPartCls p f).cluster c).task = (s.cluster c).task := by
  refine Table.get_map_congr (v := Cluster.task) (fun e => ?_) (fun e => ?_) s.clusters c
  · split <;> rfl
  · split
    · exact hf _
    · rfl

/-- Memory and jobs stand, and every cluster has its task. -/
structure State.KeepsTasks (s t : State) : Prop where
  mem : t.mem = s.mem
  jobs : t.jobs = s.jobs
  task : ∀ c, (t.cluster c).task = (s.cluster c).task

theorem State.KeepsTasks.refl (s : State) : s.KeepsTasks s := ⟨rfl, rfl, fun _ => rfl⟩

theorem State.KeepsTasks.trans {s t u : State} (h : s.KeepsTasks t) (h' : t.KeepsTasks u) : s.KeepsTasks u :=
  ⟨h'.mem.trans h.mem, h'.jobs.trans h.jobs, fun c => (h'.task c).trans (h.task c)⟩

theorem State.Sees.keepsTasks {s t : State} (h : s.Sees t) : s.KeepsTasks t := by
  refine ⟨h.mem, h.jobs, fun c => ?_⟩
  obtain ⟨a, b, d, hc⟩ := h.cluster c
  rw [hc]

theorem State.keepsTasks_mapCl (s : State) (c : Nat) {f : Cluster → Cluster} (hf : ∀ k, (f k).task = k.task) :
    s.KeepsTasks (s.mapCl c f) := by
  refine ⟨rfl, rfl, fun d => ?_⟩
  by_cases hd : d = c
  · subst hd
    rw [State.cluster_mapCl_same, hf]
  · rw [State.cluster_mapCl_ne _ _ _ _ hd]

theorem State.unstage_keepsTasks (s : State) (p : Partition) : s.KeepsTasks (s.unstage p) :=
  ⟨rfl, rfl, s.task_mapPartCls p fun _ => rfl⟩

theorem Cluster.emptyStaged_task (k : Cluster) : k.emptyStaged.task = k.task := by
  unfold Cluster.emptyStaged
  generalize (k.staged.map (·.preps)).getD [] = l
  induction l generalizing k with
  | nil => rfl
  | cons x l ih =>
    rw [List.foldl_cons, ih]
    split <;> rfl

theorem State.prepare_keepsTasks (s : State) (p : Partition) (j : Job) (g : Gang) (r c : Nat) :
    s.KeepsTasks (s.prepare p j g r c) := by
  unfold State.prepare
  extract_lets img go named
  have hgo : ∀ t : State, t.KeepsTasks (go t) := fun t => t.keepsTasks_mapCl c fun k => Cluster.emptyStaged_task _
  have hnamed : ∀ (t : State) l, t.KeepsTasks (named t l) := fun t l => (t.keepsTasks_mapCl c (f :=
    fun k => { k with staged := k.staged.map fun x => { x with blks := some l } }) fun _ => rfl).trans (hgo _)
  split
  · have hr := s.ctxRead_sees p j.ctx (g.thrp.toNat + 64 * (g.thrn * r)) (64 * g.thrn)
    cases h : s.ctxRead p (p.who j.ctx) (g.thrp.toNat + 64 * (g.thrn * r)) (64 * g.thrn) with
    | ok s1 b => rw [h] at hr; exact (State.Sees.keepsTasks hr).trans (hnamed _ _)
    | fail s1 d e a => rw [h] at hr; exact (State.Sees.keepsTasks hr).trans (hnamed _ _)
    | wait s1 => rw [h] at hr; exact State.Sees.keepsTasks hr
  · exact hgo s
  · exact .refl s

theorem State.stage_keepsTasks (s : State) (p : Partition) (j : Job) (g : Gang) : s.KeepsTasks (s.stage p j g) := by
  unfold State.stage
  extract_lets l s1
  have h1 : s.KeepsTasks s1 := by
    refine ⟨rfl, rfl, fun c => ?_⟩
    refine Table.get_map_congr (v := Cluster.task) (fun e => ?_) (fun e => ?_) s.clusters c
    · split <;> rfl
    · split <;> rfl
  suffices hw : ∀ (l : List (Nat × Nat)) (t : State), s.KeepsTasks t →
      s.KeepsTasks (l.foldl (fun t e => t.prepare p j g (if g.st == .saved then g.clusters.idxOf e.1 else e.2) e.1) t) from hw _ _ h1
  intro l
  induction l with
  | nil => exact fun t ht => ht
  | cons e l ih => exact fun t ht => ih _ (ht.trans (t.prepare_keepsTasks _ _ _ _ _))

end Sys2Proof.Machine
end

section
namespace Sys2Proof.Machine

/-! ### Admission of a candidate (R328 to R332) -/

/-- The cluster of the seat takes the candidate's task, and the other clusters keep theirs. -/
theorem State.seat_spec {g : Gang} (hg : g.st = .candidate) (s : State) (p : Partition) (j : Job) (r c : Nat) :
    (s.seat p j g r c).mem = s.mem ∧ (s.seat p j g r c).jobs = s.jobs ∧ ((s.seat p j g r c).cluster c).task = g.task j r
      ∧ ∀ d, d ≠ c → (s.seat p j g r c).cluster d = s.cluster d := by
  have hn : ¬(g.st == GangState.saved) = true := by rw [hg]; decide
  unfold State.seat
  dsimp only
  rw [if_neg hn]
  refine ⟨rfl, rfl, ?_, fun d hd => State.cluster_mapCl_ne _ _ _ _ hd⟩
  rw [State.cluster_mapCl_same]

/-- The candidate's tasks take their clusters, in the order of a list of ranks. -/
def State.seatAll (s : State) (p : Partition) (j : Job) (g : Gang) (l rs : List Nat) : State :=
  rs.foldl (fun t r => t.seat p j g r (l.getD r 0)) s

theorem State.seatAll_spec {g : Gang} (hg : g.st = .candidate) (p : Partition) (j : Job) (l rs : List Nat) (s : State) :
    (s.seatAll p j g l rs).mem = s.mem ∧ (s.seatAll p j g l rs).jobs = s.jobs
      ∧ ∀ c, ((∃ r ∈ rs, l.getD r 0 = c) ∨ (∃ r, (s.cluster c).task = g.task j r) →
            ∃ r, ((s.seatAll p j g l rs).cluster c).task = g.task j r)
          ∧ ((∀ r ∈ rs, l.getD r 0 ≠ c) → ((s.seatAll p j g l rs).cluster c).task = (s.cluster c).task) := by
  induction rs generalizing s with
  | nil => exact ⟨rfl, rfl, fun c => ⟨fun h => h.elim (fun ⟨_, hr, _⟩ => nomatch hr) id, fun _ => rfl⟩⟩
  | cons r rs ih =>
    obtain ⟨hm, hj, ht, hd⟩ := State.seat_spec hg s p j r (l.getD r 0)
    obtain ⟨hm', hj', hc'⟩ := ih (s.seat p j g r (l.getD r 0))
    refine ⟨hm'.trans hm, hj'.trans hj, fun c => ?_⟩
    obtain ⟨hin, hout⟩ := hc' c
    refine ⟨fun h => hin ?_, fun h => (hout fun x hx => h x (List.mem_cons_of_mem r hx)).trans ?_⟩
    · by_cases hcr : c = l.getD r 0
      · exact .inr ⟨r, hcr ▸ ht⟩
      · rw [hd c hcr]
        rcases h with ⟨x, hx, he⟩ | h
        · rcases List.mem_cons.mp hx with rfl | hx
          · exact absurd he.symm hcr
          · exact .inl ⟨x, hx, he⟩
        · exact .inr h
    · rw [hd c fun he => h r List.mem_cons_self he.symm]

theorem exists_rank {l : List Nat} {c : Nat} : (∃ r ∈ List.range l.length, l.getD r 0 = c) ↔ c ∈ l := by
  constructor
  · rintro ⟨r, hr, rfl⟩
    have hlt : r < l.length := List.mem_range.mp hr
    rw [List.getD_eq_getElem _ _ hlt]
    exact List.getElem_mem hlt
  · intro h
    obtain ⟨r, hlt, he⟩ := List.getElem_of_mem h
    exact ⟨r, List.mem_range.mpr hlt, (List.getD_eq_getElem _ _ hlt).trans he⟩

/-- The candidate is admitted on its clusters, and every other cluster keeps its task. -/
theorem State.admission_spec {s : State} {p : Partition} {j : Job} {g : Gang} (hg : s.gang j.num g.gi = some g) (hst :
    g.st = .candidate) :
    (s.admission p j g).mem = s.mem
      ∧ (∃ h, (s.admission p j g).gang j.num g.gi = some h ∧ h.st = .admitted ∧ h.clusters = s.clustersFor p g ∧ h.resumed = false)
      ∧ (∀ c ∈ s.clustersFor p g, ∃ r, ((s.admission p j g).cluster c).task = g.task j r)
      ∧ ∀ c, c ∉ s.clustersFor p g → ((s.admission p j g).cluster c).task = (s.cluster c).task := by
  obtain ⟨hm, hj, hc⟩ := State.seatAll_spec hst p j (s.clustersFor p g) (List.range (s.clustersFor p g).length) s
  have hn : (g.st == GangState.saved) = false := by rw [hst]; decide
  refine ⟨hm, ?_, fun c hin => (hc c).1 (.inl (exists_rank.mpr hin)), fun c hout => (hc c).2
    fun r hr he => hout (exists_rank.mp ⟨r, hr, he⟩)⟩
  refine ⟨{ g with st := .admitted, clusters := s.clustersFor p g, resumed := false, bonus := s.levelOf j g - j.base }, ?_,
    rfl, rfl, rfl⟩
  change ((s.seatAll p j g (s.clustersFor p g) (List.range (s.clustersFor p g).length)).mapGang j.num g.gi fun x =>
    { x with st := .admitted, clusters := if g.st == .saved then x.clusters else s.clustersFor p g, resumed := g.st == .saved,
             bonus := s.levelOf j g - j.base }).gang j.num g.gi = _
  generalize s.levelOf j g - j.base = b
  generalize s.clustersFor p g = l at hj ⊢
  rw [hn]
  refine (State.gang_mapGang_same _ j.num g.gi (f :=
    fun x => { x with st := .admitted, clusters := l, resumed := false, bonus := b })
    fun _ => rfl).trans ?_
  rw [State.gang_congr hj, hg]
  rfl

end Sys2Proof.Machine

open Sys2Proof Sys2Proof.Machine

/-- A scheduler cycle admits its first candidate when it fits, and stages it otherwise (R328 to R330). -/
theorem schedulerCycle_admits {s : State} {part : Nat} {p : Partition} {j : Job} {g : Gang} (hp : s.partAt part = some p)
    (hs : p.switching = none) (hr : s.AllRead) (hw : s.reworldAll p = s) (hf : s.first p = some (j, g))
    (hg : s.gang j.num g.gi = some g) :
    (s.fits p g = true → g.st = .candidate → Yields s (.schedulerCycle part) fun t => t.mem = s.mem
      ∧ (∃ h, t.gang j.num g.gi = some h ∧ h.st = .admitted ∧ h.clusters = s.clustersFor p g ∧ h.resumed = false)
      ∧ (∀ c ∈ s.clustersFor p g, let x := (t.cluster c).task
          x.resident = true ∧ x.st = .starting ∧ x.ctx = j.ctx ∧ x.job = j.num ∧ x.gi = g.gi ∧ x.n = g.size ∧ x.image = g.image)
      ∧ ∀ c, c ∉ s.clustersFor p g → (t.cluster c).task = (s.cluster c).task)
    ∧ (s.fits p g = false → Yields s (.schedulerCycle part) fun t => t.mem = s.mem ∧ t.jobs = s.jobs
      ∧ ∀ c, (t.cluster c).task = (s.cluster c).task) := by
  have hx := exec_schedulerCycle hp hs hr hw hf
  refine ⟨fun hfit hst => ?_, fun hfit => ?_⟩
  · refine ⟨_, hx.trans (congrArg _ (if_pos hfit)), ?_⟩
    obtain ⟨hm, ⟨h, hgang, hrest⟩, hin, hout⟩ := State.admission_spec (p := p) hg hst
    obtain ⟨hum, huj, hut⟩ := (s.admission p j g).unstage_keepsTasks p
    refine ⟨hum.trans hm, ⟨h, (State.gang_congr huj _ _).trans hgang, hrest⟩, fun c hc => ?_, fun c hc => (hut c).trans (hout c hc)⟩
    obtain ⟨r, ht⟩ := hin c hc
    dsimp only
    rw [hut c, ht]
    exact ⟨rfl, rfl, rfl, rfl, rfl, rfl, rfl⟩
  · refine ⟨_, hx.trans (congrArg _ (if_neg (by simp [hfit]))), ?_⟩
    obtain ⟨hm, hj, ht⟩ := s.stage_keepsTasks p j g
    exact ⟨hm, hj, ht⟩

end

section
namespace Sys2Proof.Machine

/-! ### A cluster's acquire of all classes (R95) -/

/-- The sequencer after an acquire: what it has seen and observed, and nothing else. -/
def Sequencer.Acquires (x y : Sequencer) : Prop := ∃ s o a, y = { x with seen := s, obs := o, acqAt := a }

theorem Sequencer.acquires_acquireAll (x : Sequencer) (k : Cluster) (ids : List Nat) (count : Nat) :
    x.Acquires (x.acquireAll k ids count) := ⟨_, _, _, rfl⟩

theorem Cluster.acquireAll_frame (k : Cluster) (ids : List Nat) (count : Nat) :
    ∃ c y m f cp ld ma, k.acquireAll ids count =
        { k with seqC := c, seqY := y, seqM := m, fSeen := f, copy := cp, loads := ld, mat := ma }
      ∧ ma.acc = k.mat.acc ∧ k.seqC.Acquires c ∧ k.seqY.Acquires y ∧ k.seqM.Acquires m :=
  ⟨_, _, _, _, _, _, _, rfl, rfl, k.seqC.acquires_acquireAll k ids count, k.seqY.acquires_acquireAll k ids count,
    k.seqM.acquires_acquireAll k ids count⟩

/-! ### Staged blocks that are used (R39, R330) -/

/-- Every slot is EMPTY or holds an IDLE image. -/
def Cluster.SlotsRest (k : Cluster) : Prop := ∀ i, (k.slot i).st = .empty ∨ (k.slot i).st = .idle

theorem Cluster.SlotsRest.mapSlot {k : Cluster} (h : k.SlotsRest) (n : Nat) {f : Slot → Slot} (hf : (f (k.slot n)).st = .idle) :
    (k.mapSlot n f).SlotsRest := by
  intro i
  by_cases hi : i = n
  · subst hi
    rw [Cluster.slot_mapSlot_same]
    exact .inr hf
  · rw [Cluster.slot_mapSlot_ne _ _ hi]
    exact h i

theorem Cluster.useStaged_frame (k : Cluster) :
    ∃ sl, k.useStaged = { k with slots := sl, staged := none } ∧ (k.staged = none → sl = k.slots)
      ∧ (k.SlotsRest → k.useStaged.SlotsRest) := by
  have hfold : ∀ (f : Cluster → Prep → Cluster), (∀ k x, ∃ sl, f k x = { k with slots := sl } ∧ (k.SlotsRest → (f k x).SlotsRest)) →
      ∀ (l : List Prep) (k : Cluster), ∃ sl, l.foldl f k = { k with slots := sl } ∧ (k.SlotsRest → (l.foldl f k).SlotsRest) := by
    intro f hf l
    induction l with
    | nil => exact fun k => ⟨_, rfl, id⟩
    | cons x l ih =>
      intro k
      obtain ⟨a, ha, hra⟩ := hf k x
      obtain ⟨b, hb, hrb⟩ := ih (f k x)
      refine ⟨b, ?_, fun h => hrb (hra h)⟩
      rw [List.foldl_cons, hb, ha]
  unfold Cluster.useStaged
  extract_lets use
  obtain ⟨sl, h, hr⟩ := hfold use (fun k x => by
    dsimp only [use]
    split
    · exact ⟨_, rfl, fun h => h.mapSlot x.slot rfl⟩
    · exact ⟨_, rfl, id⟩) ((k.staged.map (·.preps)).getD []) k
  refine ⟨sl, (congrArg (fun x : Cluster => { x with staged := none }) h :), fun hn => ?_, hr⟩
  rw [hn] at h
  exact (congrArg Cluster.slots h).symm

/-! ### A task's start (R30, R144, R331) -/

/-- The cluster after its task's start with the arguments, whatever records are in its bins (R30, R331). -/
structure Cluster.Begun (k : Cluster) (args : List Word) (x : Cluster) : Prop where
  st : x.task.st = .running
  pc : x.seqC.pc = k.task.image + w64 k.task.entry
  regs : x.seqC.regs = startRegs args
  preds : x.seqC.preds = Sequencer.reset.preds
  pl : x.seqC.pl = false
  idle : x.seqC.idle = false ∧ x.seqY.idle = true ∧ x.seqM.idle = true
  events : x.events = 0
  rings : x.rings = []
  acc : x.mat.acc = []
  slots : k.staged = none → x.slots = []
  rest : x.SlotsRest
  tiles : x.tiles = k.tiles
  thr : x.power.thr = 8

/-- Records in bins or in the start queue, and the flags of the records without a bin, say nothing against a start. -/
theorem Cluster.Begun.of_bins {k x : Cluster} {args : List Word} (h : k.Begun args x) {t : Task} (ht : t.st = x.task.st) (b q) :
    k.Begun args { x with bins := b, startQ := q, task := t } :=
  ⟨ht.trans h.st, h.pc, h.regs, h.preds, h.pl, h.idle, h.events, h.rings, h.acc, h.slots, h.rest, h.tiles, h.thr⟩

theorem Cluster.recordComes_frame (k : Cluster) (r : Record) : ∃ b, k.recordComes r = { k with bins := b } := by
  unfold Cluster.recordComes
  split
  · split
    · exact ⟨_, rfl⟩
    · exact ⟨_, rfl⟩
  · exact ⟨_, rfl⟩

theorem Cluster.enqueue_frame {k x : Cluster} {r : Record} (h : k.enqueue r = some x) :
    ∃ b f, x = { k with bins := b, task := { k.task with flags := f } } := by
  unfold Cluster.enqueue at h
  split at h
  · cases h
    exact ⟨_, _, rfl⟩
  split at h
  · split at h
    · cases h
      exact ⟨_, _, rfl⟩
    · cases h
      exact ⟨_, _, rfl⟩
  split at h
  · cases h
    exact ⟨_, _, rfl⟩
  · cases h

theorem Cluster.Begun.pushStart {k x : Cluster} {args : List Word} (h : k.Begun args x) (r : Record) :
    k.Begun args (x.pushStart r) := by
  obtain ⟨b, hb⟩ := x.recordComes_frame r
  unfold Cluster.pushStart
  dsimp only
  split
  next k2 he =>
    obtain ⟨b', f, rfl⟩ := Cluster.enqueue_frame he
    rw [hb]
    exact h.of_bins (t := { x.task with flags := f }) rfl _ _
  next =>
    rw [hb]
    exact h.of_bins rfl _ _

theorem Cluster.Begun.pushAll {k x : Cluster} {args : List Word} (h : k.Begun args x) (rs : List Record) :
    k.Begun args (rs.foldl Cluster.pushStart x) := by
  induction rs generalizing x with
  | nil => exact h
  | cons r rs ih => exact ih (h.pushStart r)

/-- The cluster between the acquire at task start and its first records. -/
def Cluster.underway (k : Cluster) (x : Cluster) (args : List Word) (rs : List Record) (now n : Nat) : Cluster :=
  { x with
    seqC := { x.seqC with regs := startRegs args, pc := k.task.image + w64 k.task.entry, idle := false },
    mat := { x.mat with acc := [] },
    task := { x.task with st := .running, init := rs, stepClk := x.clk, prevClk := 0 },
    power := ({ x.power.move now n with thr := 8, short := false } : Power).restart now }

theorem Cluster.start_eq (k : Cluster) (args : List Word) (rs : List Record) (ids : List Nat) (count now n : Nat) :
    ∃ c, k.start args rs ids count now n =
      let x := rs.foldl Cluster.pushStart (k.underway (k.atStart.useStaged.acquireAll ids count) args rs now n)
      { x with task := { x.task with ckpt := c } } := ⟨_, rfl⟩

theorem Cluster.slotsRest_nil {k : Cluster} (h : k.slots = []) : k.SlotsRest := by
  intro i
  unfold Cluster.slot
  rw [h]
  exact .inl rfl

theorem Cluster.underway_begun (k : Cluster) (args : List Word) (rs : List Record) (ids : List Nat) (count now n : Nat) :
    k.Begun args (k.underway (k.atStart.useStaged.acquireAll ids count) args rs now n) := by
  obtain ⟨sl, hu, hs, hr⟩ := k.atStart.useStaged_frame
  obtain ⟨c, y, m, f, cp, ld, ma, ha, hacc, ⟨_, _, _, hc⟩, ⟨_, _, _, hy⟩, ⟨_, _, _, hm⟩⟩ :=
    k.atStart.useStaged.acquireAll_frame ids count
  have hrest := hr (Cluster.slotsRest_nil rfl)
  rw [ha]
  rw [hu] at hc hy hm hrest ⊢
  subst hc hy hm
  exact ⟨rfl, rfl, rfl, rfl, rfl, ⟨rfl, rfl, rfl⟩, rfl, rfl, rfl, hs, hrest, rfl, rfl⟩

theorem Cluster.start_begun (k : Cluster) (args : List Word) (rs : List Record) (ids : List Nat) (count now n : Nat) :
    k.Begun args (k.start args rs ids count now n) := by
  obtain ⟨c, h⟩ := k.start_eq args rs ids count now n
  rw [h]
  have hb := (k.underway_begun args rs ids count now n).pushAll rs
  generalize rs.foldl Cluster.pushStart _ = x at hb ⊢
  exact hb.of_bins (t := { x.task with ckpt := c }) rfl _ _

/-! ### A gang's start (R331) -/

/-- One cluster of the gang starts, with the records of its rank. -/
def State.startOn (args : List Word) (ids : List Nat) (count now : Nat) (pt : Nat → Nat) (t : State) (e :
    Nat × List Machine.Record) : State :=
  t.mapCl e.1 fun k => if k.task.st == .starting then k.start args e.2 ids count now (pt e.1) else k

/-- What the starts of a list of clusters leave: each cluster whose task was to start has started once. -/
theorem State.startOn_all (args : List Word) (ids : List Nat) (count now : Nat) (pt : Nat → Nat) (l :
    List (Nat × List Machine.Record)) (s : State) :
    let t := l.foldl (State.startOn args ids count now pt) s
    ({ t with clusters := s.clusters } : State) = s ∧ ∀ c,
      ((s.cluster c).task.st ≠ .starting → t.cluster c = s.cluster c)
        ∧ ((s.cluster c).task.st = .starting → (∃ rs, (c, rs) ∈ l) → (s.cluster c).Begun args (t.cluster c)) := by
  induction l generalizing s with
  | nil => exact ⟨rfl, fun c => ⟨fun _ => rfl, fun _ ⟨_, h⟩ => nomatch h⟩⟩
  | cons e l ih =>
    obtain ⟨d, rs⟩ := e
    intro t
    set u := State.startOn args ids count now pt s (d, rs)
    obtain ⟨hrest, hc⟩ := ih u
    refine ⟨(congrArg (fun t : State => ({ t with clusters := s.clusters } : State)) hrest :), fun c => ?_⟩
    obtain ⟨hno, hyes⟩ := hc c
    by_cases hcd : c = d
    · subst hcd
      have huc : u.cluster c = if (s.cluster c).task.st == .starting then (s.cluster c).start args rs ids count now (pt c) else s.cluster c :=
        s.cluster_mapCl_same c _
      refine ⟨fun hst => ?_, fun hst _ => ?_⟩
      · have he : u.cluster c = s.cluster c := huc.trans (if_neg (by simpa using hst))
        exact (hno (by rw [he]; exact hst)).trans he
      · have he : u.cluster c = (s.cluster c).start args rs ids count now (pt c) := huc.trans (if_pos (by simp [hst]))
        have hb := (s.cluster c).start_begun args rs ids count now (pt c)
        rw [← he] at hb
        have hrun := hno (by rw [hb.st]; decide)
        exact hrun.symm ▸ hb
    · have he : u.cluster c = s.cluster c := s.cluster_mapCl_ne _ _ _ hcd
      rw [he] at hno hyes
      refine ⟨hno, fun hst ⟨rs', hm⟩ => hyes hst ⟨rs', ?_⟩⟩
      rcases List.mem_cons.mp hm with h | h
      · exact absurd (congrArg Prod.fst h) hcd
      · exact h

theorem exists_mem_zip {α β : Type} {l : List α} {r : List β} (h : l.length ≤ r.length) {c : α} (hc : c ∈ l) : ∃ b, (c,
    b) ∈ l.zip r := by
  obtain ⟨i, hi, rfl⟩ := List.getElem_of_mem hc
  have hz : i < (l.zip r).length := by rw [List.length_zip]; omega
  exact ⟨r[i], List.getElem_zip (h := hz) ▸ List.getElem_mem hz⟩

theorem State.stopIfSwitching_none {s : State} {p : Partition} (h : (s.part (64 * p.first)).switching = none) (job gi : Nat) :
    s.stopIfSwitching p job gi = s := by
  unfold State.stopIfSwitching
  rw [h]
  rfl

theorem exec_gangStart {s s1 s2 : State} {job gi : Nat} {j : Job} {g : Gang} {args : List Word} {recs : List (List Record)}
    (hj : s.job job = some j) (hg : s.gang job gi = some g) (hst : g.st = .admitted) (hr : g.resumed = false)
    (ha : s.startArgs (s.partOfCtx j.ctx) j.ctx g.argp.toNat = .ok s1 args)
    (hrec : s1.startRecords (s.partOfCtx j.ctx) j.ctx g.thrp.toNat g.thrn (List.range g.size) [] = .ok s2 recs) :
    exec (.gangStart job gi) s = .next ((s2.startGang j g args recs).stopIfSwitching (s.partOfCtx j.ctx) job gi) := by
  change execGangStart job gi s = _
  unfold execGangStart
  rw [hj, hg]
  dsimp only
  refine congrArg _ ((if_neg (by simp [hst, hr])).trans ?_)
  rw [ha]
  dsimp only
  rw [hrec]

theorem Cluster.Begun.reg {k x : Cluster} {args : List Word} (h : k.Begun args x) (r : Reg) :
    x.seqC.reg r = if 1 ≤ r.val ∧ r.val ≤ 7 then args.getD (r.val - 1) 0 else 0 := by
  unfold Sequencer.reg
  rw [h.regs]
  split
  next h0 =>
    subst h0
    rfl
  · simp [startRegs]

theorem Cluster.Begun.pred {k x : Cluster} {args : List Word} (h : k.Begun args x) (n : PReg) : x.seqC.pred n = decide (n = 0) := by
  unfold Sequencer.pred
  rw [h.preds]
  revert n
  decide

end Sys2Proof.Machine

open Sys2Proof Sys2Proof.Machine

/-- A gang that is admitted for the first time starts in all its clusters (R30, R331). -/
theorem gangStart_starts {s : State} {job gi : Nat} {j : Job} {g : Gang} (hj : s.job job = some j) (hg : s.gang job gi = some g)
    (hst : g.st = .admitted) (hsw : (s.part (64 * (s.partOfCtx j.ctx).first)).switching = none) (hjn : j.num = job) (hgi :
      g.gi = gi)
    {args : List Word} {recs : List (List Record)} {s1 s2 : State} (hr : g.resumed = false)
    (ha : s.startArgs (s.partOfCtx j.ctx) j.ctx g.argp.toNat = .ok s1 args)
    (hrec : s1.startRecords (s.partOfCtx j.ctx) j.ctx g.thrp.toNat g.thrn (List.range g.size) [] = .ok s2 recs)
    (hlen : g.clusters.length ≤ recs.length) (hjobs : s2.jobs = s.jobs) (hparts : s2.parts = s.parts) :
    Yields s (.gangStart job gi) fun t => t.mem = s2.mem
      ∧ (∃ h, t.gang job gi = some h ∧ h.st = .resident ∧ h.step = 0 ∧ h.stepStart = s2.now)
      ∧ ∀ c ∈ g.clusters, (s2.cluster c).task.st = .starting → (s2.cluster c).Begun args (t.cluster c) := by
  have hx := exec_gangStart hj hg hst hr ha hrec
  obtain ⟨hrest, hc⟩ := State.startOn_all args s2.links.moDone s2.counter s2.now s2.startPoint (g.clusters.zip recs) s2
  have hgang : s2.startGang j g args recs = ((g.clusters.zip recs).foldl (State.startOn args s2.links.moDone s2.counter s2.now
      s2.startPoint) s2).mapGang j.num g.gi fun x => { x with st := .resident, step := 0, stepStart := s2.now } := rfl
  rw [hgang, hjn, hgi] at hx
  generalize (g.clusters.zip recs).foldl _ s2 = u at hx hrest hc
  rw [State.stopIfSwitching_none (by
    have hp : u.parts = s.parts := (congrArg State.parts hrest :).trans hparts
    exact (congrArg (fun l => (findPart l (64 * (s.partOfCtx j.ctx).first)).switching) hp).trans hsw)] at hx
  refine ⟨_, hx, (congrArg State.mem hrest :), ⟨{ g with st := .resident, step := 0, stepStart := s2.now }, ?_, rfl, rfl, rfl⟩,
    fun c hin hstart => (hc c).2 hstart (exists_mem_zip hlen hin)⟩
  refine (u.gang_mapGang_same job gi (f := fun x => { x with st := .resident, step := 0, stepStart := s2.now })
    fun _ => rfl).trans ?_
  have hug : u.gang job gi = some g := (State.gang_congr ((congrArg State.jobs hrest :).trans hjobs) job gi).trans hg
  rw [hug]
  rfl

end

section
namespace Sys2Proof.Machine

/-! ### A sequencer that resumes (R369) -/

/-- A sequencer saved without a wait comes back as it was, its replay entries to be sent again. -/
def Sequencer.Resumes (x y : Sequencer) : Prop :=
  x.waits = [] → y.waits = [] ∧ y.regs = x.regs ∧ y.preds = x.preds
    ∧ y.pc = ((x.outstanding.find? (·.kind == .command)).map (·.pc)).getD x.pc
    ∧ y.outstanding = (x.outstanding.filter (·.kind != .command)).map fun o => { o with phase := .unsent }

theorem Sequencer.resumes_thaw (x : Sequencer) (v : Vector Word 4) : x.Resumes { x.thaw with svscr := v } := by
  intro hw
  refine ⟨hw, rfl, rfl, ?_, rfl⟩
  change (match x.outstanding.find? (·.kind == .command) with | some o => o.pc | none => x.pc) = _
  cases x.outstanding.find? (·.kind == .command) <;> rfl

theorem Sequencer.Resumes.acquires {x y z : Sequencer} (h : x.Resumes y) (ha : y.Acquires z) : x.Resumes z := by
  obtain ⟨_, _, _, rfl⟩ := ha
  exact h

/-! ### A cluster whose task returns (R363, R369) -/

/-- The cluster k after the task saved in x has returned to it. -/
structure Cluster.Resumed (x k : Cluster) : Prop where
  st : k.task.st ≠ .saved
  tiles : k.tiles = x.tiles
  acc : k.mat.acc = x.mat.acc
  events : k.events = x.events
  rings : k.rings = x.rings
  rank : k.task.rank = x.task.rank
  flags : k.task.flags = x.task.flags
  seq : ∀ q, (x.seq q).Resumes (k.seq q)

theorem Cluster.Resumed.of_same {x k y : Cluster} (h : x.Resumed k) (hs : k.SameButPaths y) : x.Resumed y := by
  obtain ⟨_, _, _, rfl⟩ := hs
  refine ⟨h.st, h.tiles, h.acc, h.events, h.rings, h.rank, h.flags, fun q => ?_⟩
  have hq := h.seq q
  cases q with
  | control => exact hq
  | copy => exact hq
  | matrix => exact hq

/-- A sequencer that waits may go on: nothing is said of it. -/
theorem Cluster.Resumed.setSeq {x k : Cluster} (h : x.Resumed k) {q : SeqId} (hw : (k.seq q).waits ≠ []) (y : Sequencer) :
    x.Resumed (k.setSeq q y) := by
  refine ⟨?_, ?_, ?_, ?_, ?_, ?_, ?_, fun r => ?_⟩
  · rw [Cluster.setSeq_task]
    exact h.st
  · rw [Cluster.setSeq_tiles]
    exact h.tiles
  · rw [Cluster.setSeq_mat]
    exact h.acc
  · rw [Cluster.setSeq_events]
    exact h.events
  · rw [Cluster.setSeq_rings]
    exact h.rings
  · rw [Cluster.setSeq_task]
    exact h.rank
  · rw [Cluster.setSeq_task]
    exact h.flags
  · by_cases hr : r = q
    · subst hr
      intro hx
      obtain ⟨hn, -⟩ := h.seq r hx
      exact absurd hn hw
    · rw [Cluster.seq_setSeq_ne _ _ _ _ hr]
      exact h.seq r

theorem Cluster.thawSlot_frame (k : Cluster) (i : Nat) : ∃ sl f, k.thawSlot i = { k with slots := sl, fab := f } := by
  unfold Cluster.thawSlot
  extract_lets x
  split
  · exact ⟨_, _, rfl⟩
  split
  · exact ⟨_, _, rfl⟩
  split
  · exact ⟨_, _, rfl⟩
  · exact ⟨_, _, rfl⟩

theorem Cluster.thawSlots_frame (l : List Nat) (k : Cluster) : ∃ sl f,
    l.foldl Cluster.thawSlot k = { k with slots := sl, fab := f } := by
  induction l generalizing k with
  | nil => exact ⟨_, _, rfl⟩
  | cons i l ih =>
    obtain ⟨a, f, h⟩ := k.thawSlot_frame i
    obtain ⟨b, f', h'⟩ := ih (k.thawSlot i)
    refine ⟨b, f', h'.trans ?_⟩
    rw [h]

theorem Cluster.runState_ne_saved (x : Cluster) : x.runState ≠ .saved := by
  unfold Cluster.runState
  split
  · split
    · exact nofun
    · exact nofun
  · exact nofun

/-- The cluster between a task's return and the acquire of its agents. -/
def Cluster.returned (k x : Cluster) (now n : Nat) : Cluster :=
  let y := x.shiftClk (k.clk - x.clk)
  { k with
    task := { y.task with resident := true, st := x.runState, acks := [] }, seqC := { y.seqC.thaw with svscr := k.seqC.svscr },
    seqY := { y.seqY.thaw with svscr := k.seqY.svscr }, seqM := { y.seqM.thaw with svscr := k.seqM.svscr }, events := y.events,
    evRel := y.evRel, evAt := [], rings := y.rings, tiles := y.tiles, slots := y.slots, fab := y.fab,
    bins := y.bins, pushSlot := y.pushSlot, startQ := y.startQ, copy := { y.copy with stopped := false },
    mat := { y.mat with stopped := false }, fWrites := y.fWrites, fSeen := y.fSeen, blocked := y.blocked, usedHost := y.usedHost,
    power := ({ k.power.move now n with short := x.power.short } : Power).restart now }

theorem Cluster.restore_eq (k x : Cluster) (ids : List Nat) (count now n : Nat) :
    k.restore x ids count now n = (((List.range 4).foldl Cluster.thawSlot (k.returned x now n)).useStaged).acquireAll ids count := rfl

theorem Cluster.returned_resumed (k x : Cluster) (now n : Nat) : x.Resumed (k.returned x now n) := by
  refine ⟨x.runState_ne_saved, rfl, rfl, rfl, rfl, rfl, rfl, fun q => ?_⟩
  cases q with
  | control => exact x.seqC.resumes_thaw _
  | copy => exact x.seqY.resumes_thaw _
  | matrix => exact x.seqM.resumes_thaw _

theorem Cluster.Resumed.of_slots {x k : Cluster} (h : x.Resumed k) (sl f st) :
    x.Resumed { k with slots := sl, fab := f, staged := st } := by
  refine ⟨h.st, h.tiles, h.acc, h.events, h.rings, h.rank, h.flags, fun q => ?_⟩
  have hq := h.seq q
  cases q with
  | control => exact hq
  | copy => exact hq
  | matrix => exact hq

theorem Cluster.Resumed.acquireAll {x k : Cluster} (h : x.Resumed k) (ids : List Nat) (count : Nat) :
    x.Resumed (k.acquireAll ids count) := by
  obtain ⟨c, y, m, f, cp, ld, ma, ha, hacc, hc, hy, hm⟩ := k.acquireAll_frame ids count
  rw [ha]
  refine ⟨h.st, h.tiles, hacc.trans h.acc, h.events, h.rings, h.rank, h.flags, fun q => ?_⟩
  have hq := h.seq q
  cases q with
  | control => exact hq.acquires hc
  | copy => exact hq.acquires hy
  | matrix => exact hq.acquires hm

theorem Cluster.restore_resumed (k x : Cluster) (ids : List Nat) (count now n : Nat) : x.Resumed (k.restore x ids count now n) := by
  rw [Cluster.restore_eq]
  obtain ⟨a, f, h⟩ := Cluster.thawSlots_frame (List.range 4) (k.returned x now n)
  obtain ⟨b, hu, -⟩ := ((List.range 4).foldl Cluster.thawSlot (k.returned x now n)).useStaged_frame
  rw [hu, h]
  exact ((k.returned_resumed x now n).of_slots b f none).acquireAll ids count

/-! ### The parts of a return (R91, R188, R369) -/

/-- Gangs keep their deadlines. -/
def State.KeepsDeadlines (s t : State) : Prop :=
  ∀ num gi g, s.gang num gi = some g → ∃ h, t.gang num gi = some h ∧ h.deadline = g.deadline

theorem State.KeepsDeadlines.trans {s t u : State} (h : s.KeepsDeadlines t) (h' : t.KeepsDeadlines u) : s.KeepsDeadlines u := by
  intro num gi g hg
  obtain ⟨x, hx, hd⟩ := h num gi g hg
  obtain ⟨y, hy, hd'⟩ := h' num gi x hx
  exact ⟨y, hy, hd'.trans hd⟩

theorem State.keepsDeadlines_of_jobs {s t : State} (h : t.jobs = s.jobs) : s.KeepsDeadlines t :=
  fun num gi g hg => ⟨g, (State.gang_congr h num gi).trans hg, rfl⟩

theorem State.keepsDeadlines_tookColl (s : State) (job gi id rank : Nat) :
    s.KeepsDeadlines (s.mapGang job gi (·.tookColl id rank)) := by
  intro n i g hg
  rw [State.gang_mapGang s job gi (f := (·.tookColl id rank)) (fun _ => rfl) n i, hg]
  split
  · exact ⟨_, rfl, rfl⟩
  · exact ⟨_, rfl, rfl⟩

/-- A sequencer of cluster c, if it waits, may go on; all else stands but the collectives its gang has taken. -/
structure State.Lands (s t : State) (c : Nat) : Prop where
  parts : t.parts = s.parts
  savedCl : t.savedCl = s.savedCl
  gangs : s.KeepsDeadlines t
  other : ∀ d, d ≠ c → t.cluster d = s.cluster d
  resumed : ∀ x : Cluster, x.Resumed (s.cluster c) → x.Resumed (t.cluster c)

theorem State.Lands.refl (s : State) (c : Nat) : s.Lands s c :=
  ⟨rfl, rfl, State.keepsDeadlines_of_jobs rfl, fun _ _ => rfl, fun _ h => h⟩

theorem State.Lands.trans {s t u : State} {c : Nat} (h : s.Lands t c) (h' : t.Lands u c) : s.Lands u c :=
  ⟨h'.parts.trans h.parts, h'.savedCl.trans h.savedCl, h.gangs.trans h'.gangs, fun d hd => (h'.other d hd).trans (h.other d hd),
    fun x hx => h'.resumed x (h.resumed x hx)⟩

theorem State.lands_mapSeq {s : State} {c : Nat} {q : SeqId} (hw : (s.seq c q).waits ≠ []) (f : Sequencer → Sequencer) :
    s.Lands (s.mapSeq c q f) c := by
  refine ⟨rfl, rfl, State.keepsDeadlines_of_jobs rfl, fun d hd => State.cluster_mapCl_ne _ _ _ _ hd, fun x hx => ?_⟩
  have he : (s.mapSeq c q f).cluster c = (s.cluster c).setSeq q (f ((s.cluster c).seq q)) := State.cluster_mapCl_same _ _ _
  rw [he]
  exact hx.setSeq hw _

theorem Sequencer.waits_of_waitAt {x : Sequencer} {k : WaitKind} (h : x.waitAt = some k) : x.waits ≠ [] := by
  intro hn
  unfold Sequencer.waitAt at h
  rw [hn] at h
  cases h

theorem State.lands_landed (s : State) (c : Nat) (q : SeqId) : s.Lands (s.landed c q) c := by
  unfold State.landed
  extract_lets t
  split
  next k hk =>
    split
    · exact .refl s c
    · exact State.lands_mapSeq (Sequencer.waits_of_waitAt hk) _
  next id dh hk =>
    split
    next r st =>
      have hg : s.Lands (s.mapGang t.job t.gi (·.tookColl id t.rank)) c :=
        ⟨rfl, rfl, s.keepsDeadlines_tookColl _ _ _ _, fun _ _ => rfl, fun _ h => h⟩
      exact hg.trans (State.lands_mapSeq (s := s.mapGang t.job t.gi (·.tookColl id t.rank)) (Sequencer.waits_of_waitAt hk) _)
    · exact .refl s c
  · exact .refl s c

theorem State.reloadSlot_sees (s : State) (p : Partition) (ctx i : Nat) (x : Slot) : s.Sees (s.reloadSlot p ctx i x).1 := by
  unfold State.reloadSlot
  split
  · exact .refl s
  extract_lets n begin_
  have hr := s.ctxRead_sees p ctx x.img.toNat (32 * n)
  cases h : s.ctxRead p (p.who ctx) x.img.toNat (32 * n) with
  | ok s1 bs =>
    rw [h] at hr
    have hd : s.Sees (s1.dropLines (p.who ctx).agent) := State.Sees.trans hr (State.sees_of_eq rfl)
    dsimp only
    split
    · exact hd
    · exact hd
  | fail s1 c d a => rw [h] at hr; exact hr
  | wait s1 => rw [h] at hr; exact hr

theorem State.reloadPinned_frame (s : State) (p : Partition) (x : Cluster) :
    s.Sees (s.reloadPinned p x).1 ∧ ∃ sl, (s.reloadPinned p x).2 = { x with slots := sl } := by
  unfold State.reloadPinned
  generalize List.range 4 = l
  induction l generalizing s x with
  | nil => exact ⟨.refl s, _, rfl⟩
  | cons i l ih =>
    rw [List.foldl_cons]
    by_cases h : x.sched i = true
    · rw [if_pos h]
      exact ih s x
    · rw [if_neg h]
      obtain ⟨hs, sl, hx⟩ := ih (s.reloadSlot p x.task.ctx i (x.slot i)).1
        (x.mapSlot i fun _ => (s.reloadSlot p x.task.ctx i (x.slot i)).2)
      exact ⟨(s.reloadSlot_sees p _ i _).trans hs, sl, hx⟩

theorem Cluster.Resumed.of_saved_slots {x k : Cluster} {sl : Table Slot} (h : ({ x with slots := sl } : Cluster).Resumed k) :
    x.Resumed k := by
  refine ⟨h.st, h.tiles, h.acc, h.events, h.rings, h.rank, h.flags, fun q => ?_⟩
  have hq := h.seq q
  cases q with
  | control => exact hq
  | copy => exact hq
  | matrix => exact hq

/-! ### The return of a gang's tasks (R369) -/

/-- The state after cluster c's return: c is as its saved task was, if it waited for it, and no other changes. -/
structure State.Returns (s t : State) (c w : Nat) : Prop where
  parts : t.parts = s.parts
  savedCl : t.savedCl = s.savedCl.drop (16 * c + w)
  gangs : s.KeepsDeadlines t
  other : ∀ d, (d = c → (s.cluster d).task.st ≠ .saved) → (s.cluster d).SameButPaths (t.cluster d)
  resumed : (s.cluster c).task.st = .saved → (s.savedCl.get (16 * c + w) .reset).Resumed (t.cluster c)

theorem State.returns_restoreTask (s : State) (p : Partition) (g : Gang) (ids : List Nat) (c : Nat) :
    s.Returns (s.restoreTask p g ids c) c g.world := by
  have hfr := s.reloadPinned_frame p (s.savedCl.get (16 * c + g.world) .reset)
  unfold State.restoreTask
  dsimp only
  generalize s.reloadPinned p (s.savedCl.get (16 * c + g.world) .reset) = r at hfr ⊢
  obtain ⟨s0, x⟩ := r
  obtain ⟨hsee, sl, hx⟩ := hfr
  replace hsee : s.Sees s0 := hsee
  replace hx : x = { s.savedCl.get (16 * c + g.world) .reset with slots := sl } := hx
  obtain ⟨_, _, _, hc⟩ := hsee.cluster c
  have htask : (s0.cluster c).task = (s.cluster c).task := by rw [hc]
  split
  next hs =>
    have hst : (s0.cluster c).task.st = .saved := eq_of_beq hs
    set u : State := State.overwrite _ (p.recordKey c g.world) [0] with hu
    have hland := ((u.lands_landed c .control).trans (State.lands_landed _ c .copy)).trans (State.lands_landed _ c .matrix)
    have hother : ∀ d, d ≠ c → u.cluster d = s0.cluster d := fun d hd => State.cluster_mapCl_ne s0 c d (fun _ => _) hd
    refine ⟨hland.parts.trans hsee.parts, hland.savedCl, (State.keepsDeadlines_of_jobs hsee.jobs).trans hland.gangs,
      fun d hd => ?_, fun _ => ?_⟩
    · have hne : d ≠ c := fun he => hd he (he ▸ htask ▸ hst)
      rw [hland.other d hne, hother d hne]
      exact hsee.cluster d
    · refine hland.resumed _ ?_
      have huc : ∃ ids count now n, u.cluster c = (s0.cluster c).restore x ids count now n :=
        ⟨_, _, _, _, State.cluster_mapCl_same s0 c fun _ => _⟩
      obtain ⟨_, _, _, _, huc⟩ := huc
      rw [huc]
      have hb := (s0.cluster c).restore_resumed x
      subst hx
      exact Cluster.Resumed.of_saved_slots (hb _ _ _ _)
  next hs =>
    have hst : (s.cluster c).task.st ≠ .saved := fun he => hs (by
      change ((s0.cluster c).task.st == TaskState.saved) = true
      rw [htask, he]
      decide)
    exact ⟨hsee.parts, rfl, State.keepsDeadlines_of_jobs hsee.jobs, fun d _ => hsee.cluster d, fun h => absurd h hst⟩

/-- Every cluster of the list whose saved task was to return has it, whatever the order of the returns. -/
theorem State.restoreTasks_spec (p : Partition) (g : Gang) (ids : List Nat) (l : List Nat) (s : State) :
    let t := l.foldl (fun t c => t.restoreTask p g ids c) s
    t.parts = s.parts ∧ s.KeepsDeadlines t ∧ ∀ c,
      ((s.cluster c).task.st ≠ .saved → (s.cluster c).SameButPaths (t.cluster c))
        ∧ ((s.cluster c).task.st = .saved → c ∈ l → (s.savedCl.get (16 * c + g.world) .reset).Resumed (t.cluster c)) := by
  induction l generalizing s with
  | nil => exact ⟨rfl, State.keepsDeadlines_of_jobs rfl, fun c => ⟨fun _ => .refl _, fun _ h => nomatch h⟩⟩
  | cons d l ih =>
    intro t
    have hr := s.returns_restoreTask p g ids d
    obtain ⟨hparts, hgangs, hc⟩ := ih (s.restoreTask p g ids d)
    refine ⟨hparts.trans hr.parts, hr.gangs.trans hgangs, fun c => ?_⟩
    obtain ⟨hno, hyes⟩ := hc c
    have hstep : (c = d → (s.cluster c).task.st ≠ .saved) → ((s.restoreTask p g ids d).cluster c).task = (s.cluster c).task :=
      fun h => by
      obtain ⟨_, _, _, he⟩ := hr.other c h
      rw [he]
    refine ⟨fun hst => ?_, fun hst hin => ?_⟩
    · exact (hr.other c fun _ => hst).trans (hno (by rw [hstep fun _ => hst]; exact hst))
    · by_cases hcd : c = d
      · subst hcd
        have hb := hr.resumed hst
        exact hb.of_same (hno hb.st)
      · have hne : c = d → (s.cluster c).task.st ≠ .saved := fun he => absurd he hcd
        have hget : (s.restoreTask p g ids d).savedCl.get (16 * c + g.world) .reset = s.savedCl.get (16 * c + g.world) .reset := by
          rw [hr.savedCl]
          exact (Table.get_drop _ _ _ _).trans (if_neg (by omega))
        rw [← hget]
        exact hyes (by rw [hstep hne]; exact hst) ((List.mem_cons.mp hin).resolve_left hcd)

end Sys2Proof.Machine
end

section
namespace Sys2Proof.Machine

/-! ### GANG_RESUME (R363, R369, R370) -/

/-- The gang runs again; the time since the request does not count against its step's deadline (R370). -/
def Gang.resumes (g : Gang) (d : Nat) : Gang :=
  { g with st := .resident, resumed := false, deadline := g.deadline.map (· + d), stepStart := g.stepStart + d }

theorem exec_gangResume {s : State} {job gi : Nat} {j : Job} {g : Gang} (hj : s.job job = some j) (hg : s.gang job gi = some g)
    (hst : g.st = .admitted) (hr : g.resumed = true) :
    exec (.gangResume job gi) s = .next (((g.held.foldl (fun t c => t.restoreTask (s.partOfCtx j.ctx) g s.links.moDone c) s).mapGang job gi
      (·.resumes (s.now - g.preAt))).stopIfSwitching (s.partOfCtx j.ctx) job gi) := by
  change execGangResume job gi s = _
  unfold execGangResume
  rw [hj, hg]
  exact congrArg _ (if_neg (by simp [hst, hr]))

end Sys2Proof.Machine

open Sys2Proof Sys2Proof.Machine

/-- A gang that was saved resumes in the clusters it held (R363, R369). -/
theorem gangResume_resumes {s : State} {job gi : Nat} {j : Job} {g : Gang} (hj : s.job job = some j) (hg : s.gang job gi = some g)
    (hst : g.st = .admitted) (hsw : (s.part (64 * (s.partOfCtx j.ctx).first)).switching = none) (hr : g.resumed = true) :
    Yields s (.gangResume job gi) fun t =>
      (∃ h, t.gang job gi = some h ∧ h.st = .resident ∧ h.resumed = false ∧ h.deadline = g.deadline.map (· + (s.now - g.preAt)))
        ∧ ∀ c ∈ g.held, (s.cluster c).task.st = .saved → (s.savedCl.get (16 * c + g.world) .reset).Resumed (t.cluster c) := by
  have hx := exec_gangResume hj hg hst hr
  obtain ⟨hparts, hgangs, hc⟩ := State.restoreTasks_spec (s.partOfCtx j.ctx) g s.links.moDone g.held s
  generalize g.held.foldl _ s = u at hx hparts hgangs hc
  rw [State.stopIfSwitching_none (by
    exact (congrArg (fun l => (findPart l (64 * (s.partOfCtx j.ctx).first)).switching) hparts).trans hsw)] at hx
  obtain ⟨h, hug, hdead⟩ := hgangs job gi g hg
  refine ⟨_, hx, ⟨h.resumes (s.now - g.preAt), ?_, rfl, rfl, congrArg (Option.map (· + (s.now - g.preAt))) hdead⟩,
    fun c hin hsaved => (hc c).2 hsaved hin⟩
  refine (u.gang_mapGang_same job gi (f := (·.resumes (s.now - g.preAt))) fun _ => rfl).trans ?_
  rw [hug]
  rfl

/-- Settles O38: admission writes its tasks and its gang alone, a start leaves what every later record keeps, and of a return what is
restored stands whatever the other clusters read. -/
theorem scheduling : Obligations.Scheduling := by
  unfold Obligations.Scheduling
  refine ⟨fun s part p j g hp hs hr hw hf hg => schedulerCycle_admits hp hs hr hw hf hg, ?_⟩
  intro s job gi j g hj hg hst p hsw hjn hgi
  refine ⟨fun args recs s1 s2 hr ha hrec hlen hjobs hparts => ?_, fun hr => ?_⟩
  · obtain ⟨t, hx, hm, hgang, hc⟩ := gangStart_starts hj hg hst hsw hjn hgi hr ha hrec hlen hjobs hparts
    refine ⟨t, hx, hm, hgang, fun c hin hstart => ?_⟩
    have hb := hc c hin hstart
    obtain ⟨hC, hY, hM⟩ := hb.idle
    exact ⟨hb.st, hb.pc, hb.reg, hb.pred, hC, hY, hM, hb.pl, hb.events, hb.rings, hb.acc, hb.slots, hb.rest, hb.tiles, hb.thr⟩
  · obtain ⟨t, hx, hgang, hc⟩ := gangResume_resumes hj hg hst hsw hr
    refine ⟨t, hx, hgang, fun c hin hsaved => ?_⟩
    have hb := hc c hin hsaved
    refine ⟨hb.tiles, hb.acc, hb.events, hb.rings, hb.rank, hb.flags, fun q hq => ?_⟩
    obtain ⟨-, hregs, hpreds, hpc, hout⟩ := hb.seq q hq
    exact ⟨hregs, hpreds, hpc, hout⟩

end

section
namespace Sys2Proof.Machine

/-! ### The partition of a cluster changed (R314) -/

/-- A partition keeps its clusters. -/
def Partition.SamePlace (p q : Partition) : Prop := q.first = p.first ∧ q.logsz = p.logsz

theorem Partition.SamePlace.holds {p q : Partition} (h : p.SamePlace q) (c : Nat) : q.holds c = p.holds c := by
  obtain ⟨hfirst, hlogsz⟩ := h
  rw [Partition.holds, hfirst, hlogsz, Partition.holds]

theorem findPart_cons (p : Partition) (l : List Partition) (c : Nat) :
    findPart (p :: l) c = if p.holds c then p else findPart l c := by
  unfold findPart
  rw [List.find?_cons]
  cases p.holds c <;> rfl

theorem findPart_updPart {f : Partition → Partition} (hf : ∀ p : Partition, p.SamePlace (f p)) (c : Nat) (l : List Partition)
    (h : ∃ p ∈ l, p.holds c = true) : findPart (updPart f c l) c = f (findPart l c) := by
  induction l with
  | nil => exact absurd h (by simp)
  | cons p l ih =>
    rw [updPart, findPart_cons]
    by_cases hp : p.holds c = true
    · rw [if_pos hp, if_pos hp, findPart_cons, (hf p).holds, if_pos hp]
    · obtain ⟨q, hq, hqc⟩ := h
      have hql : q ∈ l := (List.mem_cons.mp hq).resolve_left fun he => hp (he ▸ hqc)
      rw [if_neg hp, if_neg hp, findPart_cons, if_neg hp, ih ⟨q, hql, hqc⟩]

theorem Partition.holds_whole {c : Nat} (h : c < 512) : Partition.whole.holds c = true := by
  simpa [Partition.holds, Partition.whole, Partition.reset] using h

theorem State.part_mapPart_same {s : State} {c : Nat} {f : Partition → Partition} (hf : ∀ p : Partition, p.SamePlace (f p))
    (h : s.InPart c) : (s.mapPart c f).part c = f (s.part c) := by
  unfold State.part State.mapPart
  obtain ⟨hnone, hc⟩ | hsome := h
  · have hw := ((hf .whole).holds c).trans (Partition.holds_whole hc)
    simp only [hnone, List.isEmpty_nil, if_true]
    exact (findPart_cons _ _ _).trans (if_pos hw)
  · have hne : s.parts.isEmpty = false := by
      obtain ⟨p, hp, _⟩ := hsome
      exact List.isEmpty_eq_false_iff.mpr (List.ne_nil_of_mem hp)
    simp only [hne, Bool.false_eq_true, if_false]
    exact findPart_updPart hf c s.parts hsome

/-! ### The values MTS takes and the registers it writes (R147, R308, R319, R320) -/

theorem sregLegal_iff (r : Nat) (v : Word) :
    sregLegal r v = true ↔ v.toNat &&& sregRz r = 0
      ∧ (0x410 ≤ r → r ≤ 0x417 → ¬(nbits v.toNat 2 16 = 0 ∧ bit v.toNat 20 = true)) := by
  simp only [sregLegal, Bool.and_eq_true, beq_iff_eq, Bool.not_eq_true', Bool.eq_false_iff, ne_eq, decide_eq_true_iff]
  exact and_congr_right fun _ => by tauto

/-- Outside the RCT registers the reserved bits alone decide. -/
theorem sregLegal_of_rz {r : Nat} {v : Word} (hr : r < 0x410 ∨ 0x417 < r) (h : v.toNat &&& sregRz r = 0) :
    sregLegal r v = true :=
  (sregLegal_iff r v).mpr ⟨h, by omega⟩

theorem sregLegal_false_of_rz {r : Nat} {v : Word} (h : v.toNat &&& sregRz r ≠ 0) : sregLegal r v = false :=
  Bool.eq_false_iff.mpr fun hl => h ((sregLegal_iff r v).mp hl).1

/-- RCTn takes the word, or holds it for the incoming world while worlds switch (R319). -/
def Partition.setRct (p : Partition) (i : Fin 8) (v : Word) : Partition :=
  if p.switching = none then { p with rct := p.rct.set i v } else { p with pendingRct := p.pendingRct.set i.val v }

theorem Partition.setRct_samePlace (p : Partition) (i : Fin 8) (v : Word) : p.SamePlace (p.setRct i v) := by
  unfold Partition.setRct
  split <;> exact ⟨rfl, rfl⟩

theorem rct_toNat (i : Fin 8) : (BitVec.ofNat 12 (0x410 + i.val)).toNat = 0x410 + i.val := by
  rw [BitVec.toNat_ofNat]
  omega

theorem State.setSreg_rct (s : State) (i : Fin 8) (v : Word) :
    s.setSreg (0x410 + i.val) v = s.mapPart s.cur.1 fun p => p.setRct i v := by
  have hset : ∀ p : Partition, (if p.switching.isSome then { p with pendingRct := p.pendingRct.set i.val v }
      else { p with rct := p.rct.set i v } : Partition) = p.setRct i v := fun p => by
    unfold Partition.setRct
    cases p.switching <;> rfl
  rw [← funext hset]
  fin_cases i <;> rfl

theorem Sequencer.setTrapPc_same (x : Sequencer) : x.setTrapPc x.frame.pc = x := by
  simp [Sequencer.setTrapPc]

theorem Sequencer.setTrapPc_of_no_waits {x : Sequencer} (h : x.waits = []) (v : Word) :
    x.setTrapPc v = { x with frame := { x.frame with pc := v } } := by
  simp [Sequencer.setTrapPc, h]

/-! ### Privilege (R146, R306) -/

/-- A register a sequencer may reach: no supervisor register, or PL 1. -/
abbrev State.MayReach (s : State) (r : Nat) : Prop := r < 0x400 ∨ s.me.pl = true

theorem State.privReg_reached {s : State} {r : Nat} (h : s.MayReach r) (act : State → State) : s.privReg r act = act s :=
  if_neg (by simpa [or_iff_not_imp_left] using h)

theorem State.privReg_refused {s : State} {r : Nat} (hr : 0x400 ≤ r) (hp : s.me.pl = false) (act : State → State) :
    s.privReg r act = s.trap cPRIV 0 (w64 r) :=
  if_pos (by simp [hr, hp])

/-- At PL 0 an instruction on a supervisor register takes PRIV. -/
theorem traps_privReg {s : State} {i : Instr} {g : Guard} {len r : Nat} {act : State → State} (hg : s.guardOn g = true)
    (ht : s.CanTrap) (hr : 0x400 ≤ r) (h : exec i s = guarded g len s fun s => s.privReg r act) :
    Traps s i 2 0 (w64 r) s.me.pc false :=
  traps_trap ht (by rw [h, guarded_on hg, State.privReg_refused hr ht.1]; rfl)

/-! ### MTS (R146, R147) -/

variable {s : State} {g : Guard} {a : Reg} {r : BitVec 12}

theorem exec_mts (hg : s.guardOn g = true) (hr : s.MayReach r.toNat) :
    exec (.mts g a r) s = .next (if sregLegal r.toNat (s.me.reg a) then (s.setSreg r.toNat (s.me.reg a)).skip 4
      else s.ill (encodeNat (.mts g a r))) := by
  change execMts g a r s = _
  unfold execMts
  rw [guarded_on hg, State.privReg_reached hr]
  cases hl : sregLegal r.toNat (s.me.reg a) <;> simp [hl]

theorem exec_mts_legal (hg : s.guardOn g = true) (hr : s.MayReach r.toNat) (hl : sregLegal r.toNat (s.me.reg a) = true) :
    exec (.mts g a r) s = .next ((s.setSreg r.toNat (s.me.reg a)).skip 4) := by
  rw [exec_mts hg hr, if_pos hl]

theorem traps_mts_reserved (hg : s.guardOn g = true) (ht : s.CanTrap) (hr : r.toNat < 0x400)
    (h : (s.me.reg a).toNat &&& sregRz r.toNat ≠ 0) :
    Traps s (.mts g a r) 1 0 (w64 (encodeNat (.mts g a r) % 2 ^ 32)) s.me.pc false :=
  traps_trap ht (by rw [exec_mts hg (.inl hr), if_neg (by simp [sregLegal_false_of_rz h])]; rfl)

/-- A register that MTS leaves as it is: CTX and PARTINFO (R308). -/
theorem yields_mts_left (hg : s.guardOn g = true) (hr : s.MayReach r.toNat) (hl : sregLegal r.toNat (s.me.reg a) = true)
    (hset : s.setSreg r.toNat (s.me.reg a) = s) :
    Yields s (.mts g a r) fun t => OnlySeq s t ∧ t.me = { s.me with pc := s.me.pc + 4 } := by
  have hx := exec_mts_legal hg hr hl
  rw [hset] at hx
  exact ⟨_, hx, onlySeq_mapMe s _, State.me_skip s 4⟩

/-- A register whose write is an update of the sequencer. -/
theorem yields_mts_seq {f : Sequencer → Sequencer} (hg : s.guardOn g = true) (hr : s.MayReach r.toNat)
    (hl : sregLegal r.toNat (s.me.reg a) = true) (hset : s.setSreg r.toNat (s.me.reg a) = s.mapMe f) :
    Yields s (.mts g a r) fun t => OnlySeq s t ∧ t.me = (f s.me).skip 4 := by
  have hx := exec_mts_legal hg hr hl
  rw [hset, State.skip, State.mapMe_mapMe] at hx
  exact ⟨_, hx, onlySeq_mapMe s _, State.me_mapMe s _⟩

/-- A register whose write is an update of the partition, which keeps its clusters. -/
theorem yields_mts_part {f : Partition → Partition} (hg : s.guardOn g = true) (hp : s.InPart s.cur.1)
    (hf : ∀ p : Partition, p.SamePlace (f p)) (hr : s.MayReach r.toNat) (hl : sregLegal r.toNat (s.me.reg a) = true)
    (hset : s.setSreg r.toNat (s.me.reg a) = s.mapPart s.cur.1 f) :
    Yields s (.mts g a r) fun t => t.me = { s.me with pc := s.me.pc + 4 } ∧ t.part s.cur.1 = f (s.part s.cur.1)
      ∧ ({ t with clusters := s.clusters, parts := s.parts } : State) = s := by
  have hx := exec_mts_legal hg hr hl
  rw [hset] at hx
  exact ⟨_, hx, State.me_skip _ 4, State.part_mapPart_same hf hp, rfl⟩

/-! ### MTS FLAGS and MTS REPLAYCNT (R73, R75, R147) -/

theorem exec_mtsFlags (hg : s.guardOn g = true) :
    exec (.mtsFlags g a) s = .next (if (s.me.reg a).toNat < 256 then
      (s.mapTask s.cur.1 fun t => { t with flags := s.me.reg a }).skip 4 else s.ill (encodeNat (.mtsFlags g a))) := by
  change execMtsFlags g a s = _
  unfold execMtsFlags flagsLegal
  rw [guarded_on hg]
  by_cases h : (s.me.reg a).toNat < 256 <;> simp [h]

theorem yields_mtsFlags (hg : s.guardOn g = true) (h : (s.me.reg a).toNat < 256) :
    Yields s (.mtsFlags g a) fun t => OnlyCluster s t s.cur.1 ∧ t.me = { s.me with pc := s.me.pc + 4 }
      ∧ t.here.task = { s.here.task with flags := s.me.reg a } := by
  have hx := exec_mtsFlags (a := a) hg
  rw [if_pos h] at hx
  refine ⟨_, hx, onlyCluster_trans (onlyCluster_mapCl _ _ _) (onlySeq_mapMe _ _).only, ?_, ?_⟩
  · rw [State.me_skip, State.me_mapTask]
    rfl
  · rw [State.skip, State.task_mapMe, State.here_mapTask]

theorem exec_mtsReplaycnt (hg : s.guardOn g = true) :
    exec (.mtsReplaycnt g a) s = .next (if 16 ≤ (s.me.reg a).toNat then s.ill (encodeNat (.mtsReplaycnt g a))
      else if s.me.reg a = 0 then (s.mapMe fun x => { x with frame := { x.frame with replay := [] } }).skip 4 else s.skip 4) := by
  change execMtsReplaycnt g a s = _
  unfold execMtsReplaycnt
  rw [guarded_on hg]
  simp only [beq_iff_eq]

theorem yields_mtsReplaycnt (hg : s.guardOn g = true) (h : (s.me.reg a).toNat < 16) :
    Yields s (.mtsReplaycnt g a) fun t => OnlySeq s t ∧ t.me = if s.me.reg a = 0
      then { s.me with pc := s.me.pc + 4, frame := { s.me.frame with replay := [] } } else { s.me with pc := s.me.pc + 4 } := by
  have hx := exec_mtsReplaycnt (a := a) hg
  rw [if_neg (Nat.not_le.mpr h)] at hx
  by_cases hz : s.me.reg a = 0
  · rw [if_pos hz, State.skip, State.mapMe_mapMe] at hx
    exact ⟨_, hx, onlySeq_mapMe s _, by rw [State.me_mapMe, if_pos hz]; rfl⟩
  · rw [if_neg hz] at hx
    exact ⟨_, hx, onlySeq_mapMe s _, by rw [State.me_skip, if_neg hz]; rfl⟩

end Sys2Proof.Machine

open Sys2Proof Sys2Proof.Machine

/-- Settles O24: a register written is one update of the sequencer, of the task or of the partition, whose place stays, and
each other answer is a trap. -/
theorem specialWrites : Obligations.SpecialWrites := by
  unfold Obligations.SpecialWrites
  intro s g a hg hpart v x mine part
  refine ⟨fun hpc hz => ?_, fun hw hz => ?_, fun hpl => ?_, fun h => yields_mtsFlags hg h, fun h => yields_mtsReplaycnt hg h,
    fun ht => ?_⟩
  · have hy := yields_mts_seq (r := 8) hg (.inl (by decide)) (sregLegal_of_rz (.inl (by decide)) hz) rfl
    rwa [← show s.me.frame.pc = s.me.reg a from hpc, Sequencer.setTrapPc_same] at hy
  · have hy := yields_mts_seq (r := 8) hg (.inl (by decide)) (sregLegal_of_rz (.inl (by decide)) hz) rfl
    rwa [Sequencer.setTrapPc_of_no_waits hw] at hy
  · have hseq : ∀ (r : BitVec 12) (f : Sequencer → Sequencer), r.toNat < 0x410 →
        s.setSreg r.toNat v = s.mapMe f → f x = (f s.me).skip 4 → mine r f := fun r f hr hset hf hz => by
      have hy := yields_mts_seq hg (.inr hpl) (sregLegal_of_rz (.inl hr) hz) hset
      rwa [← hf] at hy
    have hleft : ∀ r : BitVec 12, r.toNat < 0x410 → s.setSreg r.toNat v = s → mine r id := fun r hr hset hz =>
      yields_mts_left hg (.inr hpl) (sregLegal_of_rz (.inl hr) hz) hset
    have hregs : ∀ (r : BitVec 12) (f : Partition → Partition), (∀ p : Partition, p.SamePlace (f p)) →
        s.setSreg r.toNat v = s.mapPart s.cur.1 f → part r f := fun r f hf hset hz hways =>
      yields_mts_part hg hpart hf (.inr hpl) ((sregLegal_iff _ _).mpr ⟨hz, hways⟩) hset
    clear_value mine part
    refine ⟨hseq _ _ (by decide) rfl rfl, hseq _ _ (by decide) rfl rfl, hseq _ _ (by decide) rfl rfl, hleft _ (by decide) rfl,
      hleft _ (by decide) rfl, hseq _ _ (by decide) rfl rfl, hseq _ _ (by decide) rfl rfl,
      hregs _ _ (fun _ => ⟨rfl, rfl⟩) rfl, hregs _ _ (fun _ => ⟨rfl, rfl⟩) rfl, hregs _ _ (fun _ => ⟨rfl, rfl⟩) rfl,
      hregs _ _ (fun _ => ⟨rfl, rfl⟩) rfl, fun i => hregs _ _ (fun p => p.setRct_samePlace i v) ?_⟩
    rw [rct_toNat, State.setSreg_rct]
    rfl
  · refine ⟨fun r hr hz => traps_mts_reserved hg ht hr hz, fun h => ?_, fun h => ?_, fun r hr => traps_privReg hg ht hr rfl,
      traps_privReg hg ht (by decide) rfl, traps_privReg hg ht (by decide) rfl, traps_privReg hg ht (by decide) rfl,
      traps_privReg hg ht (by decide) rfl⟩
    · exact traps_trap ht (by rw [exec_mtsFlags hg, if_neg (Nat.not_lt.mpr h)]; rfl)
    · exact traps_trap ht (by rw [exec_mtsReplaycnt hg, if_pos h]; rfl)

end
